-- ==== Sys2Proof/Word.lean ====
section
/-! DEFINITION. The word types of the block and their plainest arithmetic. -/

namespace Sys2Proof

/-- One byte of memory, scratchpad or a host transfer. -/
abbrev Byte := BitVec 8

/-- One register, ring or read-back word. -/
abbrev Word := BitVec 32

/-- A 64-bit host quantity: a host address, a tag, a seed. -/
abbrev DWord := BitVec 64

end Sys2Proof
end

