-- ==== Sys2Proof/Syntax.lean ====
section
/-! DEFINITION. The commands of the block: one constructor of Instr per row of the table of operations and events, with
the operands that the outside world or the acting unit names, and the plain data that the operands carry. -/

namespace Sys2Proof

/-- The host ports (R48): A on N0, B on N1. -/
inductive Port where
  | a | b
  deriving DecidableEq, Repr

/-- The port that is not this one. -/
def Port.other : Port → Port
  | .a => .b
  | .b => .a

/-- Cluster c of die d (R49). -/
structure ClusterId where
  die : Fin 4
  cl : Fin 16
  deriving DecidableEq, Repr

/-- Core k of cluster c of die d (R49). -/
structure CoreId where
  die : Fin 4
  cl : Fin 16
  core : Fin 16
  deriving DecidableEq, Repr

/-- The cluster of a core. -/
def CoreId.cluster (c : CoreId) : ClusterId := ⟨c.die, c.cl⟩

/-- die × 16 + cluster, the number that TKG and SG use (R230, R270). -/
def ClusterId.num (c : ClusterId) : Nat := c.die.val * 16 + c.cl.val

/-- die × 256 + cluster × 16 + core, the number that WIN_OUT uses (12, WIN_OUT). -/
def CoreId.num (c : CoreId) : Nat := c.die.val * 256 + c.cl.val * 16 + c.core.val

/-- The cluster of a number below 64. -/
def ClusterId.ofNum (n : Nat) : ClusterId := ⟨Fin.ofNat 4 (n / 16), Fin.ofNat 16 n⟩

/-- The core of a number below 1,024. -/
def CoreId.ofNum (n : Nat) : CoreId := ⟨Fin.ofNat 4 (n / 256), Fin.ofNat 16 (n / 16), Fin.ofNat 16 n⟩

/-- The four rings of the owner's host memory (R622), by index r. -/
inductive HostRing where
  | admission | result | event | command
  deriving DecidableEq, Repr

/-- What resets a port (R649). -/
inductive ResetKind where
  | hot | linkDown | perst | flr
  deriving DecidableEq, Repr

/-- A function that can be gated (R780): a cluster, by die × 16 + cluster, or a link port. -/
inductive Gateable where
  | cluster (n : Fin 64)
  | link (p : Fin 8)
  deriving DecidableEq, Repr

/-- A scratchpad region (R350). -/
inductive Region where
  | core (c : CoreId)
  | cluster (c : ClusterId)
  deriving DecidableEq, Repr

/-- The answer to a read that the device makes of host memory. -/
inductive HostRead where
  | bytes (l : List Byte)
  | failed
  deriving DecidableEq, Repr

/-- A component of a firmware slot (R701); digestOk says whether its bytes match DIGEST. -/
structure FwComponent where
  kind : BitVec 8
  index : BitVec 8
  offset : Word
  length : Word
  cver : Word
  digestOk : Bool
  deriving DecidableEq, Repr

/-- A firmware image (R700, R701). The verdicts of digest and signature checks are facts of its bytes and stand as such. -/
structure FwImage where
  magic : BitVec 16
  format : BitVec 16
  variant : BitVec 8
  count : BitVec 8
  setFmt : BitVec 8
  prevSetFmt : BitVec 8
  version : DWord
  svn : Word
  floor : Word
  components : List FwComponent
  keyDigestOk : Bool
  signatureOk : Bool
  manifestDigest : BitVec 512
  bytes : Nat
  deriving DecidableEq, Repr

/-- A producer of a ring in the script's ring table (R375, R507). -/
inductive Producer where
  | core (n : Nat)
  | mergeTree (cluster : Nat)
  | dieDma (die : Nat)
  | hostDma
  | linkPort (p : Nat)
  | gate (window : Nat)
  deriving DecidableEq, Repr

/-- One ring of the script's ring table: ring q of a core (R366, R375, R402). -/
structure RingCfg where
  core : CoreId
  q : Fin 16
  base : BitVec 15
  loc : Bool
  sizeM1 : BitVec 15
  esize : BitVec 12
  cons : BitVec 2
  spec : Bool
  wings : Bool
  discard : Bool
  en : Bool
  nprodM1 : BitVec 4
  producers : List Producer
  deriving DecidableEq, Repr

/-- One copy of a layer descriptor in a cluster scratchpad (R461, R465), with the cores that bind it. -/
structure LayerCopy where
  addr : BitVec 44
  desc : BitVec 2048
  cores : List CoreId
  consumers : List Nat
  deriving DecidableEq, Repr

/-- A barrier set of the script (R426). -/
structure BarrierCfg where
  id : Fin 16
  members : List CoreId
  deriving DecidableEq, Repr

/-- A link port's configuration (LNK_CFG). -/
structure LinkCfg where
  port : Fin 8
  en : Bool
  role : BitVec 3
  lanes : BitVec 4
  peerId : BitVec 8
  deriving DecidableEq, Repr

/-- A remote handle's configuration (WIN_RH_CFG). -/
structure HandleCfg where
  h : Fin 64
  dest : BitVec 8
  window : BitVec 6
  port : BitVec 3
  cls : BitVec 2
  deriving DecidableEq, Repr

/-- A window that the configuration opens (R584, R600). -/
structure WindowCfg where
  w : Fin 64
  gate : Bool
  base : BitVec 44
  size : Nat
  src : Word
  deriving DecidableEq, Repr

/-- An outbound table entry (WIN_OUT). -/
structure OutCfg where
  r : Fin 256
  word0 : Word
  word1 : Word
  deriving DecidableEq, Repr

/-- One die's KV configuration (KV_CFG, KV_POLICY, KV_PT and the page ranges of R533, in 64 KiB pages). -/
structure KvCfg where
  lsh : BitVec 6
  kvbLog : BitVec 5
  slots : BitVec 9
  nld : BitVec 6
  hot : BitVec 24
  spill : BitVec 8
  pt : Word
  fastFirst : Nat
  fastPages : Nat
  deepFirst : Nat
  deepPages : Nat
  deriving DecidableEq, Repr

/-- The body of a configuration image: everything that the manual says the configuration sets. The manual gives the
body no byte layout, so it is structured data (log 8). -/
structure CfgBody where
  src : BitVec 2
  cpos : BitVec 4
  clenM1 : BitVec 4
  period : BitVec 27
  tickMax : BitVec 28
  proven : Word
  pfa : BitVec 16
  proofPfa : Bool
  proofCurtain : Bool
  proofSpill : Bool
  defOwner : Port
  pins : List (Nat × BitVec 4)
  timers : List (Nat × BitVec 4)
  kv : List KvCfg
  layers : List LayerCopy
  programs : List (CoreId × List DWord)
  rings : List RingCfg
  barriers : List BarrierCfg
  svuRings : List (Nat × CoreId × Fin 16)
  tilePlaces : List (Nat × Nat × List CoreId)
  invSlots : List (Nat × List Nat)
  weightRanges : List (Nat × Nat)
  streamed : List (CoreId × Nat × Nat)
  usedClusters : List Nat
  streamIn : Nat
  streamOut : Nat
  tableFmts : List (Nat × List Nat)
  linkId : BitVec 8
  links : List LinkCfg
  routes : List (Nat × BitVec 4)
  outs : List OutCfg
  handles : List HandleCfg
  windows : List WindowCfg
  spareSrc : Word
  paired : Bool
  side : Bool
  auto : Bool
  sync : Bool
  stageBase : BitVec 44
  stagePages : Word
  mirrorBound : Nat
  rehEn : Bool
  rehStats : Bool
  rehUpload : Bool
  rehStest : Bool
  rehBase : Word
  rehSize : Word
  rehMask : BitVec 10
  rehPost : BitVec 8
  rehPeer : Word
  rehBounds : List (Nat × Word)
  exqBytes : List (Nat × Nat)
  deriving DecidableEq, Repr

/-- A configuration image (R704): its header, with the verdicts of its digest and signature, and its body. -/
structure CfgImage where
  magic : BitVec 16
  variant : BitVec 8
  ownerSigned : Bool
  length : Word
  minFw : DWord
  bodyDigOk : Bool
  bodyDig : BitVec 512
  layerDig : BitVec 512
  ownerSigOk : Bool
  body : CfgBody
  deriving DecidableEq, Repr

/-- The result of training one stack (R551, R552). -/
structure StackTrain where
  stack : Fin 16
  fastFail : BitVec 8
  deepFail : BitVec 8
  laneMarks : List (Nat × Nat)
  ms : BitVec 8
  deriving DecidableEq, Repr

/-- What training a link port finds at its peer (R565, R566). -/
structure LinkTrain where
  port : Fin 8
  answered : Bool
  peerSeen : BitVec 8
  peerRole : BitVec 3
  lanesBad : BitVec 8
  deriving DecidableEq, Repr

/-- What the outside and the analogue parts decide during a start-up (R695): the PUF, the references, the training
results and the outcome of the start-up self-test. A stack or port not listed trains without fault or hears no peer. -/
structure BootEnv where
  pufOk : Bool
  refA : Bool
  refB : Bool
  stkRes : List StackTrain
  links : List LinkTrain
  selfTestFail : Option (BitVec 4 × BitVec 16)
  deriving DecidableEq, Repr

/-- The link-layer header of the flits that carry one entry or message (R568, R569); cls is CLASS. -/
structure FlitHdr where
  seq : BitVec 12
  flits : Nat
  dst : BitVec 8
  src : BitVec 8
  checkOk : Bool
  ack : Option (BitVec 12)
  credit : Word
  cls : Fin 4
  deriving DecidableEq, Repr

/-- One slot record of a step message (R495). -/
structure SlotRec where
  slot : Fin 256
  first : Bool
  lastChunk : Bool
  stream : Bool
  positions : BitVec 16
  step : Word
  token : Word
  deriving DecidableEq, Repr

/-- A step message (R495); checkOk says whether its CHECK holds. -/
structure StepMsg where
  tick : DWord
  group : BitVec 8
  sender : BitVec 8
  clen : BitVec 8
  stepM : BitVec 256
  failM : BitVec 256
  freeM : BitVec 256
  records : List SlotRec
  checkOk : Bool
  deriving DecidableEq, Repr

/-- A ring entry on a link (R568, R577): destination POS and Q, whether framed kind is carried, and the body. -/
structure LinkEntry where
  pos : BitVec 16
  q : Fin 16
  kind : BitVec 4
  body : List Byte
  deriving DecidableEq, Repr

/-- A WWRITE flit's payload (R568, R592). -/
structure WinWrite where
  window : Fin 64
  ringForm : Bool
  epoch : BitVec 16
  offset : BitVec 64
  data : List Byte
  entry : LinkEntry
  deriving DecidableEq, Repr

/-- The HELLO message (R663). -/
structure HelloMsg where
  side : Bool
  variant : BitVec 8
  cpos : BitVec 8
  clen : BitVec 8
  tick : DWord
  period : Word
  tickMax : Word
  layerDig : BitVec 512
  deriving DecidableEq, Repr

/-- A slot's contents in a mirror (R664): its committed pointers and registers, and its bindings. -/
structure MirrorSlot where
  slot : Fin 128
  state : BitVec 3
  kind : Bool
  step : Word
  kvLen : Word
  promptLeft : Word
  lastToken : Word
  tick : Word
  entry : List Byte
  kv : List (Nat × List Byte)
  buffers : List (Nat × List Byte)
  deriving DecidableEq, Repr

/-- What one slot's step of a tick gave: its sampled token, or its frame output (log 9). -/
structure StepResult where
  slot : Fin 256
  token : Word
  frame : List Byte
  deriving DecidableEq, Repr

/-- The commands: one constructor per row of the table of operations and events, in the table's order. A sequencer's
row names its core: the sequencer issues the instruction at its PC (log 10). Times `at` are in ns. -/
inductive Instr where
  -- supplies, thermal, pins
  | powerGood (env : BootEnv)
  | supplyLoss (mv10 : BitVec 16)
  | supplyRange (mv10 : BitVec 16)
  | junctionSample (tj : BitVec 32) (tjIo : BitVec 32)
  | tripRelease
  | powerSample (watts10 : BitVec 16) (mv10 : BitVec 16) (auxMv : BitVec 16)
  | pwrHold (level : Bool)
  | motion (level : Bool)
  | pwrBrake (pin : Fin 4)
  | clkHoldover
  | tickInEdge (at_ : Nat) (highNs : Nat) (lowNs : Nat)
  | rehTrigPin (pin : Fin 4)
  | portReset (p : Port) (kind : ResetKind)
  | d3hotEntry (p : Port)
  | d0Return (p : Port)
  | configRequest (p : Port) (off : BitVec 12) (wr : Option Word)
  | smbState
  | smbTj
  | smbInputPower
  | smbVin
  | smbVariant
  | smbLastEvent
  | smbAlertResponse
  | bypass
  | idcode
  | samplePreload
  | extest
  | clamp
  | highz
  | regrd (off : BitVec 32)
  | tapReset
  -- update and identity
  | stageFw (p : Port) (img : FwImage)
  | stageCfg (p : Port) (img : CfgImage)
  | updStaged (readOk : Bool)
  | activate (p : Port) (fw : Bool) (cfg : Bool)
  | confirm (p : Port)
  | restart (p : Port) (env : BootEnv)
  | saveSettings (p : Port)
  | abort (p : Port)
  | cert (p : Port)
  | attest (p : Port)
  | challenge (p : Port)
  | token (p : Port) (len : BitVec 16)
  | enroll (p : Port) (len : BitVec 16)
  | lock (p : Port)
  -- host accesses
  | registerWrite (p : Port) (bar2 : Bool) (off : BitVec 28) (v : Word)
  | bar0AccessRefused (p : Port) (off : BitVec 28) (size : Nat) (isWrite : Bool)
  | bar4Read (p : Port) (off : BitVec 41) (len : Nat)
  | bar4Write (p : Port) (off : BitVec 41) (data : List Byte)
  | dbAdmTail (p : Port) (v : Word)
  | dbCmdTail (p : Port) (v : Word)
  | dbResHead (p : Port) (v : Word)
  | dbEvtHead (p : Port) (v : Word)
  | hostRingBase (p : Port) (r : HostRing) (hi : Bool) (v : Word)
  | hostRingCfg (p : Port) (r : HostRing) (v : Word)
  | hostHeartbeat (p : Port) (v : Word)
  | hbAgeAdvance
  | offer (p : Port) (v : Bool)
  | claim (p : Port) (v : Bool)
  | ownerChange
  | admitEntry (e : List Byte)
  | cancelEntry (e : List Byte)
  | inputEntry (e : List Byte) (body : List Byte)
  | bindEntry (e : List Byte)
  | ringRead (cmdRing : Bool)
  | inputBodyFail (e : List Byte)
  | cmdNop (e : List Byte)
  | load (e : List Byte) (data : HostRead)
  | store (e : List Byte)
  | fill (e : List Byte)
  | digest (e : List Byte)
  | cmdDone
  | resultWrite
  | eventWrite
  | msixPending (p : Port) (vec : Fin 64)
  | park (p : Port)
  | wake (p : Port)
  | gateRequest (p : Port) (word : Fin 3) (v : Word)
  | gateStartDone (f : Gateable)
  | gateStopDone (f : Gateable)
  -- ticks
  | timerCue (at_ : Nat)
  | cue (lp : Fin 8) (h : FlitHdr) (bypass : Bool) (tick : DWord) (period : Word) (tickMax : Word) (at_ : Nat)
  | cueRelease (at_ : Nat)
  | curtain (at_ : Nat) (results : List StepResult)
  | statusMessage (lp : Fin 8) (h : FlitHdr) (m : StepMsg)
  | curtainMessage (lp : Fin 8) (h : FlitHdr) (m : StepMsg)
  | chainTimeout (at_ : Nat)
  | tickMaxExpiry (at_ : Nat)
  | tickPeriod (p : Port) (v : Word)
  | tickMax (p : Port) (v : Word)
  -- precision
  | packageReduction (ord : BitVec 16)
  | verdict (ord : BitVec 16)
  | squashResume
  | epochConfirm (c : CoreId) (e : BitVec 16)
  | clrSticky (p : Port) (v : Word)
  | supplyLower (c : ClusterId)
  | supplyRaise (c : ClusterId)
  -- sequencer
  | nop (c : CoreId)
  | seqEnd (c : CoreId)
  | jmp (c : CoreId)
  | br (c : CoreId)
  | loop (c : CoreId)
  | ldi (c : CoreId)
  | alu (c : CoreId)
  | lds (c : CoreId)
  | sts (c : CoreId)
  | tld (c : CoreId)
  | tadd (c : CoreId)
  | lyr (c : CoreId)
  | twait (c : CoreId)
  | bar (c : CoreId)
  | barrierComplete (c : CoreId) (id : Fin 16)
  | epoch (c : CoreId)
  | fence (c : CoreId)
  | seqIllegal (c : CoreId)
  | seqImemParity (c : CoreId)
  | bld (c : CoreId)
  | bankLoadDone (c : CoreId)
  | dma (c : CoreId)
  | dmaDone (c : CoreId) (die : Bool)
  | nrd (c : CoreId)
  | nwr (c : CoreId)
  | push (c : CoreId)
  | pop (c : CoreId)
  | pushResume (c : CoreId)
  | consumerResume (c : CoreId)
  | sbRetire (c : CoreId) (entry : Fin 16)
  | mbp (c : CoreId)
  | mxn (c : CoreId)
  | msh1 (c : CoreId)
  | msh2 (c : CoreId)
  | mb24 (c : CoreId)
  | msp (c : CoreId)
  -- engine
  | planeFill (c : CoreId) (e : Fin 16)
  | rowsumStep (c : CoreId) (e : Fin 16)
  | passStart (c : CoreId) (e : Fin 16)
  | groupSumHandoff (c : CoreId) (e : Fin 16)
  | chainLinkAdd (c : CoreId) (e : Fin 16)
  | probe (c : CoreId)
  | makeUp (c : CoreId)
  | usSample (c : CoreId)
  | deltaCheck (c : CoreId)
  -- output edge
  | drain (c : CoreId)
  | drainPass1 (c : CoreId)
  | drainPass2 (c : CoreId)
  | xport (c : CoreId)
  | imprt (c : CoreId)
  | stat (c : CoreId)
  | svq (c : CoreId)
  | svuGate (c : ClusterId)
  | svuAdd (c : ClusterId)
  | svuMul (c : ClusterId)
  | rmsn (c : ClusterId)
  | lnrm (c : ClusterId)
  | smax (c : ClusterId)
  | prot (c : ClusterId)
  | cvt (c : ClusterId)
  | conv (c : ClusterId)
  | samp (c : ClusterId)
  | topkv (c : CoreId)
  | topkMerge (c : ClusterId)
  | scat (c : CoreId)
  | scatterMerge (c : ClusterId)
  | seed (c : CoreId)
  -- scratchpad and read-back
  | ringBase (p : Port) (c : CoreId) (q : Fin 16) (v : Word)
  | ringSize (p : Port) (c : CoreId) (q : Fin 16) (v : Word)
  | ringCfg (p : Port) (c : CoreId) (q : Fin 16) (v : Word)
  | spmScrub (p : Port) (c : ClusterId) (v : Word)
  | scrubDone (r : Region)
  | spmPatrolRead (r : Region)
  | engRbAddr (p : Port) (c : CoreId) (e : Fin 17) (v : Word)
  | seqRbAddr (p : Port) (c : CoreId) (v : Word)
  | spmIdx (p : Port) (c : ClusterId) (v : Word)
  | stkLidx (p : Port) (k : Fin 16) (v : Word)
  | slotPidx (p : Port) (v : Word)
  | twinMidx (p : Port) (v : Word)
  -- stacks
  | stkRefresh (k : Fin 16) (temp : BitVec 8)
  | stkPatrolRead (k : Fin 16)
  | spareCopyDone (k : Fin 16)
  | spillCopyDone (d : Fin 4)
  | kvFree (d : Fin 4)
  | refetchTimeout (at_ : Nat)
  -- links and windows
  | ringEntry (lp : Fin 8) (h : FlitHdr) (e : LinkEntry)
  | wwrite (lp : Fin 8) (h : FlitHdr) (w : WinWrite)
  | replay (lp : Fin 8) (seq : BitVec 12)
  | linkSilent (lp : Fin 8)
  | linkRetrain (lp : Fin 8)
  | linkUp (t : LinkTrain)
  | laneDegrade (lp : Fin 8) (lane : Fin 8)
  | outboundSend (lp : Fin 8)
  | wopen (lp : Fin 8) (h : FlitHdr) (window : Fin 64) (gate : Bool) (epoch : BitVec 16) (size : DWord)
  | wclosed (lp : Fin 8) (h : FlitHdr) (window : Fin 64) (epoch : BitVec 16)
  | wnak (lp : Fin 8) (h : FlitHdr) (window : Fin 64) (reason : BitVec 3) (epoch : BitVec 16)
  | wfence (lp : Fin 8) (h : FlitHdr) (window : Fin 64) (epoch : BitVec 16)
  | wack (lp : Fin 8) (h : FlitHdr) (window : Fin 64) (epoch : BitVec 16) (flits : Word)
  | winOpen (p : Port) (w : Fin 64) (gate : Bool)
  | winClose (p : Port) (w : Fin 64) (gate : Bool)
  | winCloseDone (w : Fin 64)
  -- twin
  | helloSend (lp : Fin 8)
  | hello (lp : Fin 8) (h : FlitHdr) (m : HelloMsg)
  | heartbeat (lp : Fin 8) (h : FlitHdr) (adopted : Bool) (tick : DWord) (applied : DWord)
  | mirrorCommit (lp : Fin 8) (h : FlitHdr) (tick : DWord) (bytes : DWord) (slots : List MirrorSlot) (freed : BitVec 256)
  | mirrorApplyDone
  | mirrorApplied (lp : Fin 8) (h : FlitHdr) (tick : DWord)
  | adopt (p : Port) (v : Word)
  | refetchRequest (lp : Fin 8) (h : FlitHdr) (epoch : BitVec 16) (addr : BitVec 44) (len : Word)
  | refetchDone (lp : Fin 8) (h : FlitHdr) (addr : BitVec 44)
  | refetchFail (lp : Fin 8) (h : FlitHdr) (reason : BitVec 8) (addr : BitVec 44)
  -- rehearsal, errors, self-test
  | trigger (p : Port) (check : Bool)
  | rehSpill
  | rehSpilled
  | readout (p : Port) (check : Bool)
  | readoutDone
  | rehReplay (p : Port) (check : Bool)
  | replayDone
  | errFirstClr (p : Port) (v : Word)
  | injArm (p : Port) (v : Word)
  | injDisarm (p : Port) (v : Word)
  | stRun (p : Port) (v : Word)
  | stDone (fail : Option (BitVec 4 × BitVec 16))
  | referenceRestored
  | mailboxDone (p : Port)
  | cuePulseEnd
  | pwrBrakeRelease (pin : Fin 4)
  | idleFlit (lp : Fin 8) (h : FlitHdr)
  | eventVectorSend
  deriving DecidableEq, Repr

end Sys2Proof
end

