-- ==== Sys2Proof/Decode.lean ====
section
/-! DEFINITION. The table's rows give no bits: a command is not spelt by a word, so no word spells one. -/

namespace Sys2Proof

/-- The command that a word spells by the table's bits. No row of the table of operations and events gives bits (each
row's fields are empty), so every word spells none. -/
def decodeTableWord (_nbits _w : Nat) : Option Instr := none

end Sys2Proof
end

