-- ==== Sys2Proof/Machine/Bits.lean ====
section
/-! DEFINITION. Bit fields, little-endian bytes, sign extension and the CRC-32 of R157: the helpers that every layout
of the manual is read with. -/

namespace Sys2Proof.Machine

/-- Bits [hi:lo] of a number. -/
def field (v hi lo : Nat) : Nat := v / 2 ^ lo % 2 ^ (hi + 1 - lo)

/-- Bit i of a number. -/
def bitOf (v i : Nat) : Bool := v / 2 ^ i % 2 == 1

/-- A truth value as a bit at place i. -/
def bitAt (b : Bool) (i : Nat) : Nat := if b then 2 ^ i else 0

/-- The word whose value is a number modulo 2^32. -/
def word (n : Nat) : Word := BitVec.ofNat 32 n

/-- A counter that wraps at 2^32 (R126, R519, R653 and the like). -/
def bump (w : Word) (n : Nat := 1) : Word := w + BitVec.ofNat 32 n

/-- A two's complement field of n bits as an integer. -/
def signed (n v : Nat) : Int := if v % 2 ^ n < 2 ^ (n - 1) then (v % 2 ^ n : Nat) else (v % 2 ^ n : Nat) - (2 ^ n : Nat)

/-- An integer as a two's complement field of n bits. -/
def unsigned (n : Nat) (v : Int) : Nat := (v % (2 ^ n : Nat)).toNat

/-- The value of little-endian bytes (the byte order of 00_scope, "Numbers, bits and units"). -/
def leNat : List Byte → Nat
  | [] => 0
  | b :: t => b.toNat + 256 * leNat t

/-- The n little-endian bytes of a number. -/
def leBytes : Nat → Nat → List Byte
  | 0, _ => []
  | n + 1, v => BitVec.ofNat 8 v :: leBytes n (v / 256)

/-- The number in bytes off … off + n − 1 of a layout. -/
def leAt (l : List Byte) (off n : Nat) : Nat := leNat ((l.drop off).take n)

/-- Byte i of a layout. -/
def byteAt (l : List Byte) (i : Nat) : Nat := (l.getD i 0).toNat

/-- The little-endian 32-bit words of bytes, n of them. -/
def leWords : Nat → List Byte → List Word
  | 0, _ => []
  | n + 1, l => word (leNat (l.take 4)) :: leWords n (l.drop 4)

/-- The 32-bit words of a wide value, n of them, lowest first. -/
def splitWords : Nat → Nat → List Word
  | 0, _ => []
  | n + 1, v => word v :: splitWords n (v / 2 ^ 32)

/-- Groups of n of a list, at most m groups. -/
def chunks {α : Type} (n : Nat) : Nat → List α → List (List α)
  | 0, _ => []
  | m + 1, l => l.take n :: chunks n m (l.drop n)

/-- Eight shifts of the reflected CRC-32 register of IEEE 802.3, polynomial 0xEDB8_8320. -/
def crcShift : Nat → Nat → Nat
  | 0, c => c
  | n + 1, c => crcShift n (if c % 2 = 1 then (c / 2) ^^^ 0xEDB88320 else c / 2)

/-- The CRC register after bytes. -/
def crcFold (c : Nat) : List Byte → Nat
  | [] => c
  | b :: t => crcFold (crcShift 8 (c ^^^ b.toNat)) t

/-- CRC-32 with the polynomial and bit order of IEEE 802.3 (R157). -/
def crc32 (l : List Byte) : Nat := crcFold 0xFFFFFFFF l ^^^ 0xFFFFFFFF

/-- An entry of the host's rings whose CHECK in bytes 60–63 holds (R632, R644). -/
def entryCheckOk (e : List Byte) : Bool := decide (leAt e 60 4 = crc32 (e.take 60))

/-- A slot mask as numbers. -/
def maskList (m : BitVec 256) : List Nat := (List.range 256).filter (fun i => m.getLsbD i)

/-- A mask with bit i set. -/
def maskSet (m : BitVec 256) (i : Nat) : BitVec 256 := m ||| (BitVec.ofNat 256 (2 ^ (i % 256)))

/-- A mask with bit i clear. -/
def maskClear (m : BitVec 256) (i : Nat) : BitVec 256 := m &&& ~~~(BitVec.ofNat 256 (2 ^ (i % 256)))

/-- A mask from numbers. -/
def maskOf (l : List Nat) : BitVec 256 := l.foldl maskSet 0

end Sys2Proof.Machine
end

