-- ==== Sys2Proof/Machine/Fp.lean ====
section
/-! DEFINITION. FP32 arithmetic under R183: binary32, round to nearest even, subnormals kept, every NaN result
0x7FC0_0000; and BF16 as its upper half. Operations are computed exactly and rounded once. -/

namespace Sys2Proof.Machine

/-- An FP32 value: NaN, an infinity, or ± m × 2^e. -/
inductive Fp where
  | nan
  | inf (neg : Bool)
  | fin (neg : Bool) (m : Nat) (e : Int)
  deriving DecidableEq, Repr

/-- The only NaN that an operation returns (R183). -/
def fpNan : Word := 0x7FC00000

/-- The infinity of a sign. -/
def fpInf (neg : Bool) : Word := if neg then 0xFF800000 else 0x7F800000

/-- The zero of a sign. -/
def fpZero (neg : Bool) : Word := if neg then 0x80000000 else 0

/-- The value of FP32 bits. -/
def fpOf (w : Word) : Fp :=
  let s := w.getLsbD 31
  let x := field w.toNat 30 23
  let f := field w.toNat 22 0
  if x = 255 then (if f = 0 then .inf s else .nan)
  else if x = 0 then .fin s f (-149)
  else .fin s (2 ^ 23 + f) ((x : Int) - 150)

/-- n/d rounded to nearest, ties to even; d > 0. -/
def rneDiv (n d : Nat) : Nat :=
  let q := n / d
  let r := n % d
  if 2 * r < d then q else if d < 2 * r then q + 1 else if q % 2 = 0 then q else q + 1

/-- 2^k as a factor of a numerator or a denominator. -/
def scaleNum (n : Nat) (k : Int) : Nat := n * 2 ^ k.toNat

/-- floor(log2(n/d)) for positive n and d. -/
def floorLog2 (n d : Nat) : Int :=
  let k : Int := (Nat.log2 n : Int) - (Nat.log2 d : Int)
  if scaleNum n (-k) < scaleNum d k then k - 1 else k

/-- ± n/d × 2^e rounded to FP32 (R183). -/
def fpRound (neg : Bool) (n d : Nat) (e : Int) : Word :=
  if n = 0 ∨ d = 0 then fpZero neg
  else
    let q := max (floorLog2 n d + e - 23) (-149)
    let bits := (q + 149).toNat * 2 ^ 23 + rneDiv (scaleNum n (e - q)) (scaleNum d (q - e))
    if bits ≥ 0x7F800000 then fpInf neg else word (bits + if neg then 2 ^ 31 else 0)

/-- An integer times 2^e, rounded to FP32. -/
def fpOfInt (v : Int) (e : Int) : Word := fpRound (decide (v < 0)) v.natAbs 1 e

/-- Signed mantissa at a common exponent. -/
def fpMant (neg : Bool) (m : Nat) (e lo : Int) : Int :=
  let v : Int := (scaleNum m (e - lo) : Nat)
  if neg then -v else v

/-- FP32 sum. -/
def fpAdd (a b : Word) : Word :=
  match fpOf a, fpOf b with
  | .nan, _ => fpNan
  | _, .nan => fpNan
  | .inf s, .inf t => if s = t then fpInf s else fpNan
  | .inf s, _ => fpInf s
  | _, .inf t => fpInf t
  | .fin s m e, .fin t n f =>
    let lo := min e f
    let v := fpMant s m e lo + fpMant t n f lo
    if v = 0 then fpZero (s && t) else fpOfInt v lo

/-- FP32 negation. -/
def fpNeg (a : Word) : Word := if fpOf a = .nan then fpNan else a ^^^ 0x80000000

/-- FP32 difference. -/
def fpSub (a b : Word) : Word := if fpOf b = .nan then fpNan else fpAdd a (b ^^^ 0x80000000)

/-- FP32 product. -/
def fpMul (a b : Word) : Word :=
  match fpOf a, fpOf b with
  | .nan, _ => fpNan
  | _, .nan => fpNan
  | .inf s, .inf t => fpInf (s != t)
  | .inf s, .fin t n _ => if n = 0 then fpNan else fpInf (s != t)
  | .fin s m _, .inf t => if m = 0 then fpNan else fpInf (s != t)
  | .fin s m e, .fin t n f => fpRound (s != t) (m * n) 1 (e + f)

/-- FP32 quotient. -/
def fpDiv (a b : Word) : Word :=
  match fpOf a, fpOf b with
  | .nan, _ => fpNan
  | _, .nan => fpNan
  | .inf _, .inf _ => fpNan
  | .inf s, .fin t _ _ => fpInf (s != t)
  | .fin s _ _, .inf t => fpZero (s != t)
  | .fin s m e, .fin t n f =>
    if n = 0 then (if m = 0 then fpNan else fpInf (s != t)) else fpRound (s != t) m n (e - f)

/-- Integer square root by bits from 2^k down. -/
def isqrtFrom (v : Nat) : Nat → Nat → Nat
  | 0, r => r
  | k + 1, r => let t := r + 2 ^ k; isqrtFrom v k (if t * t ≤ v then t else r)

/-- floor(sqrt v). -/
def isqrt (v : Nat) : Nat := isqrtFrom v (Nat.log2 v / 2 + 1) 0

/-- FP32 square root. -/
def fpSqrt (a : Word) : Word :=
  match fpOf a with
  | .nan => fpNan
  | .inf s => if s then fpNan else fpInf false
  | .fin s m e =>
    if m = 0 then fpZero s else if s then fpNan
    else
      let k : Nat := if e % 2 = 0 then 52 else 53
      let v := m * 2 ^ k
      let r := isqrt v
      let sticky := if r * r = v then 0 else 1
      fpRound false (2 * r + sticky) 1 ((e - (k : Int)) / 2 - 1)

/-- Multiplication by 2^e, exact within the format (R166). -/
def fpScale (a : Word) (k : Int) : Word :=
  match fpOf a with
  | .nan => fpNan
  | .inf s => fpInf s
  | .fin s m e => fpRound s m 1 (e + k)

/-- The magnitude. -/
def fpAbs (a : Word) : Word := a &&& 0x7FFFFFFF

/-- A NaN's bits. -/
def fpIsNan (a : Word) : Bool := decide (fpOf a = .nan)

/-- Neither NaN nor an infinity. -/
def fpFinite (a : Word) : Bool := match fpOf a with | .fin _ _ _ => true | _ => false

/-- A key that orders finite values and infinities as reals (both zeros equal). -/
def fpKey (a : Word) : Int := if a.getLsbD 31 then -((fpAbs a).toNat : Int) else (a.toNat : Int)

/-- a < b as reals; false with a NaN. -/
def fpLt (a b : Word) : Bool := !fpIsNan a && !fpIsNan b && decide (fpKey a < fpKey b)

/-- a ≤ b as reals; false with a NaN. -/
def fpLe (a b : Word) : Bool := !fpIsNan a && !fpIsNan b && decide (fpKey a ≤ fpKey b)

/-- The larger of two values. -/
def fpMax (a b : Word) : Word := if fpLt a b then b else a

/-- floor of n/d × 2^e with sign, as an integer. -/
def ratFloor (neg : Bool) (n d : Nat) : Int := if neg then -(((n + d - 1) / d : Nat) : Int) else ((n / d : Nat) : Int)

/-- floor of a finite value; 0 for others. -/
def fpFloor (a : Word) : Int :=
  match fpOf a with
  | .fin s m e => ratFloor s (scaleNum m e) (scaleNum 1 (-e))
  | _ => 0

/-- A finite value rounded to the nearest integer, ties to even; 0 for others. -/
def fpRne (a : Word) : Int :=
  match fpOf a with
  | .fin s m e => let q : Int := (rneDiv (scaleNum m e) (scaleNum 1 (-e)) : Nat); if s then -q else q
  | _ => 0

/-- The fraction a − floor(a) truncated to 16 bits (R168). -/
def fpFrac16 (a : Word) : Nat :=
  match fpOf a with
  | .fin s m e =>
    let v := fpMant s m e (min e (-16))
    let u : Int := (2 ^ (-(min e (-16))).toNat : Nat)
    ((v % u) * 65536 / u).toNat
  | _ => 0

/-- ceil(log2 v) of a positive finite value, from its bits (07, R299). -/
def fpCeilLog2 (a : Word) : Int :=
  match fpOf a with
  | .fin _ m e => let k : Int := (Nat.log2 m : Int); if m = 2 ^ Nat.log2 m then k + e else k + e + 1
  | _ => 0

/-- FP32 narrowed to BF16, nearest even (R183). -/
def bf16Of (a : Word) : BitVec 16 :=
  if fpIsNan a then 0x7FC0 else BitVec.ofNat 16 (rneDiv a.toNat 65536)

/-- BF16 widened to FP32. -/
def fpOfBf16 (h : BitVec 16) : Word := word (h.toNat * 65536)

/-- A sequential sum (R226, R449). -/
def fpSum : Word → List Word → Word
  | acc, [] => acc
  | acc, x :: t => fpSum (fpAdd acc x) t

/-- 1.0. -/
def fpOne : Word := 0x3F800000

end Sys2Proof.Machine
end

