-- ==== Sys2Proof/Config.lean ====
section
/-! DEFINITION. What the manual leaves open or to an algorithm it names without giving: uninterpreted constants,
so that nothing can be proved of their values. Each is named in the assumption log. -/

namespace Sys2Proof.Config

/-- A fresh undefined bit: the n-th value that the manual leaves open (log 3). -/
opaque freeBit : Nat → Bool

/-- A fresh undefined byte (log 3): target ranges of failed commands (R647). -/
opaque freeByte : Nat → Byte

/-- A fresh undefined word (log 3): a result code that the manual names without numbering it. -/
opaque freeWord : Nat → Word

/-- A fresh undefined 64-bit value (log 3): an event argument that no rule states. -/
opaque freeDWord : Nat → DWord

/-- The code that names the failed check of a token, by check: 0 DEVID, 1 challenge, 2 signature, 3 key digest (R727
names the checks and does not number them); log 19. -/
opaque tokenCheck : Nat → Word

/-- The bytes of a settings record with the given fields, whose layout no rule gives (R718, R729); log 20. -/
opaque settingsRecord : List Nat → List Byte

/-- The LID field of the key of token sampling, which no layer fills (R180, R182): a free value (log 60). -/
opaque sampleLid : BitVec 16

/-- The SVU's exp on FP32 bits: "one fixed algorithm, with an error below 2 ulp" (R449); log 4. -/
opaque expBits : Word → Word

/-- The error below 64 units of an over-scaled group sum's low six bits (R119, R120); log 5. -/
opaque overscaleError : Nat → BitVec 6

/-- The 64-byte identity seed that the PUF response and the helper data of this module give (R691); log 6. -/
opaque identitySeed : BitVec 512

/-- Falcon-1024 key generation from SHAKE256 randomness: the 1,793-byte public key (R692); log 6. -/
opaque falconPublic : BitVec 512 → List Byte

/-- Falcon-1024 signing with the device key of an identity seed (R729); log 6. -/
opaque falconSign : BitVec 512 → List Byte → List Byte

/-- Falcon-1024 verification of a signature over a message under a public key (R727); log 6. -/
opaque falconVerify : List Byte → List Byte → List Byte → Bool

/-- The device certificate that the vendor signed at manufacture (R694, R728); log 6. -/
opaque deviceCertificate : List Byte

/-- The 32-byte MAC key that the security engine derives (R694); log 6. -/
opaque macKey : List Byte

/-- A configuration-space word that the manual neither states nor leaves to the base specification (R603); log 17. -/
opaque configWord : Nat → Word

/-- The bank of a row of a stack channel, which R523 counts and no rule maps (log 14). -/
opaque bankOf : Bool → Nat → Nat

/-- The source code that a non-event trigger leaves in the low bits of its 0xFFFF_0000 code (R749, header); log 15. -/
opaque triggerSource : Nat → BitVec 16

/-- Silicon stepping, an assembly fact (R606, R761); log 7. -/
opaque stepping : BitVec 4

/-- The rate code and the width that a host port's link has trained to, as HOST_PORT [7:0] gives them (R603); log 78. -/
opaque hostLinkWidth : Bool → BitVec 8

/-- The result queue's capacity (R641). -/
def resultQueueDepth : Nat := 4096

/-- The event queue's capacity (R643). -/
def eventQueueDepth : Nat := 4096

end Sys2Proof.Config
end

