-- ==== Sys2Proof/Machine/Tab.lean ====
section
/-! DEFINITION. Sparse tables: plain lists of (key, value) pairs in one canonical form, keys strictly rising and no
entry equal to the value that an unlisted key reads as. Memory and every array of the state is one. -/

namespace Sys2Proof.Machine

/-- A sparse table from Nat keys; an unlisted key reads as the table's default. -/
abbrev Tab (β : Type) := List (Nat × β)

/-- The value at a key, the default where the key is not listed. -/
def Tab.get {β : Type} (d : β) : Tab β → Nat → β
  | [], _ => d
  | (k, v) :: t, i => if k = i then v else Tab.get d t i

/-- The table without an entry for the key. -/
def Tab.erase {β : Type} : Tab β → Nat → Tab β
  | [], _ => []
  | (k, v) :: t, i => if k = i then t else if i < k then (k, v) :: t else (k, v) :: Tab.erase t i

/-- The table with the key's entry put at its place, whatever the value. -/
def Tab.put {β : Type} : Tab β → Nat → β → Tab β
  | [], i, x => [(i, x)]
  | (k, v) :: t, i, x =>
    if k = i then (i, x) :: t else if i < k then (i, x) :: (k, v) :: t else (k, v) :: Tab.put t i x

/-- A write that keeps the canonical form: writing the default removes the entry. -/
def Tab.set {β : Type} [DecidableEq β] (d : β) (t : Tab β) (i : Nat) (x : β) : Tab β :=
  if x = d then Tab.erase t i else Tab.put t i x

/-- Changes the value at one key, kept listed: the form for arrays of units, whose tables need not be canonical. -/
def Tab.upd {β : Type} (d : β) (t : Tab β) (i : Nat) (f : β → β) : Tab β := Tab.put t i (f (Tab.get d t i))

/-- Every key of the table is at least `lo`, keys rise, no value is the default. -/
def Tab.wfFrom {β : Type} [DecidableEq β] (d : β) : Nat → Tab β → Bool
  | _, [] => true
  | lo, (k, v) :: t => decide (lo ≤ k) && decide (v ≠ d) && Tab.wfFrom d (k + 1) t

/-- The canonical form of a table. -/
def Tab.wf {β : Type} [DecidableEq β] (d : β) (t : Tab β) : Bool := Tab.wfFrom d 0 t

/-- A member of a plain list of keys, put in without repeats (a set of named things). -/
def addKey (l : List Nat) (k : Nat) : List Nat := if l.contains k then l else k :: l

/-- The set without a key. -/
def dropKey (l : List Nat) (k : Nat) : List Nat := l.filter (fun x => !(x == k))

/-- The first n elements of an option-making walk over keys: values at keys lo, lo + 1, …, lo + n − 1. -/
def Tab.range {β : Type} (d : β) (t : Tab β) (lo : Nat) : Nat → List β
  | 0 => []
  | n + 1 => Tab.get d t lo :: Tab.range d t (lo + 1) n

/-- Writes a list of values at consecutive keys. -/
def Tab.setRange {β : Type} [DecidableEq β] (d : β) (t : Tab β) (lo : Nat) : List β → Tab β
  | [] => t
  | x :: xs => Tab.setRange d (Tab.set d t lo x) (lo + 1) xs

/-- The table without its entries in [lo, lo + n): that range reads as the default. -/
def Tab.clearRange {β : Type} (t : Tab β) (lo n : Nat) : Tab β :=
  t.filter (fun e => !(decide (lo ≤ e.1) && decide (e.1 < lo + n)))

end Sys2Proof.Machine
end

