-- ==== Sys2Proof/Machine/State.lean ====
section
/-! DEFINITION. The state of the block as plain data: every register, queue, buffer, counter, mode and pin that the
manual gives it, the queue of waiting commands, and the reset state. Arrays of units are sparse tables whose unlisted
entries read as the unit's reset value. -/

namespace Sys2Proof.Machine

/-! ## GLB and clocks (00, 02) -/

/-- The device states of R6. -/
inductive DevState where
  | off | safe | boot | ready | run | park
  deriving DecidableEq, Repr

/-- GLB registers: variant straps, state, clocks (R1, R6, R57 to R61). -/
structure Glb where
  variant : BitVec 8
  st : DevState
  trial : Bool
  aclkStep : BitVec 2
  fclkLock : Bool
  cclkLock : Bool
  refSel : Bool
  holdover : Bool
  deriving DecidableEq, Repr

/-! ## Per-port registers -/

/-- An address register with the word and stamp that its write latches (R129, R467, R555). -/
structure Latch where
  addr : Word
  data : Word
  stamp : Word
  deriving DecidableEq, Repr

/-- SPM_IDX with its three data words and stamp (R403). -/
structure SpmLatch where
  idx : Word
  d0 : Word
  d1 : Word
  d2 : Word
  stamp : Word
  deriving DecidableEq, Repr

/-- SLOT_PIDX or TWIN_MIDX with six data words and a stamp (R684). -/
structure SlotLatch where
  idx : BitVec 8
  d : List Word
  stamp : Word
  deriving DecidableEq, Repr

/-- What a port holds of its own (R603, R609, R610, R649, R728): PCIe logic, apertures, doorbells, latches, mailbox. -/
structure PortSt where
  linkUp : Bool
  inReset : Bool
  d3hot : Bool
  command : BitVec 16
  bars : Tab Word
  msixTable : Tab Word
  msixEnable : Bool
  msixFnMask : Bool
  msixPend : BitVec 64
  apLo : Word
  apHi : Word
  apStamp : Word
  dbAdm : Word
  dbCmd : Word
  dbRes : Word
  dbEvt : Word
  precLidx : BitVec 10
  engRb : Tab Latch
  seqRb : Tab Latch
  stkL : Tab Latch
  spmIdx : Tab SpmLatch
  slotP : SlotLatch
  twinM : SlotLatch
  mbxCmd : Word
  mbxStatus : Word
  mbx : Tab Byte
  mbxRun : Option (Nat × List Byte)
  deriving DecidableEq, Repr

/-! ## Ticks and slots (10) -/

/-- A cue taken and not yet released (R473), with the tick number it carries and the time it was taken. -/
structure HeldCue where
  tick : DWord
  taken : Nat
  mismatch : Bool
  deriving DecidableEq, Repr

/-- The tick between its cue release and its curtain; with recording, the host inputs by slot and the inbound entries that it
found at its cue, and the clusters that ran at 0.48 V (R743). -/
structure RunTick where
  tick : DWord
  group : Nat
  released : Nat
  stepM : BitVec 256
  slotFail : BitVec 256
  upFail : BitVec 256
  freeM : BitVec 256
  records : List SlotRec
  wholeFault : Bool
  abandoned : Bool
  once : List Nat
  hostIn : List (Nat × List Byte)
  inbound : List (List Byte)
  osMask : BitVec 64
  deriving DecidableEq, Repr

/-- A step held pending between this device's curtain and the curtain message (R513). -/
structure PendStep where
  tick : DWord
  stepM : BitVec 256
  failM : BitVec 256
  records : List SlotRec
  deriving DecidableEq, Repr

/-- The tick controller (R471 to R519). `marks` are the ticks whose adopted inputs have landed (R675), `bondCue` those of
which one copy of a cue has reached N0 (R562), `holdFrom` the time from which a chain hold delays a cue (R515), `view` the
SLOT registers as at each slot's last confirmation (R502, R520). -/
structure TickSt where
  src : BitVec 2
  cpos : BitVec 4
  clenM1 : BitVec 4
  period : BitVec 27
  tickMax : BitVec 28
  pfa : BitVec 16
  proven : Word
  count : DWord
  nextNum : DWord
  anyCue : Bool
  held : List HeldCue
  holdFrom : Option Nat
  group : BitVec 4
  lastLen : Word
  abandoned : Word
  stepRb : Word
  slotRb : Word
  holdUs : Word
  chainTimeouts : Word
  slotLate : Word
  lastTaken : Option Nat
  lastRelease : Option Nat
  running : Option RunTick
  pend : Tab PendStep
  upstream : Tab StepMsg
  marks : List DWord
  bondCue : List DWord
  view : Tab (List Word)
  deriving DecidableEq, Repr

/-- The pointers of R500 that a confirmation moves. -/
structure SlotPtrs where
  step : Word
  kvLen : Word
  promptLeft : Word
  lastToken : Word
  deriving DecidableEq, Repr

/-- An INPUT entry waiting for its step (R636): its ring index, none once the ring it came from has started anew, and its
body. -/
structure InputFrame where
  index : Option Word
  fmt : BitVec 2
  body : List Byte
  deriving DecidableEq, Repr

/-- A slot (R479, R501, R520, R632). `fed` is the frame that its pending step consumes, `local_` the entry that waits for its
first step above position 0 (R498). -/
structure SlotSt where
  state : BitVec 3
  kind : Bool
  cancel : Bool
  pend : Bool
  com : SlotPtrs
  new : SlotPtrs
  order : Nat
  maxLen : Word
  seed : DWord
  stop : Word
  promptLen : Word
  promptAddr : DWord
  ploc : Bool
  oloc : Bool
  vec : BitVec 8
  outBase : DWord
  outStride : Word
  outN : Word
  tag : DWord
  unbound : Bool
  inputs : List InputFrame
  fed : Option InputFrame
  local_ : Option (List Byte)
  entry : List Byte
  adopted : Bool
  deriving DecidableEq, Repr

/-! ## Host (13) -/

/-- A host ring's registers (R622 to R626). -/
structure HostRingSt where
  base : DWord
  log2n : BitVec 5
  en : Bool
  head : Word
  tail : Word
  deriving DecidableEq, Repr

/-- A result entry in the queue (R640); wait holds it until the partner has applied the tick (R667). -/
structure ResEntry where
  slot : BitVec 8
  status : BitVec 8
  step : Word
  value : Word
  outLen : Word
  tag : DWord
  tick : DWord
  vec : BitVec 8
  lastOfVec : Bool
  wait : Bool
  deriving DecidableEq, Repr

/-- An event entry in the queue (R642). -/
structure EvtEntry where
  code : BitVec 16
  pos : BitVec 16
  tick : DWord
  arg0 : DWord
  arg1 : Word
  lost : Word
  deriving DecidableEq, Repr

/-- The running command (R645): its OP, its status, the failing offset, its TAG and its device range. -/
structure RunCmd where
  op : BitVec 8
  status : BitVec 8
  failAt : Nat
  tag : DWord
  daddr : Nat
  len : Nat
  deriving DecidableEq, Repr

/-- Host ports, rings and ownership (R614 to R653). -/
structure HostSt where
  owner : Port
  offer : Bool
  lapsed : Bool
  claimed : Bool
  switchDue : Bool
  defOwner : Port
  heartbeat : Word
  limit : BitVec 14
  age : Word
  adm : HostRingSt
  res : HostRingSt
  evt : HostRingSt
  cmd : HostRingSt
  admRead : Word
  admReleased : List Nat
  resq : List ResEntry
  evtq : List EvtEntry
  lost : Word
  vec0Limit : Bool
  vec0Due : Bool
  err : BitVec 4
  run : Option RunCmd
  admits : Word
  rejects : Word
  results : Word
  evtLost : Word
  backlogRb : Word
  unboundN : Word
  switches : Word
  resets : Word
  discards : Word
  admSeq : Nat
  deriving DecidableEq, Repr

/-! ## Power and pins (17) -/

/-- The four states of a gated function and its PENDING (R780). -/
structure GateSt where
  state : BitVec 2
  pending : Bool
  deriving DecidableEq, Repr

/-- Supplies, thermal and the power cap (R774 to R790). -/
structure PwrSt where
  mv10 : BitVec 16
  auxMv : BitVec 16
  excursion : Bool
  trip : Bool
  therm : Bool
  alert : Bool
  last9 : BitVec 16
  cap : BitVec 10
  capInForce : BitVec 10
  cmd : BitVec 2
  stepMin : BitVec 2
  thermStep : BitVec 2
  coolCues : Nat
  brake : List Nat
  samples : List Nat
  inputAvg : BitVec 16
  lastInterval : BitVec 16
  energy : Nat
  sampleCount : Nat
  exempt : Bool
  holdFrom : Option Nat
  cut : Bool
  cutRun : Bool
  tj : Word
  tjIo : Word
  gateClu : BitVec 64
  gateLnk : BitVec 8
  gCluster : Tab GateSt
  gLink : Tab GateSt
  holds : Word
  holdUs : Word
  holdCut : Word
  steps : Word
  thermMs : Word
  thermSamples : Nat
  deriving DecidableEq, Repr

/-- Sideband pins (R767 to R773) and the levels they are held at. -/
structure PinSt where
  cfg : BitVec 24
  timer : Word
  gp : BitVec 4
  tickIn : Bool
  tickOut : Bool
  pwrHoldN : Bool
  motionN : Bool
  perstA : Bool
  perstB : Bool
  refA : Bool
  refB : Bool
  lastTickIn : Option Nat
  tickRej : Word
  deriving DecidableEq, Repr

/-! ## Flash, update, security (15) -/

/-- A pointer record (R712); ok is its CRC check. -/
structure PtrRec where
  seq : Word
  fw : Bool
  cfg : Bool
  trial : Bool
  tries : BitVec 2
  prevFw : Bool
  prevCfg : Bool
  lastRev : BitVec 8
  ok : Bool
  deriving DecidableEq, Repr

/-- A floor record (R721); ok is its MAC check. -/
structure FloorRec where
  seq : Word
  floor : Word
  ok : Bool
  deriving DecidableEq, Repr

/-- A settings record (R718): the owner's persistent settings, in one format. -/
structure Settings where
  seq : Word
  limit : BitVec 14
  precCtrl : BitVec 3
  rrb : BitVec 10
  stkPatrol : List (Nat × Word)
  spmPatrol : List (Nat × Bool)
  cap : BitVec 10
  deriving DecidableEq, Repr

/-- A settings copy: its format and its records in force (R718). -/
structure SettingsCopy where
  format : BitVec 8
  newest : Option Settings
  deriving DecidableEq, Repr

/-- A record's place in the rehearsal ring (R741): its byte offset from REH_BASE and its bytes. -/
structure RehEntry where
  off : Nat
  bytes : Nat
  deriving DecidableEq, Repr

/-- The boot flash (R687): its records and slots as data. -/
structure Flash where
  ptr0 : Option PtrRec
  ptr1 : Option PtrRec
  floor0 : Option FloorRec
  floor1 : Option FloorRec
  ownerKey : Option (List Byte)
  ownerLock : Bool
  challenge : Word
  starts : Word
  cfgEpoch : Word
  fwA : Option FwImage
  fwB : Option FwImage
  cfgA : Option CfgImage
  cfgB : Option CfgImage
  slotState : BitVec 12
  set0 : SettingsCopy
  set1 : SettingsCopy
  spill : Option (List Byte)
  deriving DecidableEq, Repr

/-- A staging in progress (R709). -/
inductive Staging where
  | fw (slotB : Bool) (img : FwImage)
  | cfg (slotB : Bool) (img : CfgImage)
  deriving DecidableEq, Repr

/-- Update registers and what runs (R695 to R720). -/
structure UpdSt where
  flash : Flash
  fwRun : Option FwImage
  cfgRun : Option CfgImage
  ptr : PtrRec
  runFwB : Bool
  runCfgB : Bool
  floor : Word
  haddr : DWord
  len : Word
  cmd : Word
  result : BitVec 4
  mib : BitVec 16
  staging : Option Staging
  ldrErr : Word
  ldrLoc : Word
  setFormat : BitVec 8
  deriving DecidableEq, Repr

/-- Security engine (R691 to R694, R723 to R728). -/
structure SecSt where
  devId : BitVec 512
  chal : Option (List Byte)
  deriving DecidableEq, Repr

/-! ## Errors, rehearsal, JTAG (16) -/

/-- ERR registers and fault injection (R734 to R740, R759, R760). -/
structure ErrSt where
  safemode : Bool
  active : Bool
  storm : BitVec 8
  runLen : BitVec 8
  first : Option (BitVec 16 × Word)
  injArm : Bool
  injTier : Bool
  injFired : Bool
  injAddr : BitVec 44
  injLatchTier : Bool
  injLatch : BitVec 44
  stCmd : Bool
  stBusy : Bool
  stPass : Bool
  stRan : Bool
  stRow : BitVec 4
  stPos : BitVec 16
  cls : Tab Word
  entries : Word
  injected : Word
  deriving DecidableEq, Repr

/-- A replay in progress (R752 to R756): the tick records left, the confirmation records, the record of the running tick, the
PREC_CTRL in force. -/
structure ReplaySt where
  recs : List (List Byte)
  confs : List (List Byte)
  now : Option (List Byte)
  ctrl : BitVec 3
  check : Bool
  raised : Bool
  mismatches : Word
  deriving DecidableEq, Repr

/-- Rehearsal (R741 to R757). -/
structure RehSt where
  ring : List RehEntry
  wpos : Nat
  frozen : Bool
  spilling : Bool
  trigCode : Word
  trigTick : DWord
  trigLeft : Option Nat
  frozenLen : Nat
  frozenSkip : Nat
  gapRaised : Bool
  reading : Bool
  triggerMask : BitVec 10
  post : BitVec 8
  codes : Tab Word
  cmd : Word
  refusal : BitVec 4
  rfirst : DWord
  rcount : Word
  rbase : Word
  rdbase : Word
  replay : Option ReplaySt
  mmTick : Word
  mmSlot : BitVec 8
  mmValid : Bool
  records : Word
  gap : Word
  spills : Word
  trigLost : Word
  upDrop : Word
  mismatch : Word
  tol : Word
  deriving DecidableEq, Repr

/-- The TAP (R761): the selected instruction and the captured data register. -/
structure TapSt where
  ir : BitVec 8
  dr : BitVec 64
  pins : BitVec 24
  deriving DecidableEq, Repr

/-! ## Twin (14) -/

/-- A mirror on its way or being unpacked (R664 to R666). -/
structure Mirror where
  tick : DWord
  slots : List MirrorSlot
  freed : BitVec 256
  bytes : Nat
  deriving DecidableEq, Repr

/-- Twin pairing (R655 to R680). `staged` is the mirror on its way into the partner's window, `awaiting` the one whose
MIRROR_APPLIED is awaited; `kvSent` and `sentEntry` are what the partner holds of each own slot (R664). -/
structure TwinSt where
  state : BitVec 3
  missed : BitVec 2
  partAdopted : Bool
  helloTick : Option DWord
  beat : Bool
  adoptCmd : Bool
  adoptReq : Bool
  adoptedMask : BitVec 256
  mirrorTick : DWord
  sentTick : Word
  mirror : Tab MirrorSlot
  mirrorTicks : Tab Word
  unpacking : Option Mirror
  staged : Option Mirror
  awaiting : Option Mirror
  kvSent : Tab Nat
  sentEntry : Tab (List Byte)
  dirty : List Nat
  freedOwn : BitVec 256
  confirmations : Nat
  confTick : DWord
  refetch : Option (BitVec 44)
  refetchAt : Option Nat
  refetchQ : List (BitVec 44)
  serve : Option (BitVec 44)
  mirrors : Word
  mirrorKib : Word
  lag : Word
  hbMissed : Word
  refetchN : Word
  refetchFailN : Word
  deriving DecidableEq, Repr

/-! ## Links and windows (12) -/

/-- A flit sent and not yet acknowledged: its SEQ and, for a ring entry's last flit, the outbound entry it ends. -/
structure SentFlit where
  seq : BitVec 12
  outEnd : Option (Nat × Nat)
  deriving DecidableEq, Repr

/-- A link port (R558 to R571, R601). -/
structure LnkSt where
  en : Bool
  role : BitVec 3
  lanes : BitVec 4
  peerId : BitVec 8
  state : BitVec 2
  width : BitVec 4
  peerSeen : BitVec 8
  replay : Bool
  err : BitVec 5
  lanesFailed : BitVec 8
  txSeq : BitVec 12
  rxSeq : BitVec 12
  buffer : List SentFlit
  replaySeq : BitVec 12
  replayRun : Nat
  credits : List Nat
  stalled : List (Producer × LinkEntry)
  rr : Nat
  txFlits : Word
  rxFlits : Word
  crcErr : Word
  replays : Word
  fecCorr : Word
  fecUncorr : Word
  ringStall : Word
  ringDrop : Word
  fwd : Word
  unrouted : Word
  nakRx : Word
  downs : Word
  deriving DecidableEq, Repr

/-- A window (R583 to R596). -/
structure WindowSt where
  base : BitVec 44
  sizeM1 : BitVec 29
  src : Word
  cmd : BitVec 3
  state : BitVec 2
  pending : Bool
  epoch : BitVec 16
  drain : Word
  acc : Word
  landing : Nat
  sinceAck : Word
  refused : Bool
  refusedTick : Option DWord
  deriving DecidableEq, Repr

/-- A remote handle (R587, R591). -/
structure HandleSt where
  cfg : Word
  state : BitVec 2
  epoch : BitVec 16
  size : BitVec 29
  nakReason : BitVec 3
  nakEpoch : BitVec 16
  deriving DecidableEq, Repr

/-- Windows, handles, routes and the outbound table (12). -/
structure WinSt where
  linkId : BitVec 8
  windows : Tab WindowSt
  handles : Tab HandleSt
  routes : Tab (BitVec 4)
  routesNext : Tab (BitVec 4)
  out0 : Tab Word
  out1 : Tab Word
  out0Next : Tab Word
  out1Next : Tab Word
  sentOut : Tab Nat
  ackOut : Tab Nat
  bondDown : List Nat
  drop : Word
  bypassIn : Bool
  bypassOut : Bool
  bypassReg : BitVec 2
  deriving DecidableEq, Repr

/-! ## Stacks (11) -/

/-- The errors that a stack's cells hold: corrected (one lane) or uncorrectable, by granule (R541). -/
structure GranuleErr where
  lane : Nat
  uncorrectable : Bool
  deriving DecidableEq, Repr

/-- A stack (R523 to R556). -/
structure StkSt where
  fwVer : BitVec 16
  state : BitVec 3
  repair : Bool
  patrolOn : Bool
  hot : Bool
  fastFail : BitVec 8
  deepFail : BitVec 8
  trainLanes : BitVec 8
  trainMs : BitVec 8
  tempNow : BitVec 8
  tempPeak : BitVec 8
  patrolEn : Bool
  hours : BitVec 8
  ueAddr : BitVec 44
  sparesFast : BitVec 16
  sparesDeep : BitVec 16
  spareUsed : Tab Nat
  laneMap : Tab (BitVec 9)
  dead : List Nat
  errs : Tab GranuleErr
  laneHits : List (Nat × Nat × Nat)
  rowHits : List (Nat × Nat)
  patrolAt : Nat
  ceFast : Word
  ceDeep : Word
  ue : Word
  spared : Word
  lanesMarked : Word
  rounds : Word
  deriving DecidableEq, Repr

/-- KV pages of a die (R530 to R539). -/
structure KvSt where
  cfg : Word
  policy : Word
  pt : Word
  used : List Nat
  tlb : List Nat
  freeq : List Nat
  spilling : List (Nat × Nat)
  landed : List (Nat × Nat)
  alloc : Word
  spilled : Word
  nopage : Word
  xmiss : Word
  deriving DecidableEq, Repr

/-! ## Precision controller (07) -/

/-- Layer state (R303, R304, R321, R347); `widenings` counts the widenings that the base form holds (R322). -/
structure LayerSt where
  width : BitVec 5
  inMin : BitVec 5
  sticky : Bool
  widenings : Nat
  wrun : BitVec 2
  meanSet : Bool
  mean : Word
  trips : BitVec 5
  refusedTick : Bool
  trippedTick : Bool
  withheldTick : Bool
  deriving DecidableEq, Repr

/-- One core's share of one part of an invocation's statistics (R226, R313); `recorded` lists the rings that hold the part's
tensor record (R171). -/
structure Share where
  core : Nat
  part : Nat
  amax : Word
  norm : Word
  inf : Nat
  elems : Nat
  sat : Nat
  hist : Tab Nat
  reported : Bool
  pass2 : Bool
  recorded : List Nat
  deriving DecidableEq, Repr

/-- What a package reduction broadcasts for one part: amax, s_T, INV and the width (R162, R300). -/
structure Red where
  amax : Word
  sT : Word
  recip : Word
  width : BitVec 5
  deriving DecidableEq, Repr

/-- An invocation of the running tick (R160, R301, R306, R313): the activation width it runs at, the cores that have bound it,
those that run it in two parts, their shares, the reductions of its parts, and what has been decided of it. -/
structure InvSt where
  lix : BitVec 10
  aw : BitVec 5
  sIn : Word
  desc : BitVec 2048
  cores : List Nat
  splitCores : List Nat
  shares : List Share
  reds : List Red
  decided : Bool
  rerun : Bool
  promptOff : Bool
  understudy : Bool
  muOver : Bool
  deriving DecidableEq, Repr

/-- The precision controller of D0 (07): `committed` is the tick state at the cue (R304), `seen` what PREC_LSTATE reads, the
layer state as at the last curtain (R347). -/
structure PrecSt where
  ctrl : BitVec 3
  rrb : BitVec 10
  rrbMax : BitVec 10
  rrbForce : BitVec 10
  lastBudget : Word
  lastStretch : Word
  layers : Tab LayerSt
  committed : Tab LayerSt
  seen : Tab LayerSt
  invs : Tab InvSt
  used : Nat
  stretched : Bool
  withheld : BitVec 256
  squash : Option Nat
  lclear : Bool
  clearReq : List Nat
  trips : Word
  reruns : Word
  rerunTrip : Word
  widest : Word
  withheldN : Word
  stretchedN : Word
  deltaRefresh : Word
  deriving DecidableEq, Repr

/-! ## Scratchpad rings and scoreboard (08) -/

/-- A ring mark (R384). -/
structure RingMark where
  epoch : BitVec 16
  tp : Bool
  head : Nat
  tail : Nat
  turn : BitVec 4
  deriving DecidableEq, Repr

/-- The ring pointers at the cue (R506). -/
structure RingCue where
  head : Nat
  free : Nat
  ctail : Nat
  tail : Nat
  turn : BitVec 4
  deriving DecidableEq, Repr

/-- A ring descriptor with its pointers, marks and waiting producers (R366 to R388). -/
structure RingSt where
  base : BitVec 15
  loc : Bool
  sizeM1 : BitVec 15
  esize : BitVec 12
  nprodM1 : BitVec 4
  cons : BitVec 2
  spec : Bool
  wings : Bool
  discard : Bool
  en : Bool
  head : Nat
  free : Nat
  tail : Nat
  ctail : Nat
  turn : BitVec 4
  marks : List RingMark
  frameErr : Bool
  full : Bool
  pwait : Bool
  cwait : Bool
  stopped : Bool
  resv : List Nat
  cueAt : RingCue
  deriving DecidableEq, Repr

/-- A scoreboard entry (R377, R403): the region by number (cluster × 17 + core, 16 for the cluster region), its granules, and
the epoch of the instruction that entered it. -/
structure SbEntry where
  region : Nat
  first : Nat
  last : Nat
  longRead : Bool
  epoch : Nat
  deriving DecidableEq, Repr

/-! ## Engine (03) -/

/-- An accumulator value: finite in its format's units, or infinite (R192 to R195). -/
inductive Acc where
  | fin (v : Int)
  | inf
  deriving DecidableEq, Repr

/-- One vector of one engine in a plane buffer (R80 to R84), after inspection: planes from 0 up, the active planes and the
sign plane of a signed operand, the low slice's active planes of a 16-bit one, the exponents by group-sum register; for a
sparse pass the segments as vector, weight group and rows, and their row sums (R258, R260). `rowsum` says that the row-sum
step is still to run, `zero` that the prompter presents the vector as all-zero planes (R280). -/
structure PlaneBuf where
  op : Nat
  vec : Nat
  planes : List (BitVec 256)
  active : List Nat
  activeLo : List Nat
  sign : Option Nat
  exps : List Nat
  segs : List (Nat × Nat × List Nat)
  rsums : List Int
  rowsum : Bool
  zero : Bool
  deriving DecidableEq, Repr

/-- A contribution or a running sum under its tag (R112, R113): the instruction and the vector in its tile. -/
structure Tagged where
  op : Nat
  vec : Nat
  vals : List Acc
  deriving DecidableEq, Repr

/-- The pass that an engine runs: the buffer it reads, the slice pair whose sums the registers hold (R95), and the
contributions gathered so far. -/
structure PassSt where
  buf : PlaneBuf
  second : Bool
  pair : Nat
  acc : List Tagged
  deriving DecidableEq, Repr


/-- The source of the last BLD into a bank (R430): plane and index-plane numbers with the addresses of their 2 KiB blocks. -/
structure LoadSrc where
  planes : List (Nat × Nat)
  idx : List (Nat × Nat)
  deriving DecidableEq, Repr

/-- An engine (R64 to R131). Banks and index stores are tables of read-back words (R131). -/
structure EngineSt where
  bankA : Tab Word
  bankB : Tab Word
  idxA : Tab Word
  idxB : Tab Word
  validA : BitVec 8
  validB : BitVec 8
  idxValidA : BitVec 2
  idxValidB : BitVec 2
  loadingA : Bool
  loadingB : Bool
  readingA : Bool
  readingB : Bool
  bad : List Nat
  buf0 : Option PlaneBuf
  buf1 : Option PlaneBuf
  nextOp : Nat
  nextVec : Nat
  gsum : Tab Int
  govf : List Nat
  pass : Option PassSt
  contribs : List Tagged
  sums : List Tagged
  state : BitVec 3
  activeBank : Bool
  cls : Bool
  pmode : BitVec 3
  aw : BitVec 5
  wpl : BitVec 5
  gsz : BitVec 2
  vec : BitVec 5
  tile : BitVec 3
  err : BitVec 3
  steps : DWord
  passes : Word
  skipped : Word
  rowsums : Word
  bankWait : Word
  skidStall : Word
  gsumOvf : Word
  deriving DecidableEq, Repr

/-! ## Sequencer and core (05, 06, 09) -/

/-- Where a tile lies: in memory, or in a ring at a position. -/
inductive TileSrc where
  | mem (a : Nat)
  | ring (core q p : Nat)
  deriving DecidableEq, Repr

/-- A run of ACB entries that an invocation has opened, oldest first in its list (log 47): the column tile that it is worked
for, once an instruction has named one, the address of the image that opened it, its place (R202), and the number of its first
vector within the invocation. -/
structure VecRange where
  tile : Option Nat
  image : Nat
  half : Bool
  acbase : Nat
  tm : Nat
  base : Nat
  deriving DecidableEq, Repr

/-- A bound descriptor with its ordinal, captured seed and form in force (R406, R446, R457, R802); the input tiles, drains
and check tiles counted so far; whether the core has reported the part's share (R801); and the tile and vectors whose sums
the row-sum store holds (R439). -/
structure Bound where
  ord : BitVec 16
  desc : BitVec 2048
  seed : DWord
  rerun : Bool
  widened : Bool
  fast : Bool
  pmode : BitVec 3
  aw : BitVec 5
  wpl : BitVec 5
  prm : BitVec 2
  split : Bool
  part : Nat
  sIn : Option Word
  nIn : Nat
  nOut : Nat
  nChk : Nat
  reported : Bool
  rowTag : Option (TileSrc × List Nat)
  ranges : List VecRange
  deriving DecidableEq, Repr

/-- A checkpoint (R452). -/
structure Ckpt where
  key : BitVec 16
  pc : BitVec 12
  epoch : BitVec 16
  seed : DWord
  s : Tab Word
  l : Tab Word
  t : Tab (BitVec 256)
  deriving DecidableEq, Repr

/-- A matrix instruction in the chain queue, or an IMPORT in the history of a tile (R435): its fields, its tile, the form,
width, sign and zero point under which it runs, its path (R254) with the segments of each sparse pass, the vectors that the
prompter skips, those that need the row-sum step, those that have landed, its place among the refresh check tiles, the weight
sources of its engines (R430), and the image of an IMPORT. -/
structure ChainOp where
  id : Nat
  ord : BitVec 16
  code : BitVec 8
  acc : Bool
  half : Bool
  acbase : Nat
  tm : Nat
  bank : Bool
  ct : Nat
  tile : BitVec 256
  src : TileSrc
  bound : Bound
  aw : Nat
  sign : Bool
  zp : Nat
  started : Bool
  sparse : Bool
  comp : List (List (Nat × Nat))
  skip : List Nat
  rowsum : List Nat
  landed : List Nat
  chk : Option Nat
  engines : Nat
  srcs : List LoadSrc
  image : List (List Acc)
  deriving DecidableEq, Repr

/-- A bank load in the queue (R429): the block addresses by plane and engine, and the ring that it reads. -/
structure LoadOp where
  id : Nat
  ord : BitVec 16
  bank : Bool
  clr : Bool
  planes : List Nat
  idxPlanes : List Nat
  first : Nat
  n : Nat
  blocks : List (List Nat)
  ring : Option Nat
  deriving DecidableEq, Repr

/-- A DRAIN in the converter queue (R440) with its progress: 0 queued, 1 first pass done, 2 second pass done and its pushes
not yet all taken. After the first pass it holds y of R216 for every element (none for an infinite one) before and after the
prompter's masks and the frame difference, and bmax of every block (R164). -/
structure ConvOp where
  id : Nat
  ord : BitVec 16
  half : Bool
  acbase : Nat
  tm : Nat
  dests : List (BitVec 256)
  ct : Nat
  last : Bool
  stage : Nat
  bound : Bound
  raw : List (List (Option Word))
  ys : List (List (Option Word))
  bmax : List (List Word)
  deriving DecidableEq, Repr

/-- Work waiting for EU (R293): 1 a make-up candidate, 2 an understudy sample, 3 a refresh check; the instructions that
built the tile and, for a comparison, the chain entries captured when they are complete. -/
structure EuOp where
  kind : Nat
  ord : BitVec 16
  ct : Nat
  tm : Nat
  acbase : Nat
  half : Bool
  vec : Nat
  bound : Bound
  ops : List ChainOp
  conv : Nat
  vals : List (List Acc)
  deriving DecidableEq, Repr

/-- A move: what is left of it once its bytes have moved (R431 to R433), the unit that pushes it, the invocation under which
it was issued and, for a second pass, the drain that it belongs to. -/
structure DmaOp where
  code : BitVec 8
  prod : Producer
  ord : BitVec 16
  conv : Nat
  epoch : BitVec 16
  ring : Option (Nat × Nat)
  kind : BitVec 4
  bytes : List Byte
  blocked : Bool
  window : Option Nat
  acked : Bool
  failed : Bool
  deriving DecidableEq, Repr

/-- The sequencer of a core (R406 to R469). -/
structure SeqSt where
  s : Tab Word
  l : Tab Word
  t : Tab (BitVec 256)
  pc : BitVec 12
  epoch : BitVec 16
  seed : DWord
  bound : List Bound
  ckpts : List Ckpt
  imem : Tab DWord
  imemBad : List Nat
  state : BitVec 4
  rerun : Bool
  cueLatched : Bool
  ended : Bool
  arrivals : Tab Nat
  invOrd : BitVec 16
  invLix : BitVec 10
  invWide : Bool
  err : BitVec 5
  waitBar : Option Nat
  halves : List Nat
  halfLix : List Nat
  part1 : Option (BitVec 16)
  issued : Word
  qwait : Word
  rwait : Word
  bwait : Word
  cwait : Word
  restores : Word
  opSeq : Nat
  deriving DecidableEq, Repr

/-- The output converter's registers and counters (05). -/
structure OcvSt where
  state : BitVec 3
  fmt : Bool
  base : BitVec 5
  m : BitVec 6
  half : Bool
  lid : BitVec 16
  held : Word
  formats : Word
  amax : Word
  norm : Word
  err : BitVec 3
  sat : Word
  inf : Word
  promInf : Word
  holdWait : Word
  elems : Word
  topk : Word
  deriving DecidableEq, Repr

/-- Sparsity, prompter and understudy counters of a core (06, 07). -/
structure SparseSt where
  path : Bool
  prmWait : Bool
  npass : BitVec 6
  oor : Word
  tiles : Word
  dense : Word
  demote : Word
  storedDense : Word
  prmSkipped : Word
  prmMasked : Word
  prmReleased : Word
  prmMakeup : Word
  sampInact : Word
  sampMiss : Word
  usSamples : Word
  usMismatch : Word
  usCapped : Word
  usCycles : Word
  deltaChk : Word
  deltaChkFail : Word
  deltaChkSkip : Word
  oorRaised : List Nat
  miss : List (Nat × Nat × Nat)
  deriving DecidableEq, Repr

/-- A probe's result for vector `place` of a column tile (R282 to R284); empty where the vector needed none. -/
structure ProbeRes where
  ord : BitVec 16
  ct : Nat
  place : Nat
  vals : List Word
  deriving DecidableEq, Repr

/-- A core: sequencer, engines, accumulator bank, converter, rings, scoreboard, queues; `conf` is the youngest epoch
whose confirmation has reached the core (R383, R387). -/
structure CoreSt where
  seq : SeqSt
  engines : Tab EngineSt
  acb : Tab (BitVec 144)
  rowsums : Tab Int
  zc : Tab Int
  ocv : OcvSt
  sparse : SparseSt
  rings : Tab RingSt
  sb : List SbEntry
  sbWait : Word
  chainQ : List ChainOp
  loadQ : List LoadOp
  convQ : List ConvOp
  convOut : List DmaOp
  euQ : List EuOp
  probes : List ProbeRes
  hist : List ChainOp
  madeUp : Tab Nat
  sources : Tab LoadSrc
  lastBank : Tab Nat
  merged : Tab Nat
  dmaQ : List DmaOp
  dieQ : List DmaOp
  conf : Nat
  deriving DecidableEq, Repr

/-! ## Cluster (05 to 08) -/

/-- An SVU descriptor in the cluster queue (R447), with the core, the epoch and the bound descriptor that enqueued it. -/
structure SvuOp where
  core : Nat
  epoch : BitVec 16
  desc : List Byte
  bound : Option Bound
  deriving DecidableEq, Repr

/-- A record of a top-k list or a scatter (R233, R269). -/
structure Rec where
  value : Word
  pos : Word
  deriving DecidableEq, Repr

/-- A list handed to a merge for one vector (R230, R270): level 0 from a core to its cluster's tree, higher levels to the
gather cluster; `src` is the number of the core or of the first cluster that it comes from. -/
structure MergeIn where
  ord : BitVec 16
  epoch : BitVec 16
  vec : Nat
  level : Nat
  src : Nat
  dst : Nat
  k : Nat
  recs : List Rec
  last : Bool
  deriving DecidableEq, Repr

/-- A cluster: merge tree, supply, scratchpad registers, SVU queue. -/
structure CluSt where
  mrgK : BitVec 7
  mrgTkg : BitVec 6
  mrgRounds : Word
  mrgInf : Word
  scatRecs : Word
  scatOor : Word
  topIn : List MergeIn
  scatIn : List MergeIn
  oorRaised : List Nat
  vsup : BitVec 2
  osCycles : Word
  vraise : Word
  scrub : BitVec 17
  scrubBusy : BitVec 17
  patrolEn : Bool
  patrolAt : Tab Nat
  ueAddr : BitVec 27
  ce : Word
  ue : Word
  squashed : Word
  forced : Word
  reach : Word
  narrowMax : BitVec 5
  svuQ : List SvuOp
  waiting : List DmaOp
  deriving DecidableEq, Repr

/-! ## What the block gives to the outside -/

/-- The answer to the last read-like command. -/
inductive Reply where
  | none
  | word (v : Word)
  | bytes (l : List Byte)
  | unsupported
  | retry
  | noCompletion
  deriving DecidableEq, Repr

/-- What the device sends, newest first: host writes, interrupts, link messages. -/
inductive Sent where
  | hostWrite (p : Port) (addr : DWord) (data : List Byte)
  | hostRead (p : Port) (addr : DWord) (len : Nat)
  | msix (p : Port) (vec : Nat)
  | cue (lp : Nat) (tick : DWord) (period : Word) (tickMax : Word)
  | step (lp : Nat) (typ : Nat) (m : StepMsg)
  | ring (lp : Nat) (e : LinkEntry)
  | winWrite (h : Nat) (epoch : BitVec 16) (offset : Nat) (data : List Byte)
  | winRing (h : Nat) (epoch : BitVec 16) (e : LinkEntry)
  | wfence (h : Nat) (epoch : BitVec 16)
  | wopen (dst : BitVec 8) (w : Nat) (gate : Bool) (epoch : BitVec 16) (size : Nat)
  | wclosed (dst : BitVec 8) (w : Nat) (epoch : BitVec 16)
  | wnak (dst : BitVec 8) (w : Nat) (reason : Nat) (epoch : BitVec 16) (offset : Nat)
  | wack (dst : BitVec 8) (w : Nat) (epoch : BitVec 16) (flits : Word)
  | replay (lp : Nat) (seq : BitVec 12)
  | resend (lp : Nat) (seq : BitVec 12)
  | forward (lp : Nat) (dst : BitVec 8)
  | hello (lp : Nat) (m : HelloMsg)
  | heartbeat (adopted : Bool) (tick : DWord) (applied : DWord)
  | mirrorStage (epoch : BitVec 16) (m : Mirror)
  | mirror (m : Mirror)
  | mirrorApplied (tick : DWord)
  | refetchReq (epoch : BitVec 16) (addr : BitVec 44) (len : Nat)
  | refetchDone (addr : BitVec 44)
  | refetchFail (reason : Nat) (addr : BitVec 44)
  | upload (r : List Byte)
  deriving DecidableEq, Repr

/-- The whole state of the block. `pending` is the queue of waiting commands, first in, first out; `free` counts the
undefined values drawn so far (the model's own field, log 3); `reply` and `sent` are what the outside sees (log 11). -/
structure State where
  pending : List Instr
  free : Nat
  reply : Reply
  sent : List Sent
  cfg : CfgBody
  glb : Glb
  portA : PortSt
  portB : PortSt
  tick : TickSt
  slots : Tab SlotSt
  host : HostSt
  pwr : PwrSt
  pin : PinSt
  upd : UpdSt
  sec : SecSt
  err : ErrSt
  reh : RehSt
  tap : TapSt
  twin : TwinSt
  lnk : Tab LnkSt
  win : WinSt
  stk : Tab StkSt
  kv : Tab KvSt
  prec : PrecSt
  clu : Tab CluSt
  core : Tab CoreSt
  mem : List Host.Cell
  badOne : List Nat
  badTwo : List Nat
  deriving DecidableEq, Repr

/-- Why a step would stop. No meaning of this model ends in a fault: every error that the manual describes is an event
and a change of state (safe). The constructor is raised by nobody and stands for a stop outside the manual. -/
inductive Fault where
  /-- Raised by no command: kept so that the type is inhabited (safe). -/
  | outsideManual
  deriving DecidableEq, Repr

/-- Why a command is turned away without a meaning. -/
inductive Refusal where
  /-- An arm of exec whose meaning is not written (safe: the machine stops). -/
  | notModelled (mnemonic : String)
  deriving DecidableEq, Repr

/-! ## Reset values -/

/-- GLB at reset (R796): the straps name the standard variant (log 12), the state code is BOOT once readable; before
power-good the device is OFF (R6, R776). -/
def Glb.reset : Glb := ⟨1, .off, false, 3, false, false, false, false⟩

/-- A latch at reset (R796). -/
def Latch.reset : Latch := ⟨0, 0, 0⟩

/-- SPM_IDX latches at reset. -/
def SpmLatch.reset : SpmLatch := ⟨0, 0, 0, 0, 0⟩

/-- SLOT_P and TWIN_M latches at reset. -/
def SlotLatch.reset : SlotLatch := ⟨0, [0, 0, 0, 0, 0, 0], 0⟩

/-- A port at reset: link down, every per-port register 0 (R649, R796). -/
def PortSt.reset : PortSt :=
  { linkUp := false, inReset := false, d3hot := false, command := 0, bars := [], msixTable := [], msixEnable := false,
    msixFnMask := false, msixPend := 0, apLo := 0, apHi := 0, apStamp := 0, dbAdm := 0, dbCmd := 0, dbRes := 0,
    dbEvt := 0, precLidx := 0, engRb := [], seqRb := [], stkL := [], spmIdx := [], slotP := .reset, twinM := .reset,
    mbxCmd := 0, mbxStatus := 0, mbx := [], mbxRun := none }

/-- The tick controller at reset. -/
def TickSt.reset : TickSt :=
  { src := 0, cpos := 0, clenM1 := 0, period := 0, tickMax := 0, pfa := 0, proven := 0, count := 0, nextNum := 0,
    anyCue := false, held := [], holdFrom := none, group := 0, lastLen := 0,
    abandoned := 0, stepRb := 0, slotRb := 0, holdUs := 0, chainTimeouts := 0, slotLate := 0, lastTaken := none,
    lastRelease := none, running := none, pend := [], upstream := [], marks := [],
    bondCue := [], view := [] }

/-- The pointers of a slot at reset (R796). -/
def SlotPtrs.reset : SlotPtrs := ⟨0, 0, 0, 0⟩

/-- A FREE slot at reset (R479, R796). -/
def SlotSt.reset : SlotSt :=
  { state := 0, kind := false, cancel := false, pend := false, com := .reset, new := .reset, order := 0,
    maxLen := 0, seed := 0, stop := 0, promptLen := 0, promptAddr := 0, ploc := false, oloc := false, vec := 0,
    outBase := 0, outStride := 0, outN := 0, tag := 0, unbound := false, inputs := [], fed := none,
    local_ := none, entry := [], adopted := false }

/-- A host ring at reset. -/
def HostRingSt.reset : HostRingSt := ⟨0, 0, false, 0, 0⟩

/-- Host registers at reset (R796): HB_CFG 0x3E8, the rest 0; owner A when no configuration is loaded (R614). -/
def HostSt.reset : HostSt :=
  { owner := .a, offer := false, lapsed := false, claimed := false, switchDue := false, defOwner := .a, heartbeat := 0, limit := 1000,
    age := 0, adm := .reset, res := .reset, evt := .reset, cmd := .reset, admRead := 0, admReleased := [], resq := [],
    evtq := [], lost := 0, vec0Limit := false, vec0Due := false, err := 0, run := none, admits := 0,
    rejects := 0, results := 0, evtLost := 0, backlogRb := 0, unboundN := 0, switches := 0, resets := 0, discards := 0,
    admSeq := 0 }

/-- A gated function at reset: OFF, nothing pending (R796). -/
def GateSt.reset : GateSt := ⟨0, false⟩

/-- Power registers at reset (R796): PWR_CAP 0x258, the rest 0. -/
def PwrSt.reset : PwrSt :=
  { mv10 := 0, auxMv := 0, excursion := false, trip := false, therm := false, alert := false, last9 := 0, cap := 600,
    capInForce := 600, cmd := 0, stepMin := 0, thermStep := 0, coolCues := 0, brake := [], samples := [], inputAvg := 0,
    lastInterval := 0, energy := 0, sampleCount := 0, exempt := true, holdFrom := none, cut := false, cutRun := false, tj := 0, tjIo := 0,
    gateClu := 0, gateLnk := 0, gCluster := [], gLink := [], holds := 0, holdUs := 0, holdCut := 0, steps := 0,
    thermMs := 0, thermSamples := 0 }

/-- Pins at reset: PERST asserted, the module's pull-ups high, outputs low (log 12). -/
def PinSt.reset : PinSt :=
  { cfg := 0, timer := 0, gp := 0, tickIn := false, tickOut := false, pwrHoldN := true, motionN := true, perstA := false,
    perstB := false, refA := false, refB := false, lastTickIn := none, tickRej := 0 }

/-- The pointer in force when no record passes: slots A, not on trial (R713). -/
def PtrRec.slotsA : PtrRec := ⟨0, false, false, false, 0, false, false, 0, true⟩

/-- An empty settings copy. -/
def SettingsCopy.reset : SettingsCopy := ⟨0, none⟩

/-- The flash as assembled: no records, empty slots (log 12). -/
def Flash.reset : Flash :=
  { ptr0 := none, ptr1 := none, floor0 := none, floor1 := none, ownerKey := none, ownerLock := false, challenge := 0,
    starts := 0, cfgEpoch := 0, fwA := none, fwB := none, cfgA := none, cfgB := none, slotState := 0, set0 := .reset,
    set1 := .reset, spill := none }

/-- Update registers at reset (R796). -/
def UpdSt.reset : UpdSt :=
  { flash := .reset, fwRun := none, cfgRun := none, ptr := .slotsA, runFwB := false, runCfgB := false, floor := 0,
    haddr := 0, len := 0, cmd := 0, result := 0, mib := 0, staging := none, ldrErr := 0, ldrLoc := 0, setFormat := 0 }

/-- Security engine before a start: no identity, no challenge. -/
def SecSt.reset : SecSt := ⟨0, none⟩

/-- ERR registers at reset (R796): ERR_MODE 0x0000_0800. -/
def ErrSt.reset : ErrSt :=
  { safemode := false, active := false, storm := 8, runLen := 0, first := none, injArm := false, injTier := false,
    injFired := false, injAddr := 0, injLatchTier := false, injLatch := 0, stCmd := false, stBusy := false, stPass := false,
    stRan := false, stRow := 0, stPos := 0, cls := [], entries := 0, injected := 0 }

/-- Rehearsal at reset. -/
def RehSt.reset : RehSt :=
  { ring := [], wpos := 0, frozen := false, spilling := false, trigCode := 0, trigTick := 0, trigLeft := none, frozenLen := 0, frozenSkip := 0, gapRaised := false,
    reading := false, triggerMask := 0, post := 0, codes := [], cmd := 0, refusal := 0, rfirst := 0,
    rcount := 0, rbase := 0, rdbase := 0, replay := none, mmTick := 0, mmSlot := 0, mmValid := false, records := 0,
    gap := 0, spills := 0, trigLost := 0, upDrop := 0, mismatch := 0, tol := 0 }

/-- The TAP after TRST_N: IEEE 1149.1 selects IDCODE (log 12). -/
def TapSt.reset : TapSt := ⟨1, 0, 0⟩

/-- Twin pairing at reset. -/
def TwinSt.reset : TwinSt :=
  { state := 0, missed := 0, partAdopted := false, helloTick := none, beat := false, adoptCmd := false, adoptReq := false,
    adoptedMask := 0, mirrorTick := 0, sentTick := 0, mirror := [], mirrorTicks := [], unpacking := none, staged := none,
    awaiting := none, kvSent := [], sentEntry := [], dirty := [], freedOwn := 0, confirmations := 0, confTick := 0, refetch := none,
    refetchAt := none, refetchQ := [], serve := none, mirrors := 0, mirrorKib := 0, lag := 0, hbMissed := 0,
    refetchN := 0, refetchFailN := 0 }

/-- A link port at reset: LNK_STATUS 0x0000_3FC0 (R796); 64 credits a class (R571). -/
def LnkSt.reset : LnkSt :=
  { en := false, role := 0, lanes := 0, peerId := 0, state := 0, width := 0, peerSeen := 255, replay := false, err := 0,
    lanesFailed := 0, txSeq := 0, rxSeq := 0, buffer := [], replaySeq := 0, replayRun := 0, credits := [64, 64, 64, 64],
    stalled := [], rr := 0, txFlits := 0, rxFlits := 0, crcErr := 0, replays := 0, fecCorr := 0, fecUncorr := 0, ringStall := 0,
    ringDrop := 0, fwd := 0, unrouted := 0, nakRx := 0, downs := 0 }

/-- A window at reset: CLOSED, EPOCH 0, WIN_SRC 0xFFFF_FFFF (R585, R796). -/
def WindowSt.reset : WindowSt :=
  { base := 0, sizeM1 := 0, src := 0xFFFFFFFF, cmd := 0, state := 0, pending := false, epoch := 0, drain := 0, acc := 0,
    landing := 0, sinceAck := 0, refused := false, refusedTick := none }

/-- A remote handle at reset: INVALID. -/
def HandleSt.reset : HandleSt := ⟨0, 0, 0, 0, 0, 0⟩

/-- Windows, routes (0xF no route) and outbound table at reset. -/
def WinSt.reset : WinSt :=
  { linkId := 0, windows := [], handles := [], routes := [], routesNext := [], out0 := [], out1 := [], out0Next := [],
    out1Next := [], sentOut := [], ackOut := [], bondDown := [], drop := 0, bypassIn := false, bypassOut := false, bypassReg := 0 }

/-- A stack at reset (R796): patrol on, 12 hours, 16 and 32 spares. -/
def StkSt.reset : StkSt :=
  { fwVer := 0, state := 0, repair := false, patrolOn := false, hot := false, fastFail := 0, deepFail := 0,
    trainLanes := 0, trainMs := 0, tempNow := 0, tempPeak := 0, patrolEn := true, hours := 12, ueAddr := 0,
    sparesFast := 16, sparesDeep := 32, spareUsed := [], laneMap := [], dead := [], errs := [], laneHits := [],
    rowHits := [], patrolAt := 0, ceFast := 0, ceDeep := 0, ue := 0, spared := 0, lanesMarked := 0, rounds := 0 }

/-- KV pages at reset. -/
def KvSt.reset : KvSt :=
  { cfg := 0, policy := 0, pt := 0, used := [], tlb := [], freeq := [], spilling := [], landed := [], alloc := 0, spilled := 0, nopage := 0, xmiss := 0 }

/-- Layer state at reset. -/
def LayerSt.reset : LayerSt :=
  { width := 0, inMin := 0, sticky := false, widenings := 0, wrun := 0, meanSet := false, mean := 0, trips := 0,
    refusedTick := false, trippedTick := false, withheldTick := false }

/-- The precision controller at reset (R796): PREC_CTRL 7, RRB 0x96. -/
def PrecSt.reset : PrecSt :=
  { ctrl := 7, rrb := 150, rrbMax := 0, rrbForce := 0, lastBudget := 0, lastStretch := 0, layers := [], committed := [], seen := [],
    invs := [], used := 0, stretched := false, withheld := 0, squash := none, lclear := false, clearReq := [], trips := 0, reruns := 0,
    rerunTrip := 0, widest := 0, withheldN := 0, stretchedN := 0, deltaRefresh := 0 }

/-- An invocation before any core has bound it. -/
def InvSt.reset : InvSt :=
  { lix := 0, aw := 0, sIn := 0, desc := 0, cores := [], splitCores := [], shares := [], reds := [], decided := false, rerun := false,
    promptOff := false, understudy := false, muOver := false }

/-- Ring pointers at the cue, before any cue. -/
def RingCue.reset : RingCue := ⟨0, 0, 0, 0, 0⟩

/-- A ring at reset (R796): RING_STAT 2, all else 0. -/
def RingSt.reset : RingSt :=
  { base := 0, loc := false, sizeM1 := 0, esize := 0, nprodM1 := 0, cons := 0, spec := false, wings := false,
    discard := false, en := false, head := 0, free := 0, tail := 0, ctail := 0, turn := 0, marks := [], frameErr := false,
    full := false, pwait := false, cwait := false, stopped := false, resv := [], cueAt := .reset }

/-- An engine at reset (R76, R796): banks 0, ENG_STATUS GATED. -/
def EngineSt.reset : EngineSt :=
  { bankA := [], bankB := [], idxA := [], idxB := [], validA := 0, validB := 0, idxValidA := 0, idxValidB := 0,
    loadingA := false, loadingB := false, readingA := false, readingB := false, bad := [], buf0 := none, buf1 := none,
    nextOp := 0, nextVec := 0, gsum := [], govf := [], pass := none, contribs := [], sums := [],
    state := 7, activeBank := false, cls := false, pmode := 0, aw := 0, wpl := 0, gsz := 0, vec := 0,
    tile := 0, err := 0, steps := 0, passes := 0, skipped := 0, rowsums := 0, bankWait := 0, skidStall := 0,
    gsumOvf := 0 }

/-- A sequencer at reset (R409, R796): WAIT_CUE, all else 0. -/
def SeqSt.reset : SeqSt :=
  { s := [], l := [], t := [], pc := 0, epoch := 0, seed := 0, bound := [], ckpts := [], imem := [],
    imemBad := [], state := 2, rerun := false, cueLatched := false, ended := false, arrivals := [], invOrd := 0,
    invLix := 0, invWide := false, err := 0, waitBar := none, halves := [], halfLix := [], part1 := none, issued := 0, qwait := 0, rwait := 0,
    bwait := 0, cwait := 0, restores := 0, opSeq := 0 }

/-- The output converter at reset (R211, R796). -/
def OcvSt.reset : OcvSt :=
  { state := 0, fmt := false, base := 0, m := 0, half := false, lid := 0, held := 0, formats := 0, amax := 0, norm := 0,
    err := 0, sat := 0, inf := 0, promInf := 0, holdWait := 0, elems := 0, topk := 0 }

/-- Sparsity counters at reset. -/
def SparseSt.reset : SparseSt :=
  { path := false, prmWait := false, npass := 0, oor := 0, tiles := 0, dense := 0, demote := 0,
    storedDense := 0, prmSkipped := 0, prmMasked := 0, prmReleased := 0, prmMakeup := 0, sampInact := 0, sampMiss := 0,
    usSamples := 0, usMismatch := 0, usCapped := 0, usCycles := 0, deltaChk := 0, deltaChkFail := 0, deltaChkSkip := 0,
    oorRaised := [], miss := [] }

/-- A core at reset. -/
def CoreSt.reset : CoreSt :=
  { seq := .reset, engines := [], acb := [], rowsums := [], zc := [], ocv := .reset, sparse := .reset, rings := [],
    sb := [], sbWait := 0, chainQ := [], loadQ := [], convQ := [], convOut := [], euQ := [], probes := [], hist := [],
    madeUp := [], sources := [], lastBank := [], merged := [], dmaQ := [],
    dieQ := [], conf := 0 }

/-- A cluster at reset: supply at 0.55 V, patrol on (R796). -/
def CluSt.reset : CluSt :=
  { mrgK := 0, mrgTkg := 0, mrgRounds := 0, mrgInf := 0, scatRecs := 0, scatOor := 0,
    topIn := [], scatIn := [], oorRaised := [], vsup := 0, osCycles := 0, vraise := 0, scrub := 0, scrubBusy := 0,
    patrolEn := true, patrolAt := [], ueAddr := 0, ce := 0, ue := 0, squashed := 0, forced := 0, reach := 0,
    narrowMax := 0, svuQ := [], waiting := [] }

/-- No configuration: what registers marked "config" hold before step 5 of R695 (log 12). -/
def cfgNone : CfgBody :=
  { src := 0, cpos := 0, clenM1 := 0, period := 0, tickMax := 0, proven := 0, pfa := 0, proofPfa := false,
    proofCurtain := false, proofSpill := false, defOwner := .a, pins := [], timers := [], kv := [], layers := [],
    programs := [], rings := [], barriers := [], svuRings := [], tilePlaces := [], invSlots := [], weightRanges := [], streamed := [],
    usedClusters := [], streamIn := 0, streamOut := 0, tableFmts := [], linkId := 0, links := [], routes := [],
    outs := [], handles := [], windows := [], spareSrc := 0xFFFFFFFF, paired := false, side := false, auto := false,
    sync := false, stageBase := 0, stagePages := 0, mirrorBound := 0, rehEn := false, rehStats := false,
    rehUpload := false, rehStest := false, rehBase := 0, rehSize := 0, rehMask := 0, rehPost := 0, rehPeer := 0,
    rehBounds := [], exqBytes := [] }

/-- What an unlisted byte of device memory reads as: 0, by R395 for scratchpad, by choice for the stacks (log 13). -/
def memDefault : Byte := 0

/-- The machine right after assembly, before power-good: OFF, every register at its reset value. -/
def State.reset : State :=
  { pending := [], free := 0, reply := .none, sent := [], cfg := cfgNone, glb := .reset, portA := .reset, portB := .reset,
    tick := .reset, slots := [], host := .reset, pwr := .reset, pin := .reset, upd := .reset, sec := .reset,
    err := .reset, reh := .reset, tap := .reset, twin := .reset, lnk := [], win := .reset, stk := [], kv := [],
    prec := .reset, clu := [], core := [], mem := [], badOne := [], badTwo := [] }

end Sys2Proof.Machine
end

