-- ==== Sys2Proof/Machine/Ops.lean ====
section
/-! DEFINITION. The named operations over the state: units by name, events, memory, device rings, interrupts, faults of
a tick, register stamps. Every meaning is written over these. -/

namespace Sys2Proof.Machine

/-- What a command answers. -/
abbrev Answer := Host.Outcome State Fault Refusal

/-! ## Units by name -/

/-- A port's own state. -/
def State.port (s : State) : Port → PortSt
  | .a => s.portA
  | .b => s.portB

/-- Replaces a port's own state. -/
def State.setPort (s : State) (p : Port) (x : PortSt) : State :=
  match p with
  | .a => { s with portA := x }
  | .b => { s with portB := x }

/-- Changes a port's own state. -/
def State.modPort (s : State) (p : Port) (f : PortSt → PortSt) : State := s.setPort p (f (s.port p))

/-- Slot i. -/
def State.slot (s : State) (i : Nat) : SlotSt := Tab.get .reset s.slots i

/-- Changes slot i. -/
def State.modSlot (s : State) (i : Nat) (f : SlotSt → SlotSt) : State := { s with slots := Tab.upd .reset s.slots i f }

/-- Core c. -/
def State.coreAt (s : State) (c : CoreId) : CoreSt := Tab.get .reset s.core c.num

/-- Changes core c. -/
def State.modCore (s : State) (c : CoreId) (f : CoreSt → CoreSt) : State :=
  { s with core := Tab.upd .reset s.core c.num f }

/-- The sequencer of core c. -/
def State.seqAt (s : State) (c : CoreId) : SeqSt := (s.coreAt c).seq

/-- Changes the sequencer of core c. -/
def State.modSeq (s : State) (c : CoreId) (f : SeqSt → SeqSt) : State :=
  s.modCore c (fun k => { k with seq := f k.seq })

/-- Engine e of core c; 16 is EU. -/
def State.engAt (s : State) (c : CoreId) (e : Nat) : EngineSt := Tab.get .reset (s.coreAt c).engines e

/-- Changes engine e of core c. -/
def State.modEng (s : State) (c : CoreId) (e : Nat) (f : EngineSt → EngineSt) : State :=
  s.modCore c (fun k => { k with engines := Tab.upd .reset k.engines e f })

/-- The output converter of core c. -/
def State.modOcv (s : State) (c : CoreId) (f : OcvSt → OcvSt) : State :=
  s.modCore c (fun k => { k with ocv := f k.ocv })

/-- Changes the sparsity counters of core c. -/
def State.modSparse (s : State) (c : CoreId) (f : SparseSt → SparseSt) : State :=
  s.modCore c (fun k => { k with sparse := f k.sparse })

/-- Ring q of core c. -/
def State.ringAt (s : State) (c : CoreId) (q : Nat) : RingSt := Tab.get .reset (s.coreAt c).rings q

/-- Changes ring q of core c. -/
def State.modRing (s : State) (c : CoreId) (q : Nat) (f : RingSt → RingSt) : State :=
  s.modCore c (fun k => { k with rings := Tab.upd .reset k.rings q f })

/-- Cluster number n (die × 16 + cluster). -/
def State.cluAt (s : State) (n : Nat) : CluSt := Tab.get .reset s.clu n

/-- Changes cluster number n. -/
def State.modClu (s : State) (n : Nat) (f : CluSt → CluSt) : State := { s with clu := Tab.upd .reset s.clu n f }

/-- Stack k. -/
def State.stkAt (s : State) (k : Nat) : StkSt := Tab.get .reset s.stk k

/-- Changes stack k. -/
def State.modStk (s : State) (k : Nat) (f : StkSt → StkSt) : State := { s with stk := Tab.upd .reset s.stk k f }

/-- The KV block of die d. -/
def State.kvAt (s : State) (d : Nat) : KvSt := Tab.get .reset s.kv d

/-- Changes the KV block of die d. -/
def State.modKv (s : State) (d : Nat) (f : KvSt → KvSt) : State := { s with kv := Tab.upd .reset s.kv d f }

/-- Link port p. -/
def State.lnkAt (s : State) (p : Nat) : LnkSt := Tab.get .reset s.lnk p

/-- Changes link port p. -/
def State.modLnk (s : State) (p : Nat) (f : LnkSt → LnkSt) : State := { s with lnk := Tab.upd .reset s.lnk p f }

/-- Window w. -/
def State.windowAt (s : State) (w : Nat) : WindowSt := Tab.get .reset s.win.windows w

/-- Changes window w. -/
def State.modWindow (s : State) (w : Nat) (f : WindowSt → WindowSt) : State :=
  { s with win := { s.win with windows := Tab.upd .reset s.win.windows w f } }

/-- Remote handle h. -/
def State.handleAt (s : State) (h : Nat) : HandleSt := Tab.get .reset s.win.handles h

/-- Changes remote handle h. -/
def State.modHandle (s : State) (h : Nat) (f : HandleSt → HandleSt) : State :=
  { s with win := { s.win with handles := Tab.upd .reset s.win.handles h f } }

/-- Layer l of the precision controller. -/
def State.layerAt (s : State) (l : Nat) : LayerSt := Tab.get .reset s.prec.layers l

/-- Changes layer l's live state. -/
def State.modLayer (s : State) (l : Nat) (f : LayerSt → LayerSt) : State :=
  { s with prec := { s.prec with layers := Tab.upd .reset s.prec.layers l f } }

/-- Invocation o of the running tick. -/
def State.invAt (s : State) (o : Nat) : InvSt := Tab.get .reset s.prec.invs o

/-- Changes invocation o. -/
def State.modInv (s : State) (o : Nat) (f : InvSt → InvSt) : State :=
  { s with prec := { s.prec with invs := Tab.upd .reset s.prec.invs o f } }

/-- Changes the precision controller. -/
def State.modPrec (s : State) (f : PrecSt → PrecSt) : State := { s with prec := f s.prec }

/-- Changes the tick controller. -/
def State.modTick (s : State) (f : TickSt → TickSt) : State := { s with tick := f s.tick }

/-- Changes the host registers. -/
def State.modHost (s : State) (f : HostSt → HostSt) : State := { s with host := f s.host }

/-- Changes the power registers. -/
def State.modPwr (s : State) (f : PwrSt → PwrSt) : State := { s with pwr := f s.pwr }

/-- Changes the pins. -/
def State.modPin (s : State) (f : PinSt → PinSt) : State := { s with pin := f s.pin }

/-- Changes the update registers. -/
def State.modUpd (s : State) (f : UpdSt → UpdSt) : State := { s with upd := f s.upd }

/-- Changes the twin registers. -/
def State.modTwin (s : State) (f : TwinSt → TwinSt) : State := { s with twin := f s.twin }

/-- Changes the rehearsal registers. -/
def State.modReh (s : State) (f : RehSt → RehSt) : State := { s with reh := f s.reh }

/-- Changes the error registers. -/
def State.modErr (s : State) (f : ErrSt → ErrSt) : State := { s with err := f s.err }

/-- Changes the window block. -/
def State.modWin (s : State) (f : WinSt → WinSt) : State := { s with win := f s.win }

/-- Something leaves the device (log 11). -/
def State.send (s : State) (x : Sent) : State := { s with sent := x :: s.sent }

/-- The answer to a read-like command (log 11). -/
def State.answer (s : State) (r : Reply) : State := { s with reply := r }

/-- Sets the device state (R6). -/
def State.goto (s : State) (d : DevState) : State := { s with glb := { s.glb with st := d } }

/-- Draws a fresh undefined bit (log 3). -/
def State.draw (s : State) : Bool × State := (Config.freeBit s.free, { s with free := s.free + 1 })

/-- Draws a fresh undefined word (log 3). -/
def State.drawWord (s : State) : Word × State := (Config.freeWord s.free, { s with free := s.free + 1 })

/-- Draws n fresh undefined bytes (log 3). -/
def State.drawBytes (s : State) (n : Nat) : List Byte × State :=
  ((List.range n).map (fun i => Config.freeByte (s.free + i)), { s with free := s.free + n })

/-! ## Variant (R1, R2, R46, R47) -/

/-- The SPD-4008-N2. -/
def State.is4008 (s : State) : Bool := s.glb.variant == 2

/-- The SPD-4016-N4. -/
def State.isN4 (s : State) : Bool := s.glb.variant == 3

/-- PCIe device ID (R1). -/
def State.deviceId (s : State) : Nat := if s.isN4 then 0x4116 else if s.is4008 then 0x4008 else 0x4016

/-- Stack k is populated (R47). -/
def State.stkPopulated (s : State) (k : Nat) : Bool := decide (k < 16) && (!s.is4008 || decide (k % 4 < 2))

/-- Link port p exists on the variant (R48); on the -N2 variants number 7 is the SPARE-U half of port 3 (R572, R795). -/
def State.lnkPresent (s : State) (p : Nat) : Bool := s.isN4 || decide (p < 4) || p == 7

/-- The device is in READY or RUN. -/
def State.readyOrRun (s : State) : Bool := s.glb.st == .ready || s.glb.st == .run

/-- Chain length C (R480). -/
def State.chainLen (s : State) : Nat := s.tick.clenM1.toNat + 1

/-- Chain position i (R491). -/
def State.chainPos (s : State) : Nat := s.tick.cpos.toNat

/-- The device at position 0 (R481). -/
def State.isHead (s : State) : Bool := s.chainPos == 0

/-- The device at position C − 1 (R638). -/
def State.isLast (s : State) : Bool := s.chainPos + 1 == s.chainLen

/-- The slots that are not FREE (SLOT_SUMMARY). -/
def State.admittedCount (s : State) : Nat :=
  ((List.range 256).filter (fun i => (s.slot i).state != 0)).length

/-! ## Tick and phase stamps (R129, R683) -/

/-- The cores that the state lists. -/
def State.listedCores (s : State) : List CoreId := s.core.map (fun e => CoreId.ofNum e.1)

/-- The cores that run a program. -/
def State.programCores (s : State) : List CoreId := s.listedCores.filter (fun c => !(s.seqAt c).imem.isEmpty)

/-- Every sequencer has reported END (R421). -/
def State.allEnded (s : State) : Bool := s.programCores.all (fun c => (s.seqAt c).ended)

/-- U exceeds B (R318). -/
def State.overBudget (s : State) : Bool :=
  decide (3 * s.tick.period.toNat * s.prec.rrbForce.toNat < s.prec.used * 1000)

/-- PREC_CTRL in force: the register, in a replay the recorded value (R754). -/
def State.precCtrl (s : State) : BitVec 3 := match s.reh.replay with | some r => r.ctrl | none => s.prec.ctrl

/-- Over-scaling is allowed: OS_EN, outside safe mode and a replay (R326, R737, R754). -/
def State.osEnabled (s : State) : Bool := s.precCtrl.getLsbD 0 && !s.err.active && s.reh.replay.isNone

/-- Understudy sampling runs: US_EN, or safe mode (R338, R737). -/
def State.usEnabled (s : State) : Bool := s.precCtrl.getLsbD 1 || s.err.active

/-- WATCH_EN (R307). -/
def State.watchEnabled (s : State) : Bool := s.precCtrl.getLsbD 2

/-- The phase code of R683. CURTAIN and ADOPT pass within one command and are never seen between two. -/
def State.phase (s : State) : Nat :=
  if !s.readyOrRun then 15
  else match s.tick.running with
    | none => 0
    | some r =>
      if r.abandoned then 6
      else if s.prec.squash.isSome then 3
      else if s.allEnded then 4
      else if s.overBudget then 2 else 1

/-- The stamp of a latch: TICK [23:0], PHASE [27:24] and VALID [28] (R129, R682). -/
def State.stamp (s : State) (valid : Bool := true) : Word :=
  word (s.tick.count.toNat % 2 ^ 24 + s.phase * 2 ^ 24 + bitAt valid 28)

/-- The POS form of R180 of engine e of core c. -/
def posOf (c : CoreId) (e : Nat) : Nat := c.die.val * 2 ^ 14 + c.cl.val * 2 ^ 10 + c.core.val * 2 ^ 6 + e % 64

/-- The POS of a cluster unit: its cluster with core 0 and engine 0 (log 16). -/
def posOfCluster (c : ClusterId) : Nat := c.die.val * 2 ^ 14 + c.cl.val * 2 ^ 10

/-! ## Interrupts (R629 to R631, R805) -/

/-- Bus mastering of a port: bit 2 of the command register (log 17). -/
def PortSt.busMaster (p : PortSt) : Bool := p.command.getLsbD 2

/-- The port can issue requests: link up, out of reset, in D0, bus mastering on (R626, R652, R805). -/
def PortSt.canIssue (p : PortSt) : Bool := p.linkUp && !p.inReset && !p.d3hot && p.busMaster

/-- The MSI-X table's words of vector v: address, data, mask (log 17). -/
def PortSt.vecMasked (p : PortSt) (v : Nat) : Bool := (Tab.get 1 p.msixTable (4 * v + 3)).getLsbD 0

/-- The port can send vector v now (R805); a function whose MSI-X is not enabled sends none (log 17). -/
def PortSt.canMsix (p : PortSt) (v : Nat) : Bool :=
  p.canIssue && p.msixEnable && !p.msixFnMask && !p.vecMasked v

/-- Sends an MSI-X message, or sets the vector's pending bit (R805). -/
def State.msix (s : State) (p : Port) (v : Nat) : State :=
  if (s.port p).canMsix v then s.send (.msix p v)
  else s.modPort p (fun x => { x with msixPend := x.msixPend ||| BitVec.ofNat 64 (2 ^ v) })

/-! ## Events (R642, R643, R733 to R735, R746, R770) -/

/-- Bytes of records that the spill area holds after its header (16, "rehearsal of E-S", step 3). -/
def spillBytes : Nat := 192409600

/-- An event that is no rehearsal trigger of itself: its class counter, ERR_FIRST, the queue or LOST, and for class 0x9
the SMBus code and ALERT_N. An argument that no rule states is a free value (log 3). -/
def State.raiseRaw (s : State) (code : Nat) (arg1 : Option Nat := none) (arg0 : Option Nat := none)
    (pos : Nat := 0xFFFF) : State :=
  let k := code / 4096
  let n := s.free
  let s := { s with free := n + 1 }
  let s := s.modErr (fun e => { e with
    cls := Tab.set 0 e.cls k (bump (Tab.get 0 e.cls k)),
    first := match e.first with | none => some (BitVec.ofNat 16 code, word s.tick.count.toNat) | some x => some x })
  let s := if k = 9 then s.modPwr (fun p => { p with last9 := BitVec.ofNat 16 code, alert := true }) else s
  s.modHost (fun h =>
    if h.evtq.length < Config.eventQueueDepth then
      { h with
        evtq := h.evtq ++ [⟨BitVec.ofNat 16 code, BitVec.ofNat 16 pos, s.tick.count,
          (match arg0 with | some v => BitVec.ofNat 64 v | none => Config.freeDWord n),
          (match arg1 with | some v => word v | none => Config.freeWord n), h.lost⟩],
        lost := 0 }
    else { h with lost := bump h.lost, evtLost := bump h.evtLost })

/-- The newest records whose bytes together fit into n bytes. -/
def fitCount : Nat → List RehEntry → Nat
  | _, [] => 0
  | n, r :: t => if r.bytes ≤ n then fitCount (n - r.bytes) t + 1 else 0

/-- The oldest records dropped until `need` bytes are free in a ring of `cap`; none where a protected record (the oldest
`keep` from the newest side) would have to go (R745). -/
def makeRoom (cap need keep : Nat) : Nat → List RehEntry → Option (List RehEntry)
  | 0, l => if (l.map RehEntry.bytes).sum + need ≤ cap then some l else none
  | n + 1, l =>
    if (l.map RehEntry.bytes).sum + need ≤ cap then some l
    else if l.length ≤ keep then none else makeRoom cap need keep n l.dropLast

/-- The rehearsal ring's bytes (REH_SIZE in 4 KiB units). -/
def State.rehCap (s : State) : Nat := s.cfg.rehSize.toNat * 4096

/-- The device address of the rehearsal ring (REH_BASE in 4 KiB units). -/
def State.rehBaseAddr (s : State) : Nat := s.cfg.rehBase.toNat * 4096

/-- Writes bytes into memory without any check. -/
def State.poke (s : State) (a : Nat) (l : List Byte) : State := { s with mem := Tab.setRange memDefault s.mem a l }

/-- Reads bytes of memory without any check. -/
def State.peek (s : State) (a n : Nat) : List Byte := Tab.range memDefault s.mem a n

/-- Writes a record into the rehearsal ring, wrapping from its end to its base (R741, R745): the records that must stay
are the frozen ones. A record that does not fit is counted in REH_GAP, with event 0xA003 once a spill. -/
def State.rehWrite (s : State) (r : List Byte) (counts : Bool) : State :=
  let keep := if s.reh.frozen then s.reh.frozenSkip + s.reh.frozenLen else 0
  match makeRoom s.rehCap r.length keep s.reh.ring.length s.reh.ring with
  | none =>
    let s' := s.modReh (fun h => { h with gap := bump h.gap, gapRaised := true })
    if s.reh.gapRaised then s' else s'.raiseRaw 0xA003
  | some l =>
    let n := s.rehCap - s.reh.wpos
    let s := (s.poke (s.rehBaseAddr + s.reh.wpos) (r.take n)).poke s.rehBaseAddr (r.drop n)
    s.modReh (fun h => { h with
      ring := ⟨h.wpos, r.length⟩ :: l,
      wpos := (h.wpos + r.length) % s.rehCap,
      records := if counts then bump h.records else h.records })

/-- A 192-byte trigger marker (R743, R747): a header of TYPE 2 with the tick and no slots, and a trailer. -/
def triggerMarker (tick : Nat) : List Byte :=
  let h := leBytes 2 0x5248 ++ leBytes 2 2 ++ leBytes 4 192 ++ leBytes 8 tick ++ List.replicate 104 0
  let b := h ++ List.replicate 60 0
  b ++ leBytes 4 (crc32 b)

/-- A rehearsal trigger (R746 to R748): the marker, event 0xA001 and the freeze; or, while one is frozen or spilling,
REH_TRIG_LOST and event 0xA003. Without recording there is nothing to freeze (log 18). -/
def State.rehTrigger (s : State) (code : Word) : State :=
  if !s.cfg.rehEn then s
  else if s.reh.frozen || s.reh.spilling then
    (s.modReh (fun h => { h with trigLost := bump h.trigLost })).raiseRaw 0xA003
  else
    let s := s.rehWrite (triggerMarker s.tick.count.toNat) false
    let s := s.raiseRaw 0xA001
    s.modReh (fun h => { h with
      frozen := true, trigCode := code, trigTick := s.tick.count, gapRaised := false, frozenSkip := 0,
      trigLeft := some (h.post.toNat + if s.tick.running.isSome then 1 else 0),
      frozenLen := fitCount spillBytes h.ring })

/-- The event's class bit or its code is set as a trigger (R746). -/
def State.triggersOn (s : State) (code : Nat) : Bool :=
  (decide (0 < code / 4096) && s.reh.triggerMask.getLsbD (code / 4096 - 1)) ||
  (List.range 4).any (fun i => decide ((Tab.get 0 s.reh.codes i).toNat % 65536 = code) && decide (code ≠ 0))

/-- Raises an event. The events that a trigger itself raises are no triggers (log 18). -/
def State.raise (s : State) (code : Nat) (arg1 : Option Nat := none) (arg0 : Option Nat := none)
    (pos : Nat := 0xFFFF) : State :=
  let s' := s.raiseRaw code arg1 arg0 pos
  if s.triggersOn code then s'.rehTrigger (word code) else s'

/-! ## Faults of a tick (R503 to R505, R731) -/

/-- An engine without the work of cancelled matrix instructions; `live` names those that stay. -/
def EngineSt.cancel (x : EngineSt) (live : Nat → Bool) (loadA loadB : Bool) : EngineSt :=
  let keep := fun (b : Option PlaneBuf) => b.filter (fun p => live p.op)
  let run := x.pass.filter (fun p => live p.buf.op)
  { x with
    buf0 := keep x.buf0, buf1 := keep x.buf1, pass := run, contribs := x.contribs.filter (fun t => live t.op),
    sums := x.sums.filter (fun t => live t.op), state := if run.isNone && x.state != 7 then 0 else x.state,
    readingA := x.readingA && run.isSome, readingB := x.readingB && run.isSome, loadingA := loadA, loadingB := loadB }

/-- A core whose queued instructions of ordinal or epoch v or later are cancelled (R455, R505). -/
def CoreSt.cancelFrom (k : CoreSt) (v : Nat) : CoreSt :=
  let chain := k.chainQ.filter (fun o => decide (o.ord.toNat < v))
  let loads := k.loadQ.filter (fun o => decide (o.ord.toNat < v))
  let on := fun (e : Nat) (bank : Bool) =>
    loads.any (fun (o : LoadOp) => o.bank == bank && decide (o.first ≤ e) && decide (e < o.first + o.n))
  { k with
    chainQ := chain, loadQ := loads, convQ := k.convQ.filter (fun o => decide (o.ord.toNat < v)),
    convOut := k.convOut.filter (fun o => decide (o.epoch.toNat < v)), euQ := k.euQ.filter (fun o => decide (o.ord.toNat < v)),
    dmaQ := k.dmaQ.filter (fun o => decide (o.epoch.toNat < v)), dieQ := k.dieQ.filter (fun o => decide (o.epoch.toNat < v)),
    sb := k.sb.filter (fun o => decide (o.epoch < v)),
    engines := k.engines.map (fun e =>
      (e.1, e.2.cancel (fun id => chain.any (fun o => o.id == id)) (on e.1 false) (on e.1 true))) }

/-- A core whose queued instructions are all cancelled: the converter holds no range (R505). -/
def CoreSt.cancelWork (k : CoreSt) : CoreSt :=
  let k := k.cancelFrom 0
  { k with ocv := { k.ocv with held := 0, state := 0 } }

/-- Abandons the running tick (R505): issue stops, queued instructions are cancelled, the curtain will roll back the
whole step. Writes that have been carried out stay. -/
def State.abandonTick (s : State) : State :=
  match s.tick.running with
  | none => s
  | some r =>
    if r.abandoned then s
    else
      { s with
        tick := { s.tick with
          abandoned := bump s.tick.abandoned,
          running := some { r with wholeFault := true, abandoned := true } },
        core := s.core.map (fun e => (e.1, e.2.cancelWork)),
        clu := s.clu.map (fun e => (e.1, { e.2 with svuQ := [], waiting := [], topIn := [], scatIn := [] })),
        prec := { s.prec with squash := none } }

/-- A fault in shared work: the tick controller abandons the tick at the first one (R503, R505). -/
def State.sharedFault (s : State) : State := s.abandonTick

/-- The whole step of the running tick rolls back, though the tick runs on (R494, R497). -/
def State.wholeStepFault (s : State) : State :=
  match s.tick.running with
  | none => s
  | some r => { s with tick := { s.tick with running := some { r with wholeFault := true } } }

/-- Slots whose step of the running tick rolls back (R503). -/
def State.slotFault (s : State) (m : BitVec 256) : State :=
  match s.tick.running with
  | none => s
  | some r => { s with tick := { s.tick with running := some { r with slotFail := r.slotFail ||| m } } }

/-- An event raised once in each tick: it is raised unless the running tick has raised it. -/
def State.raiseOnce (s : State) (code : Nat) : State :=
  match s.tick.running with
  | none => s.raise code
  | some r =>
    if r.once.contains code then s
    else ({ s with tick := { s.tick with running := some { r with once := code :: r.once } } }).raise code

/-! ## Addresses (R2, R350, R351, R526, R530, R588, R792) -/

/-- What a device address names. -/
inductive Place where
  | fast
  | deep
  | kv
  | spm (r : Region) (off : Nat)
  | regs (off : Nat)
  | window (h : Nat) (off : Nat)
  | hole
  deriving DecidableEq, Repr

/-- The core region's or cluster region's base address (R350). -/
def regionBase : Region → Nat
  | .cluster c => 0x40000000000 + c.die.val * 0x10000000 + c.cl.val * 0x1000000
  | .core c => 0x40000000000 + c.die.val * 0x10000000 + c.cl.val * 0x1000000 + 0x400000 + c.core.val * 0x80000

/-- The region's bytes (R350). -/
def regionBytes : Region → Nat
  | .cluster _ => 0x400000
  | .core _ => 0x80000

/-- The cluster of a region. -/
def regionClu : Region → ClusterId
  | .cluster c => c
  | .core c => c.cluster

/-- The place of a scratchpad offset from 0x400_0000_0000 (R350, R351). -/
def spmPlace (x : Nat) : Place :=
  let d := Fin.ofNat 4 (x / 0x10000000)
  let c := Fin.ofNat 16 (x / 0x1000000)
  let o := x % 0x1000000
  if o < 0x400000 then .spm (.cluster ⟨d, c⟩) o
  else if o < 0xC00000 then .spm (.core ⟨d, c, Fin.ofNat 16 ((o - 0x400000) / 0x80000)⟩) ((o - 0x400000) % 0x80000)
  else .hole

/-- The place of a device address (R792), by variant (R2). -/
def State.place (s : State) (a : Nat) : Place :=
  if a < (if s.is4008 then 0x4000000000 else 0x8000000000) then .fast
  else if a < 0x10000000000 then .hole
  else if a < (if s.is4008 then 0x1C000000000 else 0x28000000000) then .deep
  else if a < 0x30000000000 then .hole
  else if a < 0x40000000000 then .kv
  else if a < 0x40040000000 then spmPlace (a - 0x40000000000)
  else if a < 0x50000000000 then .hole
  else if a < 0x50010000000 then .regs (a - 0x50000000000)
  else if a < 0x60000000000 then .hole
  else if a < 0x70000000000 then .window ((a - 0x60000000000) / 2 ^ 34) ((a - 0x60000000000) % 2 ^ 34)
  else .hole

/-- The place is a stack. -/
def Place.isStack : Place → Bool
  | .fast => true
  | .deep => true
  | _ => false

/-- The place is scratchpad. -/
def Place.isSpm : Place → Bool
  | .spm _ _ => true
  | _ => false

/-- Two places belong to one memory: one tier, one scratchpad region. -/
def Place.same : Place → Place → Bool
  | .fast, .fast => true
  | .deep, .deep => true
  | .spm r _, .spm t _ => r == t
  | .kv, .kv => true
  | .window h _, .window k _ => h == k
  | _, _ => false

/-- Every 32-byte granule of a range lies in the stacks or in scratchpad (R3, R646). -/
def State.rangeMapped (s : State) (a : Nat) : Nat → Bool
  | 0 => true
  | n + 1 => ((s.place (a + 32 * n)).isStack || (s.place (a + 32 * n)).isSpm) && s.rangeMapped a n

/-- Where a stack address lies (R526): die, port, deep tier, channel, channel offset. -/
structure StackLoc where
  die : Nat
  port : Nat
  deep : Bool
  ch : Nat
  off : Nat
  deriving DecidableEq, Repr

/-- The map of R526 for both arrangements: nb bits of channel number, chunks of 2^cb bytes. -/
def foldMap (nb cb p : Nat) : Nat × Nat :=
  let b := p / 2 ^ (cb + nb)
  let slot := (p / 2 ^ cb % 2 ^ nb) ^^^ (b % 2 ^ nb) ^^^ (b / 2 ^ nb % 2 ^ nb)
  (slot, b * 2 ^ cb + p % 2 ^ cb)

/-- R526. -/
def State.stackMap (s : State) (a : Nat) : StackLoc :=
  let h := if s.is4008 then 1 else 0
  if a < 0x10000000000 then
    let m := foldMap (9 - h) 8 (a % 2 ^ (37 - h))
    ⟨a / 2 ^ (37 - h) % 4, m.1 / 128, false, m.1 % 128, m.2⟩
  else
    let sz := if s.is4008 then 0x3000000000 else 0x6000000000
    let x := a - 0x10000000000
    let m := foldMap (7 - h) 10 (x % sz)
    ⟨x / sz, m.1 / 32, true, m.1 % 32, m.2⟩

/-- The stack number of a location (R46). -/
def StackLoc.stk (l : StackLoc) : Nat := 4 * l.die + l.port

/-- The channel's number in STK_LIDX (R555). -/
def StackLoc.chan (l : StackLoc) : Nat := if l.deep then 128 + l.ch else l.ch

/-- The stack-local key of a granule: its channel and its place in the channel. -/
def granuleKey (chan off : Nat) : Nat := chan * 2 ^ 27 + off / 32

/-- The device address of a stack location, the inverse of R526. -/
def State.stackAddr (s : State) (stk : Nat) (chan off : Nat) : Nat :=
  let h := if s.is4008 then 1 else 0
  let deep := decide (128 ≤ chan)
  let nb := if deep then 7 - h else 9 - h
  let cb := if deep then 10 else 8
  let slot := if deep then stk % 4 * 32 + (chan - 128) else stk % 4 * 128 + chan
  let b := off / 2 ^ cb
  let lo := slot ^^^ (b % 2 ^ nb) ^^^ (b / 2 ^ nb % 2 ^ nb)
  let x := (b * 2 ^ nb + lo % 2 ^ nb) * 2 ^ cb + off % 2 ^ cb
  if deep then 0x10000000000 + stk / 4 * (if s.is4008 then 0x3000000000 else 0x6000000000) + x
  else stk / 4 * 2 ^ (37 - h) + x

/-! ## Scratchpad words (R397 to R399) -/

/-- The UE address latch form: byte offset, bit 22 the cluster region, [26:23] the core (08, SPM_UE_ADDR). -/
def ueForm (r : Region) (off : Nat) : Nat :=
  match r with
  | .cluster _ => off % 2 ^ 22 + 2 ^ 22
  | .core c => off % 2 ^ 22 + c.core.val * 2 ^ 23

/-- An armed injection lies in the words [a, a + n) of a tier (R739). -/
def State.injHits (s : State) (tier : Bool) (a n : Nat) : Bool :=
  let g := if tier then 32 else 4
  s.err.injArm && (s.err.injLatchTier == tier) && decide (a / g ≤ s.err.injLatch.toNat / g) &&
    decide (s.err.injLatch.toNat / g ≤ (a + n - 1) / g)

/-- The injection fires: it disarms, counts and raises event 0xA030 (R739). -/
def State.injFire (s : State) : State :=
  (s.modErr (fun e => { e with injArm := false, injFired := true, injected := bump e.injected })).raise 0xA030

/-- A read of scratchpad words: whether it delivers, with the corrections, the counts and the events of R398, R399. An
injection fires only on a read by work or a host, `live` (log 39). -/
def State.readSpm (s : State) (r : Region) (off n : Nat) (live : Bool := true) : Bool × State :=
  let a := regionBase r + off
  let inR := fun w => decide (a / 4 ≤ w) && decide (w ≤ (a + n - 1) / 4)
  let ones := s.badOne.filter inR
  let s := { s with badOne := s.badOne.filter (fun w => !inR w) }
  let s := if ones.isEmpty then s else s.modClu (regionClu r).num (fun c => { c with ce := bump c.ce ones.length })
  let bad := s.badTwo.filter inR
  let inj := live && s.injHits false a n
  if bad.isEmpty && !inj then (true, s)
  else
    let at_ := if inj then s.err.injLatch.toNat / 4 * 4 else (bad.headD 0) * 4
    let s := s.modClu (regionClu r).num (fun c => { c with
      ue := bump c.ue, ueAddr := BitVec.ofNat 27 (ueForm r (at_ - regionBase r)) })
    let s := s.raise 0x4140 none none (match r with | .core c => posOf c 0 | .cluster c => posOfCluster c)
    (false, if inj then s.injFire else s)

/-! ## Stack granules (R541 to R550) -/

/-- Adds to a plain set of triples. -/
def addOnce {α : Type} [DecidableEq α] (l : List α) (x : α) : List α := if l.contains x then l else x :: l

/-- A row is spared (R548), or its bank has no spare left (R550). -/
def State.spareRow (s : State) (k : Nat) (deep : Bool) (row : Nat) : State :=
  let bank := Config.bankOf deep row * 2 + if deep then 1 else 0
  let used := Tab.get 0 (s.stkAt k).spareUsed bank
  let lim := if deep then 32 else 16
  if used < lim then
    let left : BitVec 16 := BitVec.ofNat 16 (lim - (used + 1))
    (s.modStk k (fun t => { t with
      spareUsed := Tab.set 0 t.spareUsed bank (used + 1), repair := true, spared := bump t.spared,
      sparesFast := if !deep && decide (left < t.sparesFast) then left else t.sparesFast,
      sparesDeep := if deep && decide (left < t.sparesDeep) then left else t.sparesDeep })).raise 0x4103
  else (s.modStk k (fun t => { t with state := 4 })).raise 0x4104

/-- Reports an uncorrectable stack read (R545): counted, latched, event 0x4100. -/
def State.stkUe (s : State) (k a : Nat) : State :=
  (s.modStk k (fun t => { t with ue := bump t.ue, ueAddr := BitVec.ofNat 44 a })).raise 0x4100

/-- Marks a lane failed (R542). -/
def State.markLane (s : State) (k chan lane : Nat) : State :=
  (s.modStk k (fun t => { t with
    laneMap := Tab.set 0 t.laneMap chan (Tab.get 0 t.laneMap chan ||| BitVec.ofNat 9 (2 ^ lane)),
    lanesMarked := bump t.lanesMarked })).raise 0x4101

/-- The granule's errors on a read (R541 to R544, R548): whether it delivers, with the corrections, counts and repairs.
`row` is the channel row. -/
def State.granuleRead (s : State) (k chan off : Nat) : Bool × State :=
  let t := s.stkAt k
  let deep := decide (128 ≤ chan)
  let row := chan * 2 ^ 22 + off / (if deep then 2048 else 1024)
  if t.dead.contains chan then (false, s)
  else
    match t.errs.find? (fun e => e.1 == granuleKey chan off) with
    | none => (true, s)
    | some (key, e) =>
      let marked := Tab.get 0 t.laneMap chan
      if e.uncorrectable then (false, s.spareRow k deep row)
      else if marked.getLsbD e.lane then (true, s)
      else if marked ≠ 0 then
        (false, (s.modStk k (fun t => { t with dead := addKey t.dead chan, state := 4 })).raise 0x4102)
      else
        let hits := addOnce t.laneHits (chan, e.lane, row)
        let rows := addOnce t.rowHits (row, key)
        let s := s.modStk k (fun t => { t with
          errs := Tab.erase t.errs key, laneHits := hits, rowHits := rows,
          ceFast := if deep then t.ceFast else bump t.ceFast, ceDeep := if deep then bump t.ceDeep else t.ceDeep })
        let s := if 3 ≤ (hits.filter (fun h => h.1 == chan && h.2.1 == e.lane)).length then s.markLane k chan e.lane else s
        let s := if (rows.filter (fun h => h.1 == row)).length = 4 then s.spareRow k deep row else s
        (true, s)

/-- A read of a granule by anyone but the patrol: an uncorrectable one is reported (R545), an armed injection makes it so
(R739). -/
def State.readGranule (s : State) (k chan off a : Nat) : Bool × State :=
  let r := s.granuleRead k chan off
  if !r.1 then (false, r.2.stkUe k a)
  else if s.injHits true a 1 then (false, (r.2.stkUe k a).injFire)
  else r

/-- Reads n granules from a granule-aligned stack address; stops at the first that does not deliver. -/
def State.readGranules (s : State) (a : Nat) : Nat → Bool × State
  | 0 => (true, s)
  | n + 1 =>
    let l := s.stackMap a
    let r := s.readGranule l.stk l.chan l.off a
    if r.1 then r.2.readGranules (a + 32) n else r

/-- A checked read of [a, a + n) inside one memory: whether it delivers, with every effect. -/
def State.readDev (s : State) (a n : Nat) : Bool × State :=
  if n = 0 then (true, s)
  else
    match s.place a with
    | .spm r off => s.readSpm r off n
    | .fast => s.readGranules (a / 32 * 32) ((a + n - 1) / 32 - a / 32 + 1)
    | .deep => s.readGranules (a / 32 * 32) ((a + n - 1) / 32 - a / 32 + 1)
    | _ => (false, s)

/-- A write to memory: new data with new check bits in every word or granule it touches (R546, R397). -/
def State.writeDev (s : State) (a : Nat) (l : List Byte) : State :=
  if l.isEmpty then s
  else
    let s := s.poke a l
    let last := a + l.length - 1
    match s.place a with
    | .spm _ _ =>
      let out := fun w => !(decide (a / 4 ≤ w) && decide (w ≤ last / 4))
      { s with badOne := s.badOne.filter out, badTwo := s.badTwo.filter out }
    | .fast => { s with stk := s.stk.map (fun e => (e.1, { e.2 with
        errs := e.2.errs.filter (fun g => let x := s.stackAddr e.1 (g.1 / 2 ^ 27) (g.1 % 2 ^ 27 * 32)
          !(decide (a / 32 ≤ x / 32) && decide (x / 32 ≤ last / 32))) })) }
    | .deep => { s with stk := s.stk.map (fun e => (e.1, { e.2 with
        errs := e.2.errs.filter (fun g => let x := s.stackAddr e.1 (g.1 / 2 ^ 27) (g.1 % 2 ^ 27 * 32)
          !(decide (a / 32 ≤ x / 32) && decide (x / 32 ≤ last / 32))) })) }
    | _ => s

/-! ## Device rings (R366 to R376, R384 to R388) -/

/-- The ring's bytes. -/
def RingSt.cap (r : RingSt) : Nat := (r.sizeM1.toNat + 1) * 128

/-- Bytes from one pointer to another. -/
def RingSt.dist (r : RingSt) (lo hi : Nat) : Nat := (hi + 2 * r.cap - lo) % (2 * r.cap)

/-- A pointer moved on (R366). -/
def RingSt.adv (r : RingSt) (p n : Nat) : Nat := (p + n) % (2 * r.cap)

/-- Bytes that the consumer may read (R367). -/
def RingSt.readable (r : RingSt) : Nat := r.dist r.head (if r.spec then r.tail else r.ctail)

/-- The ring is full for an entry of n bytes (R367). -/
def RingSt.fullFor (r : RingSt) (n : Nat) : Bool := decide (r.cap < r.dist r.free r.tail + n)

/-- The ring's region. -/
def RingSt.region (r : RingSt) (c : CoreId) : Region := if r.loc then .cluster c.cluster else .core c

/-- Where byte p of the ring lies, as a device address (R366). -/
def RingSt.addr (r : RingSt) (c : CoreId) (p : Nat) : Nat := regionBase (r.region c) + r.base.toNat * 128 + p % r.cap

/-- The ring's pointers and marks at 0 (R395, R402). -/
def RingSt.clear (r : RingSt) : RingSt :=
  { r with head := 0, free := 0, tail := 0, ctail := 0, turn := 0, marks := [], full := false, pwait := false,
           cwait := false, stopped := false, resv := [], cueAt := .reset }

/-- Writes bytes at ring position p, wrapping. -/
def State.ringPut (s : State) (c : CoreId) (q p : Nat) (l : List Byte) : State :=
  let r := s.ringAt c q
  let n := r.cap - p % r.cap
  (s.writeDev (r.addr c p) (l.take n)).writeDev (r.addr c 0) (l.drop n)

/-- Reads n bytes from ring position p, wrapping, without the checks. -/
def State.ringGet (s : State) (c : CoreId) (q p n : Nat) : List Byte :=
  let r := s.ringAt c q
  let k := r.cap - p % r.cap
  s.peek (r.addr c p) (min n k) ++ s.peek (r.addr c 0) (n - min n k)

/-- A checked read from ring position p: whether it delivers, with every effect. -/
def State.ringRead (s : State) (c : CoreId) (q p n : Nat) : Bool × State :=
  let r := s.ringAt c q
  let k := r.cap - p % r.cap
  let a := s.readDev (r.addr c p) (min n k)
  if a.1 then a.2.readDev (r.addr c 0) (n - min n k) else a

/-- What a push or a release at an epoch may do now. -/
inductive MarkStep where
  | wait
  | plain
  | mark (m : RingMark)
  deriving DecidableEq, Repr

/-- R384 to R386: no mark for a confirmed epoch or one that the youngest mark has; otherwise a ninth mark and an epoch
lower than the youngest mark's wait. -/
def RingSt.markStep (r : RingSt) (conf : Nat) (e : BitVec 16) (tp : Bool) : MarkStep :=
  match r.marks.getLast? with
  | some m =>
    if e < m.epoch then .wait else if e = m.epoch then .plain
    else if r.marks.length < 8 then .mark ⟨e, tp, r.head, r.tail, r.turn⟩ else .wait
  | none => if e.toNat ≤ conf then .plain else .mark ⟨e, tp, r.head, r.tail, r.turn⟩

/-- With the mark of a push or a release taken. -/
def RingSt.addMark (r : RingSt) : MarkStep → RingSt
  | .mark m => { r with marks := r.marks ++ [m] }
  | _ => r

/-- Without marks everything is confirmed: CTAIL and FREE follow (R387). -/
def RingSt.settle (r : RingSt) : RingSt := if r.marks.isEmpty then { r with ctail := r.tail, free := r.head } else r

/-- The confirmation of an epoch reaches the ring (R387): marks up to it go, CTAIL and FREE advance. -/
def RingSt.confirm (r : RingSt) (e : Nat) : RingSt :=
  let gone := r.marks.filter (fun m => decide (m.epoch.toNat ≤ e))
  let rest := r.marks.filter (fun m => !decide (m.epoch.toNat ≤ e))
  if gone.isEmpty then r
  else
    match rest with
    | m :: _ => { r with marks := rest, ctail := m.tail, free := m.head, pwait := false, cwait := false }
    | [] => { r with marks := [], ctail := r.tail, free := r.head, pwait := false, cwait := false }

/-- A squash at ordinal v (R388): pointers from the oldest mark at or above v. -/
def RingSt.squash (r : RingSt) (v : Nat) : RingSt :=
  match r.marks.find? (fun m => decide (v ≤ m.epoch.toNat)) with
  | none => r
  | some m => { r with head := m.head, tail := m.tail, turn := m.turn,
                       marks := r.marks.filter (fun x => !decide (v ≤ x.epoch.toNat)), pwait := false, cwait := false }

/-- At each curtain a DISCARD ring drops what no re-run has read (R392). -/
def RingSt.discardAll (r : RingSt) : RingSt :=
  { r with head := r.tail, free := r.tail, ctail := r.tail, marks := [] }

/-- The ring's row of the script's ring table. -/
def State.ringRow (s : State) (c : CoreId) (q : Nat) : Option RingCfg :=
  s.cfg.rings.find? (fun r => r.core == c && decide (r.q.val = q))

/-- A ring is inbound when its row names a link port or host DMA (R507). -/
def State.ringInbound (s : State) (c : CoreId) (q : Nat) : Bool :=
  match s.ringRow c q with
  | none => false
  | some r => r.producers.any (fun p => match p with | .linkPort _ => true | .hostDma => true | _ => false)

/-- The producer's index in the ring (R375). -/
def State.producerIndex (s : State) (c : CoreId) (q : Nat) (p : Producer) : Option Nat :=
  (s.ringRow c q).bind (fun r => r.producers.findIdx? (fun x => x == p))

/-- The outcome of a push or a release. -/
inductive RingStep where
  | done (s : State)
  | wait (s : State)

/-- Whether a producer has its turn (R374, R375). -/
def State.hasTurn (s : State) (c : CoreId) (q : Nat) (p : Producer) : Bool :=
  (s.ringAt c q).nprodM1 == 0 || s.producerIndex c q p == some (s.ringAt c q).turn.toNat

/-- A producer waits: its reservation is queued (R376). -/
def RingSt.queueResv (r : RingSt) (i : Option Nat) : RingSt :=
  match i with
  | none => { r with pwait := true }
  | some i =>
    if r.resv.contains i || decide (16 ≤ r.resv.length) then { r with pwait := true }
    else { r with pwait := true, resv := r.resv ++ [i] }

/-- Pushes the bytes of one entry (R367 to R369, R374 to R376, R384 to R386): all of its bytes, then TAIL; or the producer
waits. -/
def State.pushBytes (s : State) (c : CoreId) (q : Nat) (p : Producer) (e : BitVec 16) (l : List Byte) : RingStep :=
  let r := s.ringAt c q
  let m := r.markStep (s.coreAt c).conf e (s.tick.count.getLsbD 0)
  if !s.hasTurn c q p then .wait (s.modRing c q (fun r => r.queueResv (s.producerIndex c q p)))
  else if m = .wait then .wait (s.modRing c q (fun r => { r with pwait := true }))
  else if r.fullFor l.length then .wait (s.modRing c q (fun r => { r with full := true }))
  else
    let s := s.ringPut c q r.tail l
    .done (s.modRing c q (fun r =>
      ({ r.addMark m with
          tail := r.adv r.tail l.length, full := false, pwait := false,
          resv := r.resv.filter (fun i => !(i == r.turn.toNat)),
          turn := if r.nprodM1 = 0 then r.turn else BitVec.ofNat 4 ((r.turn.toNat + 1) % (r.nprodM1.toNat + 1)) }).settle))

/-- Releases n bytes from HEAD (R370, R384 to R386), or the consumer waits. -/
def State.releaseBytes (s : State) (c : CoreId) (q : Nat) (e : BitVec 16) (n : Nat) : RingStep :=
  let r := s.ringAt c q
  let m := r.markStep (s.coreAt c).conf e (s.tick.count.getLsbD 0)
  if r.readable < n then .wait s
  else if m = .wait then .wait (s.modRing c q (fun r => { r with cwait := true }))
  else .done (s.modRing c q (fun r => ({ r.addMark m with head := r.adv r.head n, cwait := false }).settle))

/-- The parity bit of 63 bits: makes the number of 1 bits even (R372). -/
def parity (n : Nat) : Nat := ((List.range 63).filter (fun i => bitOf n i)).length % 2

/-- A frame word (R372). -/
def frameWord (words kind epoch : Nat) (tp : Bool) : Nat :=
  let b := words % 2 ^ 24 + kind % 16 * 2 ^ 24 + epoch % 2 ^ 16 * 2 ^ 28 + bitAt tp 44
  b + parity b * 2 ^ 63

/-- The bytes of one framed entry; the body is padded to 8-byte words. -/
def framed (kind : Nat) (e : BitVec 16) (tp : Bool) (body : List Byte) : List Byte :=
  let w := (body.length + 7) / 8
  leBytes 8 (frameWord w kind e.toNat tp) ++ body ++ List.replicate (8 * w - body.length) 0

/-- An event 0x4142 on a ring (R373, R798): FRAME_ERR and a fault in shared work. -/
def State.ringFault (s : State) (c : CoreId) (q : Nat) : State :=
  ((s.modRing c q (fun r => { r with frameErr := true, stopped := true })).raise 0x4142 none none (posOf c 0)).sharedFault

/-- A push by a unit into a ring in its form: framed, or ESIZE entries (R371, R372); a disabled ring faults (R798). -/
def State.pushUnit (s : State) (c : CoreId) (q : Nat) (p : Producer) (kind : Nat) (e : BitVec 16) (body : List Byte) :
    RingStep :=
  let r := s.ringAt c q
  if !r.en then .done (s.ringFault c q)
  else if r.esize = 0 then s.pushBytes c q p e (framed kind e (s.tick.count.getLsbD 0) body)
  else s.pushBytes c q p e (body ++ List.replicate (r.esize.toNat * 8 - body.length) 0)

/-- The state of a step that is done or waits. -/
def RingStep.state : RingStep → State
  | .done s => s
  | .wait s => s

/-- The step is done. -/
def RingStep.isDone : RingStep → Bool
  | .done _ => true
  | .wait _ => false

/-! ## Reach (R52 to R54, R362, R363) -/

/-- Mesh distance 1 in a 4 × 4 mesh (R51, R52). -/
def meshAdjacent (a b : Nat) : Bool :=
  (a / 4 == b / 4 && (a % 4 + 1 == b % 4 || b % 4 + 1 == a % 4)) ||
  (a % 4 == b % 4 && (a / 4 + 1 == b / 4 || b / 4 + 1 == a / 4))

/-- Dies joined by a bridge (R54). -/
def diesJoined (a b : Nat) : Bool := decide (a % 2 ≠ b % 2 ∧ a / 2 = b / 2) || decide (a % 2 = b % 2 ∧ a / 2 ≠ b / 2)

/-- A core reaches a region (R362). -/
def coreReaches (c : CoreId) : Region → Bool
  | .core d => decide (d.cluster = c.cluster) && (d.core == c.core || meshAdjacent c.core.val d.core.val)
  | .cluster d => decide (d = c.cluster)

/-- A cluster unit reaches a region (R362). -/
def clusterReaches (c : ClusterId) : Region → Bool
  | .core d => decide (d.cluster = c)
  | .cluster d => decide (d = c) || (d.die == c.die && meshAdjacent c.cl.val d.cl.val)

/-- The die controller's DMA of die d reaches a place (R362). -/
def State.dieReaches (s : State) (d a : Nat) : Bool :=
  match s.place a with
  | .spm r _ => (regionClu r).die.val == d || diesJoined d (regionClu r).die.val
  | .fast => (s.stackMap a).die == d
  | .deep => (s.stackMap a).die == d
  | .kv => true
  | .window _ _ => true
  | _ => false

/-- An access beyond reach or into a hole (R351, R363): counted, event 0x4141, a fault in shared work. -/
def State.reachFault (s : State) (c : CoreId) : State :=
  ((s.modClu c.cluster.num (fun k => { k with reach := bump k.reach })).raise 0x4141 none none (posOf c 0)).sharedFault

/-! ## Accesses through a port (R11, R615, R652) -/

/-- The port decodes its BARs (R652): its link is up, it is out of reset and in D0, and the device is powered. -/
def State.decodes (s : State) (p : Port) : Bool :=
  let x := s.port p
  x.linkUp && !x.inReset && !x.d3hot && s.glb.st != .off

/-- A write through a port that does not decode reaches nothing (R652). -/
def State.via (s : State) (p : Port) (f : State → State) : State := if s.decodes p then f s else s

/-- A write that only the owner port may make: from the standby it is discarded, counted and raises event 0x6002. -/
def State.ownerOnly (s : State) (p : Port) (f : State → State) : State :=
  s.via p fun s =>
    if p = s.host.owner then f s
    else (s.modHost (fun h => { h with discards := bump h.discards })).raise 0x6002

/-! ## Resources of a port (R622) -/

/-- A host ring by name. -/
def HostSt.ring (h : HostSt) : HostRing → HostRingSt
  | .admission => h.adm
  | .result => h.res
  | .event => h.evt
  | .command => h.cmd

/-- Changes a host ring. -/
def HostSt.setRing (h : HostSt) (r : HostRing) (x : HostRingSt) : HostSt :=
  match r with
  | .admission => { h with adm := x }
  | .result => { h with res := x }
  | .event => { h with evt := x }
  | .command => { h with cmd := x }

/-- The number of entries of a host ring (R623). -/
def HostRingSt.entries (r : HostRingSt) : Nat := 2 ^ r.log2n.toNat

/-- The owner's port. -/
def State.ownerPort (s : State) : PortSt := s.port s.host.owner

/-- A write to host memory through a port. -/
def State.hostWrite (s : State) (p : Port) (addr : Nat) (l : List Byte) : State :=
  s.send (.hostWrite p (BitVec.ofNat 64 addr) l)

end Sys2Proof.Machine
end

