-- ==== Sys2Proof/Machine/Operands.lean ====
section
/-! DEFINITION. Operand forms: instruction words and their legality, tile descriptors, layer descriptors
(09, R411 to R415, R419 to R443, R461, R807). -/

namespace Sys2Proof.Machine

/-! ## Instruction words (R419, R420, R807) -/

/-- Bits [hi:lo] of an instruction. -/
def bitsOf (w : DWord) (hi lo : Nat) : Nat := field w.toNat hi lo

/-- The opcode. -/
def opOf (w : DWord) : Nat := bitsOf w 63 56

/-- D, A, B, FN and IMM of the control and scalar group, and I (R421). -/
def fD (w : DWord) : Nat := bitsOf w 55 51
/-- Field A. -/
def fA (w : DWord) : Nat := bitsOf w 50 46
/-- Field B. -/
def fB (w : DWord) : Nat := bitsOf w 45 41
/-- Field I. -/
def fI (w : DWord) : Bool := bitOf w.toNat 40
/-- Field FN. -/
def fFN (w : DWord) : Nat := bitsOf w 39 36
/-- Field IMM. -/
def fIMM (w : DWord) : Nat := bitsOf w 31 0

/-- A mask of bits [hi:lo]. -/
def maskBits (hi lo : Nat) : Nat := (2 ^ (hi + 1 - lo) - 1) * 2 ^ lo

/-- The bits of [55:0] that an opcode names (R419, R421, R424, R428, R435, R443, R807); none for an opcode outside the
tables. -/
def usedBits (w : DWord) : Option Nat :=
  let d := maskBits 55 51
  let a := maskBits 50 46
  let b := maskBits 45 41
  let i := maskBits 40 40
  let fn := maskBits 39 36
  let imm := maskBits 31 0
  match opOf w with
  | 0x00 => some 0
  | 0x01 => some 0
  | 0x02 => some (i + imm + if fI w then a else 0)
  | 0x03 => some (a + b + fn + imm)
  | 0x04 => some (maskBits 53 51 + imm)
  | 0x05 => some (fn + (if fFN w = 1 then maskBits 53 51 else d) + if fFN w ≤ 1 then imm else 0)
  | 0x06 => some (d + a + i + fn + if fI w then imm else b)
  | 0x07 => some (d + a + imm)
  | 0x08 => some (a + b + imm)
  | 0x09 => some (maskBits 54 51 + a + imm)
  | 0x0A => some (maskBits 54 51 + a + imm)
  | 0x0B => some (a + b + imm)
  | 0x10 => some 0
  | 0x11 => some (maskBits 55 52)
  | 0x12 => some (a + maskBits 15 0)
  | 0x20 => some (maskBits 55 31)
  | 0x21 => some (maskBits 55 42)
  | 0x22 => some (maskBits 55 25)
  | 0x23 => some (maskBits 55 25)
  | 0x24 => some (maskBits 55 39)
  | 0x25 => some (maskBits 55 47 + imm)
  | 0x30 => some (maskBits 55 33)
  | 0x31 => some (maskBits 55 33)
  | 0x32 => some (maskBits 55 33)
  | 0x33 => some (maskBits 55 33)
  | 0x34 => some (maskBits 55 33)
  | 0x35 => some (maskBits 55 33)
  | 0x36 => some (maskBits 48 39 + maskBits 37 33)
  | 0x37 => some (maskBits 54 31)
  | 0x38 => some (maskBits 54 39)
  | 0x39 => some (maskBits 55 38)
  | 0x40 => some (maskBits 55 35)
  | 0x48 => some (maskBits 55 52)
  | 0x4C => some (maskBits 55 45 + maskBits 40 24)
  | 0x4D => some (maskBits 55 46)
  | 0x50 => some (a + b)
  | 0x51 => some (maskBits 55 48)
  | _ => none

/-- A code field holds a reserved value (R420). -/
def reservedCode (w : DWord) : Bool :=
  match opOf w with
  | 0x06 => decide (12 < fFN w)
  | 0x03 => decide (5 < fFN w)
  | 0x05 => decide (4 < fFN w)
  | 0x40 => bitsOf w 55 54 == 3
  | 0x22 => bitsOf w 51 50 == 3
  | 0x23 => bitsOf w 51 50 == 3
  | _ => false

/-- PC + IMM of a branch, IMM as a two's complement word. -/
def branchTo (pc : Nat) (w : DWord) : Nat := (pc + fIMM w) % 2 ^ 32

/-- A branch whose target lies beyond index 4,095 (R420). `sa` is S[A]. -/
def badTarget (pc sa : Nat) (w : DWord) : Bool :=
  match opOf w with
  | 0x02 => decide (4095 < if fI w then (sa + fIMM w) % 2 ^ 32 else branchTo pc w)
  | 0x03 => decide (4095 < branchTo pc w)
  | 0x04 => decide (4095 < branchTo pc w)
  | _ => false

/-- A DRAIN or BLD that runs past its descriptors or engines (R420). -/
def badSpan (w : DWord) : Bool :=
  match opOf w with
  | 0x37 => decide (15 < bitsOf w 42 39 + bitsOf w 38 37)
  | 0x20 => !bitOf w.toNat 43 && decide (15 < bitsOf w 42 39 + bitsOf w 38 35)
  | _ => false

/-- The instruction needs a bound descriptor (R464). -/
def needsBound (w : DWord) : Bool :=
  match opOf w with
  | 0x40 => bitOf w.toNat 53
  | 0x4D => true
  | n => decide (0x30 ≤ n ∧ n ≤ 0x39)

/-- What the word alone shows illegal (R420). -/
def illegalWord (w : DWord) : Bool :=
  match usedBits w with
  | none => true
  | some m => decide ((w.toNat % 2 ^ 56) &&& m ≠ w.toNat % 2 ^ 56) || reservedCode w || badSpan w

/-! ## Tile descriptors (R412) -/

/-- A tile descriptor. -/
abbrev TileDesc := BitVec 256

/-- ADDR. -/
def TileDesc.addr (t : TileDesc) : Nat := field t.toNat 43 0
/-- RING. -/
def TileDesc.ring (t : TileDesc) : Bool := bitOf t.toNat 44
/-- Q. -/
def TileDesc.q (t : TileDesc) : Nat := field t.toNat 48 45
/-- OFF. -/
def TileDesc.off (t : TileDesc) : Nat := field t.toNat 87 64
/-- LEN, in 8-byte words. -/
def TileDesc.len (t : TileDesc) : Nat := field t.toNat 111 88
/-- STRIDE, signed. -/
def TileDesc.stride (t : TileDesc) : Int := signed 44 (field t.toNat 171 128)
/-- KIND. -/
def TileDesc.kind (t : TileDesc) : Nat := field t.toNat 195 192

/-- The descriptor with another ADDR. -/
def TileDesc.setAddr (t : TileDesc) (a : Nat) : TileDesc := BitVec.ofNat 256 (t.toNat / 2 ^ 44 * 2 ^ 44 + a % 2 ^ 44)

/-! ## Layer descriptors (R461) -/

/-- A layer descriptor's 2,048 bits. -/
abbrev LayerDesc := BitVec 2048

/-- Bits [hi:lo] of doubleword i. -/
def LayerDesc.f (d : LayerDesc) (i hi lo : Nat) : Nat := field (field d.toNat (64 * i + 63) (64 * i)) hi lo
/-- Bit b of doubleword i. -/
def LayerDesc.b (d : LayerDesc) (i b : Nat) : Bool := bitOf (field d.toNat (64 * i + 63) (64 * i)) b
/-- Address i of doublewords 11 to 18: SCP, CTP, OSP, BSP, ATP, PMQ, DRP, DKP. -/
def LayerDesc.ptr (d : LayerDesc) (i : Nat) : Nat := d.f (11 + i) 43 0

/-- LID. -/
def LayerDesc.lid (d : LayerDesc) : Nat := d.f 0 15 0
/-- LIX. -/
def LayerDesc.lix (d : LayerDesc) : Nat := d.f 0 25 16
/-- CLASS: 1 for fast. -/
def LayerDesc.fast (d : LayerDesc) : Bool := d.b 0 26
/-- PMODE. -/
def LayerDesc.pmode (d : LayerDesc) : Nat := d.f 0 29 27
/-- AW. -/
def LayerDesc.aw (d : LayerDesc) : Nat := d.f 0 34 30
/-- ASIGN. -/
def LayerDesc.asign (d : LayerDesc) : Bool := d.b 0 35
/-- WPL. -/
def LayerDesc.wpl (d : LayerDesc) : Nat := d.f 0 40 36
/-- GSZ. -/
def LayerDesc.gsz (d : LayerDesc) : Nat := d.f 0 42 41
/-- ROWS. -/
def LayerDesc.rows (d : LayerDesc) : Nat := d.f 0 55 43
/-- ROLE. -/
def LayerDesc.role (d : LayerDesc) : Nat := d.f 0 57 56
/-- PCM. -/
def LayerDesc.pcm (d : LayerDesc) : Bool := d.b 0 58
/-- ACT. -/
def LayerDesc.act (d : LayerDesc) : Bool := d.b 0 59
/-- OFMT. -/
def LayerDesc.ofmt (d : LayerDesc) : Nat := d.f 0 61 60
/-- OENC. -/
def LayerDesc.oenc (d : LayerDesc) : Bool := d.b 0 62
/-- RND. -/
def LayerDesc.rnd (d : LayerDesc) : Bool := d.b 0 63
/-- COLS. -/
def LayerDesc.cols (d : LayerDesc) : Nat := d.f 1 16 0
/-- RBASE. -/
def LayerDesc.rbase (d : LayerDesc) : Nat := d.f 1 33 17
/-- ZP. -/
def LayerDesc.zp (d : LayerDesc) : Nat := d.f 1 41 34
/-- OAW. -/
def LayerDesc.oaw (d : LayerDesc) : Nat := d.f 1 46 42
/-- OSIGN. -/
def LayerDesc.osign (d : LayerDesc) : Bool := d.b 1 47
/-- OZP. -/
def LayerDesc.ozp (d : LayerDesc) : Nat := d.f 1 55 48
/-- BXG. -/
def LayerDesc.bxg (d : LayerDesc) : Nat := d.f 1 57 56
/-- ROT_OUT. -/
def LayerDesc.rotOut (d : LayerDesc) : Nat := d.f 1 61 58
/-- PRM. -/
def LayerDesc.prm (d : LayerDesc) : Nat := d.f 1 63 62
/-- ROT_IN. -/
def LayerDesc.rotIn (d : LayerDesc) : Nat := d.f 2 3 0
/-- SPTH. -/
def LayerDesc.spth (d : LayerDesc) : Nat := d.f 2 13 4
/-- PMK. -/
def LayerDesc.pmk (d : LayerDesc) : Bool := d.b 2 14
/-- SFORM. -/
def LayerDesc.sform (d : LayerDesc) : Bool := d.b 2 15
/-- SG. -/
def LayerDesc.sg (d : LayerDesc) : Nat := d.f 2 21 16
/-- TKG. -/
def LayerDesc.tkg (d : LayerDesc) : Nat := d.f 2 27 22
/-- TOPK. -/
def LayerDesc.topk (d : LayerDesc) : Nat := d.f 2 34 28
/-- PREF. -/
def LayerDesc.pref (d : LayerDesc) : Nat := d.f 2 42 35
/-- PMU. -/
def LayerDesc.pmu (d : LayerDesc) : Nat := d.f 2 50 43
/-- KMIN. -/
def LayerDesc.kmin (d : LayerDesc) : Nat := d.f 2 54 51
/-- KMAX. -/
def LayerDesc.kmax (d : LayerDesc) : Nat := d.f 2 58 55
/-- WEN. -/
def LayerDesc.wen (d : LayerDesc) : Nat := d.f 2 61 59
/-- RR. -/
def LayerDesc.rr (d : LayerDesc) : Bool := d.b 2 62
/-- OS_ALLOW. -/
def LayerDesc.osAllow (d : LayerDesc) : Bool := d.b 2 63
/-- PMISS. -/
def LayerDesc.pmiss (d : LayerDesc) : Nat := d.f 3 15 0
/-- WSAT. -/
def LayerDesc.wsat (d : LayerDesc) : Nat := d.f 3 31 16
/-- WHT. -/
def LayerDesc.wht (d : LayerDesc) : Nat := d.f 3 47 32
/-- WHB. -/
def LayerDesc.whb (d : LayerDesc) : Nat := d.f 3 53 48
/-- WNW. -/
def LayerDesc.wnw (d : LayerDesc) : Nat := d.f 3 57 54
/-- EXQ. -/
def LayerDesc.exq (d : LayerDesc) : Nat := d.f 3 61 58
/-- DLT. -/
def LayerDesc.dlt (d : LayerDesc) : Bool := d.b 3 62
/-- DOUT. -/
def LayerDesc.dout (d : LayerDesc) : Bool := d.b 3 63
/-- USS. -/
def LayerDesc.uss (d : LayerDesc) : Nat := d.f 4 3 0
/-- USC. -/
def LayerDesc.usc (d : LayerDesc) : Nat := d.f 4 7 4
/-- DCHK. -/
def LayerDesc.dchk (d : LayerDesc) : Bool := d.b 4 8
/-- DRN. -/
def LayerDesc.drn (d : LayerDesc) : Nat := d.f 4 16 9
/-- WRC. -/
def LayerDesc.wrc (d : LayerDesc) : Nat := d.f 4 40 17
/-- PRC. -/
def LayerDesc.prc (d : LayerDesc) : Nat := d.f 5 23 0
/-- RAC. -/
def LayerDesc.rac (d : LayerDesc) : Nat := d.f 5 47 24
/-- RQ. -/
def LayerDesc.rq (d : LayerDesc) : Word := word (d.f 6 31 0)
/-- WJ. -/
def LayerDesc.wj (d : LayerDesc) : Word := word (d.f 6 63 32)
/-- UTA. -/
def LayerDesc.uta (d : LayerDesc) : Word := word (d.f 7 31 0)
/-- UTR. -/
def LayerDesc.utr (d : LayerDesc) : Word := word (d.f 7 63 32)
/-- DTH. -/
def LayerDesc.dth (d : LayerDesc) : Word := word (d.f 8 31 0)
/-- PZM. -/
def LayerDesc.pzm (d : LayerDesc) : Word := word (d.f 8 63 32)
/-- PTH. -/
def LayerDesc.pth (d : LayerDesc) : Word := word (d.f 9 31 0)
/-- SPAN. -/
def LayerDesc.span (d : LayerDesc) : Nat := d.f 9 63 32
/-- TKPOS. -/
def LayerDesc.tkpos (d : LayerDesc) : Nat := d.f 10 31 0
/-- KDIM. -/
def LayerDesc.kdim (d : LayerDesc) : Nat := d.f 10 48 32
/-- SCP. -/
def LayerDesc.scp (d : LayerDesc) : Nat := d.ptr 0
/-- CTP. -/
def LayerDesc.ctp (d : LayerDesc) : Nat := d.ptr 1
/-- OSP. -/
def LayerDesc.osp (d : LayerDesc) : Nat := d.ptr 2
/-- BSP. -/
def LayerDesc.bsp (d : LayerDesc) : Nat := d.ptr 3
/-- ATP. -/
def LayerDesc.atp (d : LayerDesc) : Nat := d.ptr 4
/-- PMQ. -/
def LayerDesc.pmq (d : LayerDesc) : Nat := d.ptr 5
/-- DRP. -/
def LayerDesc.drp (d : LayerDesc) : Nat := d.ptr 6
/-- DKP. -/
def LayerDesc.dkp (d : LayerDesc) : Nat := d.ptr 7

/-- MAGIC and CHECK of a descriptor hold (R461, R463). -/
def LayerDesc.checkOk (d : LayerDesc) : Bool :=
  decide (d.f 31 15 0 = 0x4C44) && decide (d.f 31 63 32 = crc32 (leBytes 252 d.toNat))

end Sys2Proof.Machine
end

