-- ==== Sys2Proof/Machine/Links.lean ====
section
/-! DEFINITION. Chain links: reception and sending of flits, routes, ring entries, the outbound table, port states
(12, R558 to R582). -/

namespace Sys2Proof.Machine

/-! ## Port states (R565 to R570, R581) -/

/-- The port is UP or DEGRADED. -/
def LnkSt.isUp (l : LnkSt) : Bool := l.state == 2 || l.state == 3

/-- The word of outbound entry r that names its ring (12, WIN_OUT + 0x0). -/
def State.outW0 (s : State) (r : Nat) : Nat := (Tab.get 0 s.win.out0 r).toNat

/-- The word of outbound entry r that names its destination (12, WIN_OUT + 0x4). -/
def State.outW1 (s : State) (r : Nat) : Nat := (Tab.get 0 s.win.out1 r).toNat

/-- EN of outbound entry r. -/
def State.outEn (s : State) (r : Nat) : Bool := bitOf (s.outW0 r) 15

/-- PATH of outbound entry r: false for 0. -/
def State.outPath1 (s : State) (r : Nat) : Bool := bitOf (s.outW0 r) 14

/-- The core and ring of outbound entry r. -/
def State.outRing (s : State) (r : Nat) : CoreId × Nat := (CoreId.ofNum (field (s.outW0 r) 9 0), field (s.outW0 r) 13 10)

/-- HANDLE of outbound entry r. -/
def State.outHandle (s : State) (r : Nat) : Nat := field (s.outW0 r) 29 24

/-- The port that WIN_ROUTE names for a LINK_ID (R572). -/
def State.routeOf (s : State) (dst : Nat) : Option Nat :=
  let v := (Tab.get 15 s.win.routes dst).toNat
  if v < 8 then some v else none

/-- The other port of a bond (R558, R561). -/
def bondMate : Nat → Option Nat
  | 0 => some 4
  | 4 => some 0
  | 1 => some 6
  | 6 => some 1
  | 2 => some 5
  | 5 => some 2
  | _ => none

/-- The port of the bond of q that serves a die: the primary for D0 and D2, the secondary for D1 and D3 (R561). -/
def State.bondPort (s : State) (q die : Nat) : Nat :=
  if !s.isN4 then q
  else
    match bondMate q with
    | none => q
    | some m =>
      let pick := if die % 2 = 0 then min q m else max q m
      if s.win.bondDown.contains pick then (if pick = q then m else q) else pick

/-- The port that outbound entry r is sent on (R561, R563, R576, R598). -/
def State.outPort (s : State) (r : Nat) : Option Nat :=
  if s.outPath1 r then some (field (s.handleAt (s.outHandle r)).cfg.toNat 16 14)
  else (s.routeOf (field (s.outW0 r) 23 16)).map (fun q => s.bondPort q (field (s.outW1 r) 15 14))

/-- Bytes of the ring's entries that have been pushed since the cue and not been released. -/
def RingSt.unsentOfTick (r : RingSt) : Nat := min (r.dist r.head r.tail) (r.dist r.cueAt.tail r.tail)

/-- The port holds an outbound entry of the running tick that is unsent or unacknowledged (R581). -/
def State.holdsTickEntry (s : State) (p : Nat) : Bool :=
  s.tick.running.isSome && (List.range 256).any (fun r =>
    s.outEn r && s.outPort r == some p && decide (0 < (s.ringAt (s.outRing r).1 (s.outRing r).2).unsentOfTick))

/-- A port goes DOWN with an LNK_ERR flag (R567, R570); an unsent entry of the running tick fails it (R581). -/
def State.portDown (s : State) (p err : Nat) : State :=
  let held := s.holdsTickEntry p
  let s := s.modLnk p (fun l => { l with
    state := 0, width := 0, replay := false, downs := bump l.downs,
    err := l.err ||| BitVec.ofNat 5 (2 ^ err + if held then 8 else 0) })
  let s := s.raise 0x5001
  if held then (s.raise 0x5001).sharedFault else s

/-! ## Sending -/

/-- Flits that carry n bytes of payload, at least one (R568). -/
def flitsFor (n : Nat) : Nat := max 1 ((n + 223) / 224)

/-- The replay buffer with n more flits, the last of them ending an outbound entry (R570). -/
def LnkSt.sendFlits (l : LnkSt) (n cls : Nat) (e : Option (Nat × Nat)) : LnkSt :=
  { l with
    buffer := l.buffer ++ (List.range n).map (fun i => ⟨l.txSeq + BitVec.ofNat 12 i, if i + 1 = n then e else none⟩),
    txSeq := l.txSeq + BitVec.ofNat 12 n, txFlits := bump l.txFlits n,
    credits := l.credits.set cls (l.credits.getD cls 0 - n) }

/-- The port can send n flits of a class now: it is UP, its replay buffer has room, it holds the credits (R570, R571). -/
def LnkSt.canSend (l : LnkSt) (n cls : Nat) : Bool :=
  l.isUp && decide (l.buffer.length + n ≤ 1024) && decide (n ≤ l.credits.getD cls 0)

/-- Sends a message of n bytes on a port, unless the port is not UP. Control messages do not wait for credits (log 26). -/
def State.sendOn (s : State) (p n : Nat) (x : Sent) : State :=
  if (s.lnkAt p).isUp then (s.modLnk p (fun l => l.sendFlits (flitsFor n) 0 none)).send x else s

/-- Sends a control message of n bytes along the route of a LINK_ID; without a route it is dropped with event 0x5005
(R572). -/
def State.sendRouted (s : State) (dst n : Nat) (x : Sent) : State :=
  match s.routeOf dst with
  | some p => s.sendOn p n x
  | none => s.raise 0x5005

/-! ## Reception (R569 to R572, R580) -/

/-- Moves the outbound ring of entry r past its acknowledged entries, once no mark would lose the release (R386, R575). -/
def State.releaseOut (s : State) (r : Nat) : State :=
  let n := Tab.get 0 s.win.ackOut r
  let c := (s.outRing r).1
  let q := (s.outRing r).2
  if n = 0 ∨ !(s.ringAt c q).marks.isEmpty then s
  else
    (s.modRing c q (fun x => ({ x with head := x.adv x.head n }).settle)).modWin (fun w => { w with
      ackOut := Tab.set 0 w.ackOut r 0, sentOut := Tab.set 0 w.sentOut r (Tab.get 0 w.sentOut r - n) })

/-- Every outbound ring's release that can be made. -/
def State.releaseOuts (s : State) : State := s.win.ackOut.foldl (fun s e => s.releaseOut e.1) s

/-- SEQ x is covered by an acknowledgement of a: it lies at most 2,047 before it (R568, R570). -/
def seqCovered (x a : BitVec 12) : Bool := decide ((a - x).toNat < 2048)

/-- An ACK releases the flits that it covers and, for an entry's last flit, the entry (R570, R575). -/
def State.takeAck (s : State) (p : Nat) (a : Option (BitVec 12)) : State :=
  match a with
  | none => s
  | some a =>
    let gone := (s.lnkAt p).buffer.filter (fun f => seqCovered f.seq a)
    let s := s.modLnk p (fun l =>
      let done := seqCovered l.replaySeq a
      { l with buffer := l.buffer.filter (fun f => !seqCovered f.seq a), replay := l.replay && !done,
               replayRun := if done then 0 else l.replayRun })
    let ends := gone.filterMap (fun f => f.outEnd)
    (s.modWin (fun w => { w with
      ackOut := ends.foldl (fun t e => Tab.set 0 t e.1 (Tab.get 0 t e.1 + e.2)) w.ackOut })).releaseOuts

/-- CREDIT returns receive buffers, one byte for each class, up to 64 (R568, R571). -/
def LnkSt.takeCredit (l : LnkSt) (v : Word) : LnkSt :=
  { l with credits := (List.range 4).map (fun i => min 64 (l.credits.getD i 0 + field v.toNat (8 * i + 7) (8 * i))) }

/-- What became of flits that arrived. -/
inductive Arrival where
  | lost (s : State)
  | here (s : State)

/-- The code words that forward error correction corrected, or could not, while flits arrive: free values (R601, log 27). -/
def State.countFec (s : State) (p : Nat) : State :=
  let a := s.drawWord
  let b := a.2.drawWord
  if (s.lnkAt p).isUp then b.2.modLnk p (fun l => { l with fecCorr := l.fecCorr + a.1, fecUncorr := l.fecUncorr + b.1 }) else s

/-- The link layer takes a message's flits (R569): with a failed CHECK or a SEQ that is not the next they are discarded and
a REPLAY names the expected SEQ; otherwise ACK and CREDIT act. Nothing arrives on a port that is not UP. -/
def State.takeFlits (s : State) (p : Nat) (h : FlitHdr) (idle : Bool) : Arrival :=
  let l := s.lnkAt p
  let s := s.countFec p
  if !l.isUp then .lost s
  else if !h.checkOk || h.seq != l.rxSeq then
    .lost ((s.modLnk p (fun l => { l with crcErr := bump l.crcErr h.flits })).send (.replay p l.rxSeq))
  else
    .here ((s.modLnk p (fun l => { l with
      rxSeq := l.rxSeq + BitVec.ofNat 12 h.flits,
      rxFlits := if idle then l.rxFlits else bump l.rxFlits h.flits }.takeCredit h.credit)).takeAck p h.ack)

/-- A message for another device is forwarded on its route in its class, or dropped without one (R572). Nothing goes out
on a port that is not UP, and forwarded flits do not wait for credits (log 26). -/
def State.forward (s : State) (p : Nat) (h : FlitHdr) : State :=
  match s.routeOf h.dst.toNat with
  | some q => if !(s.lnkAt q).isUp then s else ((s.modLnk p (fun l => { l with fwd := bump l.fwd h.flits })).modLnk q
      (fun l => l.sendFlits h.flits h.cls.val none)).send (.forward q h.dst)
  | none => (s.modLnk p (fun l => { l with unrouted := bump l.unrouted h.flits })).raise 0x5005

/-- A control message that reaches this device: the link layer, then the route, then its effect (R569, R572). -/
def State.recvCtrl (s : State) (p : Nat) (h : FlitHdr) (f : State → State) : State :=
  match s.takeFlits p h false with
  | .lost s => s
  | .here s => if h.dst = s.win.linkId then f s else s.forward p h

/-- IDLE_FLIT (R568, R570, R575). -/
def execIdleFlit (lp : Fin 8) (h : FlitHdr) (s : State) : Answer :=
  .next (match s.takeFlits lp.val h true with
    | .lost s => s
    | .here s => s)

/-! ## Ring entries from a link (R577 to R580) -/

/-- The core of a POS (R180). -/
def coreOfPos (pos : Nat) : CoreId :=
  ⟨Fin.ofNat 4 (field pos 15 14), Fin.ofNat 16 (field pos 13 10), Fin.ofNat 16 (field pos 9 6)⟩

/-- The conditions of R577 on the ring: EN = 1, and its producer table names the producer. -/
def State.linkRingOk (s : State) (src : Producer) (e : LinkEntry) : Bool :=
  let c := coreOfPos e.pos.toNat
  (s.ringAt c e.q.val).en && (s.producerIndex c e.q.val src).isSome

/-- Pushes a link entry with EPOCH 0 (R577). -/
def State.pushLink (s : State) (src : Producer) (e : LinkEntry) : RingStep :=
  s.pushUnit (coreOfPos e.pos.toNat) e.q.val src e.kind.toNat 0 e.body

/-- Delivers an entry behind those that class 1 of the port holds back; a full ring stalls the class (R579). -/
def State.deliverLink (s : State) (p : Nat) (src : Producer) (e : LinkEntry) : State :=
  if !(s.lnkAt p).stalled.isEmpty then s.modLnk p (fun l => { l with stalled := l.stalled ++ [(src, e)] })
  else
    match s.pushLink src e with
    | .done s => s
    | .wait s => s.modLnk p (fun l => { l with stalled := l.stalled ++ [(src, e)] })

/-- The entries that a port holds back are delivered in order as far as the rings have room (R579). The FCLK cycles that
LNK_RING_STALL counts are a free value: the model has no clock (log 27). -/
def State.retryStalled (s : State) (p : Nat) : Nat → State
  | 0 => s
  | n + 1 =>
    match (s.lnkAt p).stalled with
    | [] => s
    | (src, e) :: rest =>
      match s.pushLink src e with
      | .wait _ => s
      | .done s =>
        let d := s.drawWord
        (d.2.modLnk p (fun l => { l with stalled := rest, ringStall := l.ringStall + d.1 })).retryStalled p n

/-- RING_ENTRY (R577 to R580). A RING flit is never forwarded, so its DST is not asked (R572). In PARK no credit returns
and the entry waits at the sender. -/
def execRingEntry (lp : Fin 8) (h : FlitHdr) (e : LinkEntry) (s : State) : Answer :=
  .next (if s.glb.st = .park then s
    else
      match s.takeFlits lp.val h false with
      | .lost s => s
      | .here s =>
        let drop := s.modLnk lp.val (fun l => { l with ringDrop := bump l.ringDrop, err := l.err ||| 16 })
        if s.glb.st = .safe then s.modLnk lp.val (fun l => { l with ringDrop := bump l.ringDrop })
        else if (s.lnkAt lp.val).role = 0 ∧ s.linkRingOk (.linkPort lp.val) e then
          s.deliverLink lp.val (.linkPort lp.val) e
        else (drop.raise 0x5004).sharedFault)

/-! ## The outbound table (R574 to R576, R598) -/

/-- The readable bytes of outbound entry r's ring that have not been sent, up to CTAIL (R574). -/
def State.outReady (s : State) (r : Nat) : Nat :=
  let x := s.ringAt (s.outRing r).1 (s.outRing r).2
  x.dist x.head x.ctail - Tab.get 0 s.win.sentOut r

/-- The next unsent entry of a ring: its whole length, its kind and its body (R371, R372); none where its frame word fails
(R373). -/
def State.outEntry (s : State) (r : Nat) : Option (Nat × Nat × List Byte) :=
  let c := (s.outRing r).1
  let q := (s.outRing r).2
  let x := s.ringAt c q
  let p := x.adv x.head (Tab.get 0 s.win.sentOut r)
  if x.esize ≠ 0 then some (x.esize.toNat * 8, 0, s.ringGet c q p (x.esize.toNat * 8))
  else
    let f := leNat (s.ringGet c q p 8)
    let n := field f 23 0 * 8
    if bitOf f 63 = (parity f == 1) ∧ field f 27 24 < 8 ∧ n + 8 ≤ s.outReady r then
      some (n + 8, field f 27 24, s.ringGet c q (x.adv p 8) n)
    else none

/-- Sends the next entry of outbound entry r on a port, if one is ready and the port can send it. -/
def State.sendOut (s : State) (lp r : Nat) : Option State :=
  if !s.outEn r || s.outPort r != some lp || s.outReady r == 0 then none
  else
    match s.outEntry r with
    | none => some (s.ringFault (s.outRing r).1 (s.outRing r).2)
    | some (n, kind, body) =>
      let cls := if s.outPath1 r then field (s.handleAt (s.outHandle r)).cfg.toNat 18 17 else 1
      let k := flitsFor n
      let w1 := s.outW1 r
      let e : LinkEntry := ⟨BitVec.ofNat 16 (field w1 15 0), Fin.ofNat 16 (field w1 19 16), BitVec.ofNat 4 kind, body⟩
      if !(s.lnkAt lp).canSend k cls || (s.outPath1 r && (s.handleAt (s.outHandle r)).state != 1) then none
      else
        let s := s.modLnk lp (fun l => { l.sendFlits k cls (some (r, n)) with rr := (r + 1) % 256 })
        let s := s.modWin (fun w => { w with sentOut := Tab.set 0 w.sentOut r (Tab.get 0 w.sentOut r + n) })
        some (s.send (if s.outPath1 r then .winRing (s.outHandle r) (s.handleAt (s.outHandle r)).epoch e else .ring lp e))

/-- The first entry of the table, from index `r` on, that can be sent. -/
def State.sendNext (s : State) (lp : Nat) : Nat → Nat → State
  | _, 0 => s
  | r, n + 1 => match s.sendOut lp (r % 256) with | some s' => s' | none => s.sendNext lp (r + 1) n

/-- OUTBOUND_SEND (R574 to R576, R598): one ready entry, from each ring in ascending table index in turn. -/
def execOutboundSend (lp : Fin 8) (s : State) : Answer :=
  .next (let s := s.releaseOuts
    if s.glb.st = .ready ∨ s.glb.st = .run then s.sendNext lp.val (s.lnkAt lp.val).rr 256 else s)

/-! ## Replay and port transitions -/

/-- REPLAY (R569, R570): the port resends from the named SEQ; the eighth replay of one SEQ in a row that fails takes the
port DOWN, which shows as a ninth request for it (log 28). -/
def execReplay (lp : Fin 8) (seq : BitVec 12) (s : State) : Answer :=
  .next (let l := s.lnkAt lp.val
    if !l.isUp then s
    else
      let run := if l.replayRun > 0 ∧ l.replaySeq = seq then l.replayRun + 1 else 1
      let s := (s.takeAck lp.val (some (seq - 1))).modLnk lp.val (fun l => { l with
        replays := bump l.replays, replay := true, replaySeq := seq, replayRun := run })
      if 8 < run then s.portDown lp.val 1 else s.send (.resend lp.val seq))

/-- LINK_SILENT (R567). -/
def execLinkSilent (lp : Fin 8) (s : State) : Answer :=
  .next (if (s.lnkAt lp.val).isUp then s.portDown lp.val 2 else s)

/-- LINK_RETRAIN (R567): a DOWN port that is enabled trains. -/
def execLinkRetrain (lp : Fin 8) (s : State) : Answer :=
  .next (let l := s.lnkAt lp.val
    if l.en && l.state == 0 && s.glb.st != .off then s.modLnk lp.val (fun l => { l with state := 1 }) else s)

/-- The role that a role of R558 is cabled to. -/
def peerRoleOf : Nat → Nat
  | 0 => 1
  | 1 => 0
  | 2 => 2
  | 3 => 4
  | 4 => 3
  | n => n

/-- The lanes left when the unusable ones are excluded: full width, one half, or none (R566). -/
def lanesLeft (full bad : Nat) : Nat :=
  let half := full / 2
  if bad % 2 ^ full = 0 then full
  else if bad % 2 ^ half = 0 ∨ bad / 2 ^ half % 2 ^ half = 0 then half else 0

/-- A port comes UP at a width (R565, R566): its link counts start anew (log 29). -/
def LnkSt.comeUp (l : LnkSt) (width bad : Nat) (peer : BitVec 8) : LnkSt :=
  { l with
    state := if width < l.lanes.toNat then 3 else 2, width := BitVec.ofNat 4 width, peerSeen := peer,
    lanesFailed := BitVec.ofNat 8 bad, txSeq := 0, rxSeq := 0, buffer := [], replaySeq := 0, replayRun := 0,
    replay := false, credits := [64, 64, 64, 64] }

/-- Entries whose flits a retrained port no longer holds are sent again. -/
def State.resendOuts (s : State) (p : Nat) : State :=
  s.modWin (fun w => { w with sentOut := w.sentOut.filter (fun e => s.outPort e.1 != some p),
                              ackOut := w.ackOut.filter (fun e => s.outPort e.1 != some p) })

/-- What training finds (R565, R566): UP only with the configured LINK_ID and the paired role. -/
def State.trained (s : State) (t : LinkTrain) : State :=
  let p := t.port.val
  let l := s.lnkAt p
  let w := lanesLeft l.lanes.toNat t.lanesBad.toNat
  if !t.answered || w == 0 then s.modLnk p (fun l => { l with state := 0, width := 0 })
  else if t.peerSeen ≠ l.peerId ∨ t.peerRole.toNat ≠ peerRoleOf l.role.toNat then
    (s.modLnk p (fun l => { l with state := 0, width := 0, peerSeen := t.peerSeen, err := l.err ||| 1 })).raise 0x5003
  else
    let s := (s.resendOuts p).modLnk p (fun l => l.comeUp w t.lanesBad.toNat t.peerSeen)
    if w < l.lanes.toNat then s.raise 0x5002 else s

/-- LINK_UP (R565): training of a port ends. -/
def execLinkUp (t : LinkTrain) (s : State) : Answer :=
  .next (if (s.lnkAt t.port.val).state = 1 then s.trained t else s)

/-- LANE_DEGRADE (R566): the port drops to the half that excludes its failed lanes; where none does, it goes DOWN
(log 30). -/
def execLaneDegrade (lp : Fin 8) (lane : Fin 8) (s : State) : Answer :=
  .next (let l := s.lnkAt lp.val
    let bad := l.lanesFailed ||| BitVec.ofNat 8 (2 ^ lane.val)
    let w := lanesLeft l.lanes.toNat bad.toNat
    if !l.isUp ∨ l.lanes.toNat ≤ lane.val ∨ l.lanesFailed.getLsbD lane.val then s
    else
      let s := s.modLnk lp.val (fun l => { l with lanesFailed := bad })
      if w = 0 then s.portDown lp.val 2
      else if w = l.width.toNat then s
      else (s.modLnk lp.val (fun l => { l with state := 3, width := BitVec.ofNat 4 w })).raise 0x5002)

end Sys2Proof.Machine
end

