-- ==== Sys2Proof/Machine/Windows.lean ====
section
/-! DEFINITION. Windows and remote handles (12, R583 to R596). -/

namespace Sys2Proof.Machine

/-! ## Opening and closing (R583 to R586, R595) -/

/-- The window's size in bytes (R584). -/
def WindowSt.bytes (w : WindowSt) : Nat := (w.sizeM1.toNat + 1) * 32

/-- MODE: a ring gate. -/
def WindowSt.gate (w : WindowSt) : Bool := w.cmd.getLsbD 0

/-- The listed sources, 0xFF unused (R584). -/
def WindowSt.sources (w : WindowSt) : List Nat :=
  ((List.range 4).map (fun i => field w.src.toNat (8 * i + 7) (8 * i))).filter (fun x => x != 255)

/-- The epoch after e, skipping 0 (R585). -/
def nextEpoch (e : BitVec 16) : BitVec 16 := if e + 1 = 0 then 1 else e + 1

/-- CLOSED to OPEN: a new EPOCH, and WOPEN to each source (R585). -/
def State.openWindow (s : State) (w : Nat) : State :=
  let s := s.modWindow w (fun x => { x with
    state := 1, pending := false, epoch := nextEpoch x.epoch, landing := 0, refused := false })
  let x := s.windowAt w
  x.sources.foldl (fun s d => s.sendRouted d 12 (.wopen (BitVec.ofNat 8 d) w x.gate x.epoch x.bytes)) s

/-- OPEN to CLOSING: WCLOSED to each source (R585). -/
def State.closeWindow (s : State) (w : Nat) : State :=
  let s := s.modWindow w (fun x => { x with state := 2 })
  let x := s.windowAt w
  x.sources.foldl (fun s d => s.sendRouted d 4 (.wclosed (BitVec.ofNat 8 d) w x.epoch)) s

/-- The owner's write of WIN_CMD: windows 48 to 63 are the device's own (R583), MODE changes only while CLOSED with
PENDING = 0 (R586). -/
def State.winCommand (s : State) (w cmd : Nat) (gate : Bool) (f : State → State) : State :=
  let x := s.windowAt w
  if 48 ≤ w then s.raise 0x5012
  else if gate ≠ x.gate ∧ !(x.state == 0 && !x.pending) then s.raise 0x5012
  else f (s.modWindow w (fun x => { x with cmd := BitVec.ofNat 3 (bitAt gate 0 + cmd * 2) }))

/-- WIN_OPEN (R585). -/
def execWinOpen (p : Port) (w : Fin 64) (gate : Bool) (s : State) : Answer :=
  .next (s.ownerOnly p fun s => s.winCommand w.val 1 gate fun s =>
    match (s.windowAt w.val).state.toNat with
    | 0 => s.openWindow w.val
    | 1 => s.raise 0x5012
    | _ => s.modWindow w.val (fun x => { x with pending := true }))

/-- WIN_CLOSE (R585). -/
def execWinClose (p : Port) (w : Fin 64) (gate : Bool) (s : State) : Answer :=
  .next (s.ownerOnly p fun s => s.winCommand w.val 2 gate fun s =>
    match (s.windowAt w.val).state.toNat with
    | 0 => s.raise 0x5012
    | 1 => s.closeWindow w.val
    | _ => s.modWindow w.val (fun x => { x with pending := false }))

/-- Sends on the TWIN port that is UP, the primary first. -/
def State.sendTwin (s : State) (n : Nat) (x : Sent) : State :=
  if (s.lnkAt 2).isUp then s.sendOn 2 n x else s.sendOn 5 n x

/-- Starts a re-fetch of a 4 KiB block (R676): window 49 opens over it with the partner as its only source, and REQUEST
goes out with its EPOCH. -/
def State.refetchStart (s : State) (block : Nat) : State :=
  let peer := (s.lnkAt 2).peerId
  let s := s.modWindow 49 (fun x => { x with
    base := BitVec.ofNat 44 block, sizeM1 := 127, src := word (0xFFFFFF00 + peer.toNat), cmd := 1 * 2 })
  let s := s.openWindow 49
  let s := s.modTwin (fun t => { t with refetch := some (BitVec.ofNat 44 block), refetchAt := none })
  s.sendTwin 20 (.refetchReq (s.windowAt 49).epoch (BitVec.ofNat 44 block) 4096)

/-- The next queued re-fetch starts once none is open and window 49 is CLOSED (R678). -/
def State.refetchNext (s : State) : State :=
  match s.twin.refetchQ with
  | [] => s
  | b :: rest =>
    if s.twin.refetch.isSome ∨ (s.windowAt 49).state ≠ 0 then s
    else (s.modTwin (fun t => { t with refetchQ := rest })).refetchStart b.toNat

/-- A re-fetch is wanted (R676, R678): started, queued, or as the 17th refused with event 0x7006. A block that is open
or queued is not asked for twice (log 40). -/
def State.refetchWant (s : State) (block : Nat) : State :=
  let b : BitVec 44 := BitVec.ofNat 44 block
  if s.twin.refetch = some b ∨ s.twin.refetchQ.contains b then s
  else if s.twin.refetch.isNone ∧ s.twin.refetchQ.isEmpty ∧ (s.windowAt 49).state = 0 then s.refetchStart block
  else if s.twin.refetchQ.length < 16 then s.modTwin (fun t => { t with refetchQ := t.refetchQ ++ [b] })
  else (s.modTwin (fun t => { t with refetchFailN := bump t.refetchFailN })).raise 0x7006

/-- The address lies in a range that the placement table marks as weights, scales or correction tables (R676). -/
def State.isWeight (s : State) (a : Nat) : Bool :=
  s.cfg.weightRanges.any (fun r => decide (r.1 ≤ a) && decide (a < r.1 + r.2))

/-- A checked read by tick work, 4 KiB block by block: an uncorrectable one is a fault in shared work (R399, R545), and in a
weight range a PAIRED or LOST device re-fetches the block (R676). -/
def State.readWork (s : State) (a n : Nat) : Nat → Bool × State
  | 0 => (true, s)
  | f + 1 =>
    if n = 0 then (true, s)
    else
      let k := min n (4096 - a % 4096)
      let r := s.readDev a k
      if r.1 then r.2.readWork (a + k) (n - k) f
      else
        let s := r.2
        let s := if s.isWeight a && (s.twin.state == 2 || s.twin.state == 3) then s.refetchWant (a / 4096 * 4096) else s
        (false, s.sharedFault)

/-- Tick work reads [a, a + n). -/
def State.workRead (s : State) (a n : Nat) : Bool × State := s.readWork a n (n / 4096 + 2)

/-- WIN_CLOSE_DONE (R585, R595): WIN_DRAIN, at most the flits accepted in the epoch, is a free value (log 31); then a
PENDING open starts. -/
def execWinCloseDone (w : Fin 64) (s : State) : Answer :=
  .next (if (s.windowAt w.val).state = 2 then
      let d := s.drawWord
      let again := (s.windowAt w.val).pending
      let s := d.2.modWindow w.val (fun x => { x with
        state := 0, pending := false, drain := word (d.1.toNat % (x.landing + 1)), refusedTick := none })
      let s := if again then s.openWindow w.val else s
      if w = 49 then s.refetchNext else s
    else s)

/-! ## Receiving (R592 to R596) -/

/-- The first check of R592 that fails, by its WNAK reason. -/
def State.wwriteReason (s : State) (h : FlitHdr) (m : WinWrite) : Option Nat :=
  let w := m.window.val
  let x := s.windowAt w
  if x.state ≠ 1 then some 0
  else if m.epoch ≠ x.epoch then some 1
  else if !x.sources.contains h.src.toNat then some 2
  else if m.ringForm ≠ x.gate then some 3
  else if m.ringForm then (if s.linkRingOk (.gate w) m.entry then none else some 4)
  else if m.offset.toNat % 32 = 0 ∧ m.data.length % 32 = 0 ∧ m.offset.toNat + m.data.length ≤ x.bytes then none
  else some 4

/-- A refused flit (R593): counted, a WNAK with the current EPOCH, event 0x5011 at the first refusal of an epoch and once
per tick while CLOSED. -/
def State.refuseFlit (s : State) (h : FlitHdr) (m : WinWrite) (reason : Nat) : State :=
  let w := m.window.val
  let x := s.windowAt w
  let first := if x.state = 0 then x.refusedTick != some s.tick.count else !x.refused
  let s := s.modWin (fun y => { y with drop := bump y.drop h.flits })
  let s := s.modWindow w (fun x => { x with refused := true, refusedTick := some s.tick.count })
  let s := s.sendRouted h.src.toNat 12 (.wnak h.src w reason x.epoch m.offset.toNat)
  if first then s.raise 0x5011 else s

/-- WWRITE (R569, R572, R580, R592 to R596). -/
def execWwrite (lp : Fin 8) (h : FlitHdr) (m : WinWrite) (s : State) : Answer :=
  .next (if s.glb.st = .park then s
    else
      match s.takeFlits lp.val h false with
      | .lost s => s
      | .here s =>
        let w := m.window.val
        if h.dst ≠ s.win.linkId then s.forward lp.val h
        else if s.glb.st = .safe then s.modWin (fun y => { y with drop := bump y.drop h.flits })
        else
          match s.wwriteReason h m with
          | some r => s.refuseFlit h m r
          | none =>
            let s := s.modWindow w (fun x => { x with
              acc := bump x.acc h.flits, landing := x.landing + h.flits, sinceAck := bump x.sinceAck h.flits })
            if m.ringForm then s.deliverLink lp.val (.gate w) m.entry
            else s.writeDev ((s.windowAt w).base.toNat + m.offset.toNat) m.data)

/-- WFENCE (R590): every accepted flit has landed, and the WACK counts those since the last one. -/
def execWfence (lp : Fin 8) (h : FlitHdr) (window : Fin 64) (epoch : BitVec 16) (s : State) : Answer :=
  .next (s.recvCtrl lp.val h fun s =>
    let n := (s.windowAt window.val).sinceAck
    (s.modWindow window.val (fun x => { x with sinceAck := 0 })).sendRouted h.src.toNat 8
      (.wack h.src window.val epoch n))

/-! ## Sending (R587, R590, R591) -/

/-- The remote handle that names a device's window (R587). -/
def State.handleOf (s : State) (src : BitVec 8) (window : Nat) : Option Nat :=
  (List.range 64).find? (fun i => let c := (s.handleAt i).cfg.toNat
    bitOf c 19 && field c 7 0 == src.toNat && field c 13 8 == window)

/-- The moves of every core's die DMA into handle k changed. -/
def State.modWinDma (s : State) (k : Nat) (f : DmaOp → DmaOp) : State :=
  { s with core := s.core.map (fun e => (e.1, { e.2 with
      dieQ := e.2.dieQ.map (fun d => if d.window = some k then f d else d) })) }

/-- A move into handle k waits. -/
def State.hasWinDma (s : State) (k : Nat) : Bool :=
  s.core.any (fun e => e.2.dieQ.any (fun d => d.window == some k && !d.acked))

/-- WOPEN (R587). -/
def execWopen (lp : Fin 8) (h : FlitHdr) (window : Fin 64) (gate : Bool) (epoch : BitVec 16) (size : DWord) (s : State) :
    Answer :=
  .next (s.recvCtrl lp.val h fun s =>
    match s.handleOf h.src window.val with
    | none => s.raise 0x5013
    | some k => s.modHandle k (fun x => { x with
        state := 1, epoch := epoch, size := if gate then x.size else BitVec.ofNat 29 (size.toNat / 32 - 1) }))

/-- WCLOSED (R587). -/
def execWclosed (lp : Fin 8) (h : FlitHdr) (window : Fin 64) (_epoch : BitVec 16) (s : State) : Answer :=
  .next (s.recvCtrl lp.val h fun s =>
    match s.handleOf h.src window.val with
    | none => s
    | some k => s.modHandle k (fun x => { x with state := 2 }))

/-- A mirror that will not be applied is given up: what it covered is due again (R664, log 68). -/
def TwinSt.giveUp (t : TwinSt) : TwinSt :=
  match t.staged.or t.awaiting with
  | none => t
  | some m => { t with
      staged := none, awaiting := none, dirty := (m.slots.map (fun x => x.slot.val)).foldl addKey t.dirty,
      freedOwn := t.freedOwn ||| m.freed, confirmations := t.confirmations + 1 }

/-- WNAK (R587, R591): the handle turns STALE, its DMA fails, event 0x5010 once; a DMA of tick work is a fault in shared
work. The device's own functions give up the transfer that they ran (handles 62 and 63). -/
def execWnak (lp : Fin 8) (h : FlitHdr) (window : Fin 64) (reason : BitVec 3) (epoch : BitVec 16) (s : State) : Answer :=
  .next (s.recvCtrl lp.val h fun s =>
    let s := s.modLnk lp.val (fun l => { l with nakRx := bump l.nakRx })
    match s.handleOf h.src window.val with
    | none => s
    | some k =>
      let first := (s.handleAt k).state == 1
      let tick := s.hasWinDma k
      let s := s.modHandle k (fun x => { x with state := 2, nakReason := reason, nakEpoch := epoch })
      let s := s.modWinDma k (fun d => { d with acked := true, failed := true })
      let s := if k = 62 then s.modTwin TwinSt.giveUp else s
      let s := if k = 61 then s.modReh (fun r => { r with upDrop := bump r.upDrop }) else s
      let s := if k = 63 then s.modTwin (fun t => { t with serve := none }) else s
      let s := if first then s.raise 0x5010 else s
      if tick then s.sharedFault else s)

/-- WACK (R590): the DMA that sent the fence completes; a staged mirror is followed by MIRROR_COMMIT (R664), a served
re-fetch by DONE (R677). -/
def execWack (lp : Fin 8) (h : FlitHdr) (window : Fin 64) (epoch : BitVec 16) (_flits : Word) (s : State) : Answer :=
  .next (s.recvCtrl lp.val h fun s =>
    match s.handleOf h.src window.val with
    | none => s
    | some k =>
      if epoch ≠ (s.handleAt k).epoch then s
      else
        let s := s.modWinDma k (fun d => { d with acked := true })
        let s := match (if k = 62 then s.twin.staged else none) with
          | none => s
          | some m => (s.modTwin (fun t => { t with staged := none, awaiting := some m })).sendTwin 88 (.mirror m)
        match (if k = 63 then s.twin.serve else none) with
        | none => s
        | some a => (s.modTwin (fun t => { t with serve := none })).sendTwin 16 (.refetchDone a))

end Sys2Proof.Machine
end

