-- ==== Sys2Proof/Machine/Seq.lean ====
section
/-! DEFINITION. The core sequencer: fetch, issue, scoreboard, control and scalar instructions, synchronisation
(09, R406 to R427, R446, R452 to R456; 08, R377 to R379). LYR and END stand in Bind.lean. -/

namespace Sys2Proof.Machine

/-! ## Registers (R406, R407) -/

/-- S[i]; S0 reads as 0. -/
def SeqSt.sreg (q : SeqSt) (i : Nat) : Nat := if i = 0 then 0 else (Tab.get 0 q.s i).toNat

/-- Writes S[i]; writes to S0 are ignored. -/
def SeqSt.setS (q : SeqSt) (i : Nat) (v : Nat) : SeqSt := if i = 0 then q else { q with s := Tab.set 0 q.s i (word v) }

/-- T[i]. -/
def SeqSt.treg (q : SeqSt) (i : Nat) : TileDesc := Tab.get 0 q.t i

/-- Writes T[i]. -/
def SeqSt.setT (q : SeqSt) (i : Nat) (v : TileDesc) : SeqSt := { q with t := Tab.set 0 q.t i v }

/-- The bound descriptor under which instructions issue now (R464): the last one bound. -/
def SeqSt.last (q : SeqSt) : Option Bound := q.bound.getLast?

/-- The ordinal under which instructions issue now, 0 before any LYR. -/
def SeqSt.lastOrd (q : SeqSt) : BitVec 16 := match q.last with | some b => b.ord | none => 0

/-! ## Fetch and issue (R408, R416, R420) -/

/-- The state codes of SEQ_STATUS. -/
def seqRun : BitVec 4 := 1
/-- WAIT_CUE. -/
def seqWaitCue : BitVec 4 := 2
/-- WAIT_SB. -/
def seqWaitSb : BitVec 4 := 4
/-- WAIT_QUEUE. -/
def seqWaitQueue : BitVec 4 := 5
/-- WAIT_RING. -/
def seqWaitRing : BitVec 4 := 6
/-- WAIT_BAR. -/
def seqWaitBar : BitVec 4 := 7
/-- WAIT_CKPT. -/
def seqWaitCkpt : BitVec 4 := 8
/-- WAIT_DESC. -/
def seqWaitDesc : BitVec 4 := 9
/-- RESTART. -/
def seqRestart : BitVec 4 := 10
/-- FAULT. -/
def seqFault : BitVec 4 := 11

/-- The instruction at PC. -/
def SeqSt.word (q : SeqSt) : DWord := Tab.get 0 q.imem q.pc.toNat

/-- The tick runs and is not abandoned. -/
def State.tickLive (s : State) : Bool := match s.tick.running with | some r => !r.abandoned | none => false

/-- The sequencer may fetch: the tick runs, it is not done, stopped, restarting or at a barrier. -/
def State.mayFetch (s : State) (c : CoreId) : Bool :=
  let q := s.seqAt c
  s.tickLive && !(q.state == 0 || q.state == seqRestart || q.state == seqFault || q.state == seqWaitBar)

/-- The barrier set of an id of which the core is a member (R426). -/
def State.barrierOf (s : State) (c : CoreId) (id : Nat) : Option BarrierCfg :=
  s.cfg.barriers.find? (fun b => decide (b.id.val = id) && b.members.contains c)

/-- The instruction at PC is illegal (R420). -/
def State.illegalAt (s : State) (c : CoreId) : Bool :=
  let q := s.seqAt c
  let w := q.word
  illegalWord w || badTarget q.pc.toNat (q.sreg (fA w)) w ||
  (decide (opOf w = 0x11) && (s.barrierOf c (bitsOf w 55 52)).isNone) || (needsBound w && q.bound.isEmpty)

/-- The state in which the sequencer waits. -/
def State.waitAt (s : State) (c : CoreId) (st : BitVec 4) : State := s.modSeq c (fun q => { q with state := st })

/-- The instruction issues (R416): the counter of the wait that it ends grows by a number of FCLK cycles that is a free
value (log 27), PC moves on. -/
def State.issued (s : State) (c : CoreId) : State :=
  let d := s.drawWord
  let st := (s.seqAt c).state
  let s := if st = seqRun then s else d.2
  let s := if st = seqWaitSb then s.modCore c (fun k => { k with sbWait := k.sbWait + d.1 }) else s
  s.modSeq c (fun q => { q with
    state := seqRun, pc := q.pc + 1, issued := bump q.issued,
    qwait := if st = seqWaitQueue then q.qwait + d.1 else q.qwait,
    rwait := if st = seqWaitRing then q.rwait + d.1 else q.rwait,
    bwait := if st = seqWaitBar then q.bwait + d.1 else q.bwait,
    cwait := if st = seqWaitCkpt then q.cwait + d.1 else q.cwait })

/-- Runs one row of the instruction tables: the core's sequencer holds this opcode at PC, legal and with its parity, and may
issue it; otherwise the row does not come about (log 10). -/
def State.runSeq (s : State) (c : CoreId) (op : Nat) (f : DWord → State → State) : State :=
  let q := s.seqAt c
  if s.mayFetch c && !q.imemBad.contains q.pc.toNat && decide (opOf q.word = op) && !s.illegalAt c then f q.word s else s

/-- The sequencer stops at an instruction that does not issue, with an event, an SEQ_ERR flag and a fault in shared work. -/
def State.seqStop (s : State) (c : CoreId) (code err : Nat) : State :=
  ((s.modSeq c (fun q => { q with state := seqFault, err := q.err ||| BitVec.ofNat 5 (2 ^ err) })).raise code
    none none (posOf c 0)).sharedFault

/-- SEQ_ILLEGAL (R420). -/
def execSeqIllegal (c : CoreId) (s : State) : Answer :=
  .next (let q := s.seqAt c
    if s.mayFetch c && !q.imemBad.contains q.pc.toNat && s.illegalAt c then s.seqStop c 0x2110 0 else s)

/-- SEQ_IMEM_PARITY (R408). -/
def execSeqImemParity (c : CoreId) (s : State) : Answer :=
  .next (let q := s.seqAt c
    if s.mayFetch c && q.imemBad.contains q.pc.toNat then s.seqStop c 0x4131 4 else s)

/-! ## Scoreboard (R377 to R379) -/

/-- A range of scratchpad granules: its region and its first and last granule. -/
structure SbRange where
  region : Nat
  first : Nat
  last : Nat
  deriving DecidableEq, Repr

/-- The region's number. -/
def regionNum : Region → Nat
  | .core c => c.cluster.num * 17 + c.core.val
  | .cluster c => c.num * 17 + 16

/-- The granules of [a, a + n) in scratchpad; nothing where it lies elsewhere. -/
def State.sbRange (s : State) (a n : Nat) : List SbRange :=
  if n = 0 then []
  else match s.place a with
    | .spm r off => [⟨regionNum r, off / 128, (off + n - 1) / 128⟩]
    | _ => []

/-- Two ranges share a granule. -/
def SbRange.overlaps (x : SbRange) (e : SbEntry) : Bool :=
  x.region == e.region && decide (x.first ≤ e.last) && decide (e.first ≤ x.last)

/-- The conditions of R378 for an instruction with write, long-read and checked ranges. -/
def CoreSt.sbFree (k : CoreSt) (w l ck : List SbRange) : Bool :=
  let hit := fun (x : SbRange) (long : Bool) => k.sb.any (fun e => e.longRead == long && x.overlaps e)
  !(w ++ l ++ ck).any (fun x => hit x false) && !w.any (fun x => hit x true) &&
  decide (k.sb.length + w.length + l.length ≤ 16)

/-- Enters ranges at issue (R377). -/
def State.sbEnter (s : State) (c : CoreId) (w l : List SbRange) : State :=
  s.modCore c (fun k =>
    let n := k.seq.epoch.toNat
    { k with sb := (k.sb ++ w.map (fun x => (⟨x.region, x.first, x.last, false, n⟩ : SbEntry))) ++
                     l.map (fun x => (⟨x.region, x.first, x.last, true, n⟩ : SbEntry)) })

/-- Waits under R378, or goes on with the ranges entered. -/
def State.withSb (s : State) (c : CoreId) (w l ck : List SbRange) (f : State → State) : State :=
  if (s.coreAt c).sbFree w l ck then f (s.sbEnter c w l) else s.waitAt c seqWaitSb

/-- SB_RETIRE (R377): the last write of an entry's range has landed, or its last word has been read. -/
def execSbRetire (c : CoreId) (entry : Fin 16) (s : State) : Answer :=
  .next (s.modCore c (fun k => { k with sb := k.sb.eraseIdx entry.val }))

/-! ## Control and scalar instructions (R421 to R423) -/

/-- Sets PC after an issue. -/
def State.setPc (s : State) (c : CoreId) (pc : Nat) : State := s.modSeq c (fun q => { q with pc := BitVec.ofNat 12 pc })

/-- NOP. -/
def execNop (c : CoreId) (s : State) : Answer := .next (s.runSeq c 0x00 fun _ s => s.issued c)

/-- JMP. -/
def execJmp (c : CoreId) (s : State) : Answer :=
  .next (s.runSeq c 0x02 fun w s =>
    let q := s.seqAt c
    (s.issued c).setPc c (if fI w then (q.sreg (fA w) + fIMM w) % 2 ^ 32 else branchTo q.pc.toNat w))

/-- The BR conditions (R422). -/
def brHolds (fn a b : Nat) : Bool :=
  match fn with
  | 0 => a == b
  | 1 => a != b
  | 2 => decide (signed 32 a < signed 32 b)
  | 3 => decide (signed 32 b ≤ signed 32 a)
  | 4 => decide (a < b)
  | _ => decide (b ≤ a)

/-- BR. -/
def execBr (c : CoreId) (s : State) : Answer :=
  .next (s.runSeq c 0x03 fun w s =>
    let q := s.seqAt c
    let t := s.issued c
    if brHolds (fFN w) (q.sreg (fA w)) (q.sreg (fB w)) then t.setPc c (branchTo q.pc.toNat w) else t)

/-- LOOP. -/
def execLoop (c : CoreId) (s : State) : Answer :=
  .next (s.runSeq c 0x04 fun w s =>
    let q := s.seqAt c
    let i := fD w % 8
    let v := (Tab.get 0 q.l i).toNat
    let t := (s.issued c).modSeq c (fun q => { q with l := Tab.set 0 q.l i (word (v - 1)) })
    if 1 < v then t.setPc c (branchTo q.pc.toNat w) else t)

/-- The form word of LDI form 4 (R423, R457). -/
def formWord (b : Option Bound) (sticky : Bool) : Nat :=
  match b with
  | none => 0
  | some b => bitAt b.rerun 0 + bitAt sticky 1 + b.aw.toNat * 4 + b.wpl.toNat * 128 + bitAt b.fast 12

/-- The value that LDI writes (R423). -/
def State.ldiValue (s : State) (c : CoreId) (w : DWord) : Nat :=
  let b := (s.seqAt c).last
  match fFN w with
  | 2 => s.tick.count.toNat % 2 ^ 32
  | 3 => posOf c 0
  | 4 => formWord b (match b with | some b => (s.layerAt (LayerDesc.lix b.desc)).sticky | none => false)
  | _ => fIMM w

/-- LDI. -/
def execLdi (c : CoreId) (s : State) : Answer :=
  .next (s.runSeq c 0x05 fun w s =>
    let v := s.ldiValue c w
    (s.issued c).modSeq c (fun q =>
      if fFN w = 1 then { q with l := Tab.set 0 q.l (fD w % 8) (word v) } else q.setS (fD w) v))

/-- The ALU functions (R422). -/
def aluValue (fn a b : Nat) : Nat :=
  let n := 2 ^ 32
  match fn with
  | 0 => (a + b) % n
  | 1 => (n + a - b) % n
  | 2 => a &&& b
  | 3 => a ||| b
  | 4 => a ^^^ b
  | 5 => a * 2 ^ (b % 32) % n
  | 6 => a / 2 ^ (b % 32)
  | 7 => unsigned 32 (signed 32 a / (2 ^ (b % 32) : Nat))
  | 8 => a * b % n
  | 9 => if signed 32 a < signed 32 b then a else b
  | 10 => if signed 32 a < signed 32 b then b else a
  | 11 => if signed 32 a < signed 32 b then 1 else 0
  | _ => if a < b then 1 else 0

/-- ALU. -/
def execAlu (c : CoreId) (s : State) : Answer :=
  .next (s.runSeq c 0x06 fun w s =>
    let q := s.seqAt c
    let v := aluValue (fFN w) (q.sreg (fA w)) (if fI w then fIMM w else q.sreg (fB w))
    (s.issued c).modSeq c (fun q => q.setS (fD w) v))

/-- The device address of a byte offset in the core's cluster window, aligned to g bytes (R411). -/
def clusterAddr (c : CoreId) (off g : Nat) : Nat :=
  0x40000000000 + c.die.val * 0x10000000 + c.cl.val * 0x1000000 + off % 2 ^ 24 / g * g

/-- The core reaches an address (R362). -/
def State.coreReach (s : State) (c : CoreId) (a : Nat) : Bool :=
  match s.place a with
  | .spm r _ => coreReaches c r
  | _ => false

/-- The offset address of LDS, STS and TLD (R411). -/
def State.seqAddr (s : State) (c : CoreId) (w : DWord) (g : Nat) : Nat :=
  clusterAddr c ((s.seqAt c).sreg (fA w) + fIMM w) g

/-- LDS (R418, R421). A word that cannot be read leaves S[D] as it is (R399). -/
def execLds (c : CoreId) (s : State) : Answer :=
  .next (s.runSeq c 0x07 fun w s =>
    let a := s.seqAddr c w 4
    if !s.coreReach c a then s.reachFault c
    else s.withSb c [] [] (s.sbRange a 4) fun s =>
      let r := s.workRead a 4
      if r.1 then (r.2.issued c).modSeq c (fun q => q.setS (fD w) (leNat (s.peek a 4))) else r.2.issued c)

/-- STS. -/
def execSts (c : CoreId) (s : State) : Answer :=
  .next (s.runSeq c 0x08 fun w s =>
    let a := s.seqAddr c w 4
    if !s.coreReach c a then s.reachFault c
    else s.withSb c (s.sbRange a 4) [] [] fun s =>
      (s.writeDev a (leBytes 4 ((s.seqAt c).sreg (fB w)))).issued c)

/-- TLD. -/
def execTld (c : CoreId) (s : State) : Answer :=
  .next (s.runSeq c 0x09 fun w s =>
    let a := s.seqAddr c w 32
    if !s.coreReach c a then s.reachFault c
    else s.withSb c [] [] (s.sbRange a 32) fun s =>
      let r := s.workRead a 32
      if r.1 then (r.2.issued c).modSeq c (fun q => q.setT (fD w % 16) (BitVec.ofNat 256 (leNat (s.peek a 32))))
      else r.2.issued c)

/-- TADD: ADDR + S[A] + IMM × STRIDE modulo 2^44. -/
def execTadd (c : CoreId) (s : State) : Answer :=
  .next (s.runSeq c 0x0A fun w s =>
    let q := s.seqAt c
    let t := q.treg (fD w % 16)
    let v : Int := (t.addr : Int) + (q.sreg (fA w) : Int) + signed 32 (fIMM w) * t.stride
    (s.issued c).modSeq c (fun q => q.setT (fD w % 16) (t.setAddr (unsigned 44 v))))

/-! ## Synchronisation (R424 to R427, R452 to R454) -/

/-- TWAIT: consumes the latched cue or waits for it. -/
def execTwait (c : CoreId) (s : State) : Answer :=
  .next (s.runSeq c 0x10 fun _ s =>
    if (s.seqAt c).cueLatched then
      (s.issued c).modSeq c (fun q => { q with cueLatched := false, epoch := 0, ckpts := [] })
    else s.waitAt c seqWaitCue)

/-- BAR: the core arrives at a barrier of its set and waits there. -/
def execBar (c : CoreId) (s : State) : Answer :=
  .next (s.runSeq c 0x11 fun w s =>
    let id := bitsOf w 55 52
    s.modSeq c (fun q => { q with
      state := seqWaitBar, waitBar := some id, arrivals := Tab.set 0 q.arrivals id (Tab.get 0 q.arrivals id + 1) }))

/-- BARRIER_COMPLETE (R426): every member has arrived as often as this core, and those that wait go on. -/
def execBarrierComplete (c : CoreId) (id : Fin 16) (s : State) : Answer :=
  .next (match s.barrierOf c id.val with
    | none => s
    | some b =>
      let n := Tab.get 0 (s.seqAt c).arrivals id.val
      let waits := fun d => (s.seqAt d).waitBar == some id.val && Tab.get 0 (s.seqAt d).arrivals id.val == n
      if waits c && b.members.all (fun d => decide (n ≤ Tab.get 0 (s.seqAt d).arrivals id.val)) then
        (b.members.filter waits).foldl (fun s d => (s.issued d).modSeq d (fun q => { q with waitBar := none })) s
      else s)

/-- The checkpoint of the instruction at PC (R452). -/
def SeqSt.mkCkpt (q : SeqSt) (key : Nat) : Ckpt := ⟨BitVec.ofNat 16 key, q.pc, q.epoch, q.seed, q.s, q.l, q.t⟩

/-- Takes a checkpoint of the key unless one of that key is held (R456; for EPOCH by the same reading, log 43). -/
def SeqSt.takeCkpt (q : SeqSt) (key : Nat) : SeqSt :=
  if q.ckpts.any (fun k => k.key.toNat == key) then q else { q with ckpts := q.ckpts ++ [q.mkCkpt key] }

/-- The instruction needs a ninth checkpoint (R454). -/
def SeqSt.ckptFull (q : SeqSt) (key : Nat) : Bool :=
  !q.ckpts.any (fun k => k.key.toNat == key) && decide (8 ≤ q.ckpts.length)

/-- EPOCH (R427, R452, R454). -/
def execEpoch (c : CoreId) (s : State) : Answer :=
  .next (s.runSeq c 0x12 fun w s =>
    let q := s.seqAt c
    let v := (q.sreg (fA w) + bitsOf w 15 0) % 2 ^ 32
    if v = q.epoch.toNat then s.issued c
    else if v < q.epoch.toNat ∨ 65535 < v then s.seqStop c 0x2112 2
    else if q.ckptFull v then s.waitAt c seqWaitCkpt
    else (s.modSeq c (fun q => { q.takeCkpt v with epoch := BitVec.ofNat 16 v })).issued c)

/-- The work of the core that the cluster's queue holds (R417); TOPKV and SCAT complete when their records have gone into the
merge tree (log 57). -/
def State.clusterBusy (s : State) (c : CoreId) : Bool :=
  (s.cluAt c.cluster.num).svuQ.any (fun o => o.core == c.core.val)

/-- Every instruction of a class of FENCE has completed (R424); a STAT completes when it issues. -/
def State.classDone (s : State) (c : CoreId) (i : Nat) : Bool :=
  let k := s.coreAt c
  match i with
  | 0 => k.chainQ.isEmpty
  | 1 => k.loadQ.isEmpty
  | 2 => k.convQ.isEmpty && k.convOut.isEmpty
  | 3 => !k.euQ.any (fun e => e.kind == 1)
  | 4 => k.dmaQ.isEmpty
  | 5 => k.dieQ.isEmpty
  | 6 => true
  | _ => !s.clusterBusy c

/-- FENCE. -/
def execFence (c : CoreId) (s : State) : Answer :=
  .next (s.runSeq c 0x51 fun w s =>
    if (List.range 8).all (fun i => !bitOf (bitsOf w 55 48) i || s.classDone c i) then s.issued c else s)

/-- SEED: S[B] × 2^32 + S[A]. -/
def execSeed (c : CoreId) (s : State) : Answer :=
  .next (s.runSeq c 0x50 fun w s =>
    let q := s.seqAt c
    (s.issued c).modSeq c (fun q' => { q' with seed := BitVec.ofNat 64 (q.sreg (fB w) * 2 ^ 32 + q.sreg (fA w)) }))

end Sys2Proof.Machine
end

