-- ==== Sys2Proof/Machine/Stacks.lean ====
section
/-! DEFINITION. The in-package stacks' patrol and sparing, and the KV pages (11, R523 to R557). -/

namespace Sys2Proof.Machine

/-! ## The base die (R524, R547 to R549) -/

/-- STK_REFRESH (R524): the hottest die of the stack, its peak, and the double refresh rate above 85 °C. -/
def execStkRefresh (k : Fin 16) (temp : BitVec 8) (s : State) : Answer :=
  .next (if s.glb.st = .off ∨ !s.stkPopulated k.val then s
    else s.modStk k.val (fun t => { t with
      tempNow := temp, tempPeak := if t.tempPeak < temp then temp else t.tempPeak, hot := decide (85 < temp.toNat) }))

/-- Granules of a stack: 128 fast channels of 256 MiB, 32 deep channels of 3 GiB (R523). -/
def stackGranules : Nat := 128 * 2 ^ 23 + 32 * (3 * 2 ^ 25)

/-- The channel, as STK_LIDX numbers it, and the channel offset of granule i of the patrol's round. -/
def patrolPlace (i : Nat) : Nat × Nat :=
  if i < 128 * 2 ^ 23 then (i / 2 ^ 23, i % 2 ^ 23 * 32)
  else (128 + (i - 128 * 2 ^ 23) / (3 * 2 ^ 25), (i - 128 * 2 ^ 23) % (3 * 2 ^ 25) * 32)

/-- STK_PATROL_READ (R547): the next granule of the round, by channel and offset (log 35); its errors fail no tick. -/
def execStkPatrolRead (k : Fin 16) (s : State) : Answer :=
  .next (let t := s.stkAt k.val
    if !s.stkPopulated k.val || !t.patrolEn || !(t.state == 2 || t.state == 4) then s
    else
      let g := patrolPlace t.patrolAt
      let s := (s.granuleRead k.val g.1 g.2).2
      if t.patrolAt + 1 < stackGranules then
        s.modStk k.val (fun t => { t with patrolAt := t.patrolAt + 1, patrolOn := true })
      else s.modStk k.val (fun t => { t with
        patrolAt := 0, patrolOn := false, rounds := bump t.rounds, laneHits := [], rowHits := [] }))

/-- SPARE_COPY_DONE (R549): the copy to the spare row ends; the data are the same. -/
def execSpareCopyDone (k : Fin 16) (s : State) : Answer :=
  .next (s.modStk k.val (fun t => { t with repair := false }))

/-! ## Page tables (R530, R531, R534) -/

/-- The page ranges and figures of die d's KV configuration. -/
def State.kvCfg (s : State) (d : Nat) : Option KvCfg := s.cfg.kv[d]?

/-- NLD × 2^LSH, the logical bytes of one slot on die d. -/
def State.kvSlotBytes (s : State) (d : Nat) : Nat :=
  let c := (s.kvAt d).cfg.toNat
  field c 25 20 * 2 ^ field c 5 0

/-- KVB. -/
def State.kvBytes (s : State) (d : Nat) : Nat := 2 ^ field (s.kvAt d).cfg.toNat 10 6

/-- The logical page of a KV logical address (R531). -/
def kvPage (a : Nat) : Nat := (a - 0x30000000000) / 65536

/-- The slot of logical page n on die d (R530). -/
def State.kvSlotOf (s : State) (d n : Nat) : Nat := n * 65536 / s.kvSlotBytes d

/-- The device address of page table entry n (R531). -/
def State.pteAddr (s : State) (d n : Nat) : Nat := (s.kvAt d).pt.toNat * 4096 + 8 * n

/-- Page table entry n. -/
def State.pte (s : State) (d n : Nat) : Nat := leNat (s.peek (s.pteAddr d n) 8)

/-- Writes page table entry n. -/
def State.setPte (s : State) (d n v : Nat) : State := s.writeDev (s.pteAddr d n) (leBytes 8 v)

/-- VALID of an entry. -/
def pteValid (v : Nat) : Bool := bitOf v 0

/-- The page's number, its device address ÷ 65,536. -/
def ptePage (v : Nat) : Nat := field v 43 16

/-- An entry for a page (R531). -/
def mkPte (deep full : Bool) (page : Nat) : Nat := 1 + bitAt deep 1 + bitAt full 2 + page * 65536

/-- A translation (R534): a miss of the 4,096-entry store counts; the store keeps the most recent entries (log 36). -/
def State.kvLookup (s : State) (d n : Nat) : State :=
  if (s.kvAt d).tlb.contains n then s
  else s.modKv d (fun k => { k with tlb := (n :: k.tlb).take 4096, xmiss := bump k.xmiss })

/-- The mapped logical pages of a range [lo, lo + len), ascending: the entries of the table that memory lists. -/
def State.validPages (s : State) (d lo len : Nat) : List Nat :=
  let base := s.pteAddr d 0
  (s.mem.filter (fun e => decide (base + 8 * lo ≤ e.1) && decide (e.1 < base + 8 * (lo + len)) && (e.1 - base) % 8 == 0 &&
    e.2.getLsbD 0)).map (fun e => (e.1 - base) / 8)

/-- The first logical page of a slot and its number of pages. -/
def State.slotPages (s : State) (d slot : Nat) : Nat × Nat :=
  (slot * s.kvSlotBytes d / 65536, s.kvSlotBytes d / 65536)

/-! ## Allocation, freeing, spill (R533 to R539) -/

/-- The lowest page at or above p that is not used. -/
def lowestFree (used : List Nat) : Nat → Nat → Nat
  | p, 0 => p
  | p, n + 1 => if used.contains p then lowestFree used (p + 1) n else p

/-- The lowest-numbered free page of a range, if it has one (R533). -/
def freePage (used : List Nat) (first n : Nat) : Option Nat :=
  let p := lowestFree used first used.length
  if p < first + n then some p else none

/-- The page that an allocation on die d takes: fast first, then deep (R533). -/
def State.kvPick (s : State) (d : Nat) : Option (Bool × Nat) :=
  match s.kvCfg d with
  | none => none
  | some c =>
    match freePage (s.kvAt d).used c.fastFirst c.fastPages with
    | some p => some (false, p)
    | none => (freePage (s.kvAt d).used c.deepFirst c.deepPages).map (fun p => (true, p))

/-- The free pages of a range of n from first. -/
def freeCount (used : List Nat) (first n : Nat) : Nat :=
  n - (used.filter (fun p => decide (first ≤ p) && decide (p < first + n))).length

/-- Frees logical page n: its entry is no longer VALID, its page and any spill of it are free again. -/
def State.kvFreePage (s : State) (d n : Nat) : State :=
  let v := s.pte d n
  let gone := ((s.kvAt d).spilling ++ (s.kvAt d).landed).filter (fun e => e.1 == n)
  let pages := gone.map (fun e => e.2) ++ (if pteValid v then [ptePage v] else [])
  (s.setPte d n 0).modKv d (fun k => { k with
    used := k.used.filter (fun p => !pages.contains p), tlb := dropKey k.tlb n, freeq := dropKey k.freeq n,
    spilling := k.spilling.filter (fun e => e.1 != n), landed := k.landed.filter (fun e => e.1 != n) })

/-- Makes logical page n writable (R532, R533, R539): a page that a queued free holds is freed first; an unmapped one is
allocated. None where no page is free. -/
def State.kvMap (s : State) (d n : Nat) : Option State :=
  let s := s.kvLookup d n
  let s := if (s.kvAt d).freeq.contains n then s.kvFreePage d n else s
  if pteValid (s.pte d n) then some s
  else
    match s.kvPick d with
    | none => none
    | some (deep, p) =>
      some ((s.setPte d n (mkPte deep false p)).modKv d (fun k => { k with used := p :: k.used, alloc := bump k.alloc }))

/-- The slot of a step that a KV fault rolls back (R533, R545). -/
def State.kvSlotFault (s : State) (d n : Nat) : State := s.slotFault (maskSet 0 (s.kvSlotOf d n))

/-- Reads n bytes of KV logical space through die d, page by page (R530, R532, R545): whether all of them were delivered,
and the bytes. -/
def State.kvRead (s : State) (d a n : Nat) : Nat → Bool × List Byte × State
  | 0 => (true, [], s)
  | f + 1 =>
    if n = 0 then (true, [], s)
    else
      let k := min n (65536 - a % 65536)
      let pg := kvPage a
      let s := s.kvLookup d pg
      let v := s.pte d pg
      let r : Bool × List Byte × State :=
        if !pteValid v then (true, List.replicate k (0 : Byte), s)
        else
          let x := ptePage v * 65536 + a % 65536
          let q := s.readDev x k
          (q.1, s.peek x k, if q.1 then q.2 else q.2.kvSlotFault d pg)
      let t := r.2.2.kvRead d (a + k) (n - k) f
      (r.1 && t.1, r.2.1 ++ t.2.1, t.2.2)

/-- Writes bytes into KV logical space through die d, page by page (R532, R533). Without a free page the writing slot's
step fails with event 0x4106. -/
def State.kvWrite (s : State) (d a : Nat) (l : List Byte) : Nat → State
  | 0 => s
  | f + 1 =>
    if l.isEmpty then s
    else
      let k := 65536 - a % 65536
      let pg := kvPage a
      let s := match s.kvMap d pg with
        | some s => s.writeDev (ptePage (s.pte d pg) * 65536 + a % 65536) (l.take k)
        | none => ((s.modKv d (fun x => { x with nopage := bump x.nopage })).raise 0x4106).kvSlotFault d pg
      s.kvWrite d (a + k) (l.drop k) f

/-- Positions of one page, and pages that hold n positions. -/
def State.pagePositions (s : State) (d : Nat) : Nat := 65536 / s.kvBytes d

/-- The place of logical page n in its slot's layer: the page's number within the layer. -/
def State.pageInLayer (s : State) (d n : Nat) : Nat := n % (2 ^ field (s.kvAt d).cfg.toNat 5 0 / 65536)

/-- Sets FULL in the entries of a slot whose pages lie below its committed length (R531). -/
def State.kvMarkFull (s : State) (d slot : Nat) : State :=
  let r := s.slotPages d slot
  (s.validPages d r.1 r.2).foldl (fun s n =>
    let v := s.pte d n
    if !bitOf v 2 ∧ (s.pageInLayer d n + 1) * s.pagePositions d ≤ (s.slot slot).com.kvLen.toNat then
      s.setPte d n (v + 4) else s) s

/-- Page n of a slot may spill (R535, R539): fast tier, FULL, before the newest KV_HOT pages of its layer, no queued free
and no spill of it. -/
def State.maySpill (s : State) (d slot n : Nat) : Bool :=
  let v := s.pte d n
  let k := s.kvAt d
  let pages := ((s.slot slot).com.kvLen.toNat + s.pagePositions d - 1) / s.pagePositions d
  pteValid v && !bitOf v 1 && bitOf v 2 && decide (s.pageInLayer d n + field k.policy.toNat 23 0 < pages) &&
  !k.freeq.contains n && !(k.spilling ++ k.landed).any (fun e => e.1 == n)

/-- Selects the pages to spill in the next tick on die d (R535, R536): slots, layers and pages ascending, up to KV_SPILL,
each with its new deep page. -/
def State.kvSpillSelect (s : State) (d : Nat) : State :=
  let cand := (List.range 256).flatMap (fun i =>
    if (s.slot i).state = 0 ∨ (s.slot i).kind then []
    else let r := s.slotPages d i; (s.validPages d r.1 r.2).filter (fun n => s.maySpill d i n))
  (cand.take (field (s.kvAt d).policy.toNat 31 24)).foldl (fun s n =>
    match (s.kvCfg d).bind (fun c => freePage (s.kvAt d).used c.deepFirst c.deepPages) with
    | none => s
    | some p => s.modKv d (fun k => { k with used := p :: k.used, spilling := k.spilling ++ [(n, p)] })) s

/-- Pages whose copy has landed switch to the deep tier, and the fast page is freed (R536). -/
def State.kvSwitch (s : State) (d : Nat) : State :=
  ((s.kvAt d).landed.foldl (fun s e =>
    let v := s.pte d e.1
    (s.setPte d e.1 (mkPte true (bitOf v 2) e.2)).modKv d (fun k => { k with
      used := dropKey k.used (ptePage v), tlb := dropKey k.tlb e.1, spilled := bump k.spilled })) s).modKv d
    (fun k => { k with landed := [] })

/-- SPILL_COPY_DONE (R536): the first copy of die d lands in its deep page. A copy that meets an uncorrectable granule
does not land, and its deep page is free again (log 37). -/
def execSpillCopyDone (d : Fin 4) (s : State) : Answer :=
  .next (match (s.kvAt d.val).spilling with
    | [] => s
    | (n, p) :: rest =>
      let x := ptePage (s.pte d.val n) * 65536
      let r := s.readDev x 65536
      if r.1 then (r.2.writeDev (p * 65536) (s.peek x 65536)).modKv d.val (fun k => { k with
          spilling := rest, landed := k.landed ++ [(n, p)] })
      else r.2.modKv d.val (fun k => { k with spilling := rest, used := dropKey k.used p }))

/-- Queues a freed slot's VALID entries on every die (R538). -/
def State.kvQueueFree (s : State) (slot : Nat) : State :=
  (List.range 4).foldl (fun s d =>
    let r := s.slotPages d slot
    let l := s.validPages d r.1 r.2
    if l.isEmpty then s else s.modKv d (fun k => { k with freeq := k.freeq ++ l.filter (fun n => !k.freeq.contains n) })) s

/-- KV_FREE (R538): up to 1,024 queued entries of die d are freed, in ascending logical page order of each free. -/
def execKvFree (d : Fin 4) (s : State) : Answer :=
  .next (((s.kvAt d.val).freeq.take 1024).foldl (fun s n => s.kvFreePage d.val n) s)

end Sys2Proof.Machine
end

