-- ==== Sys2Proof/Machine/Move.lean ====
section
/-! DEFINITION. Data movement: ring-form operands, DMA, NRD, NWR, PUSH, POP and the resumption of stalled producers and
consumers (09, R412 to R434; 08, R362 to R373, R798, R800). -/

namespace Sys2Proof.Machine

/-! ## Ring-form operands (R372, R373, R412, R413) -/

/-- An entry of a ring: its kind, the position of its body and its body's bytes, and its whole length. -/
structure Entry where
  kind : Nat
  body : Nat
  len : Nat
  total : Nat
  deriving DecidableEq, Repr

/-- What a consumer finds at a place of a ring. -/
inductive Found where
  | entry (e : Entry)
  | wait
  | bad

/-- The entry at position p with `avail` readable bytes from there (R371 to R373). -/
def State.entryAt (s : State) (c : CoreId) (q p avail : Nat) : Found :=
  let r := s.ringAt c q
  if r.esize ≠ 0 then
    if avail < r.esize.toNat * 8 then .wait else .entry ⟨0xF, p, r.esize.toNat * 8, r.esize.toNat * 8⟩
  else if avail < 8 then .wait
  else
    let f := leNat (s.ringGet c q p 8)
    let n := field f 23 0 * 8
    if bitOf f 63 ≠ (parity f == 1) ∨ 8 ≤ field f 27 24 ∨ avail < n + 8 then .bad
    else .entry ⟨field f 27 24, r.adv p 8, n, n + 8⟩

/-- Walks n entries on from position p. -/
def State.walkRing (s : State) (c : CoreId) (q p avail : Nat) : Nat → Found
  | 0 => s.entryAt c q p avail
  | n + 1 =>
    match s.entryAt c q p avail with
    | .entry e => s.walkRing c q ((s.ringAt c q).adv p e.total) (avail - e.total) n
    | x => x

/-- The entry OFF places after HEAD (R413). -/
def State.entryOff (s : State) (c : CoreId) (q off : Nat) : Found :=
  let r := s.ringAt c q
  s.walkRing c q r.head r.readable off

/-- The core whose ring a ring-form descriptor names (R412): the owner of the core region of ADDR. -/
def State.ringOwner (s : State) (c : CoreId) (t : TileDesc) : CoreId :=
  match s.place t.addr with
  | .spm (.core d) _ => d
  | _ => c

/-- KIND of a descriptor accepts an entry (R412, R415). -/
def TileDesc.accepts (t : TileDesc) (k : Nat) : Bool := t.kind == 0xF || t.kind == k || k == 0xF

/-- A source operand resolved: a byte place in memory or in a ring, a wait, or a failed ring. -/
inductive Source where
  | mem (a : Nat)
  | ring (c : CoreId) (q p : Nat) (len : Nat)
  | wait
  | bad (c : CoreId) (q : Nat)

/-- The source that a descriptor names (R412, R413, R415, R798). -/
def State.source (s : State) (c : CoreId) (t : TileDesc) : Source :=
  if !t.ring then .mem t.addr
  else
    let d := s.ringOwner c t
    if !(s.ringAt d t.q).en || (s.ringAt d t.q).stopped then .bad d t.q
    else match s.entryOff d t.q t.off with
      | .entry e => if t.accepts e.kind then .ring d t.q e.body e.len else .bad d t.q
      | .wait => .wait
      | .bad => .bad d t.q

/-- The bytes of a source, unchecked. -/
def State.sourceBytes (s : State) (x : Source) (n : Nat) : List Byte :=
  match x with
  | .mem a => s.peek a n
  | .ring c q p _ => s.ringGet c q p n
  | _ => []

/-- Reads a source with its checks by tick work. -/
def State.readSource (s : State) (x : Source) (n : Nat) : Bool × State :=
  match x with
  | .mem a => s.workRead a n
  | .ring c q p _ => let r := s.ringRead c q p n; if r.1 then r else (false, r.2.sharedFault)
  | _ => (false, s)

/-- The scratchpad range of a source. -/
def State.sourceRange (s : State) (x : Source) (n : Nat) : List SbRange :=
  match x with
  | .mem a => s.sbRange a n
  | _ => []

/-! ## Reach of a move (R362, R363, R553, R589) -/

/-- What an address of a move may do. -/
inductive Reach where
  | ok
  | far
  | hole
  | window

/-- The reach of the core DMA or the die DMA for an address (R362, R588, R589). -/
def State.moveReach (s : State) (c : CoreId) (die write : Bool) (a : Nat) : Reach :=
  match s.place a with
  | .window h _ => if die && write && (s.handleAt h).state == 1 then .ok else .window
  | .hole => .hole
  | .spm r _ => if die then (if s.dieReaches c.die.val a then .ok else .far) else (if coreReaches c r then .ok else .far)
  | _ => if die && s.dieReaches c.die.val a then .ok else .far

/-- A move that does not start: event 0x5010 for window space (R589), 0x4108 for an unpopulated address of the stacks
(R553; log 44), 0x4141 for one beyond reach (R363); each a fault in shared work. -/
def State.moveFault (s : State) (c : CoreId) : Reach → State
  | .window => (s.raise 0x5010 none none (posOf c 0)).sharedFault
  | .hole => (s.raise 0x4108 none none (posOf c 0)).reachFault c
  | _ => s.reachFault c

/-! ## Ring destinations -/

/-- The producer's name in the ring table. -/
def moveProducer (c : CoreId) (die : Bool) : Producer := if die then .dieDma c.die.val else .core c.num

/-- Pushes what is left of a move, entry by entry, until it is done or the ring makes it wait (R369, R371, R431). -/
def State.pushMove (s : State) (o : DmaOp) : Nat → DmaOp × State
  | 0 => (o, s)
  | n + 1 =>
    match o.ring with
    | none => (o, s)
    | some (cn, q) =>
      let c := CoreId.ofNum cn
      if o.bytes.isEmpty then (o, s)
      else
        let k := (s.ringAt c q).esize.toNat * 8
        let one := if k = 0 then o.bytes else o.bytes.take k
        match s.pushUnit c q o.prod o.kind.toNat o.epoch one with
        | .done s => s.pushMove { o with bytes := if k = 0 then [] else o.bytes.drop k, blocked := false } n
        | .wait s => ({ o with blocked := true }, s)

/-- Queues a move on the core or die DMA; a push starts at once unless an earlier one of the queue is blocked. -/
def State.queueMove (s : State) (c : CoreId) (die : Bool) (o : DmaOp) : State :=
  let k := s.coreAt c
  let r := if (if die then k.dieQ else k.dmaQ).any (fun x => x.blocked) then ({ o with blocked := o.ring.isSome }, s)
    else s.pushMove o (o.bytes.length + 1)
  r.2.modCore c (fun k => if die then { k with dieQ := k.dieQ ++ [r.1] } else { k with dmaQ := k.dmaQ ++ [r.1] })

/-- The unit queue has room (R417). -/
def State.moveRoom (s : State) (c : CoreId) (die : Bool) : Bool :=
  if die then decide ((s.coreAt c).dieQ.length < 16) else decide ((s.coreAt c).dmaQ.length < 8)

/-! ## DMA (R431, R588 to R590) -/

/-- Delivers the bytes of a DMA to an address: scratchpad or stacks, KV pages, or a window's remote handle. -/
def State.deliver (s : State) (c : CoreId) (a : Nat) (l : List Byte) : State :=
  match s.place a with
  | .kv => s.kvWrite c.die.val a l (l.length / 65536 + 2)
  | .window h off =>
    let e := (s.handleAt h).epoch
    let p := field (s.handleAt h).cfg.toNat 16 14
    (s.sendOn p l.length (.winWrite h e off l)).sendOn p 4 (.wfence h e)
  | _ => s.writeDev a l

/-- Reads the source of a DMA: whether every byte was delivered, and the bytes. -/
def State.fetchMove (s : State) (c : CoreId) (x : Source) (n : Nat) : Bool × List Byte × State :=
  match x with
  | .mem a =>
    match s.place a with
    | .kv => s.kvRead c.die.val a n (n / 65536 + 2)
    | _ => let r := s.workRead a n; (r.1, s.peek a n, r.2)
  | _ => let r := s.readSource x n; (r.1, s.sourceBytes x n, r.2)

/-- The length of a move in bytes: S[LS], or LEN words where LS names S0 (R428). -/
def State.moveLen (s : State) (c : CoreId) (ls unit : Nat) (t : TileDesc) : Nat :=
  if ls = 0 then t.len * 8 else (s.seqAt c).sreg ls * unit

/-- The window handle of a destination. -/
def State.windowOf (s : State) (a : Nat) : Option Nat :=
  match s.place a with
  | .window h _ => some h
  | _ => none

/-- DMA. -/
def execDma (c : CoreId) (s : State) : Answer :=
  .next (s.runSeq c 0x21 fun w s =>
    let q := s.seqAt c
    let ts := q.treg (bitsOf w 55 52)
    let td := q.treg (bitsOf w 51 48)
    let die := bitOf w.toNat 47
    let n := s.moveLen c (bitsOf w 46 42) 1 ts
    let owner := s.ringOwner c td
    match s.source c ts with
    | .wait => s.waitAt c seqWaitRing
    | .bad d r => s.ringFault d r
    | x =>
      let rs := if ts.ring then Reach.ok else s.moveReach c die false ts.addr
      let rd := if td.ring then Reach.ok else s.moveReach c die true td.addr
      match rs, rd with
      | .ok, .ok =>
        if td.ring && !(s.ringAt owner td.q).en then s.ringFault owner td.q
        else if !s.moveRoom c die then s.waitAt c seqWaitQueue
        else
          s.withSb c (if td.ring then [] else s.sbRange td.addr n) (s.sourceRange x n) [] fun s =>
            let r := s.fetchMove c x n
            let s := r.2.2.issued c
            let l := if r.1 then r.2.1 else []
            let o : DmaOp :=
              { code := 0x21, prod := moveProducer c die, ord := q.lastOrd, conv := 0, epoch := q.epoch, ring := if td.ring then some (owner.num, td.q) else none,
                kind := BitVec.ofNat 4 td.kind, bytes := if td.ring then l else [], blocked := false,
                window := if td.ring then none else s.windowOf td.addr, acked := false, failed := false }
            if !s.tickLive then s
            else (if td.ring || l.isEmpty then s else s.deliver c td.addr l).queueMove c die o
      | .ok, x => s.moveFault c x
      | x, _ => s.moveFault c x)

/-- The move has nothing left to push and, into a window, has its WACK (R590). -/
def DmaOp.finished (o : DmaOp) : Bool := o.bytes.isEmpty && (o.window.isNone || o.acked)

/-- DMA_DONE: the first move of the core's core DMA or die DMA queue completes. -/
def execDmaDone (c : CoreId) (die : Bool) (s : State) : Answer :=
  .next (let k := s.coreAt c
    match if die then k.dieQ else k.dmaQ with
    | [] => s
    | o :: rest =>
      if o.finished then s.modCore c (fun k => if die then { k with dieQ := rest } else { k with dmaQ := rest }) else s)

/-! ## NRD and NWR (R354, R432) -/

/-- The words of block i of a mode, as device addresses (R354, R432): a row of 128 bytes, a column of 32 consecutive rows from
a multiple of 32, or a column of 32 rows at a stride of 2^M rows. Block i + 1 follows block i (log 38). -/
def blockWords (mode m col a i : Nat) : List Nat :=
  let row := a / 128
  match mode with
  | 0 => (List.range 32).map (fun j => (row + i) * 128 + 4 * j)
  | 1 => (List.range 32).map (fun j => (row / 32 * 32 + 32 * i + j) * 128 + 4 * (col % 32))
  | _ => (List.range 32).map (fun j => (row / (32 * 2 ^ m) * (32 * 2 ^ m) + 32 * 2 ^ m * i + j * 2 ^ m) * 128 + 4 * (col % 32))

/-- Reads words at addresses by tick work: whether all were delivered. -/
def State.readWords (s : State) : List Nat → Bool × State
  | [] => (true, s)
  | a :: t => let r := s.workRead a 4; if r.1 then r.2.readWords t else r

/-- Copies 4-byte words from one list of addresses to another, all read before any is written. -/
def State.copyWords (s : State) (src dst : List Nat) : State :=
  let vals := src.map (fun a => s.peek a 4)
  (dst.zip vals).foldl (fun s e => s.writeDev e.1 e.2) s

/-- The common course of NRD and NWR. -/
def State.blockMove (s : State) (c : CoreId) (w : DWord) (write : Bool) : State :=
  let q := s.seqAt c
  let t := q.treg (bitsOf w 55 52)
  let nb := bitsOf w 41 30
  let local_ := clusterAddr c (q.sreg (bitsOf w 29 25)) 128
  let far := (List.range nb).flatMap (fun i => blockWords (bitsOf w 51 50) (bitsOf w 49 47) (q.sreg (bitsOf w 46 42)) t.addr i)
  let near := (List.range nb).flatMap (fun i => blockWords 0 0 0 local_ i)
  if !(far ++ near).all (fun a => s.coreReach c a) then s.reachFault c
  else if !s.moveRoom c false then s.waitAt c seqWaitQueue
  else
    let rf := s.sbRange (far.foldl min (far.headD 0)) (far.foldl max 0 + 4 - far.foldl min (far.headD 0))
    let rn := s.sbRange local_ (128 * nb)
    s.withSb c (if write then rf else rn) (if write then rn else []) (if write then [] else rf) fun s =>
      let r := s.readWords (if write then near else far)
      let s := r.2.issued c
      if !r.1 || !s.tickLive then s
      else (if write then s.copyWords near far else s.copyWords far near).queueMove c false
        ⟨BitVec.ofNat 8 (if write then 0x23 else 0x22), moveProducer c false, q.lastOrd, 0, q.epoch, none, 0, [], false, none, false, false⟩

/-- NRD. -/
def execNrd (c : CoreId) (s : State) : Answer := .next (s.runSeq c 0x22 fun w s => s.blockMove c w false)

/-- NWR. -/
def execNwr (c : CoreId) (s : State) : Answer := .next (s.runSeq c 0x23 fun w s => s.blockMove c w true)

/-! ## PUSH, POP (R433, R434, R798) -/

/-- PUSH: one entry with the given KIND and the current epoch. In a ring of ESIZE ≠ 0 an entry is ESIZE words (R371). -/
def execPush (c : CoreId) (s : State) : Answer :=
  .next (s.runSeq c 0x24 fun w s =>
    let q := s.seqAt c
    let td := q.treg (bitsOf w 55 52)
    let ts := q.treg (bitsOf w 51 48)
    let d := s.ringOwner c td
    let r := s.ringAt d td.q
    let n := if r.esize = 0 then s.moveLen c (bitsOf w 43 39) 8 ts else r.esize.toNat * 8
    match s.source c ts with
    | .wait => s.waitAt c seqWaitRing
    | .bad e k => s.ringFault e k
    | x =>
      if !r.en then s.ringFault d td.q
      else if !ts.ring && !s.coreReach c ts.addr then s.reachFault c
      else if !s.moveRoom c false then s.waitAt c seqWaitQueue
      else s.withSb c [] [] (s.sourceRange x n) fun s =>
        let l := s.sourceBytes x n
        let g := s.readSource x n
        let s := g.2.issued c
        if !g.1 || !s.tickLive then s
        else s.queueMove c false ⟨0x24, moveProducer c false, q.lastOrd, 0, q.epoch, some (d.num, td.q), BitVec.ofNat 4 (bitsOf w 47 44), l, false, none, false, false⟩)

/-- Bytes of the first n entries from HEAD, a stall, or a failed frame. -/
def State.entriesBytes (s : State) (c : CoreId) (q p avail : Nat) : Nat → Option (Option Nat)
  | 0 => some (some 0)
  | n + 1 =>
    match s.entryAt c q p avail with
    | .entry e =>
      match s.entriesBytes c q ((s.ringAt c q).adv p e.total) (avail - e.total) n with
      | some (some k) => some (some (k + e.total))
      | x => x
    | .wait => some none
    | .bad => none

/-- An issued instruction or EU task still reads ring q of the core (R434). -/
def CoreSt.readsRing (k : CoreSt) (q : Nat) : Bool :=
  k.chainQ.any (fun o => TileDesc.ring o.tile && TileDesc.q o.tile == q) || k.loadQ.any (fun o => o.ring == some q) ||
  k.euQ.any (fun o => o.ops.any (fun p => TileDesc.ring p.tile && TileDesc.q p.tile == q))

/-- POP: S[NS] + IMM entries of ring Q. -/
def execPop (c : CoreId) (s : State) : Answer :=
  .next (s.runSeq c 0x25 fun w s =>
    let q := bitsOf w 55 52
    let r := s.ringAt c q
    let n := ((s.seqAt c).sreg (bitsOf w 51 47) + fIMM w) % 2 ^ 32
    if !r.en then s.ringFault c q
    else if (s.coreAt c).readsRing q ∨ r.stopped then s.waitAt c seqWaitRing
    else if r.readable < n * 8 ∧ n * 8 ≠ 0 then s.waitAt c seqWaitRing
    else match s.entriesBytes c q r.head r.readable n with
      | none => s.ringFault c q
      | some none => s.waitAt c seqWaitRing
      | some (some k) =>
        match s.releaseBytes c q (s.seqAt c).epoch k with
        | .done s => s.issued c
        | .wait s => s.waitAt c seqWaitRing)

/-! ## Resumption (R368, R800) -/

/-- Retries the blocked moves of a queue in order. -/
def State.retryMoves (s : State) : List DmaOp → List DmaOp × State
  | [] => ([], s)
  | o :: t =>
    if !o.blocked then
      let r := s.retryMoves t
      (o :: r.1, r.2)
    else
      let r := s.pushMove { o with blocked := false } (o.bytes.length + 1)
      if r.1.blocked then (r.1 :: t, r.2)
      else
        let u := r.2.retryMoves t
        (r.1 :: u.1, u.2)

/-- Retries the pushes that a cluster's merge tree and SVU hold back. -/
def State.retryCluster (s : State) (n : Nat) : State :=
  let r := s.retryMoves (s.cluAt n).waiting
  r.2.modClu n (fun k => { k with waiting := r.1.filter (fun o => !o.bytes.isEmpty) })

end Sys2Proof.Machine
end

