-- ==== Sys2Proof/Machine/Shake.lean ====
section
/-! DEFINITION. SHAKE256 of FIPS 202, which the manual names for digests (R645, R693, R701), self-test digests and the
keyed counter generator (R180). -/

namespace Sys2Proof.Machine

/-- A 64-bit lane rotated left. -/
def rotl64 (v k : Nat) : Nat := ((v <<< k) ||| (v >>> (64 - k))) % 2 ^ 64

/-- Lane i of a Keccak state, i = x + 5y. -/
def lane (a : List Nat) (i : Nat) : Nat := a.getD i 0

/-- Rotation offsets of rho, by lane. -/
def rhoOffsets : List Nat :=
  [0, 1, 62, 28, 27, 36, 44, 6, 55, 20, 3, 10, 43, 25, 39, 41, 45, 15, 21, 8, 18, 2, 61, 56, 14]

/-- The 24 round constants of iota. -/
def roundConstants : List Nat :=
  [0x0000000000000001, 0x0000000000008082, 0x800000000000808A, 0x8000000080008000, 0x000000000000808B,
   0x0000000080000001, 0x8000000080008081, 0x8000000000008009, 0x000000000000008A, 0x0000000000000088,
   0x0000000080008009, 0x000000008000000A, 0x000000008000808B, 0x800000000000008B, 0x8000000000008089,
   0x8000000000008003, 0x8000000000008002, 0x8000000000000080, 0x000000000000800A, 0x800000008000000A,
   0x8000000080008081, 0x8000000000008080, 0x0000000080000001, 0x8000000080008008]

/-- Theta: every lane with the parities of two columns. -/
def keccakTheta (a : List Nat) : List Nat :=
  let c := (List.range 5).map (fun x =>
    lane a x ^^^ lane a (x + 5) ^^^ lane a (x + 10) ^^^ lane a (x + 15) ^^^ lane a (x + 20))
  let d := (List.range 5).map (fun x => lane c ((x + 4) % 5) ^^^ rotl64 (lane c ((x + 1) % 5)) 1)
  (List.range 25).map (fun i => lane a i ^^^ lane d (i % 5))

/-- Rho and pi: lane (x, y) of the result is the rotated lane (x + 3y, x). -/
def keccakRhoPi (a : List Nat) : List Nat :=
  (List.range 25).map (fun i =>
    let x := i % 5
    let y := i / 5
    let j := (x + 3 * y) % 5 + 5 * x
    rotl64 (lane a j) (lane rhoOffsets j))

/-- Chi and iota. -/
def keccakChiIota (rc : Nat) (a : List Nat) : List Nat :=
  (List.range 25).map (fun i =>
    let y := i / 5 * 5
    let x := i % 5
    let v := lane a i ^^^ ((2 ^ 64 - 1 - lane a ((x + 1) % 5 + y)) &&& lane a ((x + 2) % 5 + y))
    if i = 0 then v ^^^ rc else v)

/-- Keccak-f[1600]. -/
def keccakF (a : List Nat) : List Nat :=
  roundConstants.foldl (fun s rc => keccakChiIota rc (keccakRhoPi (keccakTheta s))) a

/-- XORs a 136-byte block into the rate lanes. -/
def absorbBlock (a : List Nat) (b : List Byte) : List Nat :=
  (List.range 25).map (fun i => if i < 17 then lane a i ^^^ leAt b (8 * i) 8 else lane a i)

/-- The message with SHAKE's suffix and pad10*1 to a multiple of 136 bytes. -/
def shakePad (m : List Byte) : List Byte :=
  let z := 135 - m.length % 136
  if z = 0 then m ++ [0x9F] else m ++ [0x1F] ++ List.replicate (z - 1) 0 ++ [0x80]

/-- The state after absorbing a message. -/
def absorb (m : List Byte) : List Nat :=
  let p := shakePad m
  (chunks 136 (p.length / 136) p).foldl (fun s b => keccakF (absorbBlock s b)) (List.replicate 25 0)

/-- Squeezes n blocks of 136 bytes. -/
def squeeze : Nat → List Nat → List Byte
  | 0, _ => []
  | n + 1, a => (List.range 17).flatMap (fun i => leBytes 8 (lane a i)) ++ squeeze n (keccakF a)

/-- SHAKE256 of a message, n bytes. -/
def shake256 (m : List Byte) (n : Nat) : List Byte := (squeeze (n / 136 + 1) (absorb m)).take n

end Sys2Proof.Machine
end

