-- ==== Sys2Proof/Machine/Tiles.lean ====
section
/-! DEFINITION. Activation tiles and tensor records, read and written (04, R149 to R172; 06, R243 to R250, R266, R267;
09, R413, R414), and the keyed counter generator (04, R179 to R182). -/

namespace Sys2Proof.Machine

/-- n/d rounded up. -/
def ceilDiv (n d : Nat) : Nat := (n + d - 1) / d

/-- Bytes padded with zeros to a multiple of 8 (R244). -/
def padTo8 (l : List Byte) : List Byte := l ++ List.replicate ((8 - l.length % 8) % 8) 0

/-- The bytes of bits, lowest first, eight a byte. -/
def bitBytes (n : Nat) (l : List Bool) : List Byte :=
  (chunks 8 n l).map (fun g => BitVec.ofNat 8 (((List.range 8).map (fun i => bitAt (g.getD i false) i)).sum))

/-! ## Tensor records (R171, R172, R413, R414) -/

/-- A tensor record's fields that a consumer takes (R172). -/
structure TRec where
  sT : Word
  width : Nat
  sign : Bool
  zp : Nat
  ok : Bool
  deriving DecidableEq, Repr

/-- A record from its 32 bytes; `ok` is its CHECK. -/
def TRec.ofBytes (l : List Byte) : TRec :=
  ⟨word (leAt l 0 4), byteAt l 14 % 32, bitOf (byteAt l 14) 5, byteAt l 15, decide (leAt l 28 4 = crc32 (l.take 28))⟩

/-- The 32 bytes of a tensor record (R171). -/
def recordBytes (sT recip amax : Word) (lid width : Nat) (sign : Bool) (bxg zp : Nat) (tick : DWord) (rot : Nat) : List Byte :=
  let b := leBytes 4 sT.toNat ++ leBytes 4 recip.toNat ++ leBytes 4 amax.toNat ++ leBytes 2 lid ++
    leBytes 1 (width % 32 + bitAt sign 5 + bxg % 4 * 64) ++ leBytes 1 zp ++ leBytes 8 tick.toNat ++ leBytes 1 rot ++
    [(0 : Byte), 0, 0]
  b ++ leBytes 4 (crc32 b)

/-- The first n entries of a ring from HEAD, as far as they can be read. -/
def State.entriesFrom (s : State) (c : CoreId) (q p avail : Nat) : Nat → List Entry
  | 0 => []
  | n + 1 =>
    match s.entryAt c q p avail with
    | .entry e => e :: s.entriesFrom c q ((s.ringAt c q).adv p e.total) (avail - e.total) n
    | _ => []

/-- The record entry that belongs to the tile OFF places after HEAD: the nearest of kind 0x1, or 0x3 for a tile of kind 0x2,
before it (R413). -/
def State.recordEntry (s : State) (c : CoreId) (q off : Nat) : Option Entry :=
  let r := s.ringAt c q
  let l := s.entriesFrom c q r.head r.readable (off + 1)
  let k := match l[off]? with | some e => e.kind | none => 0
  (l.take off).reverse.find? (fun e => e.kind == if k = 2 then 3 else 1)

/-- The tensor record of a tile that a descriptor names, none where the ring holds none (R413, R414). -/
def State.recordOf (s : State) (c : CoreId) (t : TileDesc) : Option TRec :=
  if t.ring then
    let d := s.ringOwner c t
    (s.recordEntry d t.q t.off).map (fun e => TRec.ofBytes (s.ringGet d t.q e.body 32))
  else some (TRec.ofBytes (s.peek (t.addr - 32) 32))

/-! ## Tile bytes -/

/-- Bytes of a resolved tile. -/
def State.tileBytes (s : State) (x : TileSrc) (n : Nat) : List Byte :=
  match x with
  | .mem a => s.peek a n
  | .ring c q p => s.ringGet (CoreId.ofNum c) q p n

/-- A checked read of a resolved tile by tick work. -/
def State.tileRead (s : State) (x : TileSrc) (n : Nat) : Bool × State :=
  match x with
  | .mem a => s.workRead a n
  | .ring c q p => let r := s.ringRead (CoreId.ofNum c) q p n; if r.1 then r else (false, r.2.sharedFault)

/-- The tile place of a source. -/
def Source.tile : Source → Option TileSrc
  | .mem a => some (.mem a)
  | .ring c q p _ => some (.ring c.num q p)
  | _ => none

/-! ## Reading tiles (R152, R153, R243 to R247, R250, R266, R267) -/

/-- A tile header (R243). -/
structure THead where
  form : Nat
  m : Nat
  aw : Nat
  sign : Bool
  k : Nat
  nnz : Nat
  len : Nat
  parOk : Bool
  deriving DecidableEq, Repr

/-- A header from its word. -/
def THead.ofNat (w : Nat) : THead :=
  ⟨field w 1 0, field w 6 2 + 1, field w 11 7, bitOf w 12, field w 25 13, field w 43 26, field w 63 48,
   decide (((List.range 64).filter (fun i => bitOf w i)).length % 2 = 0)⟩

/-- One vector's entries (position and code), in-range ones only, with the count of dropped elements and of all entries. -/
structure VecEntries where
  l : List (Nat × Nat)
  dropped : Nat
  all : Nat
  deriving DecidableEq, Repr

/-- A parsed tile: per vector its entries, and its exponents by 32-element block. -/
structure TileData where
  form : Nat
  vecs : List VecEntries
  exps : List (List Nat)
  deriving DecidableEq, Repr

/-- The entries of an RLZ block of n entries from position p (R245, R266): in-range ones, dropped ones. -/
def rlzEntries (aw base lim : Nat) : Nat → Nat → List Byte → List (Nat × Nat) × Nat
  | 0, _, _ => ([], 0)
  | n + 1, p, l =>
    let q := p + byteAt l 0 % 128
    let r := rlzEntries aw base lim n (q + 1) (l.drop 2)
    if q < lim then ((base + q, byteAt l 1 % 2 ^ aw) :: r.1, r.2) else (r.1, r.2 + 1)

/-- The blocks of one vector in RLZ form; none where a block word is not valid or the bytes end. -/
def rlzVec (aw k : Nat) : Nat → Nat → List Byte → Option (VecEntries × List Byte)
  | 0, _, l => some (⟨[], 0, 0⟩, l)
  | nb + 1, b, l =>
    let n := byteAt l 0
    if l.length < 2 + 2 * n ∨ 128 < n ∨ l.length < 2 then none
    else
      let e := rlzEntries aw (128 * b) (min 128 (k - 128 * b)) n 0 (l.drop 2)
      (rlzVec aw k nb (b + 1) (l.drop (2 + 2 * n))).map (fun r => (⟨e.1 ++ r.1.l, e.2 + r.1.dropped, n + r.1.all⟩, r.2))

/-- Set bits of a 64-bit word. -/
def setBits (w : Nat) : List Nat := (List.range 64).filter (fun i => bitOf w i)

/-- One vector in bitmap form (R246, R267). -/
def bitmapVec (aw k : Nat) (l : List Byte) : Option (VecEntries × List Byte) :=
  let subs := setBits (leAt l 0 8)
  let maps := (List.range subs.length).map (fun i => leAt l (8 + 8 * i) 8)
  let marks := (subs.zip maps).map (fun e => (e.1, setBits e.2))
  let n := (marks.map (fun e => e.2.length)).sum
  let start := 8 + 8 * subs.length
  let used := start + (n + 7) / 8 * 8
  if l.length < used then none
  else
    let pos := marks.flatMap (fun e => e.2.map (fun i => (e.1, 64 * e.1 + i)))
    let codes := pos.zip (l.drop start)
    let keep := codes.filter (fun e => decide (e.1.1 < ceilDiv k 64) && decide (e.1.2 < k))
    let lost := (marks.map (fun e =>
      if e.1 < ceilDiv k 64 then (e.2.filter (fun i => decide (k ≤ 64 * e.1 + i))).length else max 1 e.2.length)).sum
    some (⟨keep.map (fun e => (e.1.2, e.2.toNat % 2 ^ aw)), lost, n⟩, l.drop used)

/-- One vector in dense form: planes a − 1 down to 0 of each 128-element block (R152). -/
def denseVec (aw k : Nat) (l : List Byte) : VecEntries × List Byte :=
  let nb := ceilDiv k 128
  let code := fun j => ((List.range aw).map (fun i =>
    bitAt (bitOf (byteAt l (j / 128 * aw * 16 + (aw - 1 - i) * 16 + j % 128 / 8)) (j % 8)) i)).sum
  (⟨((List.range k).map (fun j => (j, code j))).filter (fun e => e.2 != 0), 0, 0⟩, l.drop (nb * aw * 16))

/-- All vectors of a tile in a form. -/
def tileVecs (form aw k : Nat) : Nat → List Byte → Option (List VecEntries × List Byte)
  | 0, l => some ([], l)
  | m + 1, l =>
    let one := match form with
      | 0 => if l.length < ceilDiv k 128 * aw * 16 then none else some (denseVec aw k l)
      | 1 => rlzVec aw k (ceilDiv k 128) 0 l
      | _ => bitmapVec aw k l
    match one with
    | none => none
    | some (v, r) => (tileVecs form aw k m r).map (fun x => (v :: x.1, x.2))

/-- The exponents of each vector by 32-element block (R153). -/
def tileExps (m k : Nat) (l : List Byte) : List (List Nat) :=
  let nb := ceilDiv k 128
  (List.range m).map (fun v => (List.range (4 * nb)).map (fun x =>
    field (leAt l (2 * (v * nb + x / 4)) 2) (4 * (x % 4) + 3) (4 * (x % 4))))

/-- Padded length of a part. -/
def pad8 (n : Nat) : Nat := (n + 7) / 8 * 8

/-- The tile behind a header, none where a check of R250 fails: tm, rows, width and sign are those of the instruction, the
descriptor and the record. -/
def parseTile (tm rows aw : Nat) (sign : Bool) (h : THead) (body : List Byte) : Option TileData :=
  if !h.parOk ∨ h.form = 3 ∨ (h.aw = 16 ∧ h.form ≠ 0) ∨ h.m ≠ tm ∨ h.k ≠ rows ∨ h.aw ≠ aw ∨ h.sign ≠ sign then none
  else
    match tileVecs h.form aw h.k tm body with
    | none => none
    | some (vs, rest) =>
      let used := pad8 (body.length - rest.length)
      let ex := pad8 (2 * tm * ceilDiv h.k 128)
      if used + ex ≠ body.length ∨ (h.form ≠ 0 ∧ h.nnz ≠ (vs.map VecEntries.all).sum) then none
      else some ⟨h.form, vs, tileExps tm h.k (body.drop used)⟩

/-- A tile as an instruction of tm vectors and a descriptor of `rows` rows read it. -/
def State.tileOf (s : State) (x : TileSrc) (tm rows aw : Nat) (sign : Bool) : Option TileData :=
  let h := THead.ofNat (leNat (s.tileBytes x 8))
  parseTile tm rows aw sign h ((s.tileBytes x (8 + 8 * h.len)).drop 8)

/-- The bytes of a tile, by its header. -/
def State.tileLen (s : State) (x : TileSrc) : Nat := 8 + 8 * (THead.ofNat (leNat (s.tileBytes x 8))).len

/-- Code of element j of a vector, 0 where it has no entry. -/
def VecEntries.code (v : VecEntries) (j : Nat) : Nat :=
  match v.l.find? (fun e => e.1 == j) with | some e => e.2 | none => 0

/-- Vector m of a tile. -/
def TileData.vec (t : TileData) (m : Nat) : VecEntries := t.vecs.getD m ⟨[], 0, 0⟩

/-- The exponent of 32-element block x of vector m. -/
def TileData.exp (t : TileData) (m x : Nat) : Nat := (t.exps.getD m []).getD x 0

/-- Elements dropped in the whole tile (R266). -/
def TileData.dropped (t : TileData) : Nat := (t.vecs.map VecEntries.dropped).sum

/-- The planes 0 to a − 1 of elements lo, lo + 1, … (n of them) of a vector. -/
def VecEntries.planes (v : VecEntries) (aw lo n : Nat) : List (BitVec 256) :=
  let e := (v.l.filter (fun x => decide (lo ≤ x.1) && decide (x.1 < lo + n))).map (fun x => (x.1 - lo, x.2))
  (List.range aw).map (fun i => BitVec.ofNat 256 ((e.map (fun x => bitAt (bitOf x.2 i) x.1)).sum))

/-! ## Writing tiles (R152, R153, R243 to R249) -/

/-- The dense part: codes by block of 128 elements. -/
def densePart (aw : Nat) (codes : List (List Nat)) : List Byte :=
  codes.flatMap (fun v => (List.range aw).flatMap (fun i => bitBytes 16 (v.map (fun c => bitOf c (aw - 1 - i)))))

/-- The run-length entries of a block (R245). -/
def rlzBlock : Nat → Nat → List Nat → List Byte
  | _, _, [] => []
  | run, n, c :: t =>
    if c = 0 then rlzBlock (run + 1) n t else [BitVec.ofNat 8 run, BitVec.ofNat 8 c] ++ rlzBlock 0 (n + 1) t

/-- Codes that are not 0. -/
def nonZero (v : List Nat) : Nat := (v.filter (fun c => c != 0)).length

/-- The RLZ part: codes by block of 128 elements. -/
def rlzPart (codes : List (List Nat)) : List Byte :=
  codes.flatMap (fun v => leBytes 2 (nonZero v) ++ rlzBlock 0 0 v)

/-- The bitmap part of one vector (R246). -/
def bitmapOne (v : List Nat) : List Byte :=
  let map := fun j => (((v.drop (64 * j)).take 64).zipIdx.map (fun e => bitAt (e.1 != 0) e.2)).sum
  let subs := (List.range (ceilDiv v.length 64)).filter (fun j => map j != 0)
  leBytes 8 ((subs.map (fun j => 2 ^ j)).sum) ++ subs.flatMap (fun j => leBytes 8 (map j)) ++
    padTo8 ((v.filter (fun c => c != 0)).map (BitVec.ofNat 8))

/-- The bitmap part. -/
def bitmapPart (codes : List (List Nat)) : List Byte := codes.flatMap bitmapOne

/-- A header word with its parity (R243). -/
def headWord (form m aw : Nat) (sign : Bool) (k nnz len : Nat) : Nat :=
  let w := form + (m - 1) * 4 + aw * 128 + bitAt sign 12 + k * 2 ^ 13 + nnz * 2 ^ 26 + len * 2 ^ 48
  w + (((List.range 64).filter (fun i => bitOf w i)).length % 2) * 2 ^ 47

/-- The bytes of a coded tile of k columns (R152, R153, R243, R244, R248): codes and 32-element exponents per vector; whether
it was stored dense. `enc` permits the other forms, `bitmap` forces the bitmap form (R249). -/
def tileEncode (enc bitmap : Bool) (k aw : Nat) (sign : Bool) (codes exps : List (List Nat)) : Bool × List Byte :=
  let nb := ceilDiv k 128
  let blocks := codes.flatMap (fun v => chunks 128 nb v)
  let d := padTo8 (densePart aw blocks)
  let f := padTo8 (if bitmap then bitmapPart codes else rlzPart blocks)
  let dense := !enc || aw == 16 || decide (d.length ≤ f.length)
  let ex := padTo8 ((exps.flatMap (fun e => chunks 4 nb e)).flatMap (fun e =>
    leBytes 2 (((e.zipIdx.map (fun x => x.1 * 16 ^ x.2)).sum))))
  let b := (if dense then d else f) ++ ex
  (dense, leBytes 8 (headWord (if dense then 0 else if bitmap then 2 else 1) codes.length aw sign k
    ((codes.map nonZero).sum) (b.length / 8)) ++ b)

/-- Output converters write the bitmap form (R249): start-up self-test, a checked replay, safe mode. -/
def State.bitmapForced (s : State) : Bool :=
  s.err.active || s.err.stBusy || (match s.reh.replay with | some r => r.check | none => false)

/-! ## Keyed counter generator (R179 to R182) -/

/-- KCG block n of a key (R180). -/
def kcgBlock (seed : DWord) (lid pos time purpose n : Nat) : List Byte :=
  shake256 (leBytes 8 seed.toNat ++ leBytes 2 lid ++ leBytes 2 pos ++ leBytes 8 time ++ leBytes 1 purpose ++
    [(0 : Byte), 0, 0] ++ leBytes 8 n) 128

/-- Draw x of a key (R181). -/
def kcgDraw (seed : DWord) (lid pos time purpose x : Nat) : Nat :=
  leAt (kcgBlock seed lid pos time purpose (x / 64)) (2 * (x % 64)) 2

/-- Bit j of block n of a key (R181). -/
def kcgBit (seed : DWord) (lid pos time purpose n j : Nat) : Bool :=
  bitOf (byteAt (kcgBlock seed lid pos time purpose n) (j / 8)) (j % 8)

/-- The rotation sign of a layer-wide column (R176): true for −1. -/
def rotSign (seed : DWord) (lid n : Nat) : Bool := kcgBit seed lid 0xFFFF 0 2 (n / 1024) (n % 1024)

/-! ## Forms and widths (R298 to R310, R322) -/

/-- The next of 2, 4, 8, 16 above a width (R308). -/
def nextWidth (a : Nat) : Nat := if a < 2 then 2 else if a < 4 then 4 else if a < 8 then 8 else 16

/-- The re-run width of a consumer's input (R308, R310). -/
def wideIn (d : LayerDesc) (a : Nat) : Nat :=
  if !d.rr || d.dlt then a
  else if d.pmode = 2 ∨ d.pmode = 3 then (if 8 ≤ a then a else nextWidth a)
  else if d.pmode = 1 then a else nextWidth a

/-- A form: class, PMODE, AW, WPL (R457). -/
structure Form where
  fast : Bool
  pmode : Nat
  aw : Nat
  wpl : Nat
  deriving DecidableEq, Repr

/-- The configured form. -/
def LayerDesc.form (d : LayerDesc) : Form := ⟨d.fast, d.pmode, d.aw, d.wpl⟩

/-- The widened form of R308. -/
def widen (d : LayerDesc) (f : Form) : Form :=
  if d.dlt then { f with wpl := if f.wpl = 16 then 16 else 8 }
  else match f.pmode with
    | 0 => ⟨false, 0, wideIn d f.aw, if f.wpl = 16 then 16 else 8⟩
    | 4 => ⟨f.fast && d.gsz == 0, 4, wideIn d f.aw, 8⟩
    | 1 => { f with fast := false }
    | _ => ⟨false, 3, wideIn d f.aw, f.wpl⟩

/-- A form widened n times (R322). -/
def widenN (d : LayerDesc) : Nat → Form → Form
  | 0, f => f
  | n + 1, f => widenN d n (widen d f)

/-- The base form of a layer: its configured form, widened as often as its sticky widens ask (R322). -/
def State.baseForm (s : State) (d : LayerDesc) : Form := widenN d (s.layerAt d.lix).widenings d.form

/-- The largest level of a coded output (R161). -/
def qmaxOf (a : Nat) (sign : Bool) (zp : Nat) : Nat :=
  if a = 16 then 32767 else if sign then 2 ^ (a - 1) - 1 else 2 ^ a - 1 - zp

/-- The layers that consume a layer's output, by the script (R465, header). -/
def State.consumersOf (s : State) (lix : Nat) : List Nat :=
  ((s.cfg.layers.filter (fun l => LayerDesc.lix l.desc == lix)).flatMap LayerCopy.consumers).eraseDups

/-- The consumers' descriptors that a core binds. -/
def State.consumerDescs (s : State) (lix : Nat) (d : CoreId) : List LayerDesc :=
  (s.cfg.layers.filter (fun l => (s.consumersOf lix).contains (LayerDesc.lix l.desc) && l.cores.contains d)).map (fun l => l.desc)

/-- The sticky minimum of a producer's output width (R298, R322): the largest minimum input width of its consumers. -/
def State.outMin (s : State) (lix : Nat) : Nat :=
  ((s.consumersOf lix).map (fun x => (s.layerAt x).inMin.toNat)).foldl max 0

/-- R299. -/
def floorWidth (d : LayerDesc) (amax : Word) : Nat :=
  if (fpAbs amax) = 0 then d.kmin
  else
    let n := fpCeilLog2 (fpDiv amax d.rq)
    let k := if d.osign then n + 1 else n
    (min (max k (d.kmin : Int)) (d.kmax : Int)).toNat

/-- The output width in force (R298, R299). -/
def State.outWidth (s : State) (d : LayerDesc) (amax : Word) : Nat :=
  max (if d.pcm then floorWidth d amax else d.oaw) (s.outMin d.lix)

/-- The column tiles of a layer in a cluster, ascending; every one where the script says nothing (R275; log 46). -/
def State.tilesIn (s : State) (d : LayerDesc) (cl : ClusterId) : List Nat :=
  let all := List.range (ceilDiv d.cols 128)
  let rows := s.cfg.tilePlaces.filter (fun e => e.1 == d.lix)
  if rows.isEmpty then all
  else all.filter (fun t => rows.any (fun e => e.2.1 == t && e.2.2.any (fun c => decide (c.cluster = cl))))

/-- The cores of a cluster that share a column tile (R283); the core alone where the script says nothing (log 46). -/
def State.tileCores (s : State) (d : LayerDesc) (c : CoreId) (ct : Nat) : List CoreId :=
  match s.cfg.tilePlaces.find? (fun e => e.1 == d.lix && e.2.1 == ct) with
  | some e => (List.range 16).filterMap (fun i => e.2.2.find? (fun x => decide (x.cluster = c.cluster) && x.core.val == i))
  | none => [c]

/-- The slots of an invocation's vectors in their order; every stepping slot in ascending order where the script says nothing
(log 47). -/
def State.slotsOf (s : State) (ord : Nat) : List Nat :=
  match s.cfg.invSlots.find? (fun e => e.1 == ord) with
  | some e => e.2
  | none => match s.tick.running with | some r => maskList r.stepM | none => []

/-- The slot of vector n of an invocation. -/
def State.slotAt (s : State) (ord place : Nat) : Option Nat := (s.slotsOf ord)[place]?

/-- The slot step of the vector's slot in this tick (R276, R331). -/
def State.stepOf (s : State) (slot : Nat) : Nat := (s.slot slot).com.step.toNat

/-- Vector n of an invocation runs as a refresh in a DELTA layer (R330, R331); a vector of no slot too. -/
def State.refreshes (s : State) (d : LayerDesc) (ord place : Nat) : Bool :=
  match s.slotAt ord place with
  | none => true
  | some i => !(s.slot i).kind || decide (s.stepOf i % d.drn = 0)

/-- The vector's slot feeds prompt positions in this tick, or takes its first step after admission (R279). -/
def State.prefilling (s : State) (i : Nat) : Bool :=
  let x := s.slot i
  !x.kind && (x.state == 1 || x.state == 2)

end Sys2Proof.Machine
end

