-- ==== Sys2Proof/Machine/Engine.lean ====
section
/-! DEFINITION. The engine: plane inspection, steps, group sums, promotion, the chain and the accumulator bank
(03, R64 to R132; 05, R187 to R214; 06, R255 to R262). -/

namespace Sys2Proof.Machine

/-! ## Accumulator values (R192 to R197) -/

/-- A finite value of a format, or its infinity (R192 to R195). -/
def accClip (fast : Bool) (v : Int) : Acc := if v.natAbs < 2 ^ (if fast then 71 else 143) then .fin v else .inf

/-- R195: the sum, and whether two finite operands gave infinity. -/
def accAdd (fast : Bool) (a b : Acc) : Acc × Bool :=
  match a, b with
  | .fin x, .fin y => let z := accClip fast (x + y); (z, z == .inf)
  | _, _ => (.inf, false)

/-- The bits of a value in its format (R192 to R194). -/
def accBits (fast : Bool) : Acc → Nat
  | .inf => 2 ^ (if fast then 71 else 143)
  | .fin v => unsigned (if fast then 72 else 144) v

/-- The value of bits. -/
def accOfBits (fast : Bool) (n : Nat) : Acc :=
  let w := if fast then 72 else 144
  if n % 2 ^ w = 2 ^ (w - 1) then .inf else .fin (signed w n)

/-- Adds two rows of values; the number of adds that turned finite operands into infinity. -/
def accAddRow (fast : Bool) (a b : List Acc) : List Acc × Nat :=
  let r := (a.zip b).map (fun e => accAdd fast e.1 e.2)
  (r.map (fun e => e.1), (r.filter (fun e => e.2)).length)

/-- A row of zeros. -/
def accZeros : List Acc := List.replicate 128 (.fin 0)

/-- Entry j's value of every column (R202). -/
def CoreSt.acbRow (k : CoreSt) (fast half : Bool) (j : Nat) : List Acc :=
  (Tab.range 0 k.acb (128 * j) 128).map (fun w =>
    accOfBits fast (if fast && half then w.toNat / 2 ^ 72 else w.toNat))

/-- One entry's bits with a value put in place (R202, R204): `clearOther` clears the other half. -/
def acbPut (fast half clearOther : Bool) (old : BitVec 144) (v : Acc) : BitVec 144 :=
  if !fast then BitVec.ofNat 144 (accBits false v)
  else
    let lo := old.toNat % 2 ^ 72
    let hi := old.toNat / 2 ^ 72
    let b := accBits true v
    if half then BitVec.ofNat 144 (b * 2 ^ 72 + if clearOther then 0 else lo)
    else BitVec.ofNat 144 ((if clearOther then 0 else hi) * 2 ^ 72 + b)

/-- The format bit of an entry index (R204): true for N72. -/
def CoreSt.fmtBit (k : CoreSt) (j : Nat) : Bool := k.ocv.formats.getLsbD j

/-- Overwrites entry index j of every column, with the format bit (R203, R204). -/
def CoreSt.acbOver (k : CoreSt) (fast half : Bool) (j : Nat) (vals : List Acc) : CoreSt :=
  let clear := fast && !k.fmtBit j
  let old := Tab.range 0 k.acb (128 * j) 128
  let bit : Word := word (2 ^ (j % 32))
  { k with
    acb := Tab.setRange 0 k.acb (128 * j) ((old.zip vals).map (fun e => acbPut fast half clear e.1 e.2)),
    ocv := { k.ocv with formats := if fast then k.ocv.formats ||| bit else k.ocv.formats &&& ~~~bit } }

/-- Adds into entry index j of every column (R203), counting new infinities (R237). -/
def CoreSt.acbAdd (k : CoreSt) (fast half : Bool) (j : Nat) (vals : List Acc) : CoreSt :=
  let old := Tab.range 0 k.acb (128 * j) 128
  let r := accAddRow fast (k.acbRow fast half j) vals
  { k with
    acb := Tab.setRange 0 k.acb (128 * j) ((old.zip r.1).map (fun e => acbPut fast half false e.1 e.2)),
    ocv := { k.ocv with promInf := bump k.ocv.promInf r.2 } }

/-! ## Forms of a pass -/

/-- What an engine's pass runs under: form, width from the record, sign, group size in rows, enabled rows of the engine. -/
structure PassForm where
  fast : Bool
  mode : Nat
  aw : Nat
  sign : Bool
  wpl : Nat
  g : Nat
  rows : Nat
  sparse : Bool
  deriving DecidableEq, Repr

/-- Logical rows of an engine (R65). -/
def rowsPer (mode : Nat) : Nat := if mode = 4 then 256 else 128

/-- G (header of chapter 03). -/
def LayerDesc.g (d : LayerDesc) : Nat := 32 * 2 ^ d.gsz

/-- Engines in use (R67). -/
def enginesUsed (d : LayerDesc) (mode : Nat) : Nat := min 16 (ceilDiv d.rows (rowsPer mode))

/-- The form of an instruction's passes on engine e. -/
def ChainOp.form (o : ChainOp) (e : Nat) : PassForm :=
  let d : LayerDesc := o.bound.desc
  let mode := o.bound.pmode.toNat
  ⟨o.bound.fast, mode, o.aw, o.sign, o.bound.wpl.toNat, d.g, min (rowsPer mode) (d.rows - rowsPer mode * e), o.sparse⟩

/-- Group-sum registers in use (R89); 8 segments on the sparse path (R261). -/
def PassForm.regs (f : PassForm) : Nat := if f.sparse then 8 else rowsPer f.mode / f.g

/-- The group has an enabled row (R66). -/
def PassForm.groupOn (f : PassForm) (x : Nat) : Bool := f.sparse || decide (x * f.g < f.rows)

/-- The physical rows of register x (R89, R255). -/
def PassForm.physRows (f : PassForm) (x : Nat) : List Nat :=
  let n := if f.sparse then 16 else if f.mode = 4 then f.g / 2 else f.g
  (List.range n).map (fun i => x * n + i)

/-- A combination that R124 rejects (R125). -/
def PassForm.bad (f : PassForm) (gsz : Nat) (rows : Nat) : Bool :=
  let w := fun a => (decide (1 ≤ a) && decide (a ≤ 8)) || a == 16
  decide (5 ≤ f.mode) || gsz == 3 || !w f.aw || !w f.wpl ||
  (f.mode == 1 && (f.aw != 1 || f.wpl != 1 || f.sign)) ||
  ((f.mode == 2 || f.mode == 3) && (f.wpl != 8 || f.aw == 16)) ||
  (f.mode == 4 && !f.fast && gsz == 0) || (f.aw == 16 && f.wpl == 1) || (f.wpl == 16 && f.aw == 1) ||
  decide ((if f.mode = 4 then 4096 else 2048) < rows)

/-- The slice pairs of a pass, high first (R95): weight slice high, activation slice high. -/
def PassForm.pairs (f : PassForm) : List (Bool × Bool) :=
  let ws := if f.wpl = 16 then [true, false] else [false]
  let as := if f.aw = 16 then [true, false] else [false]
  ws.flatMap (fun w => as.map (fun a => (w, a)))

/-- Weight planes read, highest first (R70, R86). -/
def PassForm.wPlanes (f : PassForm) : List Nat :=
  if f.mode = 1 then [0] else if f.mode = 2 ∨ f.mode = 3 ∨ f.wpl = 16 then [7, 6, 5, 4, 3, 2, 1, 0]
  else (List.range f.wpl).map (fun i => 7 - i)

/-! ## Plane inspection (R82 to R85) -/

/-- The sign plane of a signed slice: planes above it repeat it. -/
def signTop (planes : List (BitVec 256)) : Nat → Nat
  | 0 => 0
  | t + 1 => if planes.getD t 0 = planes.getD (t + 1) 0 then signTop planes t else t + 1

/-- The active planes of a slice that starts at plane `lo`, as absolute plane numbers, highest first. -/
def activePlanes (planes : List (BitVec 256)) (lo top : Nat) : List Nat :=
  (((List.range (top + 1)).map (fun i => lo + i)).filter (fun i => planes.getD i 0 != 0)).reverse

/-- Inspects the planes of a buffer (R82, R84): active planes of the high or only slice and of the low slice, sign plane. -/
def inspect (mode aw : Nat) (sign : Bool) (planes : List (BitVec 256)) : List Nat × List Nat × Option Nat :=
  if mode = 1 then ([0], [], none)
  else if aw = 16 then
    let t := signTop (planes.drop 8) 7
    (activePlanes planes 8 t, activePlanes planes 0 7, some (8 + t))
  else if sign then let t := signTop planes (aw - 1); (activePlanes planes 0 t, [], some t)
  else (activePlanes planes 0 (aw - 1), [], none)

/-! ## Steps (R86 to R91, R95, R99 to R108) -/

/-- A bit of a bank image (R131): plane p, row r, column n. -/
def bankBit (t : Tab Word) (p r n : Nat) : Bool := (Tab.get 0 t (p * 512 + r * 4 + n / 32)).getLsbD (n % 32)

/-- The position index of a cell (R107). -/
def indexAt (t : Tab Word) (r n : Nat) : Nat := bitAt (bankBit t 0 r n) 0 + bitAt (bankBit t 1 r n) 1

/-- Weights that a pass reads: the named bank's image or the high bytes, the low bytes of W16, the index store. -/
structure Weights where
  hi : Tab Word
  lo : Tab Word
  idx : Tab Word
  deriving DecidableEq, Repr

/-- The activation bit that the cell of physical row r and column n sees in a plane (R107). -/
def actBit (f : PassForm) (w : Weights) (plane : BitVec 256) (r n : Nat) : Bool :=
  if f.mode = 4 then plane.getLsbD (4 * (r / 2) + indexAt w.idx r n) else plane.getLsbD r

/-- Term t of an SHC8 code (R104, R144). -/
def shTerm (code t : Nat) : Int :=
  let p := field code 6 4
  let d := field code 1 0
  let tc := field code 3 2
  let s : Int := if bitOf code 7 then -1 else 1
  if tc = 3 then 0
  else if t = 1 then s * (2 ^ p : Nat)
  else if tc = 0 ∨ p ≤ d then 0
  else if tc = 1 then s * (2 ^ (p - 1 - d) : Nat) else -(s * (2 ^ (p - 1 - d) : Nat))

/-- The code of a cell. -/
def codeAt (t : Tab Word) (r n : Nat) : Nat := ((List.range 8).map (fun p => bitAt (bankBit t p r n) p)).sum

/-- One step's addition to register x of column n (R87, R103, R105): j is a weight plane, or a term in SH modes. -/
def stepTerm (f : PassForm) (w : Weights) (b : PlaneBuf) (wHi : Bool) (i j x n : Nat) : Int :=
  let plane := b.planes.getD i 0
  let rows := f.physRows x
  let sig := if f.aw = 16 then i % 8 else i
  let aNeg := b.sign == some i
  if f.mode = 1 then
    let on := rows.filter (fun r => decide (r < f.rows))
    2 * ((on.filter (fun r => plane.getLsbD r == bankBit w.hi 0 r n)).length : Int) - (on.length : Int)
  else if f.mode = 2 ∨ f.mode = 3 then
    let v := ((rows.filter (fun r => plane.getLsbD r)).map (fun r => shTerm (codeAt w.hi r n) j)).sum * (2 ^ sig : Nat)
    if aNeg then -v else v
  else
    let img := if f.wpl = 16 ∧ !wHi then w.lo else w.hi
    let wNeg := j == 7 && (f.wpl != 16 || wHi)
    let v : Int := ((rows.filter (fun r => actBit f w plane r n && bankBit img j r n)).length * 2 ^ (sig + j) : Nat)
    if aNeg != wNeg then -v else v

/-- The activation planes of a slice, highest first. -/
def PlaneBuf.slice (b : PlaneBuf) (aw : Nat) (aHi : Bool) : List Nat :=
  if aw = 16 ∧ !aHi then b.activeLo else b.active

/-- The steps of a slice pair in the order of R86: activation plane and weight plane or term. -/
def stepList (f : PassForm) (b : PlaneBuf) (aHi : Bool) : List (Nat × Nat) :=
  let js := if f.mode = 2 then [1] else if f.mode = 3 then [1, 2] else f.wPlanes
  js.flatMap (fun j => (b.slice f.aw aHi).map (fun i => (i, j)))

/-- A register after one more add (R90, R91): 16 bits with a sticky overflow in fast class. -/
def regAdd (fast : Bool) (r : Int × Bool) (v : Int) : Int × Bool :=
  let z := r.1 + v
  if !fast then (z, false)
  else if z < -32768 ∨ 32767 < z then (signed 16 (unsigned 16 z), true) else (z, r.2)

/-- The group sum and overflow bit of register x of column n after a slice pair. -/
def groupSum (f : PassForm) (w : Weights) (b : PlaneBuf) (pair : Bool × Bool) (x n : Nat) : Int × Bool :=
  ((stepList f b pair.2).map (fun e => stepTerm f w b pair.1 e.1 e.2 x n)).foldl (regAdd f.fast) (0, false)

/-- Every register of a slice pair: for each column its registers' sums and overflow bits. -/
def pairSums (f : PassForm) (w : Weights) (b : PlaneBuf) (pair : Bool × Bool) : List (List (Int × Bool)) :=
  (List.range 128).map (fun n => (List.range f.regs).map (fun x => groupSum f w b pair x n))

/-- The row sum of a group (R109): an all-ones weight plane over the active planes. -/
def rowSum (f : PassForm) (w : Weights) (b : PlaneBuf) (x n : Nat) : Int :=
  ((b.active ++ b.activeLo).map (fun i =>
    let v : Int := (((f.physRows x).filter (fun r => actBit f w (b.planes.getD i 0) r n)).length * 2 ^ i : Nat)
    if b.sign = some i then -v else v)).sum

/-! ## Promotion (R187 to R191) -/

/-- P2 and P3 of a bracket: in exact class × 2^64, in fast class floor(V × 2^32) (R187 to R190). -/
def promote (fast : Bool) (code e : Nat) (b : Int) : Int :=
  if code = 0 then 0
  else
    let p := b * (1024 + code % 1024 : Nat)
    let x := code / 1024
    if !fast then p * (2 ^ (x + 22 - e) : Nat)
    else if 10 + e ≤ x then p * (2 ^ (x - 10 - e) : Nat) else p / (2 ^ (10 + e - x) : Nat)

/-- h of R154. -/
def hOf (mode wpl : Nat) : Nat := if (mode = 0 ∨ mode = 4) ∧ wpl < 8 then 2 ^ (7 - wpl) else 0

/-- The weight group of the layer that register x of engine e holds (R148): counted from RBASE. -/
def layerGroup (d : LayerDesc) (mode e x : Nat) : Nat := (d.rbase + rowsPer mode * e) / d.g + x

/-- The byte address of a group's scales for a column tile (R148). -/
def scaleAddr (d : LayerDesc) (ct x : Nat) : Nat := d.scp + (ct * ceilDiv d.kdim d.g + x) * 256

/-- The byte address of a group's correction entries for a column tile (R156). -/
def corrAddr (d : LayerDesc) (ct x : Nat) : Nat := d.ctp + 32 + (ct * ceilDiv d.kdim d.g + x) * 512

/-- C of R154 from a correction entry: SW8 + DK below 8 planes, SW8 from 8 planes on (R159). -/
def corrValue (wpl entry : Nat) : Int :=
  signed 16 (entry / 65536) + if wpl < 8 then signed 16 entry else 0

/-- The addresses of the tables that a pass of engine e reads, with their lengths. -/
def ChainOp.tables (o : ChainOp) (e : Nat) : List (Nat × Nat) :=
  let d : LayerDesc := o.bound.desc
  let mode := o.bound.pmode.toNat
  let xs := (List.range (rowsPer mode / d.g)).filter (fun x => decide (rowsPer mode * e + x * d.g < d.rows))
  xs.map (fun x => (scaleAddr d o.ct (layerGroup d mode e x), 256)) ++
    (if d.ctp = 0 then [] else xs.map (fun x => (corrAddr d o.ct (layerGroup d mode e x), 512)))

/-- Reads ranges by tick work; false at the first that is not delivered. -/
def State.readAll (s : State) : List (Nat × Nat) → Bool × State
  | [] => (true, s)
  | (a, n) :: t => let r := s.workRead a n; if r.1 then r.2.readAll t else r

/-! ## Plane buffers (R80 to R85, R251, R258 to R260, R280) -/

/-- The in-range entries of a vector on engine e by weight group: engine-local rows and codes, ascending (R254, R258). -/
def groupRows (v : VecEntries) (e g x : Nat) : List (Nat × Nat) :=
  let base := 128 * e + x * g
  (v.l.filter (fun p => decide (base ≤ p.1) && decide (p.1 < base + g))).map (fun p => (p.1 - 128 * e, p.2))

/-- The segments of one vector on an engine: each weight group starts a new one (R258). -/
def vecSegs (v : VecEntries) (m e g : Nat) : List (Nat × Nat × List (Nat × Nat)) :=
  (List.range (128 / g)).flatMap (fun x =>
    let l := groupRows v e g x
    (chunks 16 (ceilDiv l.length 16) l).map (fun r => (m, x, r)))

/-- Segments of a sparse pass on an engine: every vector takes its seg[m] segments, surplus ones empty (R258, R259). -/
def passSegs (t : TileData) (skip : List Nat) (e g : Nat) (comp : List (Nat × Nat)) : List (Nat × Nat × List (Nat × Nat)) :=
  comp.flatMap (fun c =>
    let own := if skip.contains c.1 then [] else vecSegs (t.vec c.1) c.1 e g
    own ++ List.replicate (c.2 - own.length) (c.1, 0, []))

/-- The value of an activation code (R149). -/
def actValue (aw : Nat) (sign : Bool) (c : Nat) : Int := if sign then signed aw c else (c : Int)

/-- A buffer of a sparse pass (R258 to R260). -/
def sparseBuf (o : ChainOp) (t : TileData) (e u : Nat) : PlaneBuf :=
  let d : LayerDesc := o.bound.desc
  let comp := o.comp.getD u []
  let segs := passSegs t o.skip e d.g comp
  let cells := segs.zipIdx.flatMap (fun s => s.1.2.2.zipIdx.map (fun r => (16 * s.2 + r.2, r.1.2)))
  let planes := (List.range o.aw).map (fun i => BitVec.ofNat 256 ((cells.map (fun c => bitAt (bitOf c.2 i) c.1)).sum))
  let n := inspect 0 o.aw o.sign planes
  { op := o.id, vec := u, planes := planes, active := n.1, activeLo := n.2.1, sign := n.2.2,
    exps := segs.map (fun s => t.exp s.1 ((128 * e + s.2.1 * d.g) / 32)),
    segs := segs.map (fun s => (s.1, s.2.1, s.2.2.map (fun r => r.1))),
    rsums := segs.map (fun s => (s.2.2.map (fun r => actValue o.aw o.sign r.2)).sum), rowsum := false, zero := false }

/-- A buffer of one vector on the dense path (R80 to R84, R280). -/
def denseBuf (o : ChainOp) (t : TileData) (e m : Nat) : PlaneBuf :=
  let d : LayerDesc := o.bound.desc
  let mode := o.bound.pmode.toNat
  let z := o.skip.contains m
  let planes := if z then List.replicate o.aw 0 else (t.vec m).planes o.aw (rowsPer mode * e) (rowsPer mode)
  let n := if z then ([], [], none) else inspect mode o.aw o.sign planes
  { op := o.id, vec := m, planes := planes, active := n.1, activeLo := n.2.1, sign := n.2.2,
    exps := (List.range (rowsPer mode / d.g)).map (fun x => t.exp m ((rowsPer mode * e + x * d.g) / 32)),
    segs := [], rsums := [], rowsum := o.rowsum.contains m, zero := z }

/-- Vectors or sparse passes of an instruction. -/
def ChainOp.units (o : ChainOp) : Nat := if o.sparse then o.comp.length else o.tm

/-- The next instruction and unit whose planes engine e takes. -/
def EngineSt.nextFill (x : EngineSt) (e : Nat) : List ChainOp → Option (ChainOp × Nat)
  | [] => none
  | o :: t =>
    let u := if o.id = x.nextOp then x.nextVec else 0
    if o.id < x.nextOp ∨ o.engines ≤ e ∨ o.units ≤ u then x.nextFill e t else some (o, u)

/-- The tile of an instruction (R250). -/
def State.opTile (s : State) (o : ChainOp) : Option TileData :=
  s.tileOf o.src o.tm (LayerDesc.rows o.bound.desc) o.aw o.sign

/-- Changes an instruction of the chain queue. -/
def State.modChain (s : State) (c : CoreId) (id : Nat) (f : ChainOp → ChainOp) : State :=
  s.modCore c (fun k => { k with chainQ := k.chainQ.map (fun o => if o.id = id then f o else o) })

/-- The tile's unit starts: its bytes are read, its checks made (R250) and its dropped elements counted (R266, R268). -/
def State.startTile (s : State) (c : CoreId) (o : ChainOp) : State :=
  let r := s.tileRead o.src (s.tileLen o.src)
  if !r.1 then r.2
  else
    let s := r.2.modChain c o.id (fun x => { x with started := true })
    match s.opTile o with
    | none => (s.raise 0x3161 none none (posOf c 0)).sharedFault
    | some t =>
      if t.dropped = 0 then s
      else
        let k := (s.coreAt c).sparse
        let s := s.modSparse c (fun x => { x with
          oor := bump x.oor t.dropped, oorRaised := addKey x.oorRaised o.ord.toNat })
        if k.oorRaised.contains o.ord.toNat then s else s.raise 0x3160 none none (posOf c 0)

/-- PLANE_FILL (R80 to R85): the engine's free buffer takes its next vector. -/
def execPlaneFill (c : CoreId) (e : Fin 16) (s : State) : Answer :=
  .next (let x := s.engAt c e.val
    if (x.buf0.isSome && x.buf1.isSome) || !s.tickLive then s
    else match x.nextFill e.val (s.coreAt c).chainQ with
      | none => s
      | some (o, u) =>
        let s := if o.started then s else s.startTile c o
        if !s.tickLive then s
        else match s.opTile o with
          | none => s
          | some t =>
            let b := if o.sparse then sparseBuf o t e.val u else denseBuf o t e.val u
            let n := if o.bound.pmode = 1 then 0 else o.aw - (b.active.length + b.activeLo.length)
            s.modEng c e.val (fun x => { x with
              buf0 := if x.buf0.isNone then some b else x.buf0,
              buf1 := if x.buf0.isNone then x.buf1 else some b,
              nextOp := o.id, nextVec := u + 1, skipped := bump x.skipped n }))

/-! ## Which buffer an engine works on -/

/-- The older of the two buffers, and whether it is the second. -/
def EngineSt.front (x : EngineSt) : Option (PlaneBuf × Bool) :=
  match x.buf0, x.buf1 with
  | none, none => none
  | some a, none => some (a, false)
  | none, some b => some (b, true)
  | some a, some b => if a.op < b.op ∨ (a.op = b.op ∧ a.vec ≤ b.vec) then some (a, false) else some (b, true)

/-- The instruction of an id in the chain queue. -/
def CoreSt.chainOp (k : CoreSt) (id : Nat) : Option ChainOp := k.chainQ.find? (fun o => o.id == id)

/-- The weights of the bank that a pass of the instruction reads: W16 reads both banks, a sparse pass the bank that the
gathered load fills (R70, R75, R256). -/
def EngineSt.weights (x : EngineSt) (o : ChainOp) : Weights :=
  if o.bound.wpl = 16 then ⟨x.bankA, x.bankB, x.idxA⟩
  else if o.bank != o.sparse then ⟨x.bankB, [], x.idxB⟩ else ⟨x.bankA, [], x.idxA⟩

/-- ROWSUM_STEP (R109 to R111, R122, R327): the sums of the engine's oldest buffer go to the core's row-sum store. -/
def execRowsumStep (c : CoreId) (e : Fin 16) (s : State) : Answer :=
  .next (let x := s.engAt c e.val
    match x.front with
    | none => s
    | some (b, second) =>
      match (s.coreAt c).chainOp b.op with
      | none => s
      | some o =>
        let d : LayerDesc := o.bound.desc
        if !b.rowsum ∨ x.pass.isSome then s
        else if (s.cluAt c.cluster.num).vsup ≠ 0 ∧ (!o.bound.fast ∨ !d.osAllow) then s.modEng c e.val (fun x => { x with state := 6 })
        else
          let f := o.form e.val
          let w := x.weights o
          let done : PlaneBuf := { b with rowsum := false }
          let s := s.modEng c e.val (fun x => { x with
            buf0 := if second then x.buf0 else some done, buf1 := if second then some done else x.buf1,
            state := 2, rowsums := bump x.rowsums })
          s.modCore c (fun k =>
            let one := fun (r : Tab Int) (g : Nat) =>
              Tab.setRange 0 r (4096 + (e.val * 8 + g) * 128) ((List.range 128).map (fun n => rowSum f w b g n))
            let dense := (List.range f.regs).map (fun g => rowSum f w b g 0)
            { k with rowsums := if f.mode = 4 then (List.range f.regs).foldl one k.rowsums
                                else Tab.setRange 0 k.rowsums (b.vec * 128 + e.val * 8) dense }))

/-! ## Bank loads (R68 to R73, R256, R257, R429, R430) -/

/-- The loads of the queue that write a bank of an engine, older than an id. -/
def CoreSt.loadsBefore (k : CoreSt) (e : Nat) (bank : Bool) (id : Nat) : Bool :=
  k.loadQ.any (fun l => decide (l.id < id) && l.bank == bank && decide (l.first ≤ e) && decide (e < l.first + l.n))

/-- An engine has finished every pass of an instruction. -/
def EngineSt.doneWith (x : EngineSt) (e : Nat) (o : ChainOp) : Bool :=
  decide (o.engines ≤ e) ||
  ((decide (o.id < x.nextOp) || (o.id == x.nextOp && decide (o.units ≤ x.nextVec))) &&
    !(match x.buf0 with | some b => b.op == o.id | none => false) &&
    !(match x.buf1 with | some b => b.op == o.id | none => false))

/-- The instruction's passes read a bank (R70, R72, R75). -/
def ChainOp.readsBank (o : ChainOp) (bank : Bool) : Bool := o.bank == bank || o.bound.wpl == 16 || o.sparse

/-- Plane p of a bank of an engine written with a block's words (R68, R131). -/
def EngineSt.putPlane (x : EngineSt) (bank : Bool) (p : Nat) (l : List Byte) : EngineSt :=
  let ws := leWords 512 l
  let bit : BitVec 8 := BitVec.ofNat 8 (2 ^ p)
  let base := (if bank then 4096 else 0) + p * 512
  let bad := x.bad.filter (fun w => !(decide (base ≤ w) && decide (w < base + 512)))
  if bank then { x with bankB := Tab.setRange 0 x.bankB (p * 512) ws, validB := x.validB ||| bit, bad := bad }
  else { x with bankA := Tab.setRange 0 x.bankA (p * 512) ws, validA := x.validA ||| bit, bad := bad }

/-- Index plane p of a bank letter written with a block's words. -/
def EngineSt.putIndex (x : EngineSt) (bank : Bool) (p : Nat) (l : List Byte) : EngineSt :=
  let ws := leWords 512 l
  let bit : BitVec 2 := BitVec.ofNat 2 (2 ^ p)
  let base := 8192 + (if bank then 1024 else 0) + p * 512
  let bad := x.bad.filter (fun w => !(decide (base ≤ w) && decide (w < base + 512)))
  if bank then { x with idxB := Tab.setRange 0 x.idxB (p * 512) ws, idxValidB := x.idxValidB ||| bit, bad := bad }
  else { x with idxA := Tab.setRange 0 x.idxA (p * 512) ws, idxValidA := x.idxValidA ||| bit, bad := bad }

/-- The clear flag of a load (R69): no plane stays valid. An index store's validity is cleared with its bank's (log 48). -/
def EngineSt.clearValid (x : EngineSt) (bank : Bool) : EngineSt :=
  if bank then { x with validB := 0, idxValidB := 0 } else { x with validA := 0, idxValidA := 0 }

/-- The address of plane p in a source. -/
def planeAddr (l : List (Nat × Nat)) (p : Nat) : Option Nat := (l.find? (fun e => e.1 == p)).map (fun e => e.2)

/-- The words of a weight image read straight from a source (R430): planes by number, the missing ones 0. -/
def State.srcImage (s : State) (l : List (Nat × Nat)) : Tab Word :=
  (List.range 8).flatMap (fun p =>
    match planeAddr l p with
    | some a => (((leWords 512 (s.peek a 2048)).zipIdx).filter (fun e => e.1 != 0)).map (fun e => (p * 512 + e.2, e.1))
    | none => [])

/-- The weights that EU reads from the records of an instruction's engine (R430): W16 from both banks. -/
def State.srcWeights (s : State) (o : ChainOp) (e : Nat) : Weights :=
  let x := o.srcs.getD (2 * e) ⟨[], []⟩
  let y := o.srcs.getD (2 * e + 1) ⟨[], []⟩
  if o.bound.wpl = 16 then ⟨s.srcImage x.planes, s.srcImage y.planes, []⟩
  else if o.bank then ⟨s.srcImage y.planes, [], s.srcImage y.idx⟩ else ⟨s.srcImage x.planes, [], s.srcImage x.idx⟩

/-- The gathered load of a sparse pass (R256 to R258): the rows of its segments copied from the source of the named bank into
the other bank (log 49). -/
def State.gather (s : State) (c : CoreId) (o : ChainOp) (e : Nat) (b : PlaneBuf) : State :=
  let src := o.srcs.getD (2 * e + (if o.bank then 1 else 0)) ⟨[], []⟩
  let rows := b.segs.zipIdx.flatMap (fun g => g.1.2.2.zipIdx.map (fun r => (16 * g.2 + r.2, r.1)))
  let planes := (o.form e).wPlanes.filter (fun p => (planeAddr src.planes p).isSome)
  planes.foldl (fun s p =>
    match planeAddr src.planes p with
    | none => s
    | some a =>
      let line := fun phys => match rows.find? (fun r => r.1 == phys) with
        | some r => s.peek (a + 16 * r.2) 16
        | none => List.replicate 16 (0 : Byte)
      s.modEng c e (fun x => x.putPlane (!o.bank) p ((List.range 128).flatMap line))) s

/-! ## Passes (R77 to R80, R86 to R108, R122, R125) -/

/-- The planes and index planes that a pass needs are valid (R70, R77). -/
def EngineSt.planesOk (x : EngineSt) (o : ChainOp) (f : PassForm) : Bool :=
  let other := o.bank != o.sparse
  let v := if other then x.validB else x.validA
  let iv := if other then x.idxValidB else x.idxValidA
  if f.wpl = 16 then x.validA == 255 && x.validB == 255
  else f.wPlanes.all (fun p => v.getLsbD p) && (f.mode != 4 || iv == 3)

/-- The words that a pass reads have good parity (R78, R79). -/
def EngineSt.parityOk (x : EngineSt) (o : ChainOp) (f : PassForm) : Bool :=
  let other := o.bank != o.sparse
  let hit := fun base n => x.bad.any (fun w => decide (base ≤ w) && decide (w < base + n))
  if f.wpl = 16 then !hit 0 8192
  else !f.wPlanes.any (fun p => hit ((if other then 4096 else 0) + p * 512) 512) &&
    (f.mode != 4 || !hit (8192 + if other then 1024 else 0) 1024)

/-- An error at an engine: its flag, its event and a fault in shared work. -/
def State.engFault (s : State) (c : CoreId) (e code bit : Nat) : State :=
  ((s.modEng c e (fun x => { x with err := x.err ||| BitVec.ofNat 3 (2 ^ bit) })).raise code none none (posOf c e)).sharedFault

/-- The group-sum registers hold a slice pair's sums; the steps are counted (R86, R126). -/
def EngineSt.setSums (x : EngineSt) (f : PassForm) (w : Weights) (b : PlaneBuf) (pair : Bool × Bool) : EngineSt :=
  let sums := pairSums f w b pair
  let cells : List (Nat × Int × Bool) := sums.zipIdx.flatMap (fun e => e.1.zipIdx.map (fun r => (e.2 * 8 + r.2, r.1)))
  { x with
    gsum := (cells.filter (fun e => e.2.1 != 0)).map (fun e => (e.1, e.2.1)),
    govf := (cells.filter (fun e => e.2.2)).map (fun e => e.1),
    steps := x.steps + BitVec.ofNat 64 (if f.mode = 1 then 1 else (stepList f b pair.2).length) }

/-- The z × C products of an engine's groups for a column tile (R188). -/
def State.corrProducts (s : State) (o : ChainOp) (e : Nat) (k : CoreSt) : CoreSt :=
  let d : LayerDesc := o.bound.desc
  let mode := o.bound.pmode.toNat
  if d.ctp = 0 then k
  else
    { k with zc := (List.range (rowsPer mode / d.g)).foldl (fun t x =>
        let l := s.peek (corrAddr d o.ct (layerGroup d mode e x)) 512
        Tab.setRange 0 t ((e * 8 + x) * 128)
          ((List.range 128).map (fun n => (o.zp : Int) * corrValue o.bound.wpl.toNat (leAt l (4 * n) 4)))) k.zc }

/-- PASS_START (R77 to R80, R86, R122, R125, R256): the engine's oldest buffer starts its pass, or the engine waits for
planes, bank or supply, or faults. -/
def execPassStart (c : CoreId) (e : Fin 16) (s : State) : Answer :=
  .next (let x := s.engAt c e.val
    if x.pass.isSome || !s.tickLive then s
    else match x.front with
      | none => if (x.nextFill e.val (s.coreAt c).chainQ).isSome then s.modEng c e.val (fun x => { x with state := 3 }) else s
      | some (b, second) =>
        match (s.coreAt c).chainOp b.op with
        | none => s
        | some o =>
          let d : LayerDesc := o.bound.desc
          let f := o.form e.val
          let k := s.coreAt c
          let wait := k.loadsBefore e.val o.bank o.id || ((f.wpl == 16 || o.sparse) && k.loadsBefore e.val (!o.bank) o.id)
          if b.rowsum then s
          else if f.bad d.gsz d.rows then s.engFault c e.val 0x2121 2
          else if (s.cluAt c.cluster.num).vsup ≠ 0 ∧ (!f.fast ∨ !d.osAllow) then
            s.modEng c e.val (fun x => { x with state := 6 })
          else if wait then
            let r := s.drawWord
            r.2.modEng c e.val (fun x => { x with state := 4, bankWait := x.bankWait + r.1 })
          else
            let s := if o.sparse then s.gather c o e.val b else s
            if !(s.engAt c e.val).planesOk o f then s.engFault c e.val 0x2120 0
            else if !(s.engAt c e.val).parityOk o f then s.engFault c e.val 0x4130 1
            else
              let r := s.readAll (o.tables e.val)
              if !r.1 then r.2
              else
                let s := r.2.modCore c (fun k => r.2.corrProducts o e.val k)
                s.modEng c e.val (fun x =>
                  let p : PassSt := ⟨b, second, 0, []⟩
                  { x.setSums f (x.weights o) b (f.pairs.headD (false, false)) with
                    pass := some p, state := 1, activeBank := o.bank != o.sparse, cls := f.fast,
                    pmode := BitVec.ofNat 3 f.mode, aw := BitVec.ofNat 5 f.aw, wpl := BitVec.ofNat 5 f.wpl,
                    gsz := BitVec.ofNat 2 d.gsz, vec := BitVec.ofNat 5 b.vec, tile := BitVec.ofNat 3 o.id,
                    readingA := f.wpl == 16 || !(o.bank != o.sparse), readingB := f.wpl == 16 || (o.bank != o.sparse) }))

/-! ## Hand-off and promotion (R92 to R98, R187 to R196, R261, R262) -/

/-- The vectors whose contributions a pass gives, in order. -/
def PassSt.vectors (p : PassSt) (o : ChainOp) : List Nat :=
  if o.sparse then (o.comp.getD p.buf.vec []).map (fun e => e.1) else [p.buf.vec]

/-- The row sum that P1 applies to register x of column n. -/
def CoreSt.rowSumFor (k : CoreSt) (o : ChainOp) (b : PlaneBuf) (e x n : Nat) : Int :=
  if o.sparse then b.rsums.getD x 0
  else if b.zero || hOf o.bound.pmode.toNat o.bound.wpl.toNat == 0 then 0
  else if o.bound.pmode = 4 then Tab.get 0 k.rowsums (4096 + (e * 8 + x) * 128 + n)
  else Tab.get 0 k.rowsums (b.vec * 128 + e * 8 + x)

/-- The promoted value of register x of column n (R187). -/
def State.promoted (s : State) (k : CoreSt) (o : ChainOp) (p : PassSt) (e x n : Nat) (q : Int) (highs : Nat) : Int :=
  let d : LayerDesc := o.bound.desc
  let mode := o.bound.pmode.toNat
  let grp := if o.sparse then (p.buf.segs.getD x (0, 0, [])).2.1 else x
  let code := leNat (s.peek (scaleAddr d o.ct (layerGroup d mode e grp) + 2 * n) 2)
  let dd : Int := (hOf mode o.bound.wpl.toNat : Int) * k.rowSumFor o p.buf e x n -
    (if o.zp = 0 then 0 else Tab.get 0 k.zc ((e * 8 + x) * 128 + n))
  promote o.bound.fast code (p.buf.exps.getD x 0) (q * (2 ^ (8 * highs) : Nat) + if p.pair = 0 then dd else 0)

/-- The group sum that the registers hand off: exact at 0.55 V; over-scaled, the low six bits are free (R119 to R121). -/
def State.handedSum (s : State) (c : CoreId) (x : EngineSt) (i : Nat) : Int :=
  let q := Tab.get 0 x.gsum i
  if (s.cluAt c.cluster.num).vsup = 0 then q else q / 64 * 64 + ((Config.overscaleError (s.free + i)).toNat : Int)

/-- The contribution of one vector in one slice pair, with the adds that gave infinity (R92, R195, R196). -/
def State.pairContrib (s : State) (c : CoreId) (o : ChainOp) (p : PassSt) (e v : Nat) (base : List Acc) : List Acc × Nat :=
  let k := s.coreAt c
  let x := s.engAt c e
  let f := o.form e
  let pr := f.pairs.getD p.pair (false, false)
  let highs := (if f.wpl = 16 ∧ pr.1 then 1 else 0) + (if f.aw = 16 ∧ pr.2 then 1 else 0)
  let regs := (List.range f.regs).filter (fun g => f.groupOn g &&
    (!o.sparse || (p.buf.segs.getD g (99, 0, [])).1 == v))
  let one := fun n a => regs.foldl (fun (r : Acc × Nat) g =>
    if x.govf.contains (n * 8 + g) then (.inf, r.2)
    else
      let t := accAdd o.bound.fast r.1 (accClip o.bound.fast (s.promoted k o p e g n (s.handedSum c x (n * 8 + g)) highs))
      (t.1, r.2 + if t.2 then 1 else 0)) (a, 0)
  let rows := (base.zipIdx).map (fun a => one a.2 a.1)
  (rows.map (fun r => r.1), (rows.map (fun r => r.2)).sum)

/-- The contributions gathered so far for a vector. -/
def PassSt.sofar (p : PassSt) (v : Nat) : List Acc :=
  match p.acc.find? (fun t => t.vec == v) with | some t => t.vals | none => accZeros

/-- GROUP_SUM_HANDOFF (R92 to R95, R116, R187): the registers go to promotion; the next slice pair runs, or the contributions
enter the link. -/
def execGroupSumHandoff (c : CoreId) (e : Fin 16) (s : State) : Answer :=
  .next (let x := s.engAt c e.val
    match x.pass with
    | none => s
    | some p =>
      match (s.coreAt c).chainOp p.buf.op with
      | none => s
      | some o =>
        let f := o.form e.val
        let vs := p.vectors o
        let last := decide (f.pairs.length ≤ p.pair + 1)
        if last ∧ 8 < x.contribs.length + vs.length then
          let r := s.drawWord
          r.2.modEng c e.val (fun x => { x with state := 5, skidStall := x.skidStall + r.1 })
        else
          let rs := vs.map (fun v => (v, s.pairContrib c o p e.val v (p.sofar v)))
          let acc : List Tagged := rs.map (fun r => ⟨o.id, r.1, r.2.1⟩)
          let inf := (rs.map (fun r => r.2.2)).sum
          let s := (s.modOcv c (fun q => { q with promInf := bump q.promInf inf }))
          let s := { s with free := s.free + if (s.cluAt c.cluster.num).vsup = 0 then 0 else 1024 }
          s.modEng c e.val (fun x =>
            let x : EngineSt := { x with gsumOvf := bump x.gsumOvf x.govf.length, gsum := [], govf := [] }
            if last then
              { x with
                contribs := x.contribs ++ acc, pass := none, passes := bump x.passes, state := 0, readingA := false,
                readingB := false, buf0 := if p.second then x.buf0 else none, buf1 := if p.second then none else x.buf1 }
            else
              let q : PassSt := ⟨p.buf, p.second, p.pair + 1, acc⟩
              { x.setSums f (x.weights o) p.buf (f.pairs.getD (p.pair + 1) (false, false)) with pass := some q }))

/-! ## The chain (R112 to R118, R203 to R206) -/

/-- A running sum reaches the ACB (R203): its vector has landed; an instruction whose vectors have all landed is complete and
joins the history of the tiles. -/
def State.acbLand (s : State) (c : CoreId) (o : ChainOp) (t : Tagged) : State :=
  let fast := o.bound.fast
  let j := o.acbase + t.vec
  let s := s.modCore c (fun k => if o.acc then k.acbAdd fast o.half j t.vals else k.acbOver fast o.half j t.vals)
  let done : ChainOp := { o with landed := addKey o.landed t.vec }
  if o.tm ≤ done.landed.length then
    s.modCore c (fun k => { k with chainQ := k.chainQ.filter (fun q => !(q.id == o.id)), hist := k.hist ++ [done] })
  else s.modChain c o.id (fun _ => done)

/-- CHAIN_LINK_ADD (R112 to R118): link e adds the engine's contribution to the running sum of its tag, or passes the sum of a
gated engine on; link 15 delivers to the ACB. -/
def execChainLinkAdd (c : CoreId) (e : Fin 16) (s : State) : Answer :=
  .next (let x := s.engAt c e.val
    let head : Option Tagged := if e.val = 0 then x.contribs.head? else x.sums.head?
    match head with
    | none => s
    | some h =>
      match (s.coreAt c).chainOp h.op with
      | none => s.modEng c e.val (fun x => { x with contribs := if e.val = 0 then x.contribs.drop 1 else x.contribs,
                                                     sums := x.sums.drop 1 })
      | some o =>
        let gated := decide (o.engines ≤ e.val)
        let mine := match x.contribs.head? with | some t => t.op == h.op && t.vec == h.vec | none => false
        if e.val ≠ 0 ∧ !gated ∧ !mine then s
        else if e.val < 15 ∧ 8 ≤ (s.engAt c (e.val + 1)).sums.length then s
        else
          let own : List Acc := if gated then accZeros else (match x.contribs.head? with | some t => t.vals | none => accZeros)
          let r := accAddRow o.bound.fast (if e.val = 0 then accZeros else h.vals) own
          let t : Tagged := ⟨h.op, h.vec, r.1⟩
          let s := s.modOcv c (fun q => { q with promInf := bump q.promInf r.2 })
          let s := s.modEng c e.val (fun x => { x with
            contribs := if gated then x.contribs else x.contribs.drop 1,
            sums := if e.val = 0 then x.sums else x.sums.drop 1 })
          if e.val = 15 then s.acbLand c o t
          else s.modEng c (e.val + 1) (fun x => { x with sums := x.sums ++ [t] }))

end Sys2Proof.Machine
end

