-- ==== Sys2Proof/Machine/Matrix.lean ====
section
/-! DEFINITION. Issue of the compute instructions: bank loads, matrix instructions with their route, raw import
(09, R428 to R439, R457 to R460; 06, R253, R254, R275 to R280; 05, R202 to R213, R236). -/

namespace Sys2Proof.Machine

/-! ## The bound descriptor at issue -/

/-- Changes the last bound descriptor's entry. -/
def State.modLast (s : State) (c : CoreId) (f : Bound → Bound) : State :=
  s.modSeq c (fun q => { q with bound := match q.bound.reverse with | [] => [] | b :: t => (f b :: t).reverse })

/-- An instruction of the other half of a split part is skipped (R459): only PC moves on. -/
def State.skipInstr (s : State) (c : CoreId) : State :=
  s.modSeq c (fun q => { q with state := seqRun, pc := q.pc + 1 })

/-- The instruction belongs to the other half of a split part (R459). -/
def Bound.skips (b : Bound) (half : Bool) : Bool := b.split && (half != (b.part == 1))

/-- An invocation's re-run reads extension tiles (R309, R458). -/
def State.readsExt (s : State) (b : Bound) : Bool :=
  b.rerun && !(s.invAt b.ord.toNat).promptOff && LayerDesc.rr b.desc && !LayerDesc.dlt b.desc

/-- The half of the ACB that a range uses: none in exact class (R202, R459). -/
def Bound.half (b : Bound) (half : Bool) : Bool := half && b.fast

/-- The newest run that holds an entry of a half. -/
def Bound.rangeAt (b : Bound) (half : Bool) (j : Nat) : Option VecRange :=
  b.ranges.reverse.find? (fun r => r.half == half && decide (r.acbase ≤ j) && decide (j < r.acbase + r.tm))

/-- The number, within its invocation, of vector m of a range: vectors count in the order in which the ranges of their column
tile were opened (log 47). -/
def placeOf (b : Bound) (half : Bool) (acbase m : Nat) : Nat :=
  match b.rangeAt (b.half half) (acbase + m) with
  | some r => r.base + (acbase + m - r.acbase)
  | none => (if b.split then b.part else bitAt half 0) * 32 + acbase + m

/-- Vectors of a column tile that the invocation has opened so far. -/
def Bound.vectors (b : Bound) (ct : Nat) : Nat := ((b.ranges.filter (fun r => r.tile == some ct)).map (fun r => r.tm)).sum

/-- An instruction with ACC = 0 opens a run for a column tile; one with ACC = 1, and a DRAIN, names the tile of a run that an
image opened, or opens a run where there is none for its tile (log 47). -/
def Bound.openTile (b : Bound) (ct : Nat) (half : Bool) (acbase tm : Nat) (acc : Bool) : Bound :=
  let h := b.half half
  let fresh : VecRange := ⟨some ct, 0, h, acbase, tm, b.vectors ct⟩
  let runs := (List.range tm).map (fun m => b.rangeAt h (acbase + m))
  if acc && runs.all (fun r => match r with | some x => x.tile == some ct | none => false) then b
  else match acc, runs.head? with
    | true, some (some r) =>
      if r.tile.isNone then
        { b with ranges := b.ranges.map (fun x => if x = r then { x with tile := some ct, base := b.vectors ct } else x) }
      else { b with ranges := b.ranges ++ [fresh] }
    | _, _ => { b with ranges := b.ranges ++ [fresh] }

/-- An IMPORT with ACC = 0 opens a run; images of one address belong to one column tile (log 47, log 51). -/
def Bound.openImage (b : Bound) (image : Nat) (half : Bool) (acbase tm : Nat) : Bound :=
  let base := ((b.ranges.filter (fun r => r.image == image)).map (fun r => r.tm)).sum
  { b with ranges := b.ranges ++ [⟨none, image, b.half half, acbase, tm, base⟩] }

/-! ## ACB ranges at issue (R205, R209, R236) -/

/-- An OCV_ERR flag with its event and a fault in shared work; the instruction does not start. -/
def State.ocvFault (s : State) (c : CoreId) (code bit : Nat) : State :=
  ((s.modOcv c (fun q => { q with err := q.err ||| BitVec.ofNat 3 (2 ^ bit) })).raise code none none (posOf c 0)).sharedFault

/-- Two ranges share entries (R202): in exact class whole entries, in fast class halves. -/
def rangesMeet (fa ha : Bool) (a n : Nat) (fb hb : Bool) (b m : Nat) : Bool :=
  decide (a < b + m) && decide (b < a + n) && (!fa || !fb || ha == hb)

/-- An issued DRAIN holds entries of a range (R208, R209; from its issue on, log 50). -/
def CoreSt.heldBy (k : CoreSt) (fast half : Bool) (a n : Nat) : Bool :=
  k.convQ.any (fun o => rangesMeet fast half a n o.bound.fast o.half o.acbase o.tm)

/-- A queued instruction targets entries of a range. -/
def CoreSt.chainOn (k : CoreSt) (fast half : Bool) (a n : Nat) : Bool :=
  k.chainQ.any (fun o => rangesMeet fast half a n o.bound.fast o.half o.acbase o.tm)

/-- A make-up candidate waits for EU in a range (R285). -/
def CoreSt.makeUpOn (k : CoreSt) (fast half : Bool) (a n : Nat) : Bool :=
  k.euQ.any (fun o => o.kind == 1 && rangesMeet fast half a n o.bound.fast o.half o.acbase o.tm)

/-- The format that an entry index will have once the queued instructions have run. -/
def CoreSt.fmtAt (k : CoreSt) (j : Nat) : Bool :=
  match k.chainQ.reverse.find? (fun o => decide (o.acbase ≤ j) && decide (j < o.acbase + o.tm)) with
  | some o => o.bound.fast
  | none => k.fmtBit j

/-- Every entry of a range has the class's format (R205). -/
def CoreSt.formatsFit (k : CoreSt) (fast : Bool) (a n : Nat) : Bool := (List.range n).all (fun m => k.fmtAt (a + m) == fast)

/-- The wait of R209: OCV_HOLD_WAIT grows by ACLK cycles that are a free value (log 27). -/
def State.holdWait (s : State) (c : CoreId) : State :=
  let r := s.drawWord
  r.2.modOcv c (fun q => { q with holdWait := q.holdWait + r.1 })

/-! ## Input tiles (R413, R414, R458, R802) -/

/-- A ring-form descriptor of an entry of the core's own ring. -/
def ringTile (c : CoreId) (q off : Nat) : TileDesc :=
  BitVec.ofNat 256 (regionBase (.core c) + 2 ^ 44 + q % 16 * 2 ^ 45 + off % 2 ^ 24 * 2 ^ 64 + 15 * 2 ^ 192)

/-- The place from HEAD of the n-th extension tile of ring EXQ (R458). -/
def State.extPlace (s : State) (c : CoreId) (q n : Nat) : Option Nat :=
  let r := s.ringAt c q
  let l := s.entriesFrom c q r.head r.readable 4096
  ((l.zipIdx.filter (fun e => e.1.kind == 2))[n]?).map (fun e => e.2)

/-- The descriptor of the tile that a matrix instruction reads: T[TA], or the next extension tile in a re-run (R458); none
while that tile has not come. -/
def State.inputTile (s : State) (c : CoreId) (b : Bound) (t : TileDesc) : Option TileDesc :=
  if s.readsExt b then (s.extPlace c (LayerDesc.exq b.desc) b.nIn).map (ringTile c (LayerDesc.exq b.desc)) else some t

/-- The header of a correction table fits the descriptor (R157, R158, R462). -/
def State.corrHeaderOk (s : State) (d : LayerDesc) : Bool :=
  let l := s.peek d.ctp 32
  decide (leAt l 0 2 = 0x4354) && decide (leAt l 28 4 = crc32 (l.take 28)) && decide (leAt l 2 2 = d.lid) &&
  decide (byteAt l 5 % 4 = d.gsz) && decide (byteAt l 4 = d.wpl) && (bitOf (byteAt l 5) 7 == (d.pmode == 4)) &&
  decide (leAt l 12 4 = d.cols) && decide (leAt l 8 4 = d.kdim)

/-- A sequencer's event on an input that starts no pass: a fault in shared work (R158, R172). -/
def State.inputFault (s : State) (c : CoreId) (code : Nat) : State := (s.raise code none none (posOf c 0)).sharedFault

/-- The first record that the core takes sets S_in and the width in force (R172, R802). -/
def Bound.take (b : Bound) (r : TRec) : Bound :=
  match b.sIn with
  | none => { b with sIn := some r.sT, aw := BitVec.ofNat 5 r.width }
  | some _ => b

/-! ## The prompter's masks (R275, R276, R279, R280) -/

/-- The address of a slot's mask bits for a column tile in buffer b (R275). -/
def State.maskAddr (s : State) (cl : ClusterId) (d : LayerDesc) (slot b ct : Nat) : Nat :=
  let l := s.tilesIn d cl
  d.pmq + (2 * slot + b) * (16 * l.length) + 16 * (match l.findIdx? (fun t => t == ct) with | some i => i | none => 0)

/-- The neurons of a column tile that the prompter predicts inactive for vector `place` of an invocation (R276, R279). -/
def State.predicted (s : State) (cl : ClusterId) (b : Bound) (ct place : Nat) : BitVec 128 :=
  let d : LayerDesc := b.desc
  if b.prm = 0 then 0
  else match s.slotAt b.ord.toNat place with
    | none => 0
    | some i =>
      let t := s.stepOf i
      if t = 0 ∨ s.prefilling i ∨ t % d.pref = 0 then 0
      else BitVec.ofNat 128 (leNat (s.peek (s.maskAddr cl d i (t % 2) ct) 16))

/-- Every neuron of the tile is predicted inactive (R280). -/
def allInactive (m : BitVec 128) : Bool := m == BitVec.ofNat 128 (2 ^ 128 - 1)

/-! ## Route (R253, R254) -/

/-- The layer and the input permit the sparse path (R253). -/
def sparseCapable (b : Bound) (r : TRec) : Bool :=
  b.fast && b.pmode == 0 && r.width == 8 && decide (2 ≤ b.wpl.toNat) && decide (b.wpl.toNat ≤ 8) && r.zp == 0

/-- In-range entries of a vector on an engine. -/
def nnzOn (v : VecEntries) (e : Nat) : Nat := (v.l.filter (fun p => p.1 / 128 == e)).length

/-- Segments of a vector, none where an engine has more than 64 entries (R254). -/
def segsOf (v : VecEntries) (g engines : Nat) : Option Nat :=
  (List.range engines).foldl (fun a e =>
    match a with
    | none => none
    | some n =>
      if 64 < nnzOn v e then none
      else some (max n (((List.range (128 / g)).map (fun x => ceilDiv (groupRows v e g x).length 16)).sum))) (some 1)

/-- Packs vectors with their segments into passes of 8 (R254). -/
def packPasses : List (Nat × Nat) → List (Nat × Nat) → Nat → List (List (Nat × Nat))
  | cur, [], _ => if cur.isEmpty then [] else [cur]
  | cur, x :: t, fill =>
    if 8 < fill + x.2 then cur :: packPasses [x] t x.2 else packPasses (cur ++ [x]) t (fill + x.2)

/-- The route of a tile (R254): a dense tile that was demoted, a dense tile, or the sparse passes. -/
inductive Route where
  | demoted
  | dense
  | sparse (comp : List (List (Nat × Nat)))

/-- R254. -/
def tileRoute (d : LayerDesc) (tm engines : Nat) (skip : List Nat) (t : TileData) : Route :=
  let segs := (List.range tm).map (fun m =>
    (m, if skip.contains m then some 1 else segsOf (t.vec m) d.g engines))
  if segs.any (fun e => e.2.isNone) then .demoted
  else
    let comp := packPasses [] (segs.map (fun e => (e.1, e.2.getD 1))) 0
    if comp.length * 1000 < d.spth * tm then .sparse comp else .dense

/-! ## Matrix instructions (R435 to R439, R442) -/

/-- Counts a routed tile (R295). -/
def SparseSt.count (x : SparseSt) (route : Route) (form skips : Nat) : SparseSt :=
  let x : SparseSt := { x with prmSkipped := bump x.prmSkipped skips }
  let n := if form = 1 ∨ form = 2 then 1 else 0
  match route with
  | .sparse comp => { x with path := true, npass := BitVec.ofNat 6 comp.length, tiles := bump x.tiles }
  | .demoted => { x with path := false, demote := bump x.demote, dense := bump x.dense n }
  | .dense => { x with path := false, dense := bump x.dense n }

/-- The instruction enters the chain queue (R254, R280, R439, R442). -/
def State.enqueueMatrix (s : State) (c : CoreId) (w : DWord) (b : Bound) (td : TileDesc) (src : TileSrc) (r : TRec) : State :=
  let d : LayerDesc := b.desc
  let tm := bitsOf w 48 43
  let acbase := bitsOf w 53 49
  let ct := (s.seqAt c).sreg (bitsOf w 37 33)
  let half := bitOf w.toNat 54
  let b := b.openTile ct half acbase tm (bitOf w.toNat 55)
  let mode := b.pmode.toNat
  let engines := enginesUsed d mode
  let skip := (List.range tm).filter (fun m => allInactive (s.predicted c.cluster b ct (placeOf b half acbase m)))
  let tile := s.tileOf src tm d.rows r.width r.sign
  let route := match tile with
    | some t => if opOf w = 0x35 ∧ t.form ≠ 0 ∧ sparseCapable b r then tileRoute d tm engines skip t else Route.dense
    | none => Route.dense
  let comp := match route with | .sparse p => p | _ => []
  let sparse := match route with | .sparse _ => true | _ => false
  let held := match b.rowTag with | some (p, l) => if p = src ∧ mode = 0 then l else [] | none => []
  let need := !sparse && (mode == 0 || mode == 4) && decide (b.wpl.toNat < 8)
  let run := if need then (List.range tm).filter (fun m => !skip.contains m && !held.contains m) else []
  let b' : Bound := { b.take r with
    nIn := b.nIn + 1,
    nChk := if d.dlt && d.dchk && b.fast && (List.range tm).any (fun m => s.refreshes d b.ord.toNat (placeOf b half acbase m))
            then b.nChk + 1 else b.nChk,
    rowTag := if need ∧ mode = 0 then some (src, held ++ run) else b.rowTag }
  let k := s.coreAt c
  let o : ChainOp :=
    { id := k.seq.opSeq + 1, ord := b.ord, code := BitVec.ofNat 8 (opOf w), acc := bitOf w.toNat 55, half := b.half half,
      acbase := acbase, tm := tm, bank := bitOf w.toNat 38, ct := ct, tile := td, src := src, bound := b', aw := r.width,
      sign := r.sign, zp := r.zp, started := false, sparse := sparse, comp := comp, skip := skip, rowsum := run, landed := [],
      chk := if b'.nChk = b.nChk then none else some b.nChk, engines := engines,
      srcs := (List.range 32).map (fun i => Tab.get ⟨[], []⟩ k.sources i), image := [] }
  let cand := fun m =>
    let u : EuOp := ⟨1, b.ord, ct, 1, acbase + m, b.half half, m, b', [o], 0, []⟩
    u
  let s := (s.modLast c (fun _ => b')).modInv b.ord.toNat (fun x => { x with aw := b'.aw, sIn := b'.sIn.getD 0 })
  let s := s.modSparse c (fun x => x.count route (match tile with | some t => t.form | none => 0) skip.length)
  let s := s.modSeq c (fun q => { q with
    opSeq := q.opSeq + 1,
    halves := if half then addKey q.halves b.ord.toNat else q.halves,
    halfLix := if half then addKey q.halfLix d.lix else q.halfLix })
  let s := s.modCore c (fun k => { k with
    chainQ := if tm = 0 then k.chainQ else k.chainQ ++ [o],
    euQ := if b.prm = 2 then k.euQ ++ skip.map cand else k.euQ })
  s.issued c

/-- The common course of the matrix instructions: `mode` is the PMODE that the opcode asks for (R436). -/
def State.matrix (s : State) (c : CoreId) (w : DWord) (mode : Nat) : State :=
  match (s.seqAt c).last with
  | none => s
  | some b =>
    let d : LayerDesc := b.desc
    let k := s.coreAt c
    let tm := bitsOf w 48 43
    let acbase := bitsOf w 53 49
    let half := bitOf w.toNat 54
    if b.skips half then s.skipInstr c
    else if d.pmode ≠ mode then s.seqStop c 0x2113 3
    else if 32 < acbase + tm then s.ocvFault c 0x2151 1
    else if bitOf w.toNat 55 ∧ !k.formatsFit b.fast acbase tm then s.ocvFault c 0x2150 0
    else match s.inputTile c b ((s.seqAt c).treg (bitsOf w 42 39)) with
      | none => s.waitAt c seqWaitRing
      | some td =>
        match s.source c td with
        | .wait => s.waitAt c seqWaitRing
        | .bad e q => s.ringFault e q
        | x =>
          if !td.ring && !(s.coreReach c td.addr && s.coreReach c (td.addr - 32)) then s.reachFault c
          else if k.heldBy b.fast (b.half half) acbase tm then s.holdWait c
          else if 4 ≤ (k.chainQ.filter (fun o => !o.started)).length then s.waitAt c seqWaitQueue
          else match x.tile, s.recordOf c td with
            | some src, some r =>
              if !r.ok then s.inputFault c 0x2141
              else if d.ctp ≠ 0 ∧ !s.corrHeaderOk d then s.inputFault c 0x2140
              else
                let ck := if td.ring then [] else s.sbRange (td.addr - 32) (32 + s.tileLen src)
                s.withSb c [] [] ck (fun s => s.enqueueMatrix c w b td src r)
            | _, _ => s.inputFault c 0x2141

/-- MBP. -/
def execMbp (c : CoreId) (s : State) : Answer := .next (s.runSeq c 0x30 fun w s => s.matrix c w 0)

/-- MXN. -/
def execMxn (c : CoreId) (s : State) : Answer := .next (s.runSeq c 0x31 fun w s => s.matrix c w 1)

/-- MSH1. -/
def execMsh1 (c : CoreId) (s : State) : Answer := .next (s.runSeq c 0x32 fun w s => s.matrix c w 2)

/-- MSH2. -/
def execMsh2 (c : CoreId) (s : State) : Answer := .next (s.runSeq c 0x33 fun w s => s.matrix c w 3)

/-- MB24. -/
def execMb24 (c : CoreId) (s : State) : Answer := .next (s.runSeq c 0x34 fun w s => s.matrix c w 4)

/-- MSP (R254, R437). -/
def execMsp (c : CoreId) (s : State) : Answer := .next (s.runSeq c 0x35 fun w s => s.matrix c w 0)

/-! ## Bank loads (R68, R69, R73, R429, R430) -/

/-- The planes of a mask, highest first. -/
def maskDown (n m : Nat) : List Nat := ((List.range n).map (fun i => n - 1 - i)).filter (fun p => bitOf m p)

/-- A merged record of sources: a load without the clear flag replaces only its own planes (R69, R430). -/
def mergeSrc (old new : List (Nat × Nat)) : List (Nat × Nat) :=
  new ++ old.filter (fun e => !new.any (fun n => n.1 == e.1))

/-- The block addresses of a load (R429): by plane in load order, by engine; a ring's are those of its entries' bodies. -/
def State.loadBlocks (s : State) (c : CoreId) (t : TileDesc) (np n : Nat) : Option (Option (List (List Nat))) :=
  if !t.ring then
    some (some ((List.range np).map (fun (j : Nat) => (List.range n).map (fun (i : Nat) =>
      unsigned 44 ((t.addr : Int) + (j : Int) * t.stride + ((i * 2048 : Nat) : Int))))))
  else
    let d := s.ringOwner c t
    let r := s.ringAt d t.q
    let cell := fun k => match s.entryOff d t.q (t.off + k) with
      | .entry e => if t.accepts e.kind then some (some (r.addr d e.body)) else none
      | .wait => some none
      | .bad => none
    let all := (List.range (np * n)).map cell
    if all.any (fun x => x.isNone) then none
    else if all.any (fun x => x == some none) then some none
    else some (some (chunks n np (all.map (fun x => (x.getD none).getD 0))))

/-- BLD. -/
def execBld (c : CoreId) (s : State) : Answer :=
  .next (s.runSeq c 0x20 fun w s =>
    let t := (s.seqAt c).treg (bitsOf w 34 31)
    let bank := bitOf w.toNat 55
    let clr := bitOf w.toNat 54
    let eu := bitOf w.toNat 43
    let first := if eu then 16 else bitsOf w 42 39
    let n := if eu then 1 else bitsOf w 38 35 + 1
    let planes := maskDown 8 (bitsOf w 53 46)
    let idx := maskDown 2 (bitsOf w 45 44)
    let d := s.ringOwner c t
    if t.ring ∧ (!(s.ringAt d t.q).en ∨ (s.ringAt d t.q).stopped) then s.ringFault d t.q
    else match s.loadBlocks c t (planes.length + idx.length) n with
      | none => s.ringFault d t.q
      | some none => s.waitAt c seqWaitRing
      | some (some bs) =>
        if !bs.all (fun l => l.all (fun a => s.coreReach c a)) then s.reachFault c
        else if 4 ≤ (s.coreAt c).loadQ.length then s.waitAt c seqWaitQueue
        else
          s.withSb c [] [] (if t.ring then [] else bs.flatMap (fun l => l.flatMap (fun a => s.sbRange a 2048))) fun s =>
            let o : LoadOp := ⟨(s.seqAt c).opSeq + 1, (s.seqAt c).lastOrd, bank, clr, planes, idx, first, n, bs,
              if t.ring then some t.q else none⟩
            let rec_ := fun (tab : Tab LoadSrc) (i : Nat) =>
              let key := 2 * (first + i) + (if bank then 1 else 0)
              let old := if clr then ⟨[], []⟩ else Tab.get ⟨[], []⟩ tab key
              let at_ := fun j => (bs.getD j []).getD i 0
              let new : LoadSrc := ⟨mergeSrc old.planes (planes.zipIdx.map (fun e => (e.1, at_ e.2))),
                mergeSrc old.idx (idx.zipIdx.map (fun e => (e.1, at_ (planes.length + e.2))))⟩
              Tab.put tab key new
            let s := s.modCore c (fun k => { k with
              loadQ := k.loadQ ++ [o], sources := (List.range n).foldl rec_ k.sources,
              lastBank := (List.range n).foldl (fun t i => Tab.set 0 t (first + i) (if bank then 1 else 0)) k.lastBank })
            let s := (List.range n).foldl (fun s i => s.modEng c (first + i) (fun x =>
              if bank then { x with loadingB := true } else { x with loadingA := true })) s
            (s.modSeq c (fun q => { q with opSeq := q.opSeq + 1 })).issued c)

/-- One engine's blocks of a load are written (R68, R69). -/
def State.loadEngine (s : State) (c : CoreId) (o : LoadOp) (i : Nat) : State :=
  let e := o.first + i
  let s := if o.clr then s.modEng c e (fun x => x.clearValid o.bank) else s
  let s := o.planes.zipIdx.foldl (fun s p =>
    let l := s.peek ((o.blocks.getD p.2 []).getD i 0) 2048
    s.modEng c e (fun x => x.putPlane o.bank p.1 l)) s
  o.idxPlanes.zipIdx.foldl (fun s p =>
    let l := s.peek ((o.blocks.getD (o.planes.length + p.2) []).getD i 0) 2048
    s.modEng c e (fun x => x.putIndex o.bank p.1 l)) s

/-- BANK_LOAD_DONE (R68, R73): the first load of the queue is carried out, once no earlier instruction's pass reads the bank. -/
def execBankLoadDone (c : CoreId) (s : State) : Answer :=
  .next (let k := s.coreAt c
    match k.loadQ with
    | [] => s
    | o :: rest =>
      let engines := (List.range o.n).map (fun i => o.first + i)
      if k.chainQ.any (fun p => decide (p.id < o.id) && p.readsBank o.bank &&
          engines.any (fun e => !(s.engAt c e).doneWith e p)) then s
      else
        let r := s.readAll (o.blocks.flatMap (fun l => l.map (fun a => (a, 2048))))
        if !r.1 then r.2
        else
          let s := (List.range o.n).foldl (fun s i => s.loadEngine c o i) r.2
          let s := s.modCore c (fun k => { k with loadQ := rest })
          engines.foldl (fun s e =>
            let more := rest.any (fun l => l.bank == o.bank && decide (l.first ≤ e) && decide (e < l.first + l.n))
            s.modEng c e (fun x => if o.bank then { x with loadingB := more } else { x with loadingA := more })) s)

/-! ## Raw import (R213, R334, R802) -/

/-- Bytes of one vector of a raw image (R212). -/
def rawBytes (fast : Bool) : Nat := 128 * (if fast then 12 else 20)

/-- A vector's values from its raw image. -/
def rawRow (fast : Bool) (l : List Byte) : List Acc :=
  let n := if fast then 12 else 20
  (List.range 128).map (fun i => accOfBits fast (leAt l (n * i) n))

/-- The raw image of a vector's values (R212). -/
def rawImage (fast : Bool) (v : List Acc) : List Byte :=
  v.flatMap (fun a => leBytes (if fast then 12 else 20) (accBits fast a))

/-- The address of vector m's kept image in a DELTA layer: ADDR is the column tile's place for slot 0 in buffer 0, and slots
and buffers follow at CT × Z (R334, log 51). A vector without a slot has none. -/
def State.keptAddr (s : State) (b : Bound) (base place : Nat) (next : Bool) : Option Nat :=
  let d : LayerDesc := b.desc
  (s.slotAt b.ord.toNat place).map (fun i =>
    base + (2 * i + (s.stepOf i + if next then 1 else 0) % 2) * ceilDiv d.cols 128 * rawBytes b.fast)

/-- One vector of an IMPORT: its values, none for the zeros of a refresh (R334). -/
def State.importRow (s : State) (b : Bound) (x : TileSrc) (base place m : Nat) : List Acc :=
  let d : LayerDesc := b.desc
  let z := rawBytes b.fast
  if d.dlt then
    if s.refreshes d b.ord.toNat place then accZeros
    else match s.keptAddr b base place false with
      | some a => rawRow b.fast (s.peek a z)
      | none => accZeros
  else rawRow b.fast ((s.tileBytes x ((m + 1) * z)).drop (m * z))

/-- The ranges that an IMPORT reads. -/
def State.importRanges (s : State) (b : Bound) (base acbase tm : Nat) (half : Bool) : List (Nat × Nat) :=
  let d : LayerDesc := b.desc
  if d.dlt then (List.range tm).filterMap (fun m =>
      let p := placeOf b half acbase m
      if s.refreshes d b.ord.toNat p then none else (s.keptAddr b base p false).map (fun a => (a, rawBytes b.fast)))
  else [(base, tm * rawBytes b.fast)]

/-- The image lands in the ACB (R203, R204, R213). -/
def CoreSt.importRows (k : CoreSt) (fast half acc : Bool) (acbase : Nat) (rows : List (List Acc)) : CoreSt :=
  rows.zipIdx.foldl (fun k r => if acc then k.acbAdd fast half (acbase + r.2) r.1 else k.acbOver fast half (acbase + r.2) r.1) k

/-- IMPORT. It is carried out when it issues, once no queued instruction targets its range (R206, log 52). -/
def execImprt (c : CoreId) (s : State) : Answer :=
  .next (s.runSeq c 0x39 fun w s =>
    match (s.seqAt c).last with
    | none => s
    | some b =>
      let k := s.coreAt c
      let td := (s.seqAt c).treg (bitsOf w 42 39)
      let tm := bitsOf w 48 43
      let acbase := bitsOf w 53 49
      let half := bitOf w.toNat 54
      let acc := bitOf w.toNat 55
      let h := b.half half
      let b := if acc then b else b.openImage td.addr half acbase tm
      if 32 < acbase + tm then s.ocvFault c 0x2151 1
      else if acc ∧ !k.formatsFit b.fast acbase tm then s.ocvFault c 0x2150 0
      else match s.source c td with
        | .wait => s.waitAt c seqWaitRing
        | .bad e q => s.ringFault e q
        | x =>
          let ranges := s.importRanges b td.addr acbase tm half
          if !td.ring && !ranges.all (fun r => s.coreReach c r.1) then s.reachFault c
          else if k.heldBy b.fast h acbase tm then s.holdWait c
          else if k.chainOn b.fast h acbase tm then s.waitAt c seqWaitQueue
          else
            let rec_ := if bitOf w.toNat 38 then s.recordOf c td else none
            if bitOf w.toNat 38 ∧ !(match rec_ with | some r => r.ok | none => false) then s.inputFault c 0x2141
            else match x.tile with
              | none => s
              | some src =>
                s.withSb c [] [] (if td.ring then [] else ranges.flatMap (fun r => s.sbRange r.1 r.2)) fun s =>
                  let g := if td.ring then s.tileRead src (tm * rawBytes b.fast) else s.readAll ranges
                  if !g.1 then g.2.issued c
                  else
                    let rows := (List.range tm).map (fun m => s.importRow b src td.addr (placeOf b half acbase m) m)
                    let b' := match rec_ with | some r => b.take r | none => b
                    let o : ChainOp :=
                      { id := k.seq.opSeq + 1, ord := b.ord, code := 0x39, acc := acc, half := h, acbase := acbase, tm := tm,
                        bank := false, ct := 0, tile := 0, src := src, bound := b', aw := 0, sign := false, zp := 0,
                        started := true, sparse := false, comp := [], skip := [], rowsum := [], landed := List.range tm,
                        chk := none, engines := 0, srcs := [], image := rows }
                    let s := (g.2.modLast c (fun _ => b')).modSeq c (fun q => { q with opSeq := q.opSeq + 1 })
                    let s := s.modCore c (fun k =>
                      let k := k.importRows b.fast h acc acbase rows
                      { k with hist := k.hist ++ [o] })
                    s.issued c)

end Sys2Proof.Machine
end

