-- ==== Sys2Proof/Machine/Edge.lean ====
section
/-! DEFINITION. The output edge: values, statistics, conversion, drains, raw export, STAT
(05, R202 to R227, R799 to R803; 04, R160 to R178; 06, R275 to R287; 07, R310, R332 to R336; 09, R440 to R444, R459). -/

namespace Sys2Proof.Machine

/-! ## Shares of an invocation (R226, R313, R801) -/

/-- A core's share before anything is counted. -/
def Share.new (core part : Nat) : Share :=
  { core := core, part := part, amax := 0, norm := 0, inf := 0, elems := 0, sat := 0, hist := [], reported := false,
    pass2 := false, recorded := [] }

/-- A core's share of a part. -/
def InvSt.share (x : InvSt) (core part : Nat) : Share :=
  match x.shares.find? (fun h => h.core == core && h.part == part) with
  | some h => h
  | none => Share.new core part

/-- Changes a core's share of a part. -/
def State.modShare (s : State) (ord core part : Nat) (f : Share → Share) : State :=
  s.modInv ord (fun x => { x with
    shares := f (x.share core part) :: x.shares.filter (fun h => !(h.core == core && h.part == part)) })

/-- A core reports its share (R440, R801): its top-k lists close (R230). -/
def State.report (s : State) (c : CoreId) (ord part : Nat) : State :=
  let busy := (s.coreAt c).convQ.any (fun o => o.ord.toNat == ord && o.bound.part == part)
  let s := s.modShare ord c.num part (fun h => { h with reported := true, pass2 := !busy })
  let lists := (s.cluAt c.cluster.num).topIn.filter (fun m => m.level == 0 && m.src == c.num && m.ord.toNat == ord && !m.last)
  if lists.isEmpty then s
  else
    let s := s.modOcv c (fun q => { q with topk := bump q.topk ((lists.map (fun m => m.recs.length)).sum) })
    s.modClu c.cluster.num (fun k => { k with topIn := k.topIn.map (fun m =>
      if m.level = 0 ∧ m.src = c.num ∧ m.ord.toNat = ord then { m with last := true } else m) })

/-! ## Values (R216 to R219) -/

/-- The tables of an output: scales, biases and the activation table's bytes (R217, R218). -/
structure OutTables where
  osc : Option (List Word)
  bias : Option (List Word)
  act : Option (List Byte)
  deriving DecidableEq, Repr

/-- The byte ranges of a column tile's output tables (R217, R218). -/
def outRanges (d : LayerDesc) (ct : Nat) : List (Nat × Nat) :=
  (if d.osp = 0 then [] else [(d.osp + 512 * ct, 512)]) ++ (if d.bsp = 0 then [] else [(d.bsp + 512 * ct, 512)]) ++
  (if d.act then [(d.atp, 528)] else [])

/-- The tables of a column tile. -/
def State.outTables (s : State) (d : LayerDesc) (ct : Nat) : OutTables :=
  ⟨if d.osp = 0 then none else some (leWords 128 (s.peek (d.osp + 512 * ct) 512)),
   if d.bsp = 0 then none else some (leWords 128 (s.peek (d.bsp + 512 * ct) 512)),
   if d.act then some (s.peek d.atp 528) else none⟩

/-- An activation table passes its checks (R218, R219). -/
def actOk (l : List Byte) : Bool :=
  let x0 := word (leAt l 0 4)
  let rdx := word (leAt l 4 4)
  decide (leAt l 8 2 = 0x4154) && decide (leAt l 12 4 = crc32 (l.take 12 ++ (l.drop 16).take 512)) &&
  fpFinite x0 && fpFinite rdx && fpLt 0 rdx

/-- The activation function of a table (R216, R218). -/
def actApply (l : List Byte) (y : Word) : Word :=
  let u := fpMul (fpSub y (word (leAt l 0 4))) (word (leAt l 4 4))
  let i : Int := match fpOf u with
    | .nan => 0
    | .inf neg => if neg then 0 else 63
    | .fin _ _ _ => min (max (fpFloor u) 0) 63
  let p := 16 + 8 * i.toNat
  fpAdd (fpMul (word (leAt l p 4)) y) (word (leAt l (p + 4) 4))

/-- y of R216 from x, before rotation; none for an infinite one. -/
def yFrom (t : OutTables) (sIn x : Word) (n : Nat) : Option Word :=
  let y := fpMul x sIn
  let y := match t.osc with | some l => fpMul y (l.getD n 0) | none => y
  let y := match t.bias with | some l => fpAdd y (l.getD n 0) | none => y
  let y := match t.act with | some l => actApply l y | none => y
  if fpFinite y then some y else none

/-- y of R216 of an entry. -/
def yOf (t : OutTables) (fast : Bool) (sIn : Word) (a : Acc) (n : Nat) : Option Word :=
  match a with
  | .inf => none
  | .fin v => yFrom t sIn (fpOfInt v (if fast then -32 else -64)) n

/-! ## Rotation (R174 to R178) -/

/-- One butterfly stage of a stride over a list. -/
def butterfly (stride : Nat) (l : List Word) : List Word :=
  l.zipIdx.map (fun e =>
    if e.2 / stride % 2 = 0 then fpAdd e.1 (l.getD (e.2 + stride) 0) else fpSub (l.getD (e.2 - stride) 0) e.1)

/-- Stages of stride 2^i, 2^(i+1), …: k of them. -/
def butterflies : Nat → Nat → List Word → List Word
  | 0, _, l => l
  | k + 1, i, l => butterflies k (i + 1) (butterfly (2 ^ i) l)

/-- The rotation of a block of 2^k columns from column n0 (R174 to R176); an infinite element makes the whole block infinite,
as every output depends on it (log 53). -/
def rotateBlock (seed : DWord) (lid k n0 : Nat) (l : List (Option Word)) : List (Option Word) :=
  if l.any (fun x => x.isNone) then l.map (fun _ => none)
  else
    let d := (l.map (fun x => x.getD 0)).zipIdx.map (fun e => if rotSign seed lid (n0 + e.2) then fpNeg e.1 else e.1)
    let cb := fpSqrt (fpRound false 1 1 (-(k : Int)))
    (butterflies k 0 d).map (fun y => let z := fpMul y cb; if fpFinite z then some z else none)

/-- A drain's values of one vector before rotation. -/
def State.plainRow (s : State) (c : CoreId) (o : ConvOp) (m : Nat) : List (Option Word) :=
  let d : LayerDesc := o.bound.desc
  let t := s.outTables d o.ct
  let row := (s.coreAt c).acbRow o.bound.fast o.half (o.acbase + m)
  row.zipIdx.map (fun e => yOf t o.bound.fast (o.bound.sIn.getD 0) e.1 e.2)

/-- The number of vector m of a drain within its invocation (log 47). -/
def ConvOp.place (o : ConvOp) (m : Nat) : Nat := placeOf o.bound o.half o.acbase m

/-- A drain's inputs are complete (R285, R440). -/
def CoreSt.drainReady (k : CoreSt) (o : ConvOp) : Bool :=
  !k.chainQ.any (fun q => decide (q.id < o.id) && rangesMeet q.bound.fast q.half q.acbase q.tm o.bound.fast o.half o.acbase o.tm) &&
  !k.euQ.any (fun q => q.kind == 1 && q.ord == o.ord)

/-- The drain that holds the vector at a place of another column tile of the invocation, with its core and vector. -/
def State.peerDrain (s : State) (ord : BitVec 16) (ct place : Nat) : Option (CoreId × ConvOp × Nat) :=
  s.core.findSome? (fun e =>
    e.2.convQ.findSome? (fun o => if o.ord = ord ∧ o.ct = ct then
      ((List.range o.tm).find? (fun m => o.place m == place)).map (fun m => (CoreId.ofNum e.1, o, m)) else none))

/-- The column tiles of the rotation block that holds a column tile. -/
def rotTiles (k ct : Nat) : List Nat :=
  let n := 2 ^ k / 128
  if n ≤ 1 then [ct] else (List.range n).map (fun i => ct / n * n + i)

/-- Every drain that a drain's rotation needs is queued with its inputs complete (R178). -/
def State.rotReady (s : State) (o : ConvOp) : Bool :=
  let d : LayerDesc := o.bound.desc
  d.rotOut == 0 || (List.range o.tm).all (fun m => (rotTiles d.rotOut o.ct).all (fun t =>
    match s.peerDrain o.ord t (o.place m) with
    | some (c, p, _) => (s.coreAt c).drainReady p
    | none => false))

/-- y of R216 with rotation, for vector m of a drain (R174 to R177). -/
def State.yRow (s : State) (c : CoreId) (o : ConvOp) (m : Nat) : List (Option Word) :=
  let d : LayerDesc := o.bound.desc
  let k := d.rotOut
  if k = 0 then s.plainRow c o m
  else if k < 8 then
    (chunks (2 ^ k) (128 / 2 ^ k) (s.plainRow c o m)).zipIdx.flatMap (fun b =>
      rotateBlock o.bound.seed d.lid k (128 * o.ct + b.2 * 2 ^ k) b.1)
  else
    let ts := rotTiles k o.ct
    let all := ts.flatMap (fun t => match s.peerDrain o.ord t (o.place m) with
      | some (e, p, i) => s.plainRow e p i
      | none => List.replicate 128 none)
    ((rotateBlock o.bound.seed d.lid k (128 * ts.headD 0) all).drop (128 * (o.ct - ts.headD 0))).take 128

/-! ## Masks, probes and frame differences at the converter (R281 to R284, R332) -/

/-- The probe sum of a vector of a column tile: the FP32 partials of the cores that share it, in core index order (R283); none
while one is missing. -/
def State.probeSum (s : State) (d : LayerDesc) (c : CoreId) (ord : BitVec 16) (ct place : Nat) : Option (List Word) :=
  let parts := (s.tileCores d c ct).map (fun x =>
    (s.coreAt x).probes.find? (fun p => p.ord == ord && p.ct == ct && p.place == place))
  if parts.any (fun p => p.isNone) then none
  else some ((parts.map (fun p => match p with | some r => r.vals | none => [])).foldl
    (fun a v => if a.isEmpty then v else (a.zip v).map (fun e => fpAdd e.1 e.2)) [])

/-- The neurons that the probe releases, of those predicted inactive (R283, R284). -/
def State.released (s : State) (c : CoreId) (b : Bound) (ct place : Nat) (pred : BitVec 128) : Option (BitVec 128) :=
  let d : LayerDesc := b.desc
  if pred = 0 then some 0
  else (s.probeSum d c b.ord ct place).map (fun l =>
    let t := s.outTables d ct
    BitVec.ofNat 128 (((List.range 128).map (fun n =>
      let y := yFrom t (b.sIn.getD 0) (l.getD n 0) n
      let out := match y with | none => true | some v => fpLe d.pth (fpAbs v)
      bitAt (pred.getLsbD n && out) n)).sum))

/-- What the prompter does to a vector of a drain: the neurons predicted inactive and those released. -/
def State.prompt (s : State) (c : CoreId) (b : Bound) (ct place : Nat) : BitVec 128 × Option (BitVec 128) :=
  let p := s.predicted c.cluster b ct place
  (p, if b.prm = 2 then s.released c b ct place p else some 0)

/-- The vector's passes were skipped and no make-up recomputed it (R278, R280). -/
def State.unrun (s : State) (c : CoreId) (b : Bound) (ct place : Nat) : Bool :=
  let p := s.prompt c b ct place
  allInactive p.1 && (b.prm == 1 || p.2 == some 0)

/-- The descriptor whose refresh period a producer of frame differences follows: a DELTA consumer's (R331, R332). -/
def State.deltaDesc (s : State) (d : LayerDesc) : LayerDesc :=
  if d.dlt then d
  else match (s.cfg.layers.filter (fun l => (s.consumersOf d.lix).contains (LayerDesc.lix l.desc))).find? (fun l => LayerDesc.dlt l.desc) with
    | some l => l.desc
    | none => d

/-- The address of a slot's reference row for a column tile in a buffer (R332, R333, log 51). -/
def refAddr (d : LayerDesc) (slot b ct : Nat) : Nat := d.drp + (2 * slot + b) * d.cols * 4 + 512 * ct

/-- The references of a vector in buffer t mod 2. -/
def State.refRow (s : State) (d : LayerDesc) (slot ct : Nat) : List Word :=
  leWords 128 (s.peek (refAddr d slot (s.stepOf slot % 2) ct) 512)

/-- Δ of R332 against a reference. -/
def deltaOf (d : LayerDesc) (y xr : Word) : Option Word :=
  let v := fpSub y xr
  if !fpFinite v then none else if fpLt (fpAbs v) d.dth then some 0 else some v

/-- The values that the taps and the conversion see (R281, R284, R332). -/
def State.maskedRow (s : State) (c : CoreId) (o : ConvOp) (m : Nat) (raw : List (Option Word)) : List (Option Word) :=
  let d : LayerDesc := o.bound.desc
  let place := o.place m
  let p := s.prompt c o.bound o.ct place
  let rel := p.2.getD 0
  let r := raw.zipIdx.map (fun e => if p.1.getLsbD e.2 && !rel.getLsbD e.2 then some 0 else e.1)
  match d.dout, s.slotAt o.ord.toNat place with
  | true, some i =>
    if s.refreshes (s.deltaDesc d) o.ord.toNat place then r
    else (r.zip (s.refRow d i o.ct)).map (fun e => e.1.bind (fun y => deltaOf d y e.2))
  | _, _ => r

/-! ## First pass (R164, R226, R228, R440) -/

/-- Columns of a column tile that are no padding (R799). -/
def realCols (d : LayerDesc) (ct : Nat) : Nat := min 128 (d.cols - 128 * ct)

/-- Orders records: larger value first, then lower position (R229). -/
def recBefore (a b : Rec) : Bool :=
  fpLt b.value a.value || (!fpLt a.value b.value && decide (a.pos.toNat ≤ b.pos.toNat))

/-- Inserts a record at its place. -/
def recInsert (x : Rec) : List Rec → List Rec
  | [] => [x]
  | y :: t => if recBefore x y then x :: y :: t else y :: recInsert x t

/-- The first k of records under R229. -/
def topK (k : Nat) (l : List Rec) : List Rec := (l.foldl (fun a x => recInsert x a) []).take k

/-- The candidates of a vector (R228). -/
def candidates (d : LayerDesc) (ct : Nat) (ys : List (Option Word)) : List Rec :=
  (ys.take (realCols d ct)).zipIdx.filterMap (fun e => e.1.map (fun y => ⟨y, word (d.tkpos + 128 * ct + e.2)⟩))

/-- Candidates join a core's list of one vector in its cluster's merge tree (R228, R230). -/
def State.addTop (s : State) (c : CoreId) (m : MergeIn) : State :=
  s.modClu c.cluster.num (fun k =>
    let same := fun (x : MergeIn) => x.level == 0 && x.src == m.src && x.ord == m.ord && x.dst == m.dst && x.vec == m.vec && !x.last
    match k.topIn.find? same with
    | some old => { k with topIn := k.topIn.map (fun x => if same x then { x with recs := topK m.k (old.recs ++ m.recs), last := m.last } else x) }
    | none => { k with topIn := k.topIn ++ [{ m with recs := topK m.k m.recs }] })

/-- Statistics of a row of values. -/
def Share.tap (h : Share) (ys : List (Option Word)) : Share :=
  ys.foldl (fun h y => match y with
    | none => { h with inf := h.inf + 1 }
    | some v => { h with amax := fpMax h.amax (fpAbs v), norm := fpAdd h.norm (fpMul v v) }) h

/-- The largest magnitude of each 32-element block, padding left out (R164, R799). -/
def blockMax (n : Nat) (ys : List (Option Word)) : List Word :=
  (chunks 32 4 (ys.zipIdx)).map (fun b => b.foldl (fun a e =>
    match e.1 with | some v => if e.2 < n then fpMax a (fpAbs v) else a | none => a) 0)

/-- The entries that drains hold after their first pass (R208, OCV_HELD). -/
def heldWord (l : List ConvOp) : Word :=
  word (((List.range 32).map (fun j =>
    bitAt (l.any (fun o => decide (1 ≤ o.stage) && decide (o.acbase ≤ j) && decide (j < o.acbase + o.tm))) j)).sum)

/-- OCV_STATUS.STATE by the progress of the queue. -/
def convState (l : List ConvOp) : BitVec 3 :=
  if l.any (fun o => o.stage == 2) then 3 else if l.any (fun o => o.stage == 1) then 2 else 0

/-- Changes a drain of the converter queue and the registers that follow the queue. -/
def State.modConv (s : State) (c : CoreId) (id : Nat) (f : ConvOp → ConvOp) : State :=
  s.modCore c (fun k =>
    let q := k.convQ.map (fun o => if o.id = id then f o else o)
    { k with convQ := q, ocv := { k.ocv with held := heldWord q, state := convState q } })

/-- The probes that a VERIFY drain needs have come (R283, R287). -/
def State.probesIn (s : State) (c : CoreId) (o : ConvOp) : Bool :=
  o.bound.prm != 2 || (List.range o.tm).all (fun m => (s.prompt c o.bound o.ct (o.place m)).2.isSome)

/-- Number of set bits. -/
def popCount (m : BitVec 128) : Nat := ((List.range 128).filter (fun i => m.getLsbD i)).length

/-- The entries of a range, captured for EU's comparison (R340). -/
def CoreSt.capture (k : CoreSt) (fast half : Bool) (acbase tm : Nat) : List (List Acc) :=
  (List.range tm).map (fun m => k.acbRow fast half (acbase + m))

/-- The first pass of a drain whose inputs are complete (R164, R216, R226, R228). -/
def State.firstPass (s : State) (c : CoreId) (o : ConvOp) : State :=
  let d : LayerDesc := o.bound.desc
  let raw := (List.range o.tm).map (fun m => s.yRow c o m)
  let ys := raw.zipIdx.map (fun r => s.maskedRow c o r.2 r.1)
  let n := realCols d o.ct
  let real := ys.map (fun r => r.take n)
  let pr := (List.range o.tm).map (fun m => s.prompt c o.bound o.ct (o.place m))
  let h0 := (s.invAt o.ord.toNat).share c.num o.bound.part
  let h := real.foldl Share.tap h0
  let snap := (s.coreAt c).capture o.bound.fast o.half o.acbase o.tm
  let s := s.modShare o.ord.toNat c.num o.bound.part (fun _ => h)
  let s := s.modConv c o.id (fun x => { x with stage := 1, raw := raw, ys := ys, bmax := ys.map (blockMax n) })
  let s := s.modOcv c (fun q => { q with
    fmt := o.bound.fast, base := BitVec.ofNat 5 o.acbase, m := BitVec.ofNat 6 o.tm, half := o.half,
    lid := BitVec.ofNat 16 d.lid, amax := h.amax, norm := h.norm, inf := bump q.inf (h.inf - h0.inf) })
  let s := s.modSparse c (fun x => { x with
    prmWait := false, prmMasked := bump x.prmMasked ((pr.map (fun p => popCount p.1)).sum),
    prmReleased := bump x.prmReleased ((pr.map (fun p => popCount (p.2.getD 0))).sum) })
  let s := s.modCore c (fun k => { k with euQ := k.euQ.map (fun e =>
    if e.conv = o.id ∧ 2 ≤ e.kind then { e with vals := snap } else e) })
  let s := if d.topk = 0 then s
    else real.zipIdx.foldl (fun s r =>
      (s.addTop c ⟨o.ord, o.ord, o.place r.2, 0, c.num, d.tkg, d.topk, candidates d o.ct r.1, false⟩).modClu c.cluster.num
        (fun k => { k with mrgInf := bump k.mrgInf ((r.1.filter (fun y => y.isNone)).length) })) s
  if o.last then s.report c o.ord.toNat o.bound.part else s

/-- DRAIN_PASS1 (R164, R219, R287, R440): the first drain of the queue that has not had its first pass. -/
def execDrainPass1 (c : CoreId) (s : State) : Answer :=
  .next (let k := s.coreAt c
    match k.convQ.find? (fun o => o.stage == 0) with
    | none => s
    | some o =>
      let d : LayerDesc := o.bound.desc
      if !k.drainReady o ∨ !s.probesIn c o then s.modSparse c (fun x => { x with prmWait := o.bound.prm == 2 })
      else if !s.rotReady o then s
      else
        let r := s.readAll (outRanges d o.ct)
        if !r.1 then r.2
        else if d.act ∧ !actOk (r.2.peek d.atp 528) then r.2.ocvFault c 0x2152 2
        else r.2.firstPass c o)

/-! ## Conversion (R161, R165 to R168, R221, R222) -/

/-- floor(log2) of a positive finite value. -/
def fpE (v : Word) : Int := match fpOf v with | .fin _ m e => (Nat.log2 m : Int) + e | _ => 0

/-- The histogram bin of a finite value (R227). -/
def histBin (amax y : Word) : Nat :=
  if fpAbs y = 0 then 63 else (min 63 (max 0 (fpE amax - fpE (fpAbs y)))).toNat

/-- The block exponent (R165): the largest e of 15, 14, … for which bmax × 2^e ≤ amax. -/
def blockExp (bmax amax : Word) : Nat → Nat
  | 0 => 0
  | e + 1 => if fpLe (fpScale bmax ((e + 1 : Nat) : Int)) amax then e + 1 else blockExp bmax amax e

/-- The exponents of a vector's four blocks (R163, R165, R170). -/
def vecExps (a bxg : Nat) (amax : Word) (bmax : List Word) : List Nat :=
  if a = 16 ∨ fpAbs amax = 0 then [0, 0, 0, 0]
  else (List.range 4).map (fun x =>
    let n := 2 ^ bxg
    blockExp ((((bmax.drop (x / n * n)).take n)).foldl fpMax 0) amax 15)

/-- R168. -/
def srnd (u : Word) (draw : Nat) : Int := if draw < fpFrac16 u then fpFloor u + 1 else fpFloor u

/-- What conversion of a tensor uses: width, sign, zero point, amax, INV, rounding. -/
structure OutForm where
  a : Nat
  sign : Bool
  z : Nat
  amax : Word
  recip : Word
  rnd : Bool
  deriving DecidableEq, Repr

/-- R166: the level q and whether it was clamped (R221). -/
def convertLevel (f : OutForm) (y : Word) (e : Nat) (draw : Nat) : Int × Bool :=
  if fpAbs f.amax = 0 then (0, false)
  else
    let u := fpScale (fpMul y f.recip) (e : Int)
    let q := if f.rnd then srnd u draw else fpRne u
    let hi : Int := qmaxOf f.a f.sign f.z
    let lo : Int := if f.sign then -hi else -(f.z : Int)
    (min (max q lo) hi, decide (q < lo) || decide (hi < q))

/-- The code of a level: level plus zero point, in a bits. -/
def codeOf (f : OutForm) (q : Int) : Nat := unsigned f.a (q + (f.z : Int))

/-- The stochastic-rounding draw of an element (R168, R182): by slot and layer-wide column; a vector of no slot draws a free
value (log 54). -/
def State.roundDraw (s : State) (b : Bound) (slot : Option Nat) (n : Nat) : Nat :=
  match slot with
  | some i => kcgDraw b.seed (LayerDesc.lid b.desc) 0xFFFF s.tick.count.toNat 1 (i * 2 ^ 24 + n)
  | none => (Config.freeWord (s.free + n)).toNat % 65536

/-- The levels of a vector with the clamped elements. -/
def State.convertRow (s : State) (f : OutForm) (b : Bound) (slot : Option Nat) (ct n : Nat) (exps : List Nat)
    (ys : List (Option Word)) : List (Int × Bool) :=
  ys.zipIdx.map (fun e => match e.1 with
    | some y => if e.2 < n then convertLevel f y (exps.getD (e.2 / 32) 0) (if f.rnd then s.roundDraw b slot (128 * ct + e.2) else 0)
                else (0, false)
    | none => (0, false))

/-- The output form of an invocation (R161, R162, R298). -/
def outForm (d : LayerDesc) (r : Red) (a : Nat) : OutForm :=
  ⟨a, d.osign, if d.osign then 0 else d.ozp, r.amax, r.recip, d.rnd⟩

/-- The form of extension tiles at a re-run width (R310): amax is the tensor's, INV that of the wider levels. -/
def extForm (d : LayerDesc) (r : Red) (a w : Nat) : OutForm :=
  let sign := d.osign || w == 16
  let z := if sign then 0 else d.ozp * 2 ^ (w - a)
  let q := fpOfInt (qmaxOf w sign z : Nat) 0
  ⟨w, sign, z, r.amax, if fpAbs r.amax = 0 then 0 else fpDiv q r.amax, d.rnd⟩

/-- s_T of a form (R162, R163). -/
def OutForm.sT (f : OutForm) : Word :=
  if fpAbs f.amax = 0 then 0 else fpDiv f.amax (fpOfInt (qmaxOf f.a f.sign f.z : Nat) 0)

/-! ## Writing outputs (R171, R222 to R224, R310, R336, R803) -/

/-- The second pass's next push joins the converter's queue of pushes, and starts unless an earlier one is blocked. -/
def State.pushConv (s : State) (c : CoreId) (id : Nat) (ord : BitVec 16) (d : CoreId) (q kind : Nat) (l : List Byte) : State :=
  let o : DmaOp :=
    { code := 0x37, prod := .core c.num, ord := ord, conv := id, epoch := ord, ring := some (d.num, q), kind := BitVec.ofNat 4 kind,
      bytes := l, blocked := false, window := none, acked := false, failed := false }
  let r := if (s.coreAt c).convOut.any (fun x => x.blocked) then ({ o with blocked := true }, s)
    else s.pushMove o (l.length + 1)
  r.2.modCore c (fun k => { k with convOut := k.convOut ++ (if r.1.bytes.isEmpty then [] else [r.1]) })

/-- A tensor record goes into a ring once a part (R171); `key` names the ring and stream. -/
def State.pushRecord (s : State) (c : CoreId) (o : ConvOp) (d : CoreId) (q kind key : Nat) (l : List Byte) : State :=
  let h := (s.invAt o.ord.toNat).share c.num o.bound.part
  if h.recorded.contains key then s
  else (s.modShare o.ord.toNat c.num o.bound.part (fun h => { h with recorded := key :: h.recorded })).pushConv c o.id o.ord d q kind l

/-- The wide values of a vector (R222, R803): INF as NaN (R220), padding as +0. -/
def wideRow (bf16 : Bool) (n : Nat) (ys : List (Option Word)) : List Byte :=
  ys.zipIdx.flatMap (fun e =>
    let v := if n ≤ e.2 then 0 else e.1.getD fpNan
    if bf16 then leBytes 2 (bf16Of v).toNat else leBytes 4 v.toNat)

/-- A wide output to one destination (R223, R803). -/
def State.writeWide (s : State) (c : CoreId) (o : ConvOp) (r : Red) (t : TileDesc) : State :=
  let d : LayerDesc := o.bound.desc
  let bf := d.ofmt == 1
  let n := realCols d o.ct
  if t.ring then
    let e := s.ringOwner c t
    let s := s.pushRecord c o e t.q 1 (e.num * 16 + t.q)
      (recordBytes fpOne fpOne r.amax d.lid (if bf then 30 else 31) d.osign d.bxg 0 s.tick.count d.rotOut)
    s.pushConv c o.id o.ord e t.q 0 (o.ys.flatMap (wideRow bf n))
  else
    o.ys.zipIdx.foldl (fun s y =>
      s.writeDev (unsigned 44 ((t.addr : Int) + (y.2 : Int) * t.stride)) ((wideRow bf 128 (y.1.take n)))) s

/-- Extension tiles for the consumers with RR = 1 on a destination's core (R310, R441). -/
def State.writeExt (s : State) (c : CoreId) (o : ConvOp) (r : Red) (e : CoreId) (exps : List (List Nat)) : State :=
  let d : LayerDesc := o.bound.desc
  let a := r.width.toNat
  let n := realCols d o.ct
  ((s.consumerDescs d.lix e).filter (fun x => x.rr && !x.dlt)).foldl (fun s x =>
    let w := wideIn x a
    let f := extForm d r a w
    let ex := if w = 16 then exps.map (fun _ => [0, 0, 0, 0]) else exps
    let codes := (o.ys.zip ex).zipIdx.map (fun y =>
      (s.convertRow f o.bound (s.slotAt o.ord.toNat (o.place y.2)) o.ct n y.1.2 y.1.1).map (fun q => codeOf f q.1))
    let s := s.pushRecord c o e x.exq 3 (2 ^ 20 + e.num * 16 + x.exq)
      (recordBytes f.sT f.recip r.amax d.lid w f.sign d.bxg f.z s.tick.count d.rotOut)
    s.pushConv c o.id o.ord e x.exq 2 (tileEncode d.oenc s.bitmapForced 128 w f.sign codes ex).2) s

/-- The refresh check tile for DELTA consumers with DCHK = 1 on a destination's core (R336): Δ against the reference with the
refresh's scale and exponents, zeros for the other vectors. -/
def State.writeCheck (s : State) (c : CoreId) (o : ConvOp) (r : Red) (e : CoreId) (exps : List (List Nat)) : State :=
  let d : LayerDesc := o.bound.desc
  let f := outForm d r r.width.toNat
  let n := realCols d o.ct
  let fresh := (List.range o.tm).filter (fun m => s.refreshes (s.deltaDesc d) o.ord.toNat (o.place m))
  if !d.dout ∨ fresh.isEmpty then s
  else ((s.consumerDescs d.lix e).filter (fun x => x.dlt && x.dchk)).foldl (fun s x =>
    let row := fun (m : Nat) (ys : List (Option Word)) => match s.slotAt o.ord.toNat (o.place m) with
      | some i => if fresh.contains m then (ys.zip (s.refRow d i o.ct)).map (fun p => p.1.bind (fun y => deltaOf d y p.2))
                  else ys.map (fun _ => some 0)
      | none => ys.map (fun _ => some 0)
    let codes := (o.raw.zip exps).zipIdx.map (fun y =>
      (s.convertRow f o.bound (s.slotAt o.ord.toNat (o.place y.2)) o.ct n y.1.2 (row y.2 y.1.1)).map (fun q => codeOf f q.1))
    let s := s.pushRecord c o e x.exq 3 (2 ^ 21 + e.num * 16 + x.exq)
      (recordBytes f.sT f.recip r.amax d.lid f.a f.sign d.bxg f.z s.tick.count d.rotOut)
    s.pushConv c o.id o.ord e x.exq 2 (tileEncode d.oenc s.bitmapForced 128 f.a f.sign codes exps).2) s

/-- The core of a destination: the ring's owner, or the core region that an address lies in. -/
def State.destCore (s : State) (c : CoreId) (t : TileDesc) : Option CoreId :=
  if t.ring then some (s.ringOwner c t)
  else match s.place t.addr with | .spm (.core d) _ => some d | _ => none

/-- A coded output to one destination: record, tile, extension and check tiles (R171, R224, R310, R336, R441). -/
def State.writeCoded (s : State) (c : CoreId) (o : ConvOp) (r : Red) (codes exps : List (List Nat)) (t : TileDesc) : State :=
  let d : LayerDesc := o.bound.desc
  let f := outForm d r r.width.toNat
  let rec_ := recordBytes f.sT f.recip r.amax d.lid f.a f.sign d.bxg f.z s.tick.count d.rotOut
  let tile := (tileEncode d.oenc s.bitmapForced 128 f.a f.sign codes exps).2
  let s :=
    if t.ring then
      let e := s.ringOwner c t
      (s.pushRecord c o e t.q 1 (e.num * 16 + t.q) rec_).pushConv c o.id o.ord e t.q 0 tile
    else (s.writeDev (t.addr - 32) rec_).writeDev t.addr tile
  match s.destCore c t with
  | some e => (s.writeExt c o r e exps).writeCheck c o r e exps
  | none => s

/-- The mask bits of a vector for the next step (R277, R278). -/
def State.maskBits (s : State) (c : CoreId) (o : ConvOp) (r : Red) (m : Nat) (exps : List Nat) : BitVec 128 :=
  let d : LayerDesc := o.bound.desc
  let f := outForm d r r.width.toNat
  if s.unrun c o.bound o.ct (o.place m) then BitVec.ofNat 128 (2 ^ 128 - 1)
  else
    let raw := o.raw.getD m []
    let q := s.convertRow f o.bound (s.slotAt o.ord.toNat (o.place m)) o.ct 128 exps raw
    BitVec.ofNat 128 (((raw.zip q).zipIdx.map (fun e =>
      bitAt (match e.1.1 with
        | some y => fpLt (fpAbs y) d.pzm || (d.ofmt == 0 && e.1.2.1 == 0)
        | none => false) e.2)).sum)

/-- The next reference of a vector (R333). -/
def State.nextRef (s : State) (o : ConvOp) (r : Red) (m slot : Nat) (exps : List Nat) (levels : List (Int × Bool)) : List Byte :=
  let d : LayerDesc := o.bound.desc
  let f := outForm d r r.width.toNat
  let fresh := s.refreshes (s.deltaDesc d) o.ord.toNat (o.place m)
  ((levels.zip (s.refRow d slot o.ct)).zipIdx).flatMap (fun e =>
    let dq := fpScale (fpMul f.sT (fpOfInt e.1.1.1 0)) (-((exps.getD (e.2 / 32) 0 : Nat) : Int))
    leBytes 4 (if fresh then dq else fpAdd e.1.2 dq).toNat)

/-- Ends a drain whose pushes have all been taken: the range is released (R169, R208), and the core's share of the second passes
may be done. -/
def State.finishConv (s : State) (c : CoreId) (o : ConvOp) : State :=
  if (s.coreAt c).convOut.any (fun x => x.conv == o.id) then s
  else
    let s := s.modCore c (fun k =>
      let q := k.convQ.filter (fun x => !(x.id == o.id))
      { k with convQ := q, ocv := { k.ocv with held := heldWord q, state := convState q } })
    let h := (s.invAt o.ord.toNat).share c.num o.bound.part
    if h.reported ∧ !(s.coreAt c).convQ.any (fun x => x.ord == o.ord && x.bound.part == o.bound.part) then
      s.modShare o.ord.toNat c.num o.bound.part (fun h => { h with pass2 := true })
    else s

/-- The second-pass taps (R221, R226, R227). -/
def Share.tap2 (h : Share) (amax : Word) (n : Nat) (ys : List (Option Word)) (levels : List (Int × Bool)) : Share :=
  let bins := (ys.take n).filterMap (fun y => y.map (histBin amax))
  { h with
    hist := bins.foldl (fun t b => Tab.set 0 t b (Tab.get 0 t b + 1)) h.hist,
    sat := h.sat + ((levels.take n).filter (fun q => q.2)).length, elems := h.elems + n }

/-- The second pass of a drain under its part's reduction (R166, R171, R221 to R227, R277, R310, R333). -/
def State.secondPass (s : State) (c : CoreId) (o : ConvOp) (r : Red) : State :=
  let d : LayerDesc := o.bound.desc
  let a := r.width.toNat
  let f := outForm d r a
  let n := realCols d o.ct
  let exps := o.bmax.map (vecExps a d.bxg r.amax)
  let levels := (o.ys.zip exps).zipIdx.map (fun y =>
    if d.ofmt = 0 then s.convertRow f o.bound (s.slotAt o.ord.toNat (o.place y.2)) o.ct n y.1.2 y.1.1 else [])
  let codes := levels.map (fun l => l.map (fun q => codeOf f q.1))
  let h0 := (s.invAt o.ord.toNat).share c.num o.bound.part
  let h := (o.ys.zip levels).foldl (fun h y => h.tap2 r.amax n y.1 y.2) h0
  let s := s.modShare o.ord.toNat c.num o.bound.part (fun _ => h)
  let s := s.modOcv c (fun q => { q with elems := bump q.elems (h.elems - h0.elems), sat := bump q.sat (h.sat - h0.sat) })
  let dense := d.ofmt == 0 && d.oenc && (tileEncode d.oenc s.bitmapForced 128 a f.sign codes exps).1
  let s := if dense then s.modSparse c (fun x => { x with storedDense := bump x.storedDense }) else s
  let masks := if d.pmk then (List.range o.tm).filterMap (fun m => (s.slotAt o.ord.toNat (o.place m)).map (fun i =>
      (s.maskAddr c.cluster d i ((s.stepOf i + 1) % 2) o.ct, leBytes 16 (s.maskBits c o r m (exps.getD m [])).toNat))) else []
  let refs := if d.dout then (List.range o.tm).filterMap (fun m => (s.slotAt o.ord.toNat (o.place m)).map (fun i =>
      (refAddr d i ((s.stepOf i + 1) % 2) o.ct,
        (s.nextRef o r m i (exps.getD m []) (levels.getD m [])).take (4 * n)))) else []
  let s := o.dests.foldl (fun s t => if d.ofmt = 0 then s.writeCoded c o r codes exps t else s.writeWide c o r t) s
  let s := (masks ++ refs).foldl (fun s w => s.writeDev w.1 w.2) s
  let s := { s with free := s.free + if d.rnd then 81920 else 0 }
  (s.modConv c o.id (fun x => { x with stage := 2 })).finishConv c o

/-- DRAIN_PASS2 (R166, R171, R310): the first drain that has had its first pass and whose part has its scale. -/
def execDrainPass2 (c : CoreId) (s : State) : Answer :=
  .next (match (s.coreAt c).convQ.find? (fun o => o.stage == 1) with
    | none => s
    | some o =>
      match (s.invAt o.ord.toNat).reds[o.bound.part]? with
      | some r => if s.tickLive then s.secondPass c o r else s
      | none => s)

/-! ## DRAIN (R440, R441, R459, R802) -/

/-- A tile that understudy sampling selects, by its index in the core's share of the invocation (R182, R338). -/
def State.selected (s : State) (c : CoreId) (b : Bound) (i : Nat) : Bool :=
  let d : LayerDesc := b.desc
  d.uss != 0 && s.usEnabled &&
  decide (kcgDraw b.seed d.lid (posOf c 16) s.tick.count.toNat 3 i < 2 ^ (16 - d.uss))

/-- EU's comparisons of a tile: an understudy sample, at most USC an invocation (R338), and a refresh check (R336). -/
def State.sampleTile (s : State) (c : CoreId) (b : Bound) (o : ConvOp) (vals : List (List Acc)) : State :=
  let d : LayerDesc := b.desc
  let k := s.coreAt c
  let ops := (k.hist ++ k.chainQ).filter (fun q => q.ord == b.ord && q.bound.part == b.part &&
    rangesMeet q.bound.fast q.half q.acbase q.tm b.fast o.half o.acbase o.tm)
  let e : EuOp := ⟨2, b.ord, o.ct, o.tm, o.acbase, o.half, 0, b, ops, o.id, vals⟩
  let sel := s.selected c b b.nOut
  let before := ((List.range b.nOut).filter (fun i => s.selected c b i)).length
  let chk := d.dlt && d.dchk && b.fast && ops.any (fun q => q.chk.isSome)
  let s := if sel ∧ before < d.usc then s.modCore c (fun k => { k with euQ := k.euQ ++ [e] })
    else if sel then s.modSparse c (fun x => { x with usCapped := bump x.usCapped }) else s
  if chk then s.modCore c (fun k => { k with euQ := k.euQ ++ [{ e with kind := 3 }] }) else s

/-- After the first part the sequencer returns to V's LYR (R459). -/
def State.partReturn (s : State) (c : CoreId) (b : Bound) : State :=
  if b.split ∧ b.part = 0 then
    match (s.seqAt c).ckpts.find? (fun k => k.key == b.ord) with
    | some k => s.modSeq c (fun q => { q with pc := k.pc, part1 := some b.ord })
    | none => s
  else s

/-- The core's last executed drain of a part takes LAST (R459); without one the share is empty. -/
def State.closePart (s : State) (c : CoreId) (b : Bound) : State :=
  let mine := (s.coreAt c).convQ.filter (fun o => o.ord == b.ord && o.bound.part == b.part)
  let s := s.modLast c (fun b => { b with reported := true })
  match mine.reverse.head? with
  | some o => if o.stage = 0 then s.modConv c o.id (fun x => { x with last := true }) else s.report c b.ord.toNat b.part
  | none => s.report c b.ord.toNat b.part

/-- A destination that does not start: a disabled ring (R798), or an address beyond reach (R363). -/
def State.destFault (s : State) (c : CoreId) (t : TileDesc) : Option State :=
  if t.ring then
    let d := s.ringOwner c t
    if (s.ringAt d t.q).en then none else some (s.ringFault d t.q)
  else if s.coreReach c t.addr then none else some (s.reachFault c)

/-- DRAIN. -/
def execDrain (c : CoreId) (s : State) : Answer :=
  .next (s.runSeq c 0x37 fun w s =>
    match (s.seqAt c).last with
    | none => s
    | some b =>
      let k := s.coreAt c
      let tm := bitsOf w 48 43
      let acbase := bitsOf w 53 49
      let half := bitOf w.toNat 54
      let last := bitOf w.toNat 31
      let dests := (List.range (bitsOf w 38 37 + 1)).map (fun i => k.seq.treg (bitsOf w 42 39 + i))
      if b.skips half then
        let s := s.skipInstr c
        if last then (s.closePart c b).partReturn c b else s
      else if b.sIn.isNone then s.inputFault c 0x2141
      else if 32 < acbase + tm then s.ocvFault c 0x2151 1
      else match dests.findSome? (fun t => s.destFault c t) with
        | some s' => s'
        | none =>
          if 64 ≤ k.convQ.length ∨ k.convQ.any (fun o => o.stage == 0 && !(o.ord == b.ord && o.bound.part == b.part)) then
            s.waitAt c seqWaitQueue
          else
            let ct := k.seq.sreg (bitsOf w 36 32)
            let b := b.openTile ct half acbase tm true
            let o : ConvOp :=
              { id := k.seq.opSeq + 1, ord := b.ord, half := b.half half, acbase := acbase, tm := tm, dests := dests,
                ct := ct, last := last, stage := 0, bound := b, raw := [], ys := [], bmax := [] }
            let s := s.sampleTile c b o []
            let s := s.modCore c (fun k => { k with convQ := k.convQ ++ [o] })
            let s := s.modLast c (fun _ => { b with nOut := b.nOut + 1, reported := b.reported || last })
            let s := s.modSeq c (fun q => { q with opSeq := q.opSeq + 1 })
            let s := s.issued c
            if last then s.partReturn c b else s)

/-! ## XPORT (R205, R212, R334) -/

/-- The bytes and addresses of a raw export. -/
def State.exportParts (s : State) (c : CoreId) (b : Bound) (base acbase tm : Nat) (half : Bool) : List (Nat × List Byte) :=
  let d : LayerDesc := b.desc
  let rows := (s.coreAt c).capture b.fast (b.half half) acbase tm
  if d.dlt then rows.zipIdx.filterMap (fun r =>
    (s.keptAddr b base (placeOf b half acbase r.2) true).map (fun a => (a, rawImage b.fast r.1)))
  else [(base, rows.flatMap (rawImage b.fast))]

/-- XPORT. It is carried out when it issues, once every earlier instruction that targets its range has completed (log 52). -/
def execXport (c : CoreId) (s : State) : Answer :=
  .next (s.runSeq c 0x38 fun w s =>
    match (s.seqAt c).last with
    | none => s
    | some b =>
      let k := s.coreAt c
      let td := k.seq.treg (bitsOf w 42 39)
      let tm := bitsOf w 48 43
      let acbase := bitsOf w 53 49
      let half := bitOf w.toNat 54
      let h := b.half half
      if b.skips half then s.skipInstr c
      else if 32 < acbase + tm then s.ocvFault c 0x2151 1
      else if !k.formatsFit b.fast acbase tm then s.ocvFault c 0x2150 0
      else match s.destFault c td with
        | some s' => s'
        | none =>
          if k.chainOn b.fast h acbase tm ∨ k.makeUpOn b.fast h acbase tm ∨ 64 ≤ k.convQ.length then s.waitAt c seqWaitQueue
          else
            let parts := s.exportParts c b td.addr acbase tm half
            if !td.ring && !parts.all (fun p => s.coreReach c p.1) then s.reachFault c
            else s.withSb c (if td.ring then [] else parts.flatMap (fun p => s.sbRange p.1 p.2.length)) [] [] fun s =>
              let id := k.seq.opSeq + 1
              let o : ConvOp :=
                { id := id, ord := b.ord, half := h, acbase := acbase, tm := tm, dests := [td], ct := 0, last := false, stage := 2,
                  bound := b, raw := [], ys := [], bmax := [] }
              let s := s.sampleTile c b o (k.capture b.fast h acbase tm)
              let s := s.modLast c (fun b => { b with nOut := b.nOut + 1 })
              let s := s.modSeq c (fun q => { q with opSeq := id })
              let s := s.modOcv c (fun q => { q with fmt := b.fast, base := BitVec.ofNat 5 acbase, m := BitVec.ofNat 6 tm, half := h,
                                                      lid := BitVec.ofNat 16 (LayerDesc.lid b.desc) })
              let s := if td.ring then s.pushConv c id k.seq.epoch (s.ringOwner c td) td.q 5 (parts.flatMap (fun p => p.2))
                else parts.foldl (fun s p => s.writeDev p.1 p.2) s
              s.issued c)

/-! ## STAT (R444, R801) -/

/-- Finite values of a list of FP32 words. -/
def finiteOf (l : List Word) : List (Option Word) := l.map (fun v => if fpFinite v then some v else none)

/-- The 64 bins of values against their own amax (R227, R444; log 55). -/
def binsOf (l : List Word) : List Nat :=
  let amax := ((Share.new 0 0).tap (finiteOf l)).amax
  let bins := l.filterMap (fun v => if fpFinite v then some (histBin amax v) else none)
  (List.range 64).map (fun b => (bins.filter (fun x => x == b)).length)

/-- STAT. -/
def execStat (c : CoreId) (s : State) : Answer :=
  .next (s.runSeq c 0x40 fun w s =>
    let q := s.seqAt c
    let kind := bitsOf w 55 54
    let pkg := bitOf w.toNat 53
    let ts := q.treg (bitsOf w 47 44)
    let td := q.treg (bitsOf w 43 40)
    let n := s.moveLen c (bitsOf w 39 35) 4 ts / 4
    match s.source c ts with
    | .wait => s.waitAt c seqWaitRing
    | .bad e r => s.ringFault e r
    | x =>
      if !ts.ring && !s.coreReach c ts.addr then s.reachFault c
      else match if kind = 1 then s.destFault c td else none with
        | some s' => s'
        | none =>
          s.withSb c (if kind = 1 ∧ !td.ring then s.sbRange td.addr 256 else []) (s.sourceRange x (4 * n)) [] fun s =>
            let g := s.readSource x (4 * n)
            let s := g.2.issued c
            if !g.1 || !s.tickLive then s
            else
              let vals := leWords n (s.sourceBytes x (4 * n))
              let h := (Share.new 0 0).tap (finiteOf vals)
              let bins := binsOf vals
              let s := match kind with
                | 0 => s.modSeq c (fun q => q.setS (bitsOf w 52 48) h.amax.toNat)
                | 2 => s.modSeq c (fun q => q.setS (bitsOf w 52 48) h.norm.toNat)
                | _ =>
                  let l := bins.flatMap (fun b => leBytes 4 b)
                  if td.ring then s.pushConv c 0 q.epoch (s.ringOwner c td) td.q 4 l else s.writeDev td.addr l
              match pkg, (s.seqAt c).last with
              | true, some b =>
                let s := s.modShare b.ord.toNat c.num b.part (fun p => match kind with
                  | 0 => { p with amax := h.amax }
                  | 2 => { p with norm := h.norm }
                  | _ => { p with hist := (bins.zipIdx.filter (fun e => e.1 != 0)).map (fun e => (e.2, e.1)) })
                (s.modLast c (fun b => { b with reported := true })).report c b.ord.toNat b.part
              | _, _ => s)

/-! ## Resumption of pushes (R368, R800) -/

/-- Something waits to be pushed by core c's units, its cluster's units, or a link port for core c. -/
def State.pushHeld (s : State) (c : CoreId) : Bool :=
  let k := s.coreAt c
  (k.dmaQ ++ k.dieQ ++ k.convOut).any DmaOp.blocked || k.convQ.any (fun o => o.stage == 2) ||
  !(s.cluAt c.cluster.num).waiting.isEmpty ||
  (List.range 8).any (fun p => match (s.lnkAt p).stalled with | (_, e) :: _ => coreOfPos e.pos.toNat == c | [] => false)

/-- PUSH_RESUME (R579, R800): the producers that core c's units, its cluster's units and the link ports hold back. -/
def execPushResume (c : CoreId) (s : State) : Answer :=
  .next (if !s.pushHeld c then s else
    let a := s.retryMoves (s.coreAt c).dmaQ
    let s := a.2.modCore c (fun k => { k with dmaQ := a.1 })
    let b := s.retryMoves (s.coreAt c).dieQ
    let s := b.2.modCore c (fun k => { k with dieQ := b.1 })
    let v := s.retryMoves (s.coreAt c).convOut
    let s := v.2.modCore c (fun k => { k with convOut := v.1.filter (fun o => !o.bytes.isEmpty) })
    let s := ((s.coreAt c).convQ.filter (fun o => o.stage == 2)).foldl (fun s o => s.finishConv c o) s
    let s := s.retryCluster c.cluster.num
    (List.range 8).foldl (fun s p =>
      match (s.lnkAt p).stalled with
      | (_, e) :: _ => if coreOfPos e.pos.toNat = c then s.retryStalled p (s.lnkAt p).stalled.length else s
      | [] => s) s)

end Sys2Proof.Machine
end

