-- ==== Sys2Proof/Machine/Merge.lean ====
section
/-! DEFINITION. The merge trees: TOPKV, SCAT and the rounds of the top-k and scatter merges
(05, R228 to R234, R804; 06, R269 to R273; 09, R445). -/

namespace Sys2Proof.Machine

/-! ## Participants (R230, R445) -/

/-- A core's program holds an instruction that a test accepts. -/
def State.programHas (s : State) (c : CoreId) (f : DWord → Bool) : Bool := (s.seqAt c).imem.any (fun e => f e.2)

/-- A core can still execute instructions under an ordinal: it has not reported END and holds no later ordinal (R306, R466). -/
def State.mayReach (s : State) (c : CoreId) (ord : Nat) : Bool :=
  !(s.seqAt c).ended && decide ((s.seqAt c).epoch.toNat ≤ ord)

/-- The key under which a core counts its closed lists of an ordinal and gather cluster. -/
def topKey (ord dst : Nat) : Nat := ord * 128 + dst

/-- The key for scatter lists. -/
def scatKey (ord : Nat) : Nat := 2 ^ 24 + ord * 128

/-- Core c may still add to the top-k list of a vector: by TOPKV instructions of its program, or by drains of an invocation whose
share it has not reported (R230, R445, log 58). -/
def State.topOpen (s : State) (c : CoreId) (m : MergeIn) : Bool :=
  let o := m.ord.toNat
  let x := s.invAt o
  let d : LayerDesc := x.desc
  if x.cores ≠ [] ∧ d.topk ≠ 0 then
    x.cores.contains c.num && !(if x.splitCores.contains c.num then (x.share c.num 1).reported else (x.share c.num 0).reported)
  else
    s.programHas c (fun w => decide (opOf w = 0x4C) && decide (bitsOf w 40 35 = m.dst)) && s.mayReach c o &&
      decide (Tab.get 0 (s.coreAt c).merged (topKey o m.dst) ≤ m.vec)

/-- Core c may still add to the scatter list of a vector (R445, log 58). -/
def State.scatOpen (s : State) (c : CoreId) (m : MergeIn) : Bool :=
  s.programHas c (fun w => decide (opOf w = 0x4D)) && s.mayReach c m.ord.toNat &&
    decide (Tab.get 0 (s.coreAt c).merged (scatKey m.ord.toNat) ≤ m.vec)

/-- The cores of a cluster. -/
def clusterCores (n : Nat) : List CoreId :=
  (List.range 16).map (fun k => CoreId.ofNum (n * 16 + k))

/-- Two lists belong to one merge: ordinal, gather cluster and vector. -/
def MergeIn.sameKey (a b : MergeIn) : Bool := a.ord == b.ord && a.dst == b.dst && a.vec == b.vec

/-- A list's place in the order of merging: by number of its source. -/
def insertBySrc (x : MergeIn) : List MergeIn → List MergeIn
  | [] => [x]
  | y :: t => if x.src ≤ y.src then x :: y :: t else y :: insertBySrc x t

/-- Lists by ascending source. -/
def bySrc (l : List MergeIn) : List MergeIn := l.foldr insertBySrc []

/-! ## TOPKV and SCAT (R443, R445) -/

/-- The ordinal and epoch of what a core sends to a merge: those of the bound invocation, else the current epoch (R233). -/
def SeqSt.mergeOrd (q : SeqSt) : BitVec 16 := match q.last with | some b => b.ord | none => q.epoch

/-- TOPKV. -/
def execTopkv (c : CoreId) (s : State) : Answer :=
  .next (s.runSeq c 0x4C fun w s =>
    let q := s.seqAt c
    let ts := q.treg (bitsOf w 48 45)
    let dst := bitsOf w 40 35
    let n := s.moveLen c (bitsOf w 29 25) 4 ts / 4
    let pos := q.sreg (bitsOf w 34 30)
    match s.source c ts with
    | .wait => s.waitAt c seqWaitRing
    | .bad e r => s.ringFault e r
    | x =>
      if !ts.ring && !s.coreReach c ts.addr then s.reachFault c
      else if 16 ≤ (s.cluAt c.cluster.num).svuQ.length then s.waitAt c seqWaitQueue
      else s.withSb c [] (s.sourceRange x (4 * n)) [] fun s =>
        let g := s.readSource x (4 * n)
        let s := g.2.issued c
        if !g.1 || !s.tickLive then s
        else
          let vals := leWords n (s.sourceBytes x (4 * n))
          let recs := vals.zipIdx.filterMap (fun e => if fpFinite e.1 then some (⟨e.1, word (pos + e.2)⟩ : Rec) else none)
          let key := topKey q.mergeOrd.toNat dst
          let v := Tab.get 0 (s.coreAt c).merged key
          let last := bitOf w.toNat 24
          let m : MergeIn := ⟨q.mergeOrd, q.mergeOrd, v, 0, c.num, dst, bitsOf w 55 49, recs, last⟩
          let s := (s.addTop c m).modClu c.cluster.num (fun k => { k with mrgInf := bump k.mrgInf (n - recs.length) })
          let s := if last then s.modCore c (fun k => { k with merged := Tab.set 0 k.merged key (v + 1) }) else s
          s.modOcv c (fun o => { o with topk := bump o.topk (min (bitsOf w 55 49) recs.length) }))

/-- A core's records join its scatter list of a vector, in emission order (R270). -/
def State.addScat (s : State) (c : CoreId) (m : MergeIn) : State :=
  s.modClu c.cluster.num (fun k =>
    let same := fun (x : MergeIn) => x.level == 0 && x.src == m.src && x.sameKey m && !x.last
    if k.scatIn.any same then
      { k with scatIn := k.scatIn.map (fun x => if same x then { x with recs := x.recs ++ m.recs, last := m.last } else x) }
    else { k with scatIn := k.scatIn ++ [m] })

/-- The records of n × 8 bytes. -/
def recsOf (n : Nat) (l : List Byte) : List Rec :=
  (List.range n).map (fun i => ⟨word (leAt l (8 * i) 4), word (leAt l (8 * i + 4) 4)⟩)

/-- SCAT. -/
def execScat (c : CoreId) (s : State) : Answer :=
  .next (s.runSeq c 0x4D fun w s =>
    match (s.seqAt c).last with
    | none => s
    | some b =>
      let d : LayerDesc := b.desc
      let q := s.seqAt c
      let ts := q.treg (bitsOf w 55 52)
      let n := s.moveLen c (bitsOf w 51 47) 8 ts / 8
      match s.source c ts with
      | .wait => s.waitAt c seqWaitRing
      | .bad e r => s.ringFault e r
      | x =>
        if !ts.ring && !s.coreReach c ts.addr then s.reachFault c
        else if 16 ≤ (s.cluAt c.cluster.num).svuQ.length then s.waitAt c seqWaitQueue
        else s.withSb c [] (s.sourceRange x (8 * n)) [] fun s =>
          let g := s.readSource x (8 * n)
          let s := g.2.issued c
          if !g.1 || !s.tickLive then s
          else
            let key := scatKey b.ord.toNat
            let v := Tab.get 0 (s.coreAt c).merged key
            let last := bitOf w.toNat 46
            let s := s.addScat c ⟨b.ord, b.ord, v, 0, c.num, d.sg, 0, recsOf n (s.sourceBytes x (8 * n)), last⟩
            if last then s.modCore c (fun k => { k with merged := Tab.set 0 k.merged key (v + 1) }) else s)

/-! ## The final push (R232, R233, R272, R804) -/

/-- A cluster's merge tree or SVU pushes one entry; one that must wait stays with the cluster, in order. -/
def State.pushCluster (s : State) (n : Nat) (o : DmaOp) : State :=
  let r := if (s.cluAt n).waiting.isEmpty then s.pushMove o (o.bytes.length + 1) else ({ o with blocked := true }, s)
  if r.1.bytes.isEmpty then r.2 else r.2.modClu n (fun k => { k with waiting := k.waiting ++ [r.1] })

/-- A merged vector goes into the cluster's SVU input ring (R804). -/
def State.pushMerged (s : State) (n : Nat) (ord epoch : BitVec 16) (l : List Byte) : State :=
  match s.cfg.svuRings.find? (fun e => e.1 == n) with
  | none => s
  | some (_, c, q) =>
    s.pushCluster n
      { code := 0x4C, prod := .mergeTree n, ord := ord, conv := 0, epoch := epoch, ring := some (c.num, q.val), kind := 4,
        bytes := l, blocked := false, window := none, acked := false, failed := false }

/-- The bytes of records. -/
def recBytes (l : List Rec) : List Byte := l.flatMap (fun r => leBytes 4 r.value.toNat ++ leBytes 4 r.pos.toNat)

/-- A list padded to k records (R232). -/
def padRecs (k : Nat) (l : List Rec) : List Rec := l ++ List.replicate (k - l.length) ⟨0xFF800000, 0xFFFFFFFF⟩

/-! ## Rounds (R230, R231, R270, R271) -/

/-- Which merge a tree has next, over its own lists `l`: a level-0 round of its cores, or a round, or the end, of the lists that
it gathers. `opn` tells who may still add. -/
structure NextMerge where
  key : MergeIn
  lists : List MergeIn
  gather : Bool
  deriving DecidableEq, Repr

/-- The next merge of cluster n over the lists that the cluster holds; `all` are the lists of every cluster. -/
def State.nextMerge (s : State) (n : Nat) (l all : List MergeIn) (opn : CoreId → MergeIn → Bool) : Option NextMerge :=
  let local_ := l.filter (fun m => m.level == 0)
  match local_.find? (fun m => (local_.filter (fun x => x.sameKey m)).all (fun x => x.last) &&
      !(clusterCores n).any (fun c => opn c m)) with
  | some m => some ⟨m, bySrc (local_.filter (fun x => x.sameKey m)), false⟩
  | none =>
    let far := l.filter (fun m => m.level != 0)
    (far.find? (fun m => m.dst == n && !all.any (fun x => x.level == 0 && x.sameKey m) &&
        !s.listedCores.any (fun c => opn c m))).map (fun m =>
      let mine := far.filter (fun x => x.sameKey m)
      let lo := (mine.map (fun x => x.level)).foldl min m.level
      let low := bySrc (mine.filter (fun x => x.level == lo))
      if mine.length ≤ 16 then ⟨m, bySrc mine, true⟩
      else ⟨m, if low.length ≤ 1 then (bySrc mine).take 16 else low.take 16, true⟩)

/-- Every list of a kind. -/
def State.allLists (s : State) (f : CluSt → List MergeIn) : List MergeIn := s.clu.flatMap (fun e => f e.2)

/-- A round's result as a list of the next level: from the cores of cluster n to its gather cluster, or within the gathering. -/
def NextMerge.result (x : NextMerge) (n : Nat) (recs : List Rec) : MergeIn :=
  { x.key with
    level := (x.lists.map (fun m => m.level)).foldl max 0 + 1, src := if x.gather then (x.lists.headD x.key).src else n,
    recs := recs, last := true }

/-- TOPK_MERGE (R230 to R234): one round of the cluster's merge tree, keeping k records; the round that leaves one list of an
invocation's vector pushes it. -/
def execTopkMerge (c : ClusterId) (s : State) : Answer :=
  .next (let n := c.num
    match s.nextMerge n (s.cluAt n).topIn (s.allLists CluSt.topIn) s.topOpen with
    | none => s
    | some x =>
      let k := x.key.k
      let r := x.result n (topK k (x.lists.flatMap (fun m => m.recs)))
      let s := s.modClu n (fun u => { u with
        topIn := u.topIn.filter (fun m => !x.lists.contains m), mrgK := BitVec.ofNat 7 k, mrgTkg := BitVec.ofNat 6 x.key.dst,
        mrgRounds := if x.gather && x.lists.length == 1 then u.mrgRounds else bump u.mrgRounds })
      let rest := (s.allLists CluSt.topIn).any (fun m => m.sameKey r)
      if rest || !(x.gather || x.key.dst == n && !s.listedCores.any (fun d => s.topOpen d r)) then
        s.modClu x.key.dst (fun u => { u with topIn := u.topIn ++ [r] })
      else s.pushMerged n r.ord r.epoch (recBytes (padRecs k r.recs)))

/-- Inserts a record behind those of its position or below. -/
def posInsert (x : Rec) : List Rec → List Rec
  | [] => [x]
  | y :: t => if x.pos < y.pos then x :: y :: t else y :: posInsert x t

/-- Records by ascending position, those of one position added in their order (R270). -/
def scatSum (l : List Rec) : List Rec :=
  ((l.foldl (fun a x => posInsert x a) []).foldl (fun a x =>
    match a with
    | y :: t => if y.pos = x.pos then ⟨fpAdd y.value x.value, y.pos⟩ :: t else x :: a
    | [] => [x]) []).reverse

/-- The dense form of R272. -/
def denseRecs (span : Nat) (l : List Rec) : List Byte :=
  (List.range span).flatMap (fun i =>
    leBytes 4 (match l.find? (fun r => r.pos.toNat == i) with | some r => r.value.toNat | none => 0))

/-- SCATTER_MERGE (R270 to R273): one round; records at or beyond SPAN and those beyond the first 16,384 of a vector are
dropped. -/
def execScatterMerge (c : ClusterId) (s : State) : Answer :=
  .next (let n := c.num
    match s.nextMerge n (s.cluAt n).scatIn (s.allLists CluSt.scatIn) s.scatOpen with
    | none => s
    | some x =>
      let o := x.key.ord.toNat
      let d : LayerDesc := (s.invAt o).desc
      let all := x.lists.flatMap (fun m => m.recs)
      let ok := all.filter (fun r => decide (r.pos.toNat < d.span))
      let sum := scatSum ok
      let lost := all.length - ok.length + (sum.length - 16384)
      let r := x.result n (sum.take 16384)
      let raised := (s.cluAt n).oorRaised.contains o
      let s := s.modClu n (fun u => { u with
        scatIn := u.scatIn.filter (fun m => !x.lists.contains m), mrgTkg := BitVec.ofNat 6 x.key.dst,
        scatRecs := bump u.scatRecs all.length, scatOor := bump u.scatOor lost,
        oorRaised := if lost = 0 then u.oorRaised else addKey u.oorRaised o })
      let s := if lost = 0 ∨ raised then s else s.raise 0x3160 none none (posOfCluster c)
      let rest := (s.allLists CluSt.scatIn).any (fun m => m.sameKey r)
      if rest || !(x.gather || x.key.dst == n && !s.listedCores.any (fun e => s.scatOpen e r)) then
        s.modClu x.key.dst (fun u => { u with scatIn := u.scatIn ++ [r] })
      else s.pushMerged n r.ord r.epoch (if d.sform then denseRecs d.span r.recs else recBytes r.recs))

end Sys2Proof.Machine
end

