-- ==== Sys2Proof/Machine/Svu.lean ====
section
/-! DEFINITION. The cluster SVU: SVQ and the operations of its descriptors (09, R447 to R450; 04, R173). -/

namespace Sys2Proof.Machine

/-! ## Descriptors (R447) -/

/-- An SVU descriptor's fields. -/
structure SvuDesc where
  op : Nat
  bfIn : Bool
  bfOut : Bool
  vec : Nat
  n : Nat
  srcA : Nat
  srcB : Nat
  dst : Nat
  ring : Bool
  q : Nat
  param : Nat
  p0 : Word
  p1 : Word
  deriving DecidableEq, Repr

/-- A descriptor from its 64 bytes. -/
def SvuDesc.ofBytes (l : List Byte) : SvuDesc :=
  ⟨byteAt l 0, bitOf (byteAt l 1) 0, bitOf (byteAt l 1) 1, leAt l 2 2, leAt l 4 4, leAt l 8 8 % 2 ^ 44, leAt l 16 8 % 2 ^ 44,
   leAt l 24 8 % 2 ^ 44, bitOf (leAt l 24 8) 44, field (leAt l 24 8) 48 45, leAt l 32 8 % 2 ^ 44, word (leAt l 40 4),
   word (leAt l 44 4)⟩

/-- Bytes of an input or output element. -/
def wideBytes (bf : Bool) : Nat := if bf then 2 else 4

/-- The range of operand A. -/
def SvuDesc.rangeA (d : SvuDesc) : List (Nat × Nat) :=
  [(d.srcA, if d.op = 10 then d.vec * d.n * 8 else d.vec * d.n * wideBytes d.bfIn)]

/-- The range of operand B: a second operand, a per-element table, positions or slot numbers (log 59). -/
def SvuDesc.rangeB (d : SvuDesc) : List (Nat × Nat) :=
  match d.op with
  | 1 => [(d.srcB, d.vec * d.n * wideBytes d.bfIn)]
  | 2 => [(d.srcB, d.vec * d.n * wideBytes d.bfIn)]
  | 3 => [(d.srcB, d.vec * d.n * wideBytes d.bfIn)]
  | 4 => [(d.srcB, d.n * wideBytes d.bfIn)]
  | 5 => [(d.srcB, d.n * wideBytes d.bfIn)]
  | 7 => [(d.srcB, d.vec * 4)]
  | 10 => [(d.srcB, d.vec * 4)]
  | _ => []

/-- The parameter table whose place the descriptor alone gives. -/
def SvuDesc.rangeP (d : SvuDesc) : List (Nat × Nat) :=
  match d.op with
  | 1 => [(d.param, 528)]
  | 5 => [(d.param, 4 * d.n)]
  | _ => []

/-- Where the descriptor writes in address form; a conversion's record and tiles at their largest (R448, log 61). -/
def SvuDesc.rangeD (d : SvuDesc) : List (Nat × Nat) :=
  if d.ring then []
  else match d.op with
    | 9 => [(d.dst - 32, 32 + ceilDiv d.vec 32 * 8 + d.vec * ceilDiv d.n 128 * 264 + 8)]
    | 10 => [(d.dst, 4 * d.vec)]
    | _ => [(d.dst, d.vec * d.n * wideBytes d.bfOut)]

/-- SVQ: the descriptor joins the cluster's queue with its ranges in the scoreboard (R443). -/
def execSvq (c : CoreId) (s : State) : Answer :=
  .next (s.runSeq c 0x48 fun w s =>
    let q := s.seqAt c
    let ts := q.treg (bitsOf w 55 52)
    match s.source c ts with
    | .wait => s.waitAt c seqWaitRing
    | .bad e r => s.ringFault e r
    | x =>
      if !ts.ring && !s.coreReach c ts.addr then s.reachFault c
      else if 16 ≤ (s.cluAt c.cluster.num).svuQ.length then s.waitAt c seqWaitQueue
      else
        let l := s.sourceBytes x 64
        let d := SvuDesc.ofBytes l
        let sb := fun (r : List (Nat × Nat)) => r.flatMap (fun e => s.sbRange e.1 e.2)
        s.withSb c (sb d.rangeD) (sb (d.rangeA ++ d.rangeB ++ d.rangeP)) (s.sourceRange x 64) fun s =>
          let g := s.readSource x 64
          let s := g.2.issued c
          if !g.1 || !s.tickLive then s
          else s.modClu c.cluster.num (fun k => { k with svuQ := k.svuQ ++ [⟨c.core.val, q.epoch, l, q.last⟩] }))

/-! ## Running the head of the queue (R362, R447) -/

/-- The core that enqueued a descriptor. -/
def svuCore (c : ClusterId) (o : SvuOp) : CoreId := ⟨c.die, c.cl, Fin.ofNat 16 o.core⟩

/-- The SVU reaches an address (R362). -/
def State.clusterReach (s : State) (c : ClusterId) (a : Nat) : Bool :=
  match s.place a with
  | .spm r _ => clusterReaches c r
  | _ => false

/-- The core whose ring a destination names: the owner of the core region of DST, else the enqueuing core. -/
def State.svuOwner (s : State) (c : ClusterId) (o : SvuOp) (d : SvuDesc) : CoreId :=
  match s.place d.dst with
  | .spm (.core e) _ => e
  | _ => svuCore c o

/-- The SVU's push of one entry, in the turn of the enqueuing core (log 62). -/
def State.svuPush (s : State) (c : ClusterId) (o : SvuOp) (e : CoreId) (q kind : Nat) (l : List Byte) : State :=
  s.pushCluster c.num
    { code := 0x48, prod := .core (svuCore c o).num, ord := o.epoch, conv := 0, epoch := o.epoch, ring := some (e.num, q),
      kind := BitVec.ofNat 4 kind, bytes := l, blocked := false, window := none, acked := false, failed := false }

/-- The result goes to DST: one entry of a ring, or bytes. -/
def State.svuWrite (s : State) (c : ClusterId) (o : SvuOp) (d : SvuDesc) (kind : Nat) (l : List Byte) : State :=
  if d.ring then s.svuPush c o (s.svuOwner c o d) d.q kind l else s.writeDev d.dst l

/-- Runs one operation: the head of the cluster's queue has this OP, no earlier result waits for its ring, every operand lies in
reach and is delivered; then the operation's effect, and the head leaves the queue (R417, R447). `more` are ranges that the
operands themselves name. -/
def State.runSvu (s : State) (c : ClusterId) (op : Nat) (more : State → SvuDesc → List (Nat × Nat))
    (f : State → SvuOp → SvuDesc → State) : State :=
  match (s.cluAt c.num).svuQ with
  | [] => s
  | o :: rest =>
    let d := SvuDesc.ofBytes o.desc
    if d.op ≠ op ∨ !s.tickLive ∨ (s.cluAt c.num).waiting.any (fun x => x.code == 0x48) then s
    else
      let src := d.rangeA ++ d.rangeB ++ d.rangeP ++ more s d
      let core := svuCore c o
      if !(src ++ d.rangeD).all (fun r => s.clusterReach c r.1) then s.reachFault core
      else if d.ring && !(s.ringAt (s.svuOwner c o d) d.q).en then s.ringFault (s.svuOwner c o d) d.q
      else
        let g := s.readAll src
        let s := g.2.modClu c.num (fun k => { k with svuQ := rest })
        if g.1 && s.tickLive then f s o d else s

/-- FP32 values of BF16 or FP32 bytes. -/
def wideVals (bf : Bool) (n : Nat) (l : List Byte) : List Word :=
  if bf then (List.range n).map (fun i => fpOfBf16 (BitVec.ofNat 16 (leAt l (2 * i) 2))) else leWords n l

/-- Values as BF16 or FP32 bytes. -/
def wideOut (bf : Bool) (l : List Word) : List Byte :=
  l.flatMap (fun v => if bf then leBytes 2 (bf16Of v).toNat else leBytes 4 v.toNat)

/-- Vector v of operand A. -/
def State.svuA (s : State) (d : SvuDesc) (v : Nat) : List Word :=
  let z := d.n * wideBytes d.bfIn
  wideVals d.bfIn d.n (s.peek (d.srcA + v * z) z)

/-- Vector v of operand B. -/
def State.svuB (s : State) (d : SvuDesc) (v : Nat) : List Word :=
  let z := d.n * wideBytes d.bfIn
  wideVals d.bfIn d.n (s.peek (d.srcB + v * z) z)

/-- Writes one row per vector, formed by `f` from the vector's number. -/
def State.svuRows (s : State) (c : ClusterId) (o : SvuOp) (d : SvuDesc) (f : Nat → List Word) : State :=
  s.svuWrite c o d 0 ((List.range d.vec).flatMap (fun v => wideOut d.bfOut (f v)))

/-- No further ranges. -/
def noMore (_ : State) (_ : SvuDesc) : List (Nat × Nat) := []

/-! ## Element operations (R448) -/

/-- GATE: act(A) × B; a table that fails its checks stops the result as at the output converter (R219). -/
def execSvuGate (c : ClusterId) (s : State) : Answer :=
  .next (s.runSvu c 1 noMore fun s o d =>
    let t := s.peek d.param 528
    if !actOk t then (s.raise 0x2152 none none (posOfCluster c)).sharedFault
    else s.svuRows c o d (fun v => ((s.svuA d v).zip (s.svuB d v)).map (fun e => fpMul (actApply t e.1) e.2)))

/-- ADD: A + P0 × B. -/
def execSvuAdd (c : ClusterId) (s : State) : Answer :=
  .next (s.runSvu c 2 noMore fun s o d =>
    s.svuRows c o d (fun v => ((s.svuA d v).zip (s.svuB d v)).map (fun e => fpAdd e.1 (fpMul d.p0 e.2))))

/-- MUL: A × B. -/
def execSvuMul (c : ClusterId) (s : State) : Answer :=
  .next (s.runSvu c 3 noMore fun s o d =>
    s.svuRows c o d (fun v => ((s.svuA d v).zip (s.svuB d v)).map (fun e => fpMul e.1 e.2)))

/-- The mean of values: their sequential sum over their number (R449). -/
def fpMean (l : List Word) : Word := fpDiv (fpSum 0 l) (fpOfInt l.length 0)

/-- RMSN of a vector with its table. -/
def rmsRow (p0 : Word) (a b : List Word) : List Word :=
  let r := fpSqrt (fpAdd (fpMean (a.map (fun x => fpMul x x))) p0)
  (a.zip b).map (fun e => fpDiv (fpMul e.1 e.2) r)

/-- RMSN: A × B ÷ sqrt(mean(A²) + P0), B the per-element table. -/
def execRmsn (c : ClusterId) (s : State) : Answer :=
  .next (s.runSvu c 4 noMore fun s o d => s.svuRows c o d (fun v => rmsRow d.p0 (s.svuA d v) (s.svuB d 0)))

/-- LNRM of a vector with its tables. -/
def lnRow (p0 : Word) (a b p : List Word) : List Word :=
  let m := fpMean a
  let var := fpMean (a.map (fun x => let y := fpSub x m; fpMul y y))
  let r := fpSqrt (fpAdd var p0)
  (a.zip (b.zip p)).map (fun e => fpAdd (fpMul (fpDiv (fpSub e.1 m) r) e.2.1) e.2.2)

/-- LNRM: (A − mean) ÷ sqrt(var + P0) × B + PARAM, B and PARAM per-element tables. -/
def execLnrm (c : ClusterId) (s : State) : Answer :=
  .next (s.runSvu c 5 noMore fun s o d =>
    let p := leWords d.n (s.peek d.param (4 * d.n))
    s.svuRows c o d (fun v => lnRow d.p0 (s.svuA d v) (s.svuB d 0) p))

/-- The largest of values; −infinity of none. -/
def fpLargest (l : List Word) : Word := l.foldl fpMax (fpInf true)

/-- SMAX of a vector over its first k elements. -/
def softRow (p0 : Word) (k : Nat) (a : List Word) : List Word :=
  let x := (a.take k).map (fpMul p0)
  let m := fpLargest x
  let e := x.map (fun v => Config.expBits (fpSub v m))
  let t := fpSum 0 e
  e.map (fun v => fpDiv v t) ++ List.replicate (a.length - k) 0

/-- SMAX; P1 counts elements as the floor of its FP32 value (log 59). -/
def execSmax (c : ClusterId) (s : State) : Answer :=
  .next (s.runSvu c 6 noMore fun s o d =>
    let k := match fpOf d.p1 with
      | .inf neg => if neg then 0 else d.n
      | .nan => 0
      | .fin _ _ _ => min d.n (fpFloor d.p1).toNat
    s.svuRows c o d (fun v => softRow d.p0 k (s.svuA d v)))

/-- The position of vector v. -/
def State.svuWord (s : State) (d : SvuDesc) (v : Nat) : Nat := leNat (s.peek (d.srcB + 4 * v) 4)

/-- The table row of vector v of a PROT: N ÷ 2 pairs of cos and sin, by position (log 59). -/
def State.protRow (s : State) (d : SvuDesc) (v : Nat) : Nat := d.param + s.svuWord d v * (d.n / 2 * 8)

/-- Rotates the pairs of a vector by a row of (cos, sin) pairs; `odd` stands for an element without a pair, of which the manual
says nothing. -/
def protPairs (odd : Word) : List Word → List Word → List Word
  | x :: y :: t, c :: n :: r => fpSub (fpMul x c) (fpMul y n) :: fpAdd (fpMul x n) (fpMul y c) :: protPairs odd t r
  | [], _ => []
  | _ :: t, r => odd :: protPairs odd t r

/-- PROT. -/
def execProt (c : ClusterId) (s : State) : Answer :=
  .next (s.runSvu c 7 (fun s d => (List.range d.vec).map (fun v => (s.protRow d v, d.n / 2 * 8))) fun s o d =>
    let f := s.drawWord
    f.2.svuRows c o d (fun v => protPairs f.1 (s.svuA d v) (leWords (d.n / 2 * 2) (s.peek (s.protRow d v) (d.n / 2 * 8)))))

/-- CVT. -/
def execCvt (c : ClusterId) (s : State) : Answer :=
  .next (s.runSvu c 8 noMore fun s o d => s.svuRows c o d (fun v => s.svuA d v))

/-! ## CONV (R173) -/

/-- The largest magnitudes of a vector's blocks of 32, finite elements only. -/
def convMax (n : Nat) (ys : List (Option Word)) : List Word :=
  (chunks 32 n ys).map (fun b => b.foldl (fun a y => match y with | some v => fpMax a (fpAbs v) | none => a) 0)

/-- The exponents of a vector of any length, by 128-element block (R163, R165, R170). -/
def convExps (a bxg : Nat) (amax : Word) (nb : Nat) (ys : List (Option Word)) : List Nat :=
  (chunks 4 nb (convMax (4 * nb) ys)).flatMap (fun m => vecExps a bxg amax m)

/-- The levels of a vector of any length in a form. -/
def State.convLevels (s : State) (f : OutForm) (b : Bound) (slot : Option Nat) (nb : Nat) (exps : List Nat)
    (ys : List (Option Word)) : List (Int × Bool) :=
  (chunks 128 nb ys).zipIdx.flatMap (fun x => s.convertRow f b slot x.2 128 ((exps.drop (4 * x.2)).take 4) x.1)

/-- The tiles of a tensor of K columns in a form, at most 32 vectors a tile. -/
def State.convTiles (s : State) (d : SvuDesc) (b : Bound) (f : OutForm) (exps : List (List Nat)) (ys : List (List (Option Word))) :
    List (List Byte) :=
  let l : LayerDesc := b.desc
  let nb := ceilDiv d.n 128
  let codes := (ys.zip exps).zipIdx.map (fun y =>
    (s.convLevels f b (s.slotAt b.ord.toNat y.2) nb y.1.2 y.1.1).map (fun q => codeOf f q.1))
  ((chunks 32 (ceilDiv d.vec 32) codes).zip (chunks 32 (ceilDiv d.vec 32) exps)).map (fun t =>
    (tileEncode l.oenc s.bitmapForced d.n f.a f.sign t.1 t.2).2)

/-- A conversion's record and tiles, and the extension tiles of consumers with RR = 1 (R171, R173, R310). -/
def State.convert (s : State) (c : ClusterId) (o : SvuOp) (d : SvuDesc) (b : Bound) (r : Red) : State :=
  let l : LayerDesc := b.desc
  let a := r.width.toNat
  let nb := ceilDiv d.n 128
  let f := outForm l r a
  let ys := (List.range d.vec).map (fun v => finiteOf (s.svuA d v))
  let exps := ys.map (convExps a l.bxg r.amax nb)
  let rec_ := fun (f : OutForm) => recordBytes f.sT f.recip r.amax l.lid f.a f.sign l.bxg f.z s.tick.count l.rotOut
  let tiles := s.convTiles d b f exps ys
  let e := s.svuOwner c o d
  let s :=
    if d.ring then tiles.foldl (fun s t => s.svuPush c o e d.q 0 t) (s.svuPush c o e d.q 1 (rec_ f))
    else (s.writeDev (d.dst - 32) (rec_ f)).writeDev d.dst (tiles.flatMap (fun t => t))
  let s := { s with free := s.free + if l.rnd then d.vec * d.n else 0 }
  ((s.consumerDescs l.lix e).filter (fun x => x.rr && !x.dlt)).foldl (fun s x =>
    let w := wideIn x a
    let g := extForm l r a w
    let ex := if w = 16 then exps.map (fun m => m.map (fun _ => 0)) else exps
    (s.convTiles d b g ex ys).foldl (fun s t => s.svuPush c o e x.exq 2 t) (s.svuPush c o e x.exq 3 (rec_ g))) s

/-- CONV: A converted to activation tiles in the output format of the bound invocation, once its package reduction has come
(log 61). -/
def execConv (c : ClusterId) (s : State) : Answer :=
  .next (match (s.cluAt c.num).svuQ with
    | o :: _ =>
      match o.bound with
      | some b =>
        match (s.invAt b.ord.toNat).reds[b.part]? with
        | some r => s.runSvu c 9 noMore fun s o d => s.convert c o d b r
        | none => s
      | none => s
    | [] => s)

/-! ## SAMP (R450) -/

/-- Running sums of values. -/
def runSums : Word → List Word → List Word
  | _, [] => []
  | a, x :: t => let b := fpAdd a x; b :: runSums b t

/-- The index of the first running sum that reaches a bound. -/
def firstReach (bound : Word) (l : List Word) : Option Nat := l.findIdx? (fun x => fpLe bound x)

/-- The token of a list of records (R450): u is the draw's value. -/
def sampleToken (p0 p1 u : Word) (l : List Rec) : Word :=
  let real := l.filter (fun r => !(r.value == 0xFF800000 && r.pos == 0xFFFFFFFF))
  let first := match real with | r :: _ => r.pos | [] => 0xFFFFFFFF
  if fpAbs p0 = 0 then first
  else
    let y0 := match real with | r :: _ => r.value | [] => 0
    let sums := runSums 0 (real.map (fun r => Config.expBits (fpDiv (fpSub r.value y0) p0)))
    let keep := if fpAbs p1 = 0 ∨ fpLe fpOne p1 then sums
      else match firstReach (fpMul p1 (sums.getLastD 0)) sums with
        | some i => sums.take (i + 1)
        | none => sums
    match firstReach (fpMul u (keep.getLastD 0)) keep with
    | some i => match real[i]? with | some r => r.pos | none => first
    | none => first

/-- u of a slot's step: draws 0 and 1 of purpose 0x04 (R182, R450, log 60). -/
def State.sampleDraw (s : State) (slot : Nat) : Word :=
  let x := s.slot slot
  let t := x.com.step.toNat
  let r0 := kcgDraw x.seed Config.sampleLid.toNat 0xFFFF t 4 0
  let r1 := kcgDraw x.seed Config.sampleLid.toNat 0xFFFF t 4 1
  fpOfInt (r0 + 65536 * r1 : Nat) (-32)

/-- SAMP. -/
def execSamp (c : ClusterId) (s : State) : Answer :=
  .next (s.runSvu c 10 noMore fun s o d =>
    s.svuWrite c o d 0 ((List.range d.vec).flatMap (fun v =>
      leBytes 4 (sampleToken d.p0 d.p1 (s.sampleDraw (s.svuWord d v)) (recsOf d.n (s.peek (d.srcA + v * d.n * 8) (d.n * 8)))).toNat)))

end Sys2Proof.Machine
end

