-- ==== Sys2Proof/Machine/Precision.lean ====
section
/-! DEFINITION. The precision controller and the array supply: package reductions, verdicts, the re-run budget, squashes and
confirmations, sticky widens, over-scaling (07; 04, R162; 05, R226; 08, R382 to R389; 09, R455 to R459, R801). -/

namespace Sys2Proof.Machine

/-! ## Package reductions (R160 to R162, R226, R298 to R300, R801) -/

/-- The cores that take a part: every core that has bound the invocation, for the second part those that split it (R313). -/
def InvSt.partCores (x : InvSt) (p : Nat) : List Nat := if p = 0 then x.cores else x.splitCores

/-- The parts of an invocation (R313, R459). -/
def InvSt.parts (x : InvSt) : Nat := if x.splitCores.isEmpty then 1 else 2

/-- Every core of a part has reported (R801). -/
def InvSt.reportedAll (x : InvSt) (p : Nat) : Bool := (x.partCores p).all (fun c => (x.share c p).reported)

/-- The package amax of a part (R160, R226). -/
def InvSt.amax (x : InvSt) (p : Nat) : Word := (x.partCores p).foldl (fun a c => fpMax a (x.share c p).amax) 0

/-- PACKAGE_REDUCTION (R162, R298 to R300, R801): the first part of the invocation that has no scale yet. -/
def execPackageReduction (ord : BitVec 16) (s : State) : Answer :=
  .next (let x := s.invAt ord.toNat
    let p := x.reds.length
    if x.cores.isEmpty ∨ x.parts ≤ p ∨ !x.reportedAll p ∨ !s.tickLive then s
    else
      let d : LayerDesc := x.desc
      let amax := x.amax p
      let w := s.outWidth d amax
      let f : OutForm := ⟨w, d.osign, if d.osign then 0 else d.ozp, amax, 0, d.rnd⟩
      let recip := if fpAbs amax = 0 then 0 else fpDiv (fpOfInt (qmaxOf f.a f.sign f.z : Nat) 0) amax
      (s.modInv ord.toNat (fun x => { x with reds := x.reds ++ [⟨amax, f.sT, recip, BitVec.ofNat 5 w⟩] })).modLayer x.lix.toNat
        (fun l => if d.ofmt = 0 then { l with width := BitVec.ofNat 5 w } else l))

/-! ## The order of verdicts (R306, R382) -/

/-- No core has bound ordinal w, and none can any more (R306). -/
def State.absent (s : State) (w : Nat) : Bool :=
  (s.invAt w).cores.isEmpty && s.programCores.all (fun c => (s.seqAt c).ended || decide (w < (s.seqAt c).epoch.toNat))

/-- The verdict of w has been decided and grants no re-run, or w is absent (R306, R382). -/
def State.settled (s : State) (w : Nat) : Bool := (s.invAt w).decided || s.absent w

/-- Ordinals 1 to e are all settled (R382). -/
def State.settledTo (s : State) (e : Nat) : Bool := (List.range e).all (fun i => s.settled (i + 1))

/-! ## Watches (R301 to R303) -/

/-- The norm tap of one part over the package: cores in index order within a cluster, then clusters, then dies (R226). -/
def InvSt.normOf (x : InvSt) (p : Nat) : Word :=
  let cores := x.partCores p
  fpSum 0 ((List.range 4).map (fun d => fpSum 0 ((List.range 16).map (fun c => fpSum 0 ((List.range 16).filterMap (fun k =>
    let n := d * 256 + c * 16 + k
    if cores.contains n then some (x.share n p).norm else none))))))

/-- The totals that the watches judge, over all parts (R301, R313). -/
structure Totals where
  elems : Nat
  inf : Nat
  sat : Nat
  tail : Nat
  norm : Word
  deriving DecidableEq, Repr

/-- The totals of an invocation; the tail runs over bins WHB to 62. -/
def InvSt.totals (x : InvSt) : Totals :=
  let d : LayerDesc := x.desc
  let all := (List.range x.parts).flatMap (fun p => (x.partCores p).map (fun c => x.share c p))
  ⟨(all.map Share.elems).sum, (all.map Share.inf).sum, (all.map Share.sat).sum,
   (all.map (fun h => ((List.range 63).map (fun b => if d.whb ≤ b then Tab.get 0 h.hist b else 0)).sum)).sum,
   fpSum 0 ((List.range x.parts).map x.normOf)⟩

/-- The norm of an invocation; none where E_f is 0 or the tap is infinite (R302). -/
def Totals.norm1 (t : Totals) : Option Word :=
  if t.elems ≤ t.inf ∨ !fpFinite t.norm then none
  else some (fpSqrt (fpDiv t.norm (fpOfInt (t.elems - t.inf : Nat) 0)))

/-- The norm watch trips (R301 to R303). -/
def normTrips (d : LayerDesc) (l : LayerSt) (t : Totals) : Bool :=
  if t.elems ≤ t.inf then false
  else match t.norm1 with
    | none => true
    | some n =>
      if !l.meanSet then false
      else if fpAbs n = 0 ∧ fpAbs l.mean = 0 then false
      else if fpAbs n = 0 ∨ fpAbs l.mean = 0 then true
      else fpLe d.wj (fpMax (fpDiv n l.mean) (fpDiv l.mean n))

/-- The tripped watches, coded as PREC_LSTATE.TRIPS: infinity, saturation, tail, norm, understudy (R301). -/
def trips (d : LayerDesc) (l : LayerSt) (x : InvSt) : BitVec 5 :=
  let t := x.totals
  let ef := t.elems - t.inf
  BitVec.ofNat 5 (bitAt (decide (1 ≤ t.inf)) 0 +
    bitAt (bitOf d.wen 0 && decide (0 < t.sat) && decide (d.wsat * t.elems ≤ t.sat * 65536)) 1 +
    bitAt (bitOf d.wen 1 && decide (0 < t.tail) && decide (d.wht * ef ≤ t.tail * 65536)) 2 +
    bitAt (bitOf d.wen 2 && normTrips d l t) 3 +
    bitAt (d.uss != 0 && x.understudy) 4)

/-! ## Budget (R316 to R318, R325) -/

/-- Thirds of a nanosecond in an ACLK cycle at the step in force (R16, R58). -/
def State.aclkThirds (s : State) : Nat :=
  match s.glb.aclkStep.toNat with
  | 0 => 15
  | 1 => 20
  | _ => 30

/-- The re-run budget B of a tick in thirds of a nanosecond, rounded down (R317). -/
def State.budgetThirds (s : State) : Nat := 3 * s.tick.period.toNat * s.prec.rrbForce.toNat / 1000

/-- A further charge may be granted: U + c ≤ B + H (R317). -/
def State.affords (s : State) (c : Nat) : Bool :=
  decide ((s.prec.used + c) * 1000 ≤ 3 * (s.tick.period.toNat * s.prec.rrbForce.toNat +
    1000 * (s.tick.tickMax.toNat - s.tick.period.toNat)))

/-! ## Squash (R388, R455) -/

/-- Steps 1 and 2 of a squash at ordinal v on one core: its work of epoch v or later is cancelled, the converter releases its
ranges, and a sequencer that runs at such an epoch stops (R388, R455). -/
def CoreSt.squashWork (k : CoreSt) (v : Nat) : CoreSt :=
  let k := k.cancelFrom v
  let drop := fun (t : Tab Nat) (f : Nat → Nat) => t.filter (fun e => decide (f e.1 < v))
  { k with
    ocv := { k.ocv with held := heldWord k.convQ, state := convState k.convQ },
    probes := k.probes.filter (fun p => decide (p.ord.toNat < v)), hist := k.hist.filter (fun o => decide (o.ord.toNat < v)),
    madeUp := drop k.madeUp (fun o => o), merged := drop k.merged (fun x => x % 2 ^ 24 / 128),
    seq := if v ≤ k.seq.epoch.toNat ∧ k.seq.state ≠ seqFault then { k.seq with state := seqRestart, waitBar := none } else k.seq }

/-- A squash at ordinal v starts (R383, R388): the merge trees and the SVU lose their work of such epochs too. -/
def State.startSquash (s : State) (v : Nat) : State :=
  let old := fun (m : MergeIn) => decide (m.epoch.toNat < v)
  { s with
    core := s.core.map (fun e => (e.1, e.2.squashWork v)),
    clu := s.clu.map (fun e => (e.1, { e.2 with
      svuQ := e.2.svuQ.filter (fun o => decide (o.epoch.toNat < v)), waiting := e.2.waiting.filter (fun o => decide (o.epoch.toNat < v)),
      topIn := e.2.topIn.filter old, scatIn := e.2.scatIn.filter old, oorRaised := e.2.oorRaised.filter (fun o => decide (o < v)) })),
    prec := { s.prec with squash := some v } }

/-- The oldest checkpoint of a key at or above v (R455). -/
def SeqSt.ckptFrom (q : SeqSt) (v : Nat) : Option Ckpt := q.ckpts.find? (fun k => decide (v ≤ k.key.toNat))

/-- Step 3 on a sequencer: the checkpoint is restored and kept, younger ones go, the row-sum store is empty (R455). Ordinals
above v are unbound again; that a HALF = 1 ran under v is kept (R313). -/
def SeqSt.restore (q : SeqSt) (v : Nat) : SeqSt :=
  match q.ckptFrom v with
  | none => q
  | some k =>
    { q with
      s := k.s, l := k.l, t := k.t, pc := k.pc, epoch := k.epoch, seed := k.seed,
      ckpts := q.ckpts.filter (fun x => decide (x.key.toNat ≤ k.key.toNat)),
      bound := (q.bound.filter (fun b => decide (b.ord.toNat < v))).map (fun b => { b with rowTag := none }),
      halves := q.halves.filter (fun o => decide (o ≤ v)), part1 := none, ended := false,
      state := seqRun, restores := bump q.restores }

/-- Step 3 on one core. -/
def CoreSt.squashRestore (k : CoreSt) (v : Nat) : CoreSt :=
  match k.seq.ckptFrom v with
  | none => k
  | some _ => { k with seq := k.seq.restore v, rowsums := [] }

/-- The entries that a squash removes from a ring (R388, SPM_SQUASHED). -/
def State.squashedIn (s : State) (c : CoreId) (q v : Nat) : Nat :=
  let r := s.ringAt c q
  let t := (r.squash v).tail
  let n := r.dist t r.tail
  if n = 0 then 0 else (s.entriesFrom c q t n (n / 8)).length

/-- Step 3 on the rings of a core. -/
def State.squashRings (s : State) (c : CoreId) (v : Nat) : State :=
  let n := ((s.coreAt c).rings.map (fun e => s.squashedIn c e.1 v)).sum
  (s.modCore c (fun k => { k with rings := k.rings.map (fun e => (e.1, { e.2.squash v with resv := [] })) })).modClu c.cluster.num
    (fun k => { k with squashed := bump k.squashed n })

/-- SQUASH_RESUME (R388, R455 to R457): rings restore from their marks, cores from their checkpoints, and the invocations from
v on are unbound; v keeps that it runs again. -/
def execSquashResume (s : State) : Answer :=
  .next (match s.prec.squash with
    | none => s
    | some v =>
      let s := s.listedCores.foldl (fun s c => s.squashRings c v) s
      { s with
        core := s.core.map (fun e => (e.1, e.2.squashRestore v)),
        prec := { s.prec with
          squash := none,
          invs := (s.prec.invs.filter (fun e => decide (e.1 ≤ v))).map (fun e =>
            if e.1 = v then (v, { InvSt.reset with rerun := e.2.rerun, promptOff := e.2.promptOff }) else e) } })

/-! ## Verdicts (R301 to R320) -/

/-- The slots with a vector in the invocation (R319, R320). -/
def State.invSlots (s : State) (ord : Nat) : List Nat := s.slotsOf ord

/-- The second passes and the sampled comparisons of the invocation have ended (R305). -/
def State.verdictDue (s : State) (ord : Nat) : Bool :=
  let x := s.invAt ord
  s.tickLive && s.prec.squash.isNone && !x.cores.isEmpty && !x.decided && decide (x.reds.length = x.parts) &&
  (List.range x.parts).all (fun p => (x.partCores p).all (fun c => (x.share c p).reported && (x.share c p).pass2)) &&
  !s.core.any (fun e => e.2.euQ.any (fun o => decide (o.ord.toNat = ord) && (o.kind == 2))) &&
  s.settledTo (ord - 1)

/-- The invocation's output stands (R303, R305): its verdict is decided and its finite norm joins the layer's mean. -/
def State.stand (s : State) (ord : Nat) : State :=
  let x := s.invAt ord
  let d : LayerDesc := x.desc
  let s := s.modInv ord (fun x => { x with decided := true })
  match x.totals.norm1 with
  | none => s
  | some n => s.modLayer d.lix (fun l =>
      if l.meanSet then { l with mean := fpAdd l.mean (fpMul (fpSub n l.mean) (fpScale fpOne (-(d.wnw : Int)))) } else l)

/-- A refused re-run: the invocation's slots are withheld (R319). -/
def State.refuse (s : State) (ord : Nat) : State :=
  let x := s.invAt ord
  let d : LayerDesc := x.desc
  let fresh := (s.invSlots ord).filter (fun i => !s.prec.withheld.getLsbD i)
  let mask : BitVec 256 := BitVec.ofNat 256 ((fresh.map (fun i => 2 ^ i)).sum)
  let once := (s.layerAt d.lix).withheldTick
  let s := (s.modPrec (fun p => { p with
    withheld := p.withheld ||| mask, withheldN := bump p.withheldN fresh.length })).slotFault mask
  let s := s.modLayer d.lix (fun l => { l with refusedTick := true, withheldTick := l.withheldTick || !fresh.isEmpty })
  let s := if fresh.isEmpty ∨ once then s else s.raise 0x2202
  s.stand ord

/-- A granted re-run of charge c (R317, R318, R388, R457): in the widened form, or with the prompter OFF only. -/
def State.grant (s : State) (ord c : Nat) (promptOnly : Bool) : State :=
  let s := s.modPrec (fun p => { p with used := p.used + c, reruns := bump p.reruns })
  let s := if s.overBudget ∧ !s.prec.stretched then
      (s.modPrec (fun p => { p with stretched := true, stretchedN := bump p.stretchedN })).raise 0x2201
    else s
  (s.modInv ord (fun x => { x with rerun := true, promptOff := promptOnly })).startSquash ord

/-- The budget decides on a re-run (R316, R317, R319, R320). -/
def State.askRerun (s : State) (ord : Nat) (promptOnly : Bool) : State :=
  let d : LayerDesc := (s.invAt ord).desc
  let slots := s.invSlots ord
  let c := ((if promptOnly then d.prc else d.wrc) + d.rac) * s.aclkThirds
  if slots ≠ [] ∧ slots.all (fun i => s.prec.withheld.getLsbD i) then s.stand ord
  else if s.affords c then s.grant ord c promptOnly
  else s.refuse ord

/-- VERDICT (R301 to R320): in script order. -/
def execVerdict (ord : BitVec 16) (s : State) : Answer :=
  .next (let o := ord.toNat
    if !s.verdictDue o then s
    else
      let x := s.invAt o
      let d : LayerDesc := x.desc
      let l := s.layerAt d.lix
      let t := trips d l x
      let fresh := if d.dlt then ((s.invSlots o).filter (fun i => !(s.slot i).kind || decide (s.stepOf i % d.drn = 0))).length else 0
      let s := s.modPrec (fun p => { p with deltaRefresh := bump p.deltaRefresh fresh })
      let s := match l.meanSet, x.totals.norm1 with
        | false, some n => s.modLayer d.lix (fun l => { l with meanSet := true, mean := n })
        | _, _ => s
      let watch := s.watchEnabled
      if t = 0 then
        if x.muOver ∧ watch then s.askRerun o true else s.stand o
      else
        let s := s.modPrec (fun p => { p with trips := bump p.trips })
        let s := s.modLayer d.lix (fun l => { l with trips := l.trips ||| t, trippedTick := true })
        let s := if l.trippedTick then s else s.raise 0x2200
        let form := { s.baseForm d with aw := x.aw.toNat }
        if x.rerun then ((s.modPrec (fun p => { p with rerunTrip := bump p.rerunTrip })).raise 0x2204).stand o
        else if widen d form = form then ((s.modPrec (fun p => { p with widest := bump p.widest })).raise 0x2205).stand o
        else if !watch then s.stand o
        else s.askRerun o false)

/-! ## Confirmations (R382, R383, R387, R454) -/

/-- EPOCH_CONFIRM (R382, R387, R454): the confirmation of epoch e reaches core c. -/
def execEpochConfirm (c : CoreId) (e : BitVec 16) (s : State) : Answer :=
  .next (if !s.tickLive ∨ !s.settledTo e.toNat then s
    else s.modCore c (fun k => { k with
      conf := max k.conf e.toNat, rings := k.rings.map (fun r => (r.1, r.2.confirm e.toNat)),
      seq := { k.seq with ckpts := k.seq.ckpts.filter (fun x => decide (e.toNat < x.key.toNat)) } }))

/-! ## Sticky widens (R323) -/

/-- CLR_STICKY (R323, R347): the layer of the port's PREC_LIDX; the base form reverts at the next cue. -/
def execClrSticky (p : Port) (v : Word) (s : State) : Answer :=
  .next (s.ownerOnly p fun s =>
    s.modPrec (fun x => { x with
      lclear := v.getLsbD 0,
      clearReq := if v.getLsbD 0 then addKey x.clearReq (s.port p).precLidx.toNat else x.clearReq }))

/-! ## Over-scaled array supply (R326, R327) -/

/-- EU of a core of the cluster has a task waiting. -/
def State.euTask (s : State) (c : ClusterId) : Bool := (clusterCores c.num).any (fun d => !(s.coreAt d).euQ.isEmpty)

/-- The last bound layer of a core permits over-scaling; none bound: none runs. -/
def State.osLayer (s : State) (c : CoreId) : Option Bool := ((s.seqAt c).last).map (fun b => LayerDesc.osAllow b.desc)

/-- SUPPLY_LOWER (R326). -/
def execSupplyLower (c : ClusterId) (s : State) : Answer :=
  .next (if s.osEnabled ∧ (clusterCores c.num).all (fun d => s.osLayer d == some true) ∧ !s.euTask c then
      let s := s.modClu c.num (fun k => { k with vsup := 2 })
      s.modTick (fun t => { t with running := t.running.map (fun r => { r with
        osMask := r.osMask ||| BitVec.ofNat 64 (2 ^ c.num) }) })
    else s)

/-- A cluster's supply returns to 0.55 V; the ACLK cycles spent at 0.48 V are a free value (log 27). -/
def State.raiseSupply (s : State) (n : Nat) : State :=
  if (s.cluAt n).vsup = 0 then s
  else
    let f := s.drawWord
    f.2.modClu n (fun k => { k with vsup := 0, vraise := bump k.vraise, osCycles := k.osCycles + f.1 })

/-- Every cluster's supply returns to 0.55 V (R737, R754). -/
def State.raiseAll (s : State) : State := s.clu.foldl (fun s e => s.raiseSupply e.1) s

/-- SUPPLY_RAISE (R327). -/
def execSupplyRaise (c : ClusterId) (s : State) : Answer :=
  .next (if !s.osEnabled ∨ (clusterCores c.num).any (fun d => s.osLayer d == some false) ∨ s.euTask c then s.raiseSupply c.num
    else s)

end Sys2Proof.Machine
end

