-- ==== Sys2Proof/Machine/Bind.lean ====
section
/-! DEFINITION. LYR and END: binding a layer descriptor to an invocation, and the end of a core's tick work
(09, R421, R427, R446, R452 to R464, R801; 07, R308, R313, R322, R337). -/

namespace Sys2Proof.Machine

/-! ## Bound descriptors (R464) -/

/-- Work issued under an ordinal has not completed. -/
def State.workUnder (s : State) (c : CoreId) (ord : BitVec 16) : Bool :=
  let k := s.coreAt c
  k.chainQ.any (fun o => o.ord == ord) || k.loadQ.any (fun o => o.ord == ord) || k.convQ.any (fun o => o.ord == ord) ||
  k.convOut.any (fun o => o.ord == ord) || k.euQ.any (fun o => o.ord == ord) || k.dmaQ.any (fun o => o.ord == ord) ||
  k.dieQ.any (fun o => o.ord == ord) ||
  (s.cluAt c.cluster.num).svuQ.any (fun o => o.core == c.core.val && (match o.bound with | some b => b.ord == ord | none => false))

/-- The bound descriptors that are still bound: the last one, and those with work under them (R464). -/
def State.liveBounds (s : State) (c : CoreId) : List Bound :=
  match (s.seqAt c).bound.reverse with
  | [] => []
  | b :: t => (b :: t.filter (fun x => s.workUnder c x.ord)).reverse

/-- The bound descriptor ends without a report: it reports an empty share, for both parts of a split that ran none (R801). -/
def State.endBound (s : State) (c : CoreId) : State :=
  match (s.seqAt c).last with
  | none => s
  | some b =>
    if b.reported then s
    else
      let s := (s.report c b.ord.toNat b.part).modLast c (fun x => { x with reported := true })
      if b.split ∧ b.part = 0 then s.report c b.ord.toNat 1 else s

/-! ## Forms (R308, R309, R313, R322, R457) -/

/-- The form, prompter and split under which a core binds a descriptor. -/
structure BindForm where
  form : Form
  prm : Nat
  split : Bool
  deriving DecidableEq, Repr

/-- The base form, or in a re-run its widened form with the prompter OFF (R457); the split of R313 and R322. -/
def State.bindForm (s : State) (c : CoreId) (d : LayerDesc) (ord : Nat) : BindForm :=
  let x := s.invAt ord
  let q := s.seqAt c
  let base := s.baseForm d
  let form := if x.rerun && !x.promptOff then widen d base else base
  let many := if x.rerun then q.halves.contains ord || (!base.fast && q.halfLix.contains d.lix) else q.halfLix.contains d.lix
  ⟨form, if x.rerun || (s.layerAt d.lix).widenings != 0 then 0 else d.prm, d.fast && !form.fast && many⟩

/-- Clock-gates the engines that the layer does not use (R67). -/
def State.gateEngines (s : State) (c : CoreId) (d : LayerDesc) (mode : Nat) : State :=
  (List.range 16).foldl (fun s e => s.modEng c e (fun x => { x with
    state := if enginesUsed d mode ≤ e then 7 else if x.state = 7 then 0 else x.state })) s

/-- The binding itself (R446, R452, R453, R457, R459). -/
def State.bind (s : State) (c : CoreId) (d : LayerDesc) (ord : Nat) : State :=
  let f := s.bindForm c d ord
  let q := s.seqAt c
  let o : BitVec 16 := BitVec.ofNat 16 ord
  let b : Bound :=
    { ord := o, desc := d, seed := q.seed, rerun := (s.invAt ord).rerun, widened := f.form != d.form, fast := f.form.fast,
      pmode := BitVec.ofNat 3 f.form.pmode, aw := BitVec.ofNat 5 f.form.aw, wpl := BitVec.ofNat 5 f.form.wpl,
      prm := BitVec.ofNat 2 f.prm, split := f.split, part := if f.split ∧ q.part1 = some o then 1 else 0, sIn := none,
      nIn := 0, nOut := 0, nChk := 0, reported := false, rowTag := none,
      ranges := match q.last with
        | some p => if f.split ∧ q.part1 = some o ∧ p.ord = o then p.ranges else []
        | none => [] }
  let live := s.liveBounds c
  let s := s.modSeq c (fun q =>
    let q := q.takeCkpt ord
    { q with
      bound := live ++ [b], epoch := if q.epoch < o then o else q.epoch, part1 := none, invOrd := o,
      invLix := BitVec.ofNat 10 d.lix, invWide := b.widened, rerun := b.rerun })
  let s := s.modInv ord (fun x => { x with
    lix := BitVec.ofNat 10 d.lix, desc := if x.cores.isEmpty then d else x.desc, aw := b.aw, cores := addKey x.cores c.num,
    splitCores := if b.split then addKey x.splitCores c.num else x.splitCores })
  (s.gateEngines c d f.form.pmode).issued c

/-- LYR (R421, R427, R454, R456, R463, R464). -/
def execLyr (c : CoreId) (s : State) : Answer :=
  .next (s.runSeq c 0x0B fun w s =>
    let q := s.seqAt c
    let a := clusterAddr c (q.sreg (fA w) + bitsOf w 31 16 * 256) 256
    let ord := (q.sreg (fB w) + bitsOf w 15 0) % 2 ^ 32
    if !s.coreReach c a then s.reachFault c
    else if ord = 0 ∨ 65535 < ord ∨ ord < q.epoch.toNat then s.seqStop c 0x2112 2
    else if 4 ≤ (s.liveBounds c).length then s.waitAt c seqWaitDesc
    else if q.ckptFull ord then s.waitAt c seqWaitCkpt
    else s.withSb c [] [] (s.sbRange a 256) fun s =>
      let r := s.workRead a 256
      let d : LayerDesc := BitVec.ofNat 2048 (leNat (s.peek a 256))
      if !r.1 then r.2
      else if !d.checkOk then r.2.seqStop c 0x2111 1
      else (r.2.endBound c).bind c d ord)

/-! ## END (R421, R337, R464, R801) -/

/-- Every instruction that the core has issued has completed. -/
def State.allDone (s : State) (c : CoreId) : Bool := (List.range 8).all (fun i => s.classDone c i)

/-- END: the sequencer waits for every issued instruction; refresh checks that EU has not finished are abandoned (R337); the
core reports its tick work done and waits for the curtain with PC 0. -/
def execSeqEnd (c : CoreId) (s : State) : Answer :=
  .next (s.runSeq c 0x01 fun _ s =>
    if !s.allDone c then s.waitAt c seqWaitQueue
    else
      let s := s.endBound c
      let n := ((s.coreAt c).euQ.filter (fun e => e.kind == 3)).length
      let s := s.modSparse c (fun x => { x with deltaChkSkip := bump x.deltaChkSkip n })
      let s := s.modCore c (fun k => { k with euQ := k.euQ.filter (fun e => e.kind != 3) })
      (s.issued c).modSeq c (fun q => { q with state := 0, pc := 0, ended := true }))

end Sys2Proof.Machine
end

