-- ==== Sys2Proof/Machine/Update.lean ====
section
/-! DEFINITION. Update: staging, activation, confirmation, settings (15, R687 to R690, R700 to R720). -/

namespace Sys2Proof.Machine

/-! ## Flash records -/

/-- a is larger than b as a SEQ (R689). -/
def seqNewer (a b : Word) : Bool := decide (1 ≤ (a - b).toNat ∧ (a - b).toNat ≤ 2 ^ 31 - 1)

/-- The pointer record in force (R689, R713). -/
def Flash.ptr (f : Flash) : PtrRec :=
  match f.ptr0.filter (fun r => r.ok), f.ptr1.filter (fun r => r.ok) with
  | some a, some b => if seqNewer b.seq a.seq then b else a
  | some a, none => a
  | none, some b => b
  | none, none => .slotsA

/-- The record in force lies in sector P0. -/
def Flash.ptrIn0 (f : Flash) : Bool :=
  match f.ptr0.filter (fun r => r.ok), f.ptr1.filter (fun r => r.ok) with
  | some a, some b => !seqNewer b.seq a.seq
  | some _, none => true
  | _, _ => false

/-- Writes a pointer record to the older sector (R689). -/
def Flash.writePtr (f : Flash) (r : PtrRec) : Flash :=
  if f.ptrIn0 then { f with ptr1 := some r } else { f with ptr0 := some r }

/-- The floor record in force, if any passes (R689, R721). -/
def Flash.floorRec (f : Flash) : Option FloorRec :=
  match f.floor0.filter (fun r => r.ok), f.floor1.filter (fun r => r.ok) with
  | some a, some b => if seqNewer b.seq a.seq then some b else some a
  | some a, none => some a
  | none, b => b

/-- Writes a floor record to the older sector (R689, R721). -/
def Flash.writeFloor (f : Flash) (v : Word) : Flash :=
  let q := match f.floorRec with | some r => r.seq + 1 | none => 0
  let in0 := match f.floor0.filter (fun r => r.ok), f.floor1.filter (fun r => r.ok) with
    | some a, some b => !seqNewer b.seq a.seq
    | some _, none => true
    | _, _ => false
  if in0 then { f with floor1 := some ⟨q, v, true⟩ } else { f with floor0 := some ⟨q, v, true⟩ }

/-- The state code of slot i of UPD_SLOT_STATE: 0 FWA, 1 FWB, 2 CFGA, 3 CFGB. -/
def Flash.slotCode (f : Flash) (i : Nat) : Nat := field f.slotState.toNat (3 * i + 2) (3 * i)

/-- Sets the state code of slot i. -/
def Flash.setSlotCode (f : Flash) (i code : Nat) : Flash :=
  { f with slotState := BitVec.ofNat 12 (f.slotState.toNat - f.slotCode i * 8 ^ i + code % 8 * 8 ^ i) }

/-- A firmware slot's image. -/
def Flash.fwSlot (f : Flash) (b : Bool) : Option FwImage := if b then f.fwB else f.fwA

/-- A configuration slot's image. -/
def Flash.cfgSlot (f : Flash) (b : Bool) : Option CfgImage := if b then f.cfgB else f.cfgA

/-- The index in UPD_SLOT_STATE of a slot. -/
def slotIndex (cfg b : Bool) : Nat := (if cfg then 2 else 0) + if b then 1 else 0

/-- Changes the flash. -/
def State.modFlash (s : State) (f : Flash → Flash) : State := s.modUpd (fun u => { u with flash := f u.flash })

/-! ## Checks of images -/

/-- The (KIND, INDEX) pairs that a variant needs (R1, R701). -/
def neededComponents (variant : Nat) : List (Nat × Nat) :=
  let io := if variant = 3 then 4 else 2
  let stks := (List.range 16).filter (fun k => variant != 2 || decide (k % 4 < 2))
  let links := if variant = 3 then 8 else 4
  (List.range io).map (fun i => (1, i)) ++ (List.range 4).map (fun i => (2, i)) ++ stks.map (fun i => (3, i)) ++
    (List.range links).map (fun i => (4, i)) ++ [(5, 0)]

/-- R701: every needed pair exactly once, every component wholly within the slot and after the manifest. -/
def componentsOk (variant : Nat) (m : FwImage) : Bool :=
  let need := neededComponents variant
  let have_ := m.components.map (fun c => (c.kind.toNat, c.index.toNat))
  let manifest := 128 + 96 * m.components.length + 1793 + 1280
  decide (have_.length = need.length) && need.all (fun k => have_.count k == 1) &&
  m.components.all (fun c => c.offset.toNat % 4096 == 0 && decide (manifest ≤ c.offset.toNat) &&
    decide (c.offset.toNat + c.length.toNat ≤ 0x4000000))

/-- R700 and R701 against a floor. -/
def manifestOk (variant : Nat) (floor : Word) (m : FwImage) : Bool :=
  m.magic == 0x4D46 && m.format == 1 && m.variant.toNat == variant &&
  m.count.toNat == (neededComponents variant).length && m.components.length == m.count.toNat &&
  decide (floor ≤ m.svn) && decide (m.floor ≤ m.svn) && componentsOk variant m && m.keyDigestOk && m.signatureOk

/-- R706, first two cases: MAGIC, VARIANT, LENGTH, BODYDIG, MINFW. -/
def cfgHeaderOk (variant : Nat) (fwVersion : DWord) (c : CfgImage) : Bool :=
  c.magic == 0x4346 && c.variant.toNat == variant && decide (c.length.toNat ≤ 96 * 2 ^ 20 - 4096) && c.bodyDigOk &&
  decide (c.minFw ≤ fwVersion)

/-- The version of the running manifest. -/
def State.fwVersion (s : State) : DWord := match s.upd.fwRun with | some m => m.version | none => 0

/-! ## Staging (R709 to R711) -/

/-- The code that a port wrote to UPD_CMD, which reads back. -/
def State.setUpdCmd (s : State) (v : Nat) : State := s.modUpd (fun u => { u with cmd := word v })

/-- A refused command (R710, R715): event 0x8007 with the reason. -/
def State.updRefuse (s : State) (r : Nat) : State :=
  (s.modUpd (fun u => { u with result := BitVec.ofNat 4 r })).raise 0x8007 (some r)

/-- The reasons 0x1 to 0x5 of R710, the first that holds. -/
def State.updReason (s : State) : Option Nat :=
  if !s.pin.motionN then some 1
  else if !s.pin.pwrHoldN then some 2
  else if s.upd.flash.ownerLock then some 3
  else if s.glb.st = .boot ∨ s.glb.st = .park then some 4
  else if s.upd.staging.isSome then some 5
  else none

/-- Ends a STAGE in progress (R711, R621): the slot INVALID, event 0x800D. -/
def State.endStaging (s : State) : State :=
  match s.upd.staging with
  | none => s
  | some g =>
    let i := match g with | .fw b _ => slotIndex false b | .cfg b _ => slotIndex true b
    ((s.modUpd (fun u => { u with staging := none })).modFlash (fun f => f.setSlotCode i 5)).raise 0x800D

/-- Starts a staging: the inactive slot is erased and STAGING, and the image is read from the owner's host (R709). -/
def State.startStaging (s : State) (g : Staging) : State :=
  let i := match g with | .fw b _ => slotIndex false b | .cfg b _ => slotIndex true b
  let s := s.modFlash (fun f => (match g with
    | .fw b _ => if b then { f with fwB := none } else { f with fwA := none }
    | .cfg b _ => if b then { f with cfgB := none } else { f with cfgA := none }).setSlotCode i 1)
  (s.modUpd (fun u => { u with staging := some g, result := 0, mib := 0 })).send
    (.hostRead s.host.owner s.upd.haddr s.upd.len.toNat)

/-- STAGE_FW (R709, R710). -/
def execStageFw (p : Port) (img : FwImage) (s : State) : Answer :=
  .next (s.ownerOnly p fun s =>
    let s := s.setUpdCmd 1
    match s.updReason with
    | some r => s.updRefuse r
    | none =>
      if 0x4000000 < s.upd.len.toNat ∨ img.svn < s.upd.floor then s.updRefuse 8
      else s.startStaging (.fw (!s.upd.ptr.fw) img))

/-- STAGE_CFG (R709, R710). A configuration image has no SVN, so reason 0x8 is its length alone. -/
def execStageCfg (p : Port) (img : CfgImage) (s : State) : Answer :=
  .next (s.ownerOnly p fun s =>
    let s := s.setUpdCmd 2
    match s.updReason with
    | some r => s.updRefuse r
    | none =>
      if 0x6000000 < s.upd.len.toNat then s.updRefuse 8 else s.startStaging (.cfg (!s.upd.ptr.cfg) img))

/-- The check of a staged image (R709, step 3). -/
def State.stagedOk (s : State) : Staging → Bool
  | .fw _ m => manifestOk s.glb.variant.toNat s.upd.floor m && m.components.all (fun c => c.digestOk)
  | .cfg _ c =>
    cfgHeaderOk s.glb.variant.toNat s.fwVersion c &&
    (match s.upd.flash.ownerKey with | none => true | some _ => c.ownerSigned && c.ownerSigOk)

/-- A staging ends (R709, steps 3 and 4): the slot STAGED or INVALID, event 0x8006 with 0 for a pass and a free code
otherwise. It pauses while a rehearsal spill writes the flash (R690). -/
def execUpdStaged (readOk : Bool) (s : State) : Answer :=
  .next (match s.upd.staging with
    | none => s
    | some g =>
      if s.reh.spilling then s
      else
        let ok := readOk && s.stagedOk g
        let i := match g with | .fw b _ => slotIndex false b | .cfg b _ => slotIndex true b
        let s := s.modFlash (fun f => (if readOk then (match g with
          | .fw b m => if b then { f with fwB := some m } else { f with fwA := some m }
          | .cfg b c => if b then { f with cfgB := some c } else { f with cfgA := some c }) else f).setSlotCode i
            (if ok then 2 else 5))
        let s := s.modUpd (fun u => { u with staging := none, mib := BitVec.ofNat 16 (u.len.toNat / 2 ^ 20) })
        if ok then s.raise 0x8006 (some 0)
        else let d := s.drawWord; d.2.raise 0x8006 (some d.1.toNat))

/-! ## Activation, confirmation, settings -/

/-- Writes a pointer record and takes it as the one in force. -/
def State.putPtr (s : State) (r : PtrRec) : State :=
  s.modUpd (fun u => { u with flash := u.flash.writePtr r, ptr := r })

/-- The configuration that would run has a MINFW above the VERSION of the firmware that would run (R710, reason 0x7). -/
def State.minFwBad (s : State) (fwB cfgB : Bool) : Bool :=
  match s.upd.flash.fwSlot fwB, s.upd.flash.cfgSlot cfgB with
  | some m, some c => decide (m.version < c.minFw)
  | _, _ => false

/-- ACTIVATE (R710, R713). -/
def execActivate (p : Port) (fw cfg : Bool) (s : State) : Answer :=
  .next (s.ownerOnly p fun s =>
    let s := s.setUpdCmd (3 + bitAt fw 4 + bitAt cfg 5)
    let cur := s.upd.ptr
    let nf := if fw then !cur.fw else cur.fw
    let nc := if cfg then !cur.cfg else cur.cfg
    match s.updReason with
    | some r => s.updRefuse r
    | none =>
      if cur.trial then s.updRefuse 6
      else if (fw && s.upd.flash.slotCode (slotIndex false nf) != 2) || (cfg && s.upd.flash.slotCode (slotIndex true nc) != 2)
          || s.minFwBad nf nc then s.updRefuse 7
      else
        ((s.putPtr ⟨cur.seq + 1, nf, nc, true, 0, cur.fw, cur.cfg, cur.lastRev, true⟩).modUpd (fun u => { u with result := 0 })).raise 0x8008)

/-- The slots that run become ACTIVE and the others that held a previous image PREVIOUS. -/
def Flash.settle (f : Flash) (fw cfg : Bool) : Flash :=
  let old := fun (f : Flash) (i : Nat) => if f.slotCode i = 3 ∨ f.slotCode i = 4 then f.setSlotCode i 7 else f
  let f := old (old f (slotIndex false (!fw))) (slotIndex true (!cfg))
  (f.setSlotCode (slotIndex false fw) 3).setSlotCode (slotIndex true cfg) 3

/-- GLB_STATE.TRIAL, valid in READY and RUN only (R7). -/
def State.trialReads (s : State) : Bool := s.glb.trial && s.readyOrRun

/-- CONFIRM (R715). -/
def execConfirm (p : Port) (s : State) : Answer :=
  .next (s.ownerOnly p fun s =>
    let s := s.setUpdCmd 4
    if s.trialReads then
      let cur := s.upd.ptr
      let s := s.putPtr { cur with seq := cur.seq + 1, trial := false }
      let s := s.modFlash (fun f => f.settle cur.fw cur.cfg)
      let s := { s with glb := { s.glb with trial := false } }
      (s.modUpd (fun u => { u with result := 0 })).raise 0x8009
    else s.updRefuse 9)

/-- ABORT (R711). -/
def execAbort (p : Port) (s : State) : Answer := .next (s.ownerOnly p fun s => (s.setUpdCmd 7).endStaging)

/-- The owner's settings now in force, as a record. -/
def State.settingsNow (s : State) (seq : Word) : Settings :=
  { seq := seq, limit := s.host.limit, precCtrl := s.prec.ctrl, rrb := s.prec.rrb,
    stkPatrol := (List.range 16).map (fun k => (k, word (bitAt (s.stkAt k).patrolEn 0 + (s.stkAt k).hours.toNat * 256))),
    spmPatrol := (List.range 64).map (fun c => (c, (s.cluAt c).patrolEn)), cap := s.pwr.cap }

/-- A copy's newest SEQ plus 1. -/
def SettingsCopy.nextSeq (c : SettingsCopy) : Word := match c.newest with | some r => r.seq + 1 | none => 0

/-- The copy S0 is in the running format. -/
def State.copy0Runs (s : State) : Bool := s.upd.flash.set0.format == s.upd.setFormat

/-- SAVE_SETTINGS (R718, R720): appends to the copy of the running format, during a trial to both. -/
def execSaveSettings (p : Port) (s : State) : Answer :=
  .next (s.ownerOnly p fun s =>
    let s := s.setUpdCmd 6
    let put := fun (c : SettingsCopy) => { c with newest := some (s.settingsNow c.nextSeq) }
    let to0 := s.copy0Runs || s.upd.ptr.trial
    let to1 := !s.copy0Runs || s.upd.ptr.trial
    (s.modFlash (fun f => { f with
      set0 := if to0 then put f.set0 else f.set0, set1 := if to1 then put f.set1 else f.set1 })).modUpd
      (fun u => { u with result := 0 }))

end Sys2Proof.Machine
end

