-- ==== Sys2Proof/Machine/Security.lean ====
section
/-! DEFINITION. Identity, owner key and the attestation mailbox (15, R691 to R694, R723 to R729). -/

namespace Sys2Proof.Machine

/-- DEVID: the SHAKE256 digest of the device public key (R693). -/
def deviceId : List Byte := shake256 (Config.falconPublic Config.identitySeed) 64

/-- Bytes 0 … n − 1 of the port's mailbox. -/
def PortSt.mbxBytes (x : PortSt) (n : Nat) : List Byte := Tab.range 0 x.mbx 0 n

/-- Starts a mailbox operation on a port (R728): the command word reads back, BUSY is set, and the result and the
response wait for the operation's end. A command written while an operation runs starts none (log 21). -/
def State.mbxStart (s : State) (p : Port) (op len : Nat) (f : State → Word × List Byte × State) : State :=
  let s := s.modPort p (fun x => { x with mbxCmd := word (op + len * 65536) })
  match (s.port p).mbxRun with
  | some _ => s
  | none =>
    let r := f s
    r.2.2.modPort p (fun x => { x with mbxStatus := 1, mbxRun := some (r.1.toNat % 16, r.2.1) })

/-- A mailbox operation ends: the response at the start of the mailbox, the result and its length (R728). -/
def execMailboxDone (p : Port) (s : State) : Answer :=
  .next (match (s.port p).mbxRun with
    | none => s
    | some (r, l) => s.modPort p (fun x => { x with
        mbxRun := none, mbx := Tab.setRange 0 x.mbx 0 l,
        mbxStatus := word (r % 16 * 16 + l.length * 65536) }))

/-- CERT: the device certificate, on both ports. -/
def execCert (p : Port) (s : State) : Answer :=
  .next (s.via p fun s => s.mbxStart p 1 0 fun s => (0, Config.deviceCertificate, s))

/-- Bytes 0–391 of an attestation report (R729). -/
def State.attReport (s : State) (nonce : List Byte) : List Byte :=
  let u := s.upd
  let m := match u.fwRun with | some i => leBytes 64 i.manifestDigest.toNat | none => List.replicate 64 (0 : Byte)
  let c := match u.cfgRun with | some i => leBytes 64 i.bodyDig.toNat | none => List.replicate 64 (0 : Byte)
  let rec_ := match (if s.copy0Runs then u.flash.set0 else u.flash.set1).newest with
    | some r => Config.settingsRecord (([r.seq.toNat, r.limit.toNat, r.precCtrl.toNat, r.rrb.toNat, r.cap.toNat] : List Nat) ++
        r.stkPatrol.map (fun e => e.2.toNat) ++ r.spmPatrol.map (fun e => if e.2 then 1 else 0))
    | none => Config.settingsRecord []
  let key := match u.flash.ownerKey with | some k => shake256 k 64 | none => List.replicate 64 (0 : Byte)
  let st := match s.glb.st with | .safe => 1 | .boot => 2 | .ready => 3 | .run => 4 | .park => 5 | .off => 0
  leBytes 2 0x4154 ++ leBytes 2 1 ++ leBytes 1 s.glb.variant.toNat ++ leBytes 1 (st + bitAt s.trialReads 4) ++
  leBytes 1 (bitAt s.trialReads 0 + bitAt u.flash.ownerLock 1 + bitAt u.flash.ownerKey.isSome 2 + bitAt s.cfg.paired 3) ++
  leBytes 1 u.ptr.lastRev.toNat ++ leBytes 64 s.sec.devId.toNat ++ (nonce ++ List.replicate (32 - nonce.length) (0 : Byte)) ++ m ++ c ++
  shake256 rec_ 64 ++ leBytes 8 s.fwVersion.toNat ++
  leBytes 4 (match u.fwRun with | some i => i.svn.toNat | none => 0) ++ leBytes 4 u.floor.toNat ++
  leBytes 4 u.flash.starts.toNat ++ key ++ leBytes 8 s.tick.count.toNat ++ leBytes 4 0

/-- ATTEST: the report over the nonce in the mailbox, signed with the device key (R729). -/
def execAttest (p : Port) (s : State) : Answer :=
  .next (s.via p fun s => s.mbxStart p 2 32 fun s =>
    let r := s.attReport ((s.port p).mbxBytes 32)
    (0, r ++ Config.falconSign Config.identitySeed r, s))

/-- CHALLENGE (R725). -/
def execChallenge (p : Port) (s : State) : Answer :=
  .next (s.ownerOnly p fun s => s.mbxStart p 3 0 fun s =>
    let n := s.upd.flash.challenge + 1
    let c := (shake256 (Config.macKey ++ leBytes 64 s.sec.devId.toNat ++ leBytes 4 n.toNat) 64).take 32
    (0, c, { s.modFlash (fun f => { f with challenge := n }) with sec := { s.sec with chal := some c } }))

/-- The first check of a token that fails (R727). -/
def State.tokenFails (s : State) (t : List Byte) : Option Nat :=
  if leAt t 4 64 ≠ s.sec.devId.toNat then some 0
  else if s.sec.chal ≠ some ((t.drop 68).take 32) then some 1
  else if !(match s.upd.flash.ownerKey with
      | some k => Config.falconVerify k (t.take 164) ((t.drop 164).take 1280) | none => false) then some 2
  else if byteAt t 2 = 2 ∧ shake256 ((t.drop 1444).take 1793) 64 ≠ (t.drop 100).take 64 then some 3
  else none

/-- A token's action (R726, R727). -/
def Flash.tokenAct (f : Flash) (t : List Byte) : Flash :=
  match byteAt t 2 with
  | 1 => { f with ownerLock := false }
  | 2 => { f with ownerKey := some ((t.drop 1444).take 1793) }
  | 3 => { f with ownerLock := false, ownerKey := none }
  | _ => f

/-- TOKEN (R727): the result byte is 0 for a pass and a free code otherwise. -/
def execToken (p : Port) (len : BitVec 16) (s : State) : Answer :=
  .next (s.ownerOnly p fun s => s.mbxStart p 4 len.toNat fun s =>
    let t := (s.port p).mbxBytes len.toNat
    let s' := { s with sec := { s.sec with chal := none } }
    match s.tokenFails t with
    | none => (0, [0], s'.modFlash (fun f => f.tokenAct t))
    | some k =>
      let d := (s'.raise 0x800B (some (Config.tokenCheck k).toNat)).drawWord
      (d.1, leBytes 1 d.1.toNat, d.2))

/-- ENROLL (R723). -/
def execEnroll (p : Port) (len : BitVec 16) (s : State) : Answer :=
  .next (s.ownerOnly p fun s => s.mbxStart p 5 len.toNat fun s =>
    if s.upd.flash.ownerKey.isNone ∧ (s.glb.st = .ready ∨ s.glb.st = .safe) then
      (0, [0], s.modFlash (fun f => { f with ownerKey := some ((s.port p).mbxBytes len.toNat) }))
    else let d := s.drawWord; (d.1, leBytes 1 d.1.toNat, d.2))

/-- LOCK (R724). -/
def execLock (p : Port) (s : State) : Answer :=
  .next (s.ownerOnly p fun s => s.mbxStart p 6 0 fun s => (0, [0], s.modFlash (fun f => { f with ownerLock := true })))

end Sys2Proof.Machine
end

