-- ==== Sys2Proof/Machine/HostRings.lean ====
section
/-! DEFINITION. Host rings, doorbells, the admission and command rings, result and event writing, interrupts
(13, R622 to R648, R805, R806). -/

namespace Sys2Proof.Machine

/-! ## Ring registers and doorbells -/

/-- A refused doorbell or ring register write (R624, R625): event 0x6009, HOST_ERR.DOORBELL. -/
def State.doorbellBad (s : State) : State := (s.modHost (fun h => { h with err := h.err ||| 4 })).raise 0x6009

/-- A refused BAR0 or BAR4 access (R607, R611): event 0x600B, HOST_ERR.BAR_ACCESS. -/
def State.barRefuse (s : State) : State := (s.modHost (fun h => { h with err := h.err ||| 8 })).raise 0x600B

/-- A value written to a tail doorbell lies within the ring (R625). -/
def HostRingSt.tailOk (r : HostRingSt) (v : Word) : Bool := r.en && decide ((v - r.head).toNat ≤ r.entries)

/-- A value written to a head doorbell lies within the ring (R625). -/
def HostRingSt.headOk (r : HostRingSt) (v : Word) : Bool := r.en && decide ((r.tail - v).toNat ≤ r.entries)

/-- DB_ADM_TAIL. -/
def execDbAdmTail (p : Port) (v : Word) (s : State) : Answer :=
  .next (s.ownerOnly p fun s =>
    if s.host.adm.tailOk v then
      (s.modHost (fun h => { h with adm := { h.adm with tail := v } })).modPort p (fun x => { x with dbAdm := v })
    else s.doorbellBad)

/-- DB_CMD_TAIL. -/
def execDbCmdTail (p : Port) (v : Word) (s : State) : Answer :=
  .next (s.ownerOnly p fun s =>
    if s.host.cmd.tailOk v then
      (s.modHost (fun h => { h with cmd := { h.cmd with tail := v } })).modPort p (fun x => { x with dbCmd := v })
    else s.doorbellBad)

/-- DB_RES_HEAD. -/
def execDbResHead (p : Port) (v : Word) (s : State) : Answer :=
  .next (s.ownerOnly p fun s =>
    if s.host.res.headOk v then
      (s.modHost (fun h => { h with res := { h.res with head := v } })).modPort p (fun x => { x with dbRes := v })
    else s.doorbellBad)

/-- DB_EVT_HEAD. -/
def execDbEvtHead (p : Port) (v : Word) (s : State) : Answer :=
  .next (s.ownerOnly p fun s =>
    if s.host.evt.headOk v then
      (s.modHost (fun h => { h with evt := { h.evt with head := v } })).modPort p (fun x => { x with dbEvt := v })
    else s.doorbellBad)

/-- The base with one half written; bits [11:0] are reserved (R623, R12). -/
def setBase (b : DWord) (hi : Bool) (v : Word) : DWord :=
  BitVec.ofNat 64 (if hi then v.toNat * 2 ^ 32 + b.toNat % 2 ^ 32
    else b.toNat / 2 ^ 32 * 2 ^ 32 + v.toNat / 4096 * 4096)

/-- HOST_RING_BASE: accepted only while the ring is disabled (R624). -/
def execHostRingBase (p : Port) (r : HostRing) (hi : Bool) (v : Word) (s : State) : Answer :=
  .next (s.ownerOnly p fun s =>
    let x := s.host.ring r
    if x.en then s.doorbellBad
    else s.modHost (fun h => h.setRing r { x with base := setBase x.base hi v }))

/-- Frames that came from an admission ring which starts anew stay with their slots and release nothing (R624, R650). -/
def State.orphanInputs (s : State) : State :=
  let orphan := fun (f : InputFrame) => { f with index := none }
  { s with slots := s.slots.map (fun e => (e.1, { e.2 with inputs := e.2.inputs.map orphan, fed := e.2.fed.map orphan })) }

/-- HOST_RING_CFG: LOG2N in [4:0], EN in [8] (R624). -/
def execHostRingCfg (p : Port) (r : HostRing) (v : Word) (s : State) : Answer :=
  .next (s.ownerOnly p fun s =>
    let x := s.host.ring r
    let n : BitVec 5 := BitVec.ofNat 5 v.toNat
    let en := v.getLsbD 8
    if x.en && n != x.log2n then s.doorbellBad
    else if !x.en && en && !(decide (6 ≤ n.toNat) && decide (n.toNat ≤ 16)) then s.doorbellBad
    else if !x.en && en then
      let s := s.modHost (fun h => h.setRing r { x with log2n := n, en := true, head := 0, tail := 0 })
      match r with
      | .admission => ((s.modHost (fun h => { h with admRead := 0, admReleased := [] })).orphanInputs).modPort p
          (fun y => { y with dbAdm := 0 })
      | .command => s.modPort p (fun y => { y with dbCmd := 0 })
      | .result => s.modPort p (fun y => { y with dbRes := 0 })
      | .event => s.modPort p (fun y => { y with dbEvt := 0 })
    else s.modHost (fun h => h.setRing r { x with log2n := n, en := en }))

/-- RING_READ: a read of an admission or command entry failed (R628). -/
def execRingRead (cmdRing : Bool) (s : State) : Answer :=
  .next (let r := if cmdRing then s.host.cmd else s.host.adm
    if !r.en then s
    else (s.modHost (fun h => if cmdRing then { h with cmd := { h.cmd with en := false }, err := h.err ||| 2 }
      else { h with adm := { h.adm with en := false }, err := h.err ||| 1 })).raise 0x6008)

/-! ## Admission ring (R632 to R637) -/

/-- An admission entry waits to be read: the ring is enabled, the port can read it, it lies before the tail. -/
def State.admWaiting (s : State) : Bool :=
  s.host.adm.en && s.ownerPort.canIssue && s.host.admRead != s.host.adm.tail && s.readyOrRun

/-- HEAD passes every entry that is released with every earlier one (R634). -/
def advanceHead : Nat → Word → List Nat → Word × List Nat
  | 0, h, l => (h, l)
  | n + 1, h, l => if l.contains h.toNat then advanceHead n (h + 1) (dropKey l h.toNat) else (h, l)

/-- Releases admission entry i (R634). -/
def State.admRelease (s : State) (i : Word) : State :=
  s.modHost (fun h =>
    let r := advanceHead (h.admReleased.length + 1) h.adm.head (addKey h.admReleased i.toNat)
    { h with adm := { h.adm with head := r.1 }, admReleased := r.2 })

/-- Takes the entry that waits: its index, and the ring with it read. -/
def State.admTake (s : State) : Word × State := (s.host.admRead, s.modHost (fun h => { h with admRead := h.admRead + 1 }))

/-- An entry is rejected: counted, its event raised, released unused (R633). -/
def State.admReject (s : State) (i : Word) (code : Nat) : State :=
  ((s.modHost (fun h => { h with rejects := bump h.rejects })).raise code).admRelease i

/-- A device address of an entry lies in the fast tier (R633). -/
def State.fastAddr (s : State) (a : Nat) : Bool := decide (s.place a = .fast)

/-- The stream output conditions of R633. -/
def State.outOk (s : State) (e : List Byte) : Bool :=
  decide (leAt e 44 4 ≠ 0) && decide (s.cfg.streamOut ≤ leAt e 40 4)

/-- PLOC and OLOC addresses (R633). -/
def State.locOk (s : State) (e : List Byte) : Bool :=
  (!bitOf (byteAt e 2) 1 || s.fastAddr (leAt e 24 8)) && (!bitOf (byteAt e 2) 2 || s.fastAddr (leAt e 32 8))

/-- VEC lies in 2–63. -/
def vecOk (e : List Byte) : Bool := decide (2 ≤ byteAt e 3 ∧ byteAt e 3 ≤ 63)

/-- The KV limit of R540 for a token slot: over the dies that hold KV (log 25). -/
def State.kvSlotOk (s : State) (slot : Nat) : Bool :=
  (List.range 4).all (fun d => let c := (s.kvAt d).cfg.toNat
    field c 25 20 == 0 || decide (slot < field c 19 11))

/-- The rules of R633 for an ADMIT. -/
def State.admitRules (s : State) (e : List Byte) : Bool :=
  entryCheckOk e && vecOk e && s.locOk e &&
  (if bitOf (byteAt e 2) 0 then decide (leAt e 20 4 = 0) && s.outOk e
   else decide (leAt e 20 4 ≠ 0) && decide (leAt e 20 4 < leAt e 4 4))

/-- An ADMIT is accepted by the chain head (R481, R540, R656). -/
def State.admitOk (s : State) (e : List Byte) : Bool :=
  let i := byteAt e 1
  s.admitRules e && (s.slot i).state == 0 &&
  (!s.cfg.paired || decide (s.admittedCount < 128)) && (bitOf (byteAt e 2) 0 || s.kvSlotOk i)

/-- A slot started from an admission entry: nothing confirmed yet (R482). -/
def slotFrom (e : List Byte) (order : Nat) : SlotSt :=
  let f := byteAt e 2
  let p : SlotPtrs := ⟨0, 0, word (leAt e 20 4), 0xFFFFFFFF⟩
  { SlotSt.reset with
    state := 1, kind := bitOf f 0, com := p, new := p, order := order, maxLen := word (leAt e 4 4),
    seed := BitVec.ofNat 64 (leAt e 8 8), stop := word (leAt e 16 4), promptLen := word (leAt e 20 4),
    promptAddr := BitVec.ofNat 64 (leAt e 24 8), ploc := bitOf f 1, oloc := bitOf f 2, vec := BitVec.ofNat 8 (byteAt e 3),
    outBase := BitVec.ofNat 64 (leAt e 32 8), outStride := word (leAt e 40 4), outN := word (leAt e 44 4),
    tag := BitVec.ofNat 64 (leAt e 48 8), entry := e }

/-- Ticks run once a slot is admitted (R476). -/
def State.enterRun (s : State) : State := if s.glb.st = .ready then s.goto .run else s

/-- An entry whose OP is none of the ring's (R633), for the rows of every OP. -/
def State.badOp (s : State) : State := let t := s.admTake; t.2.admReject t.1 0x6006

/-- ADMIT (R481, R633, R634, R498): at the chain head the slot is admitted or the entry rejected; above position 0 the
entry is kept for the slot's first step. -/
def execAdmitEntry (e : List Byte) (s : State) : Answer :=
  .next (if !s.admWaiting then s
    else if 4 < byteAt e 0 ∨ byteAt e 0 = 0 then s.badOp
    else if byteAt e 0 ≠ 1 then s
    else
      let t := s.admTake
      let i := byteAt e 1
      if s.isHead then
        if s.admitOk e then
          let s := t.2.modSlot i (fun _ => slotFrom e s.host.admSeq)
          ((s.modHost (fun h => { h with admits := bump h.admits, admSeq := h.admSeq + 1 })).admRelease t.1).enterRun
        else t.2.admReject t.1 0x1006
      else if s.admitRules e then
        ((t.2.modSlot i (fun x => { x with local_ := some e })).modHost (fun h => { h with admits := bump h.admits })).admRelease t.1
      else t.2.admReject t.1 0x1006)

/-- The slot has a step pending (R488): between its cue and its confirmation. -/
def State.slotPending (s : State) (i : Nat) : Bool :=
  (match s.tick.running with | some r => r.stepM.getLsbD i | none => false) ||
  s.tick.pend.any (fun e => e.2.stepM.getLsbD i)

/-- CANCEL (R488, R490). Above position 0 a cancel entry starts and ends nothing (R481). -/
def execCancelEntry (e : List Byte) (s : State) : Answer :=
  .next (if !s.admWaiting then s
    else if 4 < byteAt e 0 ∨ byteAt e 0 = 0 then s.badOp
    else if byteAt e 0 ≠ 2 then s
    else
      let t := s.admTake
      let i := byteAt e 1
      if !entryCheckOk e then t.2.admReject t.1 0x1006
      else if !s.isHead then t.2.admRelease t.1
      else if (s.slot i).state = 0 then t.2.admReject t.1 0x1006
      else if s.slotPending i then (t.2.modSlot i (fun x => { x with cancel := true })).admRelease t.1
      else (t.2.modSlot i (fun x => { x with state := 5 })).admRelease t.1)

/-- An INPUT is accepted (R633). -/
def State.inputOk (s : State) (e : List Byte) : Bool :=
  let x := s.slot (byteAt e 1)
  entryCheckOk e && x.state != 0 && x.kind && decide (field (byteAt e 2) 3 2 ≠ 3) && decide (leAt e 4 4 ≤ s.cfg.streamIn) &&
  (!bitOf (byteAt e 2) 1 || s.fastAddr (leAt e 8 8))

/-- INPUT (R509, R633, R635, R636): one frame for its slot; the entry is released at the step's confirmation. With
ILOC = 1 the body is read from device memory. -/
def execInputEntry (e : List Byte) (body : List Byte) (s : State) : Answer :=
  .next (if !s.admWaiting then s
    else if 4 < byteAt e 0 ∨ byteAt e 0 = 0 then s.badOp
    else if byteAt e 0 ≠ 3 then s
    else
      let t := s.admTake
      if !s.isHead then (t.2.raise 0x6006).admRelease t.1
      else if s.inputOk e then
        let b := if bitOf (byteAt e 2) 1 then s.peek (leAt e 8 8) (leAt e 4 4) else body
        t.2.modSlot (byteAt e 1) (fun x => { x with
          inputs := x.inputs ++ [⟨some t.1, BitVec.ofNat 2 (field (byteAt e 2) 3 2), b⟩] })
      else t.2.admReject t.1 0x6006)

/-- INPUT_BODY_FAIL (R806). -/
def execInputBodyFail (e : List Byte) (s : State) : Answer :=
  .next (if !s.admWaiting ∨ byteAt e 0 ≠ 3 then s else let t := s.admTake; t.2.admReject t.1 0x6006)

/-- A BIND is accepted (R633). -/
def State.bindOk (s : State) (e : List Byte) : Bool :=
  let x := s.slot (byteAt e 1)
  entryCheckOk e && vecOk e && s.locOk e && x.state != 0 && (!x.kind || s.outOk e)

/-- A slot's entry after a BIND: the ADMIT entry under the bindings of the BIND (R633, R637). -/
def mergeEntry (old new : List Byte) : List Byte :=
  if old.length = 64 then
    [byteAt old 0].map (fun n => BitVec.ofNat 8 n) ++ [new.getD 1 0, BitVec.ofNat 8 (byteAt old 2 % 2 + byteAt new 2 / 2 * 2), new.getD 3 0] ++
      (old.drop 4).take 20 ++ (new.drop 24).take 32 ++ old.drop 56
  else new

/-- BIND (R633, R637): the slot's buffers, vector and tag are the new owner's. -/
def execBindEntry (e : List Byte) (s : State) : Answer :=
  .next (if !s.admWaiting then s
    else if 4 < byteAt e 0 ∨ byteAt e 0 = 0 then s.badOp
    else if byteAt e 0 ≠ 4 then s
    else
      let t := s.admTake
      if s.bindOk e then
        (t.2.modSlot (byteAt e 1) (fun x => { x with
          vec := BitVec.ofNat 8 (byteAt e 3), ploc := bitOf (byteAt e 2) 1, oloc := bitOf (byteAt e 2) 2,
          promptAddr := BitVec.ofNat 64 (leAt e 24 8), outBase := BitVec.ofNat 64 (leAt e 32 8),
          outStride := word (leAt e 40 4), outN := word (leAt e 44 4), tag := BitVec.ofNat 64 (leAt e 48 8),
          entry := mergeEntry x.entry e, unbound := false })).admRelease t.1
      else t.2.admReject t.1 0x6006)

/-! ## Command ring (R644 to R648) -/

/-- A command entry waits: the ring is enabled, the port can read it, no command runs. -/
def State.cmdWaiting (s : State) : Bool :=
  s.host.cmd.en && s.ownerPort.canIssue && s.host.cmd.head != s.host.cmd.tail && s.host.run.isNone

/-- What a command came to: its status, the failing byte offset, the state. -/
structure CmdEnd where
  status : Nat
  failAt : Nat
  s : State

/-- The command runs in the present state (R645). -/
def State.cmdAllowed (s : State) (op daddr : Nat) : Bool :=
  match op with
  | 0 => s.readyOrRun || s.glb.st == .safe
  | 2 => s.readyOrRun || s.glb.st == .safe
  | 4 => s.readyOrRun || s.glb.st == .safe
  | _ => s.glb.st == .ready || (s.glb.st == .run && !(s.place daddr).isSpm)

/-- The first of n granules from a that no memory holds. -/
def State.firstHole (s : State) (a : Nat) : Nat → Option Nat
  | 0 => none
  | n + 1 => if (s.place a).isStack || (s.place a).isSpm then s.firstHole (a + 32) n else some a

/-- An access to an address without memory (R3, R351, R553): the event of its range. -/
def State.holeEvent (s : State) (a : Nat) : State :=
  if 0x40000000000 ≤ a ∧ a < 0x40040000000 then
    (s.modClu ((a - 0x40000000000) / 0x1000000) (fun c => { c with reach := bump c.reach })).raise 0x4141
  else s.raise 0x4108

/-- The target range of a command that did not succeed holds undefined bytes (R647): every granule that exists. -/
def State.scramble (s : State) (a : Nat) : Nat → State
  | 0 => s
  | n + 1 =>
    let s := s.scramble a n
    let x := a + 32 * n
    if (s.place x).isStack || (s.place x).isSpm then let d := s.drawBytes 32; d.2.writeDev x d.1 else s

/-- Reads n granules from a; the offset of the first that does not deliver. -/
def State.readEach (s : State) (a off : Nat) : Nat → Option Nat × State
  | 0 => (none, s)
  | n + 1 =>
    let r := s.readDev (a + off) 32
    if r.1 then r.2.readEach a (off + 32) n else (some off, r.2)

/-- The common course of a command (R645, R646): read, checked, run, and left running until CMD_DONE. -/
def State.runCmd (s : State) (e : List Byte) (op : Nat) (f : State → CmdEnd) : State :=
  if !s.cmdWaiting then s
  else if byteAt e 0 ≠ op ∧ byteAt e 0 ≤ 4 then s
  else
    let s := s.modHost (fun h => { h with cmd := { h.cmd with head := h.cmd.head + 1 } })
    let daddr := leAt e 16 8
    let len := leAt e 24 8
    let r : CmdEnd :=
      if !entryCheckOk e then ⟨1, 0, s⟩
      else if 4 < byteAt e 0 ∨ (op ≠ 0 ∧ (daddr % 32 ≠ 0 ∨ len % 32 ≠ 0)) then ⟨2, 0, s⟩
      else if !s.cmdAllowed op daddr then ⟨6, 0, s⟩
      else if op = 0 then ⟨0, 0, s⟩
      else match s.firstHole daddr (len / 32) with
        | some a => ⟨3, a - daddr, (if op = 1 ∨ op = 3 then s.scramble daddr (len / 32) else s).holeEvent a⟩
        | none => f s
    r.s.modHost (fun h => { h with run := some ⟨BitVec.ofNat 8 (byteAt e 0), BitVec.ofNat 8 r.status, r.failAt,
      BitVec.ofNat 64 (leAt e 48 8), daddr, len⟩ })

/-- CMD_NOP. -/
def execCmdNop (e : List Byte) (s : State) : Answer := .next (s.runCmd e 0 (fun s => ⟨0, 0, s⟩))

/-- LOAD: `data` is what the host returned. -/
def execLoad (e : List Byte) (data : HostRead) (s : State) : Answer :=
  .next (s.runCmd e 1 (fun s =>
    match data with
    | .bytes l => ⟨0, 0, (s.send (.hostRead s.host.owner (BitVec.ofNat 64 (leAt e 8 8)) (leAt e 24 8))).writeDev
        (leAt e 16 8) (l.take (leAt e 24 8))⟩
    | .failed => ⟨4, 0, s.scramble (leAt e 16 8) (leAt e 24 8 / 32)⟩))

/-- STORE. -/
def execStore (e : List Byte) (s : State) : Answer :=
  .next (s.runCmd e 2 (fun s =>
    let r := s.readEach (leAt e 16 8) 0 (leAt e 24 8 / 32)
    match r.1 with
    | some off => ⟨5, off, r.2⟩
    | none => ⟨0, 0, r.2.hostWrite s.host.owner (leAt e 8 8) (s.peek (leAt e 16 8) (leAt e 24 8))⟩))

/-- The pattern repeated over n × 8 bytes. -/
def repeatBytes (l : List Byte) : Nat → List Byte
  | 0 => []
  | n + 1 => l ++ repeatBytes l n

/-- FILL. -/
def execFill (e : List Byte) (s : State) : Answer :=
  .next (s.runCmd e 3 (fun s =>
    ⟨0, 0, s.writeDev (leAt e 16 8) (repeatBytes ((e.drop 32).take 8) (leAt e 24 8 / 8))⟩))

/-- The die that holds a granule. -/
def State.dieOf (s : State) (a : Nat) : Nat :=
  match s.place a with
  | .spm r _ => (regionClu r).die.val
  | _ => (s.stackMap a).die

/-- The bytes of a range that lie on die d, in address order. -/
def State.dieShare (s : State) (d a : Nat) : Nat → List Byte
  | 0 => []
  | n + 1 => (if s.dieOf a = d then s.peek a 32 else []) ++ s.dieShare d (a + 32) n

/-- The digest of a range: each die's share, then the dies' results in die order (R645). -/
def State.rangeDigest (s : State) (a n : Nat) : List Byte :=
  let shares := ((List.range 4).map (fun d => s.dieShare d a n)).filter (fun l => !l.isEmpty)
  shake256 (shares.flatMap (fun l => shake256 l 64)) 64

/-- DIGEST. -/
def execDigest (e : List Byte) (s : State) : Answer :=
  .next (s.runCmd e 4 (fun s =>
    let r := s.readEach (leAt e 16 8) 0 (leAt e 24 8 / 32)
    match r.1 with
    | some off => ⟨5, off, r.2⟩
    | none => ⟨0, 0, r.2.hostWrite s.host.owner (leAt e 8 8) (s.rangeDigest (leAt e 16 8) (leAt e 24 8 / 32))⟩))

/-- CMD_DONE: the running command completes by event 0x6001 with its TAG, its status and the failing offset ÷ 32. -/
def execCmdDone (s : State) : Answer :=
  .next (match s.host.run with
    | none => s
    | some r => (s.modHost (fun h => { h with run := none })).raise 0x6001
        (some (r.status.toNat + (if r.status = 0 then 0 else r.failAt / 32 % 2 ^ 24 * 256))) (some r.tag.toNat))

/-! ## Result and event rings (R626, R629 to R631, R640, R642) -/

/-- The phase bit of index i (R626). -/
def phaseBit (i n : Nat) : Nat := (i / n + 1) % 2

/-- The 32 bytes of a result entry. -/
def resBytes (r : ResEntry) (ph : Nat) : List Byte :=
  leBytes 1 r.slot.toNat ++ leBytes 1 r.status.toNat ++ leBytes 1 ph ++ leBytes 1 0 ++ leBytes 4 r.step.toNat ++
  leBytes 4 r.value.toNat ++ leBytes 4 r.outLen.toNat ++ leBytes 8 r.tag.toNat ++ leBytes 8 r.tick.toNat

/-- The 32 bytes of an event entry. -/
def evtBytes (r : EvtEntry) (ph : Nat) : List Byte :=
  leBytes 2 r.code.toNat ++ leBytes 1 ph ++ leBytes 1 0 ++ leBytes 2 r.pos.toNat ++ leBytes 2 0 ++
  leBytes 8 r.tick.toNat ++ leBytes 8 r.arg0.toNat ++ leBytes 4 r.arg1.toNat ++ leBytes 4 r.lost.toNat

/-- The device may write index TAIL of a result or event ring (R626). -/
def State.ringRoom (s : State) (r : HostRingSt) : Bool :=
  r.en && s.ownerPort.canIssue && decide ((r.tail - r.head).toNat < r.entries)

/-- RESULT_WRITE (R626, R630). An entry that waits for the partner is not written (R667). -/
def execResultWrite (s : State) : Answer :=
  .next (match s.host.resq with
    | [] => s
    | e :: rest =>
      let r := s.host.res
      if e.wait || !s.ringRoom r then s
      else
        let i := r.tail.toNat
        let s := s.hostWrite s.host.owner (r.base.toNat + i % r.entries * 32) (resBytes e (phaseBit i r.entries))
        let s := s.modHost (fun h => { h with
          resq := rest, res := { h.res with tail := r.tail + 1 }, results := bump h.results })
        if e.lastOfVec then s.msix s.host.owner (e.vec.toNat % 64) else s)

/-- Writes the first event entry into the ring (R626). -/
def State.putEvent (s : State) : State :=
  match s.host.evtq with
  | [] => s
  | e :: rest =>
    let r := s.host.evt
    if !s.ringRoom r then s
    else
      let i := r.tail.toNat
      (s.hostWrite s.host.owner (r.base.toNat + i % r.entries * 32) (evtBytes e (phaseBit i r.entries))).modHost
        (fun h => { h with evtq := rest, evt := { h.evt with tail := r.tail + 1 } })

/-- EVENT_WRITE (R626, R631): vector 0 follows, at most once per 10 µs. -/
def execEventWrite (s : State) : Answer :=
  .next (if s.host.evtq.isEmpty || !s.ringRoom s.host.evt then s
    else
      let s := s.putEvent
      if s.host.vec0Limit then s.modHost (fun h => { h with vec0Due := true })
      else (s.modHost (fun h => { h with vec0Limit := true })).msix s.host.owner 0)

/-- EVENT_VECTOR_SEND (R631): 10 µs have passed since vector 0 was last sent. -/
def execEventVectorSend (s : State) : Answer :=
  .next (if s.host.vec0Due then (s.modHost (fun h => { h with vec0Due := false })).msix s.host.owner 0
    else s.modHost (fun h => { h with vec0Limit := false }))

/-- MSIX_PENDING (R805): a pending message is sent once, as soon as the port can send again. -/
def execMsixPending (p : Port) (vec : Fin 64) (s : State) : Answer :=
  .next (let x := s.port p
    if x.msixPend.getLsbD vec.val && x.canMsix vec.val then
      (s.modPort p (fun x => { x with msixPend := x.msixPend &&& ~~~(BitVec.ofNat 64 (2 ^ vec.val)) })).send (.msix p vec.val)
    else s)

end Sys2Proof.Machine
end

