-- ==== Sys2Proof/Machine/Twin.lean ====
section
/-! DEFINITION. Twin pairing: HELLO, heartbeats, mirrors from the partner, adoption, weight re-fetch
(14, R655 to R680). -/

namespace Sys2Proof.Machine

/-! ## HELLO (R659 to R662) -/

/-- The layer digest of the running configuration. -/
def State.layerDig (s : State) : BitVec 512 := match s.upd.cfgRun with | some c => c.layerDig | none => 0

/-- The device's HELLO (R663). -/
def State.helloMsg (s : State) : HelloMsg :=
  { side := s.cfg.side, variant := s.glb.variant, cpos := BitVec.ofNat 8 s.chainPos, clen := BitVec.ofNat 8 s.chainLen,
    tick := s.tick.count, period := word s.tick.period.toNat, tickMax := word s.tick.tickMax.toNat, layerDig := s.layerDig }

/-- HELLO_SEND (R661): in WAIT, on a TWIN port that is UP. -/
def execHelloSend (lp : Fin 8) (s : State) : Answer :=
  .next (if s.twin.state = 1 ∧ (s.lnkAt lp.val).role = 2 then s.sendOn lp.val 88 (.hello lp.val s.helloMsg) else s)

/-- The HELLO check of R661: every figure equal and the other SIDE. -/
def State.helloOk (s : State) (m : HelloMsg) : Bool :=
  let o := s.helloMsg
  m.side != o.side && m.variant == o.variant && m.cpos == o.cpos && m.clen == o.clen && m.period == o.period &&
  m.tickMax == o.tickMax && m.layerDig == o.layerDig

/-- A window of the device's own opens over a range of memory, with the partner as its only source (R664, R751; log 76). -/
def State.openOwn (s : State) (w base bytes : Nat) : State :=
  if (s.windowAt w).state ≠ 0 ∨ bytes = 0 then s
  else (s.modWindow w (fun x => { x with
    base := BitVec.ofNat 44 base, sizeM1 := BitVec.ofNat 29 (bytes / 32 - 1),
    src := word (0xFFFFFF00 + (s.lnkAt 2).peerId.toNat), cmd := 2 })).openWindow w

/-- The windows of a device that enters PAIRED: 48 over TWIN_STAGE and, where REH_PEER is set, 50 over the ring there
(log 76). -/
def State.openPaired (s : State) : State :=
  let s := s.openOwn 48 s.cfg.stageBase.toNat (s.cfg.stagePages.toNat * 4096)
  if s.cfg.rehPeer = 0 then s else s.openOwn 50 (s.cfg.rehPeer.toNat * 4096) (s.cfg.rehSize.toNat * 4096)

/-- HELLO (R659, R661, R662). -/
def execHello (lp : Fin 8) (h : FlitHdr) (m : HelloMsg) (s : State) : Answer :=
  .next (s.recvCtrl lp.val h fun s =>
    let s := s.modTwin (fun t => { t with helloTick := some m.tick })
    if s.twin.state ≠ 1 then s
    else if s.helloOk m then ((s.modTwin (fun t => { t with state := 2 })).raise 0x7001).openPaired
    else (s.modTwin (fun t => { t with state := 5 })).raise 0x7002)

/-! ## Heartbeats (R668, R673) -/

/-- Slots that the device serves, all set to FAULT where they are admitted (R673). -/
def State.faultSlots (s : State) (all : Bool) : State :=
  { s with slots := s.slots.map (fun e =>
      if e.2.state ≠ 0 ∧ (all ∨ !e.2.adopted) then (e.1, { e.2 with state := 6 }) else e) }

/-- HEARTBEAT (R668, R673). -/
def execHeartbeat (lp : Fin 8) (h : FlitHdr) (adopted : Bool) (_tick _applied : DWord) (s : State) : Answer :=
  .next (s.recvCtrl lp.val h fun s =>
    let s := s.modTwin (fun t => { t with beat := true, missed := 0, partAdopted := adopted })
    if !adopted then s
    else if s.twin.state ≠ 4 then (s.faultSlots false).raise 0x7007
    else if s.cfg.side then (s.faultSlots true).raise 0x7007
    else s)

/-! ## Mirrors from the partner (R664 to R666) -/

/-- MIRROR_COMMIT (R664, R666): the staged mirror starts to unpack. The command carries what the staged bytes hold
(log 41). -/
def execMirrorCommit (lp : Fin 8) (h : FlitHdr) (tick bytes : DWord) (slots : List MirrorSlot) (freed : BitVec 256)
    (s : State) : Answer :=
  .next (s.recvCtrl lp.val h fun s =>
    if s.twin.state = 2 ∨ s.twin.state = 3 then
      s.modTwin (fun t => { t with unpacking := some ⟨tick, slots, freed, bytes.toNat⟩ })
    else s)

/-- The KV bytes of a mirrored slot land in the logical addresses of slot s + 128, allocating pages (R657, R666): each
piece names its die in bits [45:44] of its place. -/
def State.unpackKv (s : State) (m : MirrorSlot) : State :=
  m.kv.foldl (fun s e => s.kvWrite (e.1 / 2 ^ 44 % 4) (e.1 % 2 ^ 44) e.2 (e.2.length / 65536 + 2)) s

/-- The step-parity buffers of a mirrored slot land at their places. -/
def State.unpackBuffers (s : State) (m : MirrorSlot) : State := m.buffers.foldl (fun s e => s.writeDev e.1 e.2) s

/-- A mirrored slot whose mirror carries no entry keeps the one that an earlier mirror carried (R664). -/
def keepEntry (x : MirrorSlot) (t : Tab MirrorSlot) : MirrorSlot :=
  if x.entry.isEmpty then { x with entry := (t.find? (fun e => e.1 == x.slot.val)).elim [] (fun e => e.2.entry) } else x

/-- The end of an unpacking (R666): the mirror slot table switches, the slots of the freed mask are freed, and MIRROR_APPLIED
goes out. -/
def State.mirrorUnpacked (s : State) : State :=
  match s.twin.unpacking with
  | none => s
  | some m =>
    let s := m.slots.foldl (fun s x => (s.unpackKv x).unpackBuffers x) s
    let s := s.modTwin (fun t => { t with
      unpacking := none, mirrorTick := m.tick,
      mirror := m.slots.foldl (fun t x => Tab.put t x.slot.val (keepEntry x t)) t.mirror,
      mirrorTicks := m.slots.foldl (fun t x => Tab.set 0 t x.slot.val (word m.tick.toNat)) t.mirrorTicks })
    let gone := (maskList m.freed).filter (fun i => decide (i < 128))
    let s := s.modTwin (fun t => { t with mirror := t.mirror.filter (fun e => !gone.contains e.1) })
    let s := gone.foldl (fun s i => s.kvQueueFree (i + 128)) s
    s.sendTwin 16 (.mirrorApplied m.tick)

/-- MIRROR_APPLY_DONE (R666). -/
def execMirrorApplyDone (s : State) : Answer := .next s.mirrorUnpacked

/-! ## Adoption (R669 to R672) -/

/-- ADOPT (R669): a write of 1 to TWIN_CMD.ADOPT while PAIRED or LOST decides an adoption at the next cue. -/
def execAdopt (p : Port) (v : Word) (s : State) : Answer :=
  .next (s.ownerOnly p fun s =>
    let s := s.modTwin (fun t => { t with adoptCmd := v.getLsbD 0 })
    if v.getLsbD 0 ∧ (s.twin.state = 2 ∨ s.twin.state = 3) then s.modTwin (fun t => { t with adoptReq := true }) else s)

/-- The slot that a mirrored slot becomes (R670, R671): its entry's bindings, the mirrored committed state. -/
def adoptSlot (m : MirrorSlot) (order : Nat) : SlotSt :=
  let e := m.entry
  let f := byteAt e 2
  let p : SlotPtrs := ⟨m.step, m.kvLen, m.promptLeft, m.lastToken⟩
  { SlotSt.reset with
    state := m.state, kind := m.kind, com := p, new := p, order := order, entry := e,
    maxLen := word (leAt e 4 4), seed := BitVec.ofNat 64 (leAt e 8 8),
    stop := word (leAt e 16 4), promptLen := word (leAt e 20 4),
    promptAddr := BitVec.ofNat 64 (leAt e 24 8), ploc := bitOf f 1, oloc := bitOf f 2, vec := BitVec.ofNat 8 (byteAt e 3),
    outBase := BitVec.ofNat 64 (leAt e 32 8), outStride := word (leAt e 40 4), outN := word (leAt e 44 4),
    tag := BitVec.ofNat 64 (leAt e 48 8), unbound := !bitOf f 1 || !bitOf f 2, adopted := true }

/-- The four steps of R670. An unpacking in progress ends first, so it has ended when the adoption runs. -/
def State.adoptNow (s : State) : State :=
  let take := s.twin.mirror.filter (fun e => e.2.state != 0)
  let s := take.foldl (fun s e => (s.modSlot (e.1 + 128) (fun _ => adoptSlot e.2 s.host.admSeq)).modHost
    (fun h => { h with admSeq := h.admSeq + 1 })) s
  let s := if (s.windowAt 48).state = 1 then s.closeWindow 48 else s
  let s := s.modTwin (fun t => { t with
    state := 4, adoptReq := false, adoptedMask := t.adoptedMask ||| maskOf (take.map (fun e => e.1 + 128)) })
  s.raise 0x7004 (some take.length)

/-! ## Weight re-fetch (R676 to R679) -/

/-- The reason of R663 to refuse a REQUEST, if any: 0x3 the state, 0x2 outside the weight ranges, 0x1 an uncorrectable
read (their order: log 42). -/
def State.serveRefetch (s : State) (a n : Nat) : Option Nat × State :=
  if !s.readyOrRun || (s.handleAt 63).state != 1 then (some 3, s)
  else if !s.isWeight a then (some 2, s)
  else
    let r := s.readDev a n
    if r.1 then (none, r.2) else (some 1, r.2)

/-- REFETCH_REQUEST (R677): the block goes through handle 63 into the requester's window 49; DONE follows the WACK. -/
def execRefetchRequest (lp : Fin 8) (h : FlitHdr) (_epoch : BitVec 16) (addr : BitVec 44) (len : Word) (s : State) : Answer :=
  .next (s.recvCtrl lp.val h fun s =>
    let r := s.serveRefetch addr.toNat len.toNat
    match r.1 with
    | some why => r.2.sendTwin 16 (.refetchFail why addr)
    | none =>
      let e := (r.2.handleAt 63).epoch
      let s := r.2.sendTwin (len.toNat + 32) (.winWrite 63 e 0 (r.2.peek addr.toNat len.toNat))
      (s.sendTwin 4 (.wfence 63 e)).modTwin (fun t => { t with serve := some addr }))

/-- An open re-fetch ends: window 49 closes, and the next one may start (R678). -/
def State.refetchEnd (s : State) : State :=
  let s := s.modTwin (fun t => { t with refetch := none, refetchAt := none })
  (if (s.windowAt 49).state = 1 then s.closeWindow 49 else s).refetchNext

/-- REFETCH_DONE (R678). -/
def execRefetchDone (lp : Fin 8) (h : FlitHdr) (addr : BitVec 44) (s : State) : Answer :=
  .next (s.recvCtrl lp.val h fun s =>
    if s.twin.refetch = some addr then (s.modTwin (fun t => { t with refetchN := bump t.refetchN })).refetchEnd else s)

/-- REFETCH_FAIL (R678). -/
def execRefetchFail (lp : Fin 8) (h : FlitHdr) (_reason : BitVec 8) (addr : BitVec 44) (s : State) : Answer :=
  .next (s.recvCtrl lp.val h fun s =>
    if s.twin.refetch = some addr then
      ((s.modTwin (fun t => { t with refetchFailN := bump t.refetchFailN })).raise 0x7006).refetchEnd
    else s)

/-- REFETCH_TIMEOUT (R679): the 1 ms for which an open re-fetch holds the cue have passed. -/
def execRefetchTimeout (at_ : Nat) (s : State) : Answer :=
  .next (if s.twin.refetch.isSome then s.modTwin (fun t => { t with refetchAt := some at_ }) else s)

end Sys2Proof.Machine
end

