-- ==== Sys2Proof/Machine/Mirror.lean ====
section
/-! DEFINITION. The device's own mirrors: staging after a confirmation, and their end at the partner's MIRROR_APPLIED
(14, R664, R665, R667). -/

namespace Sys2Proof.Machine

/-! ## What a mirror holds (R664) -/

/-- The six SLOT registers of a slot, as at its last confirmation (R502, R520). -/
def State.slotView (s : State) (i : Nat) : List Word := Tab.get [0, 0, 0, 0, 0, 0] s.tick.view i

/-- The first KV position of a slot that the partner does not hold; all of a slot's where its number has been freed since. -/
def State.kvFrom (s : State) (i : Nat) : Nat :=
  if s.twin.freedOwn.getLsbD i then 0 else Tab.get 0 s.twin.kvSent i

/-- The logical address of position q of layer l of a slot on die d (R530). -/
def State.kvAddr (s : State) (d slot l q : Nat) : Nat :=
  let c := (s.kvAt d).cfg.toNat
  0x30000000000 + (slot * field c 25 20 + l) * 2 ^ field c 5 0 + q * s.kvBytes d

/-- The (die, layer) pairs that hold KV. -/
def State.kvLayers (s : State) : List (Nat × Nat) :=
  (List.range 4).flatMap (fun d => (List.range (field (s.kvAt d).cfg.toNat 25 20)).map (fun l => (d, l)))

/-- The KV positions of a slot that a mirror carries, each piece under the address of slot + 128 (R657, R664); none where a
read is uncorrectable (R731). -/
def State.mirrorKv (s : State) (i lo hi : Nat) : Option (List (Nat × List Byte)) × State :=
  if hi ≤ lo then (some [], s)
  else s.kvLayers.foldl (fun a e =>
    let n := (hi - lo) * a.2.kvBytes e.1
    let r := a.2.kvRead e.1 (a.2.kvAddr e.1 i e.2 lo) n (n / 65536 + 2)
    (if r.1 then a.1.map (fun l => l ++ [(e.1 * 2 ^ 44 + s.kvAddr e.1 (i + 128) e.2 lo, r.2.1)]) else none, r.2.2)) (some [], s)

/-- A layer copy's step-parity buffers of a slot: the place of slot i, the place of slot i + 128, the bytes (R276, R333,
R334). -/
def State.parityBuffers (s : State) (l : LayerCopy) (i b : Nat) : List (Nat × Nat × Nat) :=
  let d : LayerDesc := l.desc
  let tiles := List.range (ceilDiv d.cols 128)
  let masks := match l.cores with
    | [] => []
    | c :: _ => (s.tilesIn d c.cluster).map (fun ct =>
        (s.maskAddr c.cluster d i b ct, s.maskAddr c.cluster d (i + 128) b ct, 16))
  let refs := tiles.map (fun ct => (refAddr d i b ct, refAddr d (i + 128) b ct, 4 * realCols d ct))
  let z := rawBytes d.fast
  let kept := fun (n ct : Nat) => d.dkp + ((2 * n + b) * ceilDiv d.cols 128 + ct) * z
  let images := tiles.map (fun ct => (kept i ct, kept (i + 128) ct, z))
  (if d.pmk then masks else []) ++ (if d.dout then refs else []) ++ (if d.dlt then images else [])

/-- The buffers that the committed step of a slot selects, for every layer of the device. -/
def State.mirrorBuffers (s : State) (i : Nat) : List (Nat × List Byte) :=
  ((s.cfg.layers.flatMap (fun l => s.parityBuffers l i ((s.slot i).com.step.toNat % 2))).eraseDups).map
    (fun e => (e.2.1, s.peek e.1 e.2.2))

/-- A slot's part of a mirror; none where its KV cannot be read. -/
def State.mirrorSlot (s : State) (i : Nat) : Option MirrorSlot × State :=
  let v := s.slotView i
  let x := s.slot i
  let r := s.mirrorKv i (s.kvFrom i) x.com.kvLen.toNat
  (r.1.map (fun kv => {
    slot := Fin.ofNat 128 i, state := BitVec.ofNat 3 (v.getD 0 0).toNat, kind := x.kind, step := v.getD 1 0, kvLen := v.getD 2 0,
    promptLeft := v.getD 3 0, lastToken := v.getD 4 0, tick := v.getD 5 0,
    entry := if x.entry = Tab.get [] s.twin.sentEntry i ∧ !s.twin.freedOwn.getLsbD i then [] else x.entry,
    kv := kv, buffers := s.mirrorBuffers i }), r.2)

/-- Every slot's part, or none. -/
def State.mirrorSlots (s : State) : List Nat → Option (List MirrorSlot) × State
  | [] => (some [], s)
  | i :: t =>
    let r := s.mirrorSlot i
    let u := r.2.mirrorSlots t
    (match r.1, u.1 with | some x, some l => some (x :: l) | _, _ => none, u.2)

/-- Bytes of a slot's part (R664). -/
def MirrorSlot.bytes (x : MirrorSlot) : Nat :=
  64 + x.entry.length + ((x.kv ++ x.buffers).map (fun e => e.2.length)).sum

/-! ## Staging (R664, R665) -/

/-- Stages a mirror of every change since the last one that the partner applied, where the device is PAIRED, none is
outstanding and handle 62 is open. A mirror whose data cannot be read is put off (log 69). -/
def State.stageMirror (s : State) : State :=
  let t := s.twin
  if s.reh.replay.isSome ∨ t.state ≠ 2 ∨ t.staged.isSome ∨ t.awaiting.isSome ∨ (s.handleAt 62).state ≠ 1 ∨ (t.dirty.isEmpty ∧ t.freedOwn = 0) then s
  else
    let l := (List.range 128).filter (fun i => t.dirty.contains i && (s.slot i).state != 0)
    let r := s.mirrorSlots l
    match r.1 with
    | none => r.2
    | some slots =>
      let gone := maskOf ((maskList t.freedOwn).filter (fun i => !l.contains i))
      let n := 64 + (slots.map MirrorSlot.bytes).sum
      let m : Mirror := ⟨t.confTick, slots, gone, n⟩
      let e := (s.handleAt 62).epoch
      let s := (r.2.sendTwin n (.mirrorStage e m)).sendTwin 4 (.wfence 62 e)
      s.modTwin (fun t => { t with
        staged := some m, dirty := [], freedOwn := 0, confirmations := 0, mirrorKib := bump t.mirrorKib (n / 1024),
        lag := bump t.lag (t.confirmations - 1) })

/-- A confirmation that changed committed state of own slots, or freed some, is due to the partner (R664); what a replay commits is not (R754). -/
def State.noteConfirmed (s : State) (changed freed : List Nat) : State :=
  let own := fun (l : List Nat) => l.filter (fun i => decide (i < 128))
  if s.reh.replay.isSome ∨ !s.cfg.paired ∨ (own changed ++ own freed).isEmpty then s
  else s.modTwin (fun t => { t with
    dirty := ((own changed).foldl addKey t.dirty).filter (fun i => !freed.contains i), freedOwn := t.freedOwn ||| maskOf (own freed),
    confirmations := t.confirmations + 1, confTick := s.tick.count })

/-- What the partner holds once it has applied a mirror. -/
def TwinSt.applied (t : TwinSt) (m : Mirror) : TwinSt :=
  let gone := maskList m.freed
  let k := t.kvSent.filter (fun e => !gone.contains e.1)
  let n := t.sentEntry.filter (fun e => !gone.contains e.1)
  { t with
    awaiting := none, sentTick := word m.tick.toNat, mirrors := bump t.mirrors,
    kvSent := m.slots.foldl (fun k x => Tab.set 0 k x.slot.val x.kvLen.toNat) k,
    sentEntry := m.slots.foldl (fun n x => if x.entry.isEmpty then n else Tab.set [] n x.slot.val x.entry) n }

/-- Result entries of confirmations up to a tick no longer wait (R667). -/
def State.releaseResults (s : State) (upTo : DWord → Bool) : State :=
  s.modHost (fun h => { h with resq := h.resq.map (fun r => if upTo r.tick then { r with wait := false } else r) })

/-- MIRROR_APPLIED (R665, R667): the results that the mirror covers are released, and the next mirror is staged. -/
def execMirrorApplied (lp : Fin 8) (h : FlitHdr) (tick : DWord) (s : State) : Answer :=
  .next (s.recvCtrl lp.val h fun s =>
    match s.twin.awaiting with
    | none => s
    | some m =>
      if m.tick ≠ tick then s
      else ((s.modTwin (fun t => t.applied m)).releaseResults (fun x => decide (x ≤ m.tick))).stageMirror)

end Sys2Proof.Machine
end

