-- ==== Sys2Proof/Machine/Power.lean ====
section
/-! DEFINITION. Supplies, thermal, the power cap, gating, PARK and WAKE, sideband pins (17, R766 to R791; 02, R57 to R61). -/

namespace Sys2Proof.Machine

/-! ## Entering OFF and SAFE -/

/-- What a loss of power leaves in the flash: a spill that ran leaves its area without one (R749), and a slot whose
staging was cut is INVALID (log 22). -/
def State.flashAfterLoss (s : State) : Flash :=
  let f := if s.reh.spilling then { s.upd.flash with spill := none } else s.upd.flash
  match s.upd.staging with
  | none => f
  | some (.fw b _) => f.setSlotCode (slotIndex false b) 5
  | some (.cfg b _) => f.setSlotCode (slotIndex true b) 5

/-- The device enters OFF (R777, R787): everything but the flash, the straps, the pin levels and what the management
controller keeps on the auxiliary supply is lost. -/
def State.powerOff (s : State) : State :=
  { State.reset with
    pending := s.pending, free := s.free, reply := s.reply, sent := s.sent,
    glb := { Glb.reset with variant := s.glb.variant },
    upd := { UpdSt.reset with flash := s.flashAfterLoss },
    pwr := { PwrSt.reset with
      trip := s.pwr.trip, therm := s.pwr.trip, alert := s.pwr.alert, last9 := s.pwr.last9, mv10 := s.pwr.mv10,
      auxMv := s.pwr.auxMv },
    pin := { PinSt.reset with
      pwrHoldN := s.pin.pwrHoldN, motionN := s.pin.motionN, perstA := s.pin.perstA, perstB := s.pin.perstB,
      refA := s.pin.refA, refB := s.pin.refB } }

/-- An armed injection that has not fired is disarmed when the device leaves READY and RUN (R740). -/
def State.disarm (s : State) : State := s.modErr (fun e => { e with injArm := false })

/-- The device enters SAFE (R6, R699): no tick runs, ACLK is stopped (02, GLB_CLK), the phase is NOTICK (R683). -/
def State.goSafe (s : State) : State :=
  let s := s.disarm.modTick (fun t => { t with running := none, held := [], holdFrom := none })
  let s := s.modReh (fun r => { r with replay := none })
  { s with glb := { s.glb with st := .safe, aclkStep := 3, trial := false } }

/-! ## Thermal and steps (R58, R786) -/

/-- The largest of the bytes of two words. -/
def maxByte (a b : Word) : Nat := ((leBytes 4 a.toNat ++ leBytes 4 b.toNat).map BitVec.toNat).foldl max 0

/-- The hottest junction, °C. -/
def State.hottest (s : State) : Nat := maxByte s.pwr.tj s.pwr.tjIo

/-- The step that PWR_BRAKE_N requests (R771). -/
def State.brakeStep (s : State) : Nat := if s.pwr.brake.isEmpty then 0 else 2

/-- The slowest step that any source requests (R786). -/
def State.reqStep (s : State) : Nat := max s.pwr.thermStep.toNat (max s.brakeStep s.pwr.stepMin.toNat)

/-- The slowest source: 0 none, 1 thermal, 2 PWR_BRAKE_N, 3 PWR_STEP; of equal ones the lowest number (log 23). -/
def State.reqSrc (s : State) : Nat :=
  if s.reqStep = 0 then 0 else if s.pwr.thermStep.toNat = s.reqStep then 1 else if s.brakeStep = s.reqStep then 2 else 3

/-- The requested step takes effect between a curtain and a cue; a change counts and raises event 0x9002 (R58, R786). -/
def State.applyStep (s : State) : State :=
  if s.glb.aclkStep.toNat = s.reqStep then s
  else (({ s with glb := { s.glb with aclkStep := BitVec.ofNat 2 s.reqStep } }).modPwr
    (fun p => { p with steps := bump p.steps })).raise 0x9002

/-- The threshold of a requested step, °C. -/
def stepThreshold (k : Nat) : Nat := if k = 2 then 100 else 95

/-- At a cue, the thermal request eases after 8 cool cues (R786). -/
def State.coolCue (s : State) : State :=
  let k := s.pwr.thermStep.toNat
  if k = 0 then s.modPwr (fun p => { p with coolCues := 0 })
  else if s.hottest + 5 < stepThreshold k then
    s.modPwr (fun p => if p.coolCues + 1 < 8 then { p with coolCues := p.coolCues + 1 }
      else { p with coolCues := 0, thermStep := p.thermStep - 1 })
  else s.modPwr (fun p => { p with coolCues := 0 })

/-- SUPPLY_LOSS (R777): below 42 V for 100 µs or above 62 V; the device enters OFF. -/
def execSupplyLoss (mv10 : BitVec 16) (s : State) : Answer :=
  .next (if mv10.toNat < 4200 ∨ 6200 < mv10.toNat then (s.modPwr (fun p => { p with mv10 := mv10 })).powerOff else s)

/-- The input lies in 42–44 V or 60–62 V. -/
def inExcursion (mv10 : Nat) : Bool := decide (4200 ≤ mv10 ∧ mv10 < 4400) || decide (6000 < mv10 ∧ mv10 ≤ 6200)

/-- SUPPLY_RANGE (R777): event 0x9009 once per excursion. -/
def execSupplyRange (mv10 : BitVec 16) (s : State) : Answer :=
  .next (if s.glb.st ≠ .off ∧ inExcursion mv10.toNat then
      let t := s.modPwr (fun p => { p with mv10 := mv10, excursion := true })
      if s.pwr.excursion then t else t.raise 0x9009
    else s)

/-- THERM_N's time: a sample stands for 100 µs, ten make a ms of PWR_THERM_MS (R783, R790). -/
def State.countTherm (s : State) : State :=
  if s.pwr.therm then s.modPwr (fun p => if p.thermSamples + 1 < 10 then { p with thermSamples := p.thermSamples + 1 }
    else { p with thermSamples := 0, thermMs := bump p.thermMs })
  else s

/-- JUNCTION_SAMPLE (R786, R787): the readings of the dies, byte d for Dd and byte n for Nn. -/
def execJunctionSample (tj tjIo : BitVec 32) (s : State) : Answer :=
  .next (if s.glb.st = .off then s
    else
      let s := s.modPwr (fun p => { p with tj := tj, tjIo := tjIo })
      let h := s.hottest
      if 110 ≤ h then
        (s.modPwr (fun p => { p with trip := true, last9 := 0x9005, alert := true })).powerOff
      else
        let want : BitVec 2 := if 100 ≤ h then 2 else if 95 ≤ h then 1 else 0
        let warn := decide (100 ≤ h) && !s.pwr.therm
        let s := s.modPwr (fun p => { p with
          thermStep := if p.thermStep < want then want else p.thermStep,
          therm := if 100 ≤ h then true else if h < 95 then false else p.therm })
        (if warn then s.raise 0x9004 else s).countTherm)

/-- TRIP_RELEASE (R787): the 54 V input has been below 10 V for 1 s. -/
def execTripRelease (s : State) : Answer :=
  .next (if s.pwr.trip then s.modPwr (fun p => { p with trip := false, therm := false }) else s)

/-- POWER_SAMPLE (R783): a sample of 10 µs, in 0.1 W, with the input voltages. The 1 ms average is over the last 100
samples; the energy since the last cue release is in units of 0.1 W × 10 µs. -/
def execPowerSample (watts10 mv10 auxMv : BitVec 16) (s : State) : Answer :=
  .next (s.modPwr (fun p =>
    let l := (watts10.toNat :: p.samples).take 100
    { p with
      samples := l, inputAvg := BitVec.ofNat 16 (l.sum / l.length), mv10 := mv10, auxMv := auxMv,
      energy := p.energy + watts10.toNat, sampleCount := p.sampleCount + 1,
      excursion := p.excursion && !decide (4400 ≤ mv10.toNat ∧ mv10.toNat ≤ 6000) }))

/-- A supervised pin changes level (R711, R791): event, and a staging ends when the pin becomes asserted. -/
def State.pinChange (s : State) (code : Nat) (asserted : Bool) : State :=
  let s := if s.glb.st = .off then s else s.raise code
  if asserted then s.endStaging else s

/-- PWR_HOLD (R710, R711, R791): `level` is the pin's level; low is asserted. -/
def execPwrHold (level : Bool) (s : State) : Answer :=
  .next (if level = s.pin.pwrHoldN then s
    else (s.modPin (fun p => { p with pwrHoldN := level })).pinChange 0x9006 (!level))

/-- MOTION (R711, R791). -/
def execMotion (level : Bool) (s : State) : Answer :=
  .next (if level = s.pin.motionN then s
    else (s.modPin (fun p => { p with motionN := level })).pinChange 0x9007 (!level))

/-- The function code of a pin of PIN_CFG: 0–3 GP0–GP3, 4 TICK_IN, 5 TICK_OUT (R771). -/
def State.pinFunc (s : State) (i : Nat) : Nat := field s.pin.cfg.toNat (4 * i + 3) (4 * i)

/-- The level of a GP pin. -/
def State.gpLevel (s : State) (i : Nat) (b : Bool) : State :=
  s.modPin (fun p => { p with gp := if b then p.gp ||| BitVec.ofNat 4 (2 ^ i) else p.gp &&& ~~~(BitVec.ofNat 4 (2 ^ i)) })

/-- PWR_BRAKE (R771): the pin has been low for 100 µs; the 100 MHz step is requested. -/
def execPwrBrake (pin : Fin 4) (s : State) : Answer :=
  .next (if s.pinFunc pin.val = 5 then
      (s.gpLevel pin.val false).modPwr (fun p => { p with brake := addKey p.brake pin.val })
    else s)

/-- PWR_BRAKE_RELEASE (R771). -/
def execPwrBrakeRelease (pin : Fin 4) (s : State) : Answer :=
  .next (if s.pinFunc pin.val = 5 then
      (s.gpLevel pin.val true).modPwr (fun p => { p with brake := dropKey p.brake pin.val })
    else s)

/-- REH_TRIG_PIN (R746, R771): a falling edge held for 10 µs. -/
def execRehTrigPin (pin : Fin 4) (s : State) : Answer :=
  .next (if s.pinFunc pin.val = 4 then
      (s.gpLevel pin.val false).rehTrigger (word (0xFFFF0000 + (Config.triggerSource 2).toNat))
    else s)

/-- CUE_PULSE_END (R771): the 1 µs pulse of TICK_OUT ends. -/
def execCuePulseEnd (s : State) : Answer :=
  .next (if s.pinFunc 5 = 2 then s.modPin (fun p => { p with tickOut := false }) else s)

/-- CLK_HOLDOVER (R60): the selected reference is lost. -/
def execClkHoldover (s : State) : Answer :=
  .next (if s.glb.st = .off ∨ s.glb.holdover then s
    else
      let s := s.modPin (fun p => if s.glb.refSel then { p with refB := false } else { p with refA := false })
      ({ s with glb := { s.glb with holdover := true } }).raise 0x9001)

/-- REFERENCE_RESTORED (R60): the selected reference is back. -/
def execReferenceRestored (s : State) : Answer :=
  .next (if s.glb.holdover then
      let s := s.modPin (fun p => if s.glb.refSel then { p with refB := true } else { p with refA := true })
      { s with glb := { s.glb with holdover := false } }
    else s)

/-! ## PARK and WAKE (R61, R475, R779) -/

/-- PARK. -/
def execPark (p : Port) (s : State) : Answer :=
  .next (s.ownerOnly p fun s =>
    let s := s.modPwr (fun w => { w with cmd := 1 })
    if s.glb.st = .ready then
      let s := s.disarm.modTick (fun t => { t with held := [], holdFrom := none })
      { s with glb := { s.glb with st := .park, aclkStep := 3 } }
    else s.raise 0x900A)

/-- WAKE. -/
def execWake (p : Port) (s : State) : Answer :=
  .next (s.ownerOnly p fun s =>
    let s := s.modPwr (fun w => { w with cmd := 2 })
    if s.glb.st = .park then
      { s with glb := { s.glb with st := .ready, aclkStep := BitVec.ofNat 2 s.reqStep } }
    else s.raise 0x900A)

/-! ## Gating (R780, R781) -/

/-- A request on a gateable function (R780): 0 OFF, 1 STARTING, 2 ON, 3 STOPPING. -/
def GateSt.request (g : GateSt) (on : Bool) : GateSt :=
  match g.state.toNat, on with
  | 0, true => { g with state := 1, pending := false }
  | 0, false => g
  | 1, b => { g with pending := !b }
  | 2, true => g
  | 2, false => { g with state := 3, pending := false }
  | _, b => { g with pending := b }

/-- The start ends: ON, then STOPPING if PENDING. -/
def GateSt.startDone (g : GateSt) : GateSt :=
  if g.state = 1 then (if g.pending then ⟨3, false⟩ else ⟨2, false⟩) else g

/-- The stop ends: OFF, then STARTING if PENDING. -/
def GateSt.stopDone (g : GateSt) : GateSt :=
  if g.state = 3 then (if g.pending then ⟨1, false⟩ else ⟨0, false⟩) else g

/-- The state of a gateable function. -/
def State.gate (s : State) : Gateable → GateSt
  | .cluster n => Tab.get .reset s.pwr.gCluster n.val
  | .link p => Tab.get .reset s.pwr.gLink p.val

/-- Changes a gateable function. -/
def State.modGate (s : State) (f : Gateable) (g : GateSt → GateSt) : State :=
  match f with
  | .cluster n => s.modPwr (fun p => { p with gCluster := Tab.upd .reset p.gCluster n.val g })
  | .link k => s.modPwr (fun p => { p with gLink := Tab.upd .reset p.gLink k.val g })

/-- The function must stay on: a cluster that the loaded script uses, an enabled link port (R781). -/
def State.gateNeeded (s : State) : Gateable → Bool
  | .cluster n => s.cfg.usedClusters.contains n.val
  | .link p => (s.lnkAt p.val).en

/-- The requested-state bit of PWR_GATE. -/
def State.setGateBit (s : State) (f : Gateable) (on : Bool) : State :=
  match f with
  | .cluster n => s.modPwr (fun p => { p with
      gateClu := if on then p.gateClu ||| BitVec.ofNat 64 (2 ^ n.val) else p.gateClu &&& ~~~(BitVec.ofNat 64 (2 ^ n.val)) })
  | .link k => s.modPwr (fun p => { p with
      gateLnk := if on then p.gateLnk ||| BitVec.ofNat 8 (2 ^ k.val) else p.gateLnk &&& ~~~(BitVec.ofNat 8 (2 ^ k.val)) })

/-- One request: discarded with event 0x9008 where it would stop a needed function (R781). -/
def State.gateReq (s : State) (f : Gateable) (on : Bool) : State :=
  if !on && s.gateNeeded f then s.raise 0x9008 else (s.setGateBit f on).modGate f (fun g => g.request on)

/-- The functions of a PWR_GATE word, by bit. -/
def gateFunctions (w : Fin 3) : List (Nat × Gateable) :=
  if w.val = 2 then (List.range 8).map (fun i => (i, .link (Fin.ofNat 8 i)))
  else (List.range 32).map (fun i => (i, .cluster (Fin.ofNat 64 (32 * w.val + i))))

/-- GATE_REQUEST (R780, R781): a write of PWR_GATE_CLU_LO, _HI or _LNK requests a state of every function of the word. -/
def execGateRequest (p : Port) (w : Fin 3) (v : Word) (s : State) : Answer :=
  .next (s.ownerOnly p fun s => (gateFunctions w).foldl (fun s e => s.gateReq e.2 (v.getLsbD e.1)) s)

/-- GATE_START_DONE (R780). -/
def execGateStartDone (f : Gateable) (s : State) : Answer := .next (s.modGate f GateSt.startDone)

/-- GATE_STOP_DONE (R780). -/
def execGateStopDone (f : Gateable) (s : State) : Answer := .next (s.modGate f GateSt.stopDone)

/-! ## SMBus (R769, R770) -/

/-- The state code of GLB_STATE. -/
def DevState.code : DevState → Nat
  | .off => 15
  | .safe => 1
  | .boot => 2
  | .ready => 3
  | .run => 4
  | .park => 5

/-- SMB_STATE. -/
def execSmbState (s : State) : Answer :=
  .next (s.answer (.word (word (s.glb.st.code + bitAt s.pwr.trip 4 + bitAt s.pwr.therm 5))))

/-- SMB_TJ. -/
def execSmbTj (s : State) : Answer :=
  .next (s.answer (.word (if s.glb.st = .off then 0xFFFF else word s.hottest)))

/-- SMB_INPUT_POWER: the 1 ms average in W. -/
def execSmbInputPower (s : State) : Answer := .next (s.answer (.word (word (s.pwr.inputAvg.toNat / 10))))

/-- SMB_VIN: the 54 V input in 10 mV. -/
def execSmbVin (s : State) : Answer := .next (s.answer (.word (word s.pwr.mv10.toNat)))

/-- SMB_VARIANT: the strapped variant code. -/
def execSmbVariant (s : State) : Answer := .next (s.answer (.word (word s.glb.variant.toNat)))

/-- SMB_LAST_EVENT: the code of the last event of class 0x9. -/
def execSmbLastEvent (s : State) : Answer := .next (s.answer (.word (word s.pwr.last9.toNat)))

/-- SMB_ALERT_RESPONSE (R770): only a controller that asserts ALERT_N answers, with 0x4C, and releases it. -/
def execSmbAlertResponse (s : State) : Answer :=
  .next (if s.pwr.alert then (s.modPwr (fun p => { p with alert := false })).answer (.word 0x4C)
    else s.answer .noCompletion)

end Sys2Proof.Machine
end

