-- ==== Sys2Proof/Machine/Record.lean ====
section
/-! DEFINITION. Rehearsal records: writing tick and confirmation records, the frozen span, the upload; reading records for a
replay and comparing (16, R741 to R745, R747, R751 to R756). -/

namespace Sys2Proof.Machine

/-! ## Writing a record (R741 to R745) -/

/-- The bytes padded with zeros to a multiple of n. -/
def padTo (n : Nat) (l : List Byte) : List Byte := l ++ List.replicate ((n - l.length % n) % n) 0

/-- What the header of a record names besides its length (R743). -/
structure RecHead where
  typ : Nat
  whole : Bool
  abandoned : Bool
  stretched : Bool
  tick : DWord
  cueNs : Nat
  group : Nat
  ns : Nat
  ni : Nat
  nv : Nat
  osMask : BitVec 64
  stepM : BitVec 256
  failM : BitVec 256
  deriving DecidableEq, Repr

/-- The SEQ of the settings record in force. -/
def State.setEpoch (s : State) : Word :=
  match (if s.copy0Runs then s.upd.flash.set0 else s.upd.flash.set1).newest with | some r => r.seq | none => 0

/-- The low 64 bits of the running configuration's BODYDIG. -/
def State.bodyDig8 (s : State) : Nat := match s.upd.cfgRun with | some c => c.bodyDig.toNat % 2 ^ 64 | none => 0

/-- A whole record: header, body, trailer with its CRC-32 (R743). -/
def State.recordBytesOf (s : State) (h : RecHead) (body : List Byte) : List Byte :=
  let body := padTo 64 body
  let flags := h.typ + bitAt h.whole 2 + bitAt h.abandoned 3 + bitAt h.stretched 4 + bitAt s.err.active 5 + bitAt (h.osMask != 0) 6
  let b := leBytes 2 0x5248 ++ leBytes 2 flags ++ leBytes 4 (192 + body.length) ++ leBytes 8 h.tick.toNat ++ leBytes 8 h.cueNs ++
    leBytes 1 s.tick.src.toNat ++ leBytes 1 h.group ++ leBytes 1 s.glb.aclkStep.toNat ++ leBytes 1 s.precCtrl.toNat ++
    leBytes 2 h.ns ++ leBytes 2 h.ni ++ leBytes 4 s.upd.flash.cfgEpoch.toNat ++ leBytes 4 s.setEpoch.toNat ++ leBytes 8 s.bodyDig8 ++
    leBytes 8 h.osMask.toNat ++ leBytes 4 s.pwr.tj.toNat ++ leBytes 2 s.prec.rrbForce.toNat ++ leBytes 2 h.nv ++
    leBytes 32 h.stepM.toNat ++ leBytes 32 h.failM.toNat ++ body ++ List.replicate 60 0
  b ++ leBytes 4 (crc32 b)

/-- The frozen span after a record has been written, or not, under a trigger (R747): up to the record of the tick REH_POST cues
after it the span takes the new records in, later ones lie outside it. -/
def RehSt.grow (h : RehSt) (wrote tickRec : Bool) : RehSt :=
  if !h.frozen then h
  else match h.trigLeft with
    | some (n + 1) => { h with
        trigLeft := some (if tickRec then n else n + 1), frozenLen := fitCount spillBytes h.ring }
    | _ => if wrote then { h with frozenSkip := h.frozenSkip + 1 } else h

/-- Sends a record through handle 61 into the partner's window 50, at the place that it has in the ring; without an open window
it is counted (R751). -/
def State.upload (s : State) (off : Nat) (r : List Byte) : State :=
  if !(s.cfg.rehUpload && s.cfg.paired) then s
  else if (s.handleAt 61).state = 1 then s.sendTwin r.length (.winWrite 61 (s.handleAt 61).epoch off r)
  else s.modReh (fun h => { h with upDrop := bump h.upDrop })

/-- Writes a record and uploads it (R741, R745, R751). -/
def State.putRecord (s : State) (r : List Byte) (tickRec : Bool) : State :=
  let t := s.rehWrite r true
  let wrote := t.reh.records != s.reh.records
  (t.upload s.reh.wpos r).modReh (fun h => h.grow wrote tickRec)

/-- The norm that a statistics record holds (R302, R743). -/
def InvSt.normShown (x : InvSt) : Word :=
  match x.totals.norm1 with | some n => n | none => if x.totals.elems ≤ x.totals.inf then 0 else x.totals.norm

/-- The largest package amax over the parts of an invocation. -/
def InvSt.amaxShown (x : InvSt) : Word := x.reds.foldl (fun a r => fpMax a r.amax) 0

/-- The 16 bytes of an invocation's statistics. -/
def InvSt.statBytes (x : InvSt) (ord : Nat) : List Byte :=
  leBytes 4 ord ++ leBytes 4 x.lix.toNat ++ leBytes 4 x.amaxShown.toNat ++ leBytes 4 x.normShown.toNat

/-- A slot's step as it went (R744): the token fed, the token or output, the CRC-32 of a frame's output. -/
structure SlotRun where
  r : SlotRec
  withheld : Bool
  fed : Word
  input : List Byte
  out : Word
  crc : Word
  deriving DecidableEq, Repr

/-- The 32 bytes of a slot record (R744). -/
def SlotRun.bytes (x : SlotRun) : List Byte :=
  leBytes 1 x.r.slot.val ++ leBytes 1 (bitAt x.r.first 0 + bitAt x.r.lastChunk 1 + bitAt x.r.stream 2 + bitAt x.withheld 3) ++
  leBytes 2 x.r.positions.toNat ++ leBytes 4 x.r.step.toNat ++ leBytes 4 x.fed.toNat ++ leBytes 4 x.input.length ++
  leBytes 4 x.out.toNat ++ leBytes 4 x.crc.toNat ++ leBytes 8 0

/-- The tick record of a tick (R741, R743). -/
def State.tickRecord (s : State) (r : RunTick) (whole : Bool) (failM : BitVec 256) (runs : List SlotRun) : List Byte :=
  let admits := (runs.filter (fun x => x.r.first)).flatMap (fun x => padTo 64 (s.slot x.r.slot.val).entry)
  let stats := if s.cfg.rehStats then s.prec.invs.filter (fun e => !e.2.cores.isEmpty) else []
  s.recordBytesOf
    { typ := 0, whole := whole, abandoned := r.abandoned, stretched := s.prec.stretched, tick := r.tick, cueNs := r.released,
      group := r.group, ns := runs.length, ni := r.inbound.length, nv := stats.length, osMask := r.osMask, stepM := r.stepM,
      failM := failM }
    (runs.flatMap SlotRun.bytes ++ admits ++ runs.flatMap (fun x => padTo 8 x.input) ++ r.inbound.flatMap id ++
      stats.flatMap (fun e => e.2.statBytes e.1))

/-- A confirmation record (R742). -/
def State.confRecord (s : State) (p : PendStep) (g : Nat) (failM : BitVec 256) : List Byte :=
  s.recordBytesOf
    { typ := 1, whole := false, abandoned := false, stretched := false, tick := p.tick, cueNs := s.tick.lastRelease.getD 0,
      group := g, ns := 0, ni := 0, nv := 0, osMask := 0, stepM := p.stepM, failM := failM } []

/-- Records a confirmation or the roll back of a pending step, above position 0 of a chain (R742). -/
def State.recordConf (s : State) (p : PendStep) (g : Nat) (failM : BitVec 256) : State :=
  if s.cfg.rehEn && !s.isHead && decide (2 ≤ s.chainLen) then s.putRecord (s.confRecord p g failM) false else s

/-! ## Reading a record (R743, R744) -/

/-- A record's parts. -/
def recType (l : List Byte) : Nat := leAt l 2 2 % 4
/-- LEN. -/
def recLen (l : List Byte) : Nat := leAt l 4 4
/-- TICK. -/
def recTick (l : List Byte) : DWord := BitVec.ofNat 64 (leAt l 8 8)
/-- NS. -/
def recNs (l : List Byte) : Nat := leAt l 28 2
/-- OSMASK. -/
def recOs (l : List Byte) : Nat := leAt l 48 8
/-- STEPM. -/
def recStepM (l : List Byte) : BitVec 256 := BitVec.ofNat 256 (leAt l 64 32)
/-- FAILM. -/
def recFailM (l : List Byte) : BitVec 256 := BitVec.ofNat 256 (leAt l 96 32)
/-- The trailer's CRC-32 holds. -/
def recOk (l : List Byte) : Bool :=
  decide (192 ≤ l.length) && decide (leAt l 0 2 = 0x5248) && decide (recLen l = l.length) &&
  decide (leAt l (l.length - 4) 4 = crc32 (l.take (l.length - 4)))

/-- The slot records of a tick record, as bytes. -/
def recSlots (l : List Byte) : List (List Byte) := chunks 32 (recNs l) ((l.drop 128).take (32 * recNs l))

/-- A slot record as a step message carries it. -/
def slotRecOf (b : List Byte) : SlotRec :=
  let f := byteAt b 1
  { slot := Fin.ofNat 256 (byteAt b 0), first := bitOf f 0, lastChunk := bitOf f 1, stream := bitOf f 2,
    positions := BitVec.ofNat 16 (leAt b 2 2), step := word (leAt b 4 4), token := word (leAt b 8 4) }

/-- The slot records of a tick record. -/
def recSteps (l : List Byte) : List SlotRec := (recSlots l).map slotRecOf

/-- The ADMIT entries of a tick record, by slot. -/
def recAdmits (l : List Byte) : List (Nat × List Byte) :=
  ((recSteps l).filter (fun r => r.first)).zipIdx.map (fun e => (e.1.slot.val, (l.drop (128 + 32 * recNs l + 64 * e.2)).take 64))

/-- Splits off pieces of the given lengths, each padded to 8 bytes. -/
def takePadded : List Nat → List Byte → List (List Byte)
  | [], _ => []
  | n :: t, l => l.take n :: takePadded t (l.drop ((n + 7) / 8 * 8))

/-- The offset of section 3. -/
def recInputAt (l : List Byte) : Nat := 128 + 32 * recNs l + 64 * (recAdmits l).length

/-- The host inputs of a tick record, by slot. -/
def recInputs (l : List Byte) : List (Nat × List Byte) :=
  ((recSlots l).map (fun b => byteAt b 0)).zip (takePadded ((recSlots l).map (fun b => leAt b 12 4)) (l.drop (recInputAt l)))

/-- The offset of section 4. -/
def recInboundAt (l : List Byte) : Nat :=
  recInputAt l + ((recSlots l).map (fun b => (leAt b 12 4 + 7) / 8 * 8)).sum

/-- The inbound entries of a tick record, from offset `off` on: core, ring, and the bytes of the entry. -/
def State.recInbound (s : State) (l : List Byte) (off : Nat) : Nat → List (CoreId × Nat × List Byte)
  | 0 => []
  | n + 1 =>
    let w := leAt l off 8
    let c := CoreId.ofNum (field w 9 0)
    let q := field w 13 10
    let k := (s.ringAt c q).esize.toNat * 8
    let len := if k = 0 then 8 + 8 * field (leAt l (off + 8) 8) 23 0 else k
    (c, q, (l.drop (off + 8)).take len) :: s.recInbound l (off + 8 + len) n

/-- Every inbound entry of a tick record. -/
def State.recEntries (s : State) (l : List Byte) : List (CoreId × Nat × List Byte) :=
  s.recInbound l (recInboundAt l) (leAt l 30 2)

/-- The statistics of a tick record: ordinal, LIX, AMAX, norm. -/
def State.recStats (s : State) (l : List Byte) : List (Nat × Nat × Word × Word) :=
  let at_ := recInboundAt l + ((s.recEntries l).map (fun e => 8 + e.2.2.length)).sum
  (chunks 16 (leAt l 62 2) (l.drop at_)).map (fun b => (leAt b 0 4, leAt b 4 4, word (leAt b 8 4), word (leAt b 12 4)))

/-! ## Comparing a replayed tick (R755, R756) -/

/-- A replayed value against its record: equal, a difference within the tolerance, or a mismatch. -/
inductive Compared where
  | same
  | tolerated
  | mismatch
  deriving DecidableEq, Repr

/-- The clusters whose cores bound an invocation. -/
def InvSt.clusters (x : InvSt) : List Nat := (x.cores.map (fun c => c / 16)).eraseDups

/-- An AMAX or a norm of an invocation against its record (R755): a fast invocation of which a cluster ran at 0.48 V may differ
in AMAX by REB × s_T of its input, and its norm is not compared. -/
def State.compareStat (s : State) (os : Nat) (r : Nat × Nat × Word × Word) : List Compared :=
  let x := s.invAt r.1
  let loose := LayerDesc.fast x.desc && x.clusters.any (fun c => bitOf os c)
  let bound := match s.cfg.rehBounds.find? (fun e => e.1 == r.2.1) with | some e => fpMul e.2 x.sIn | none => 0
  [if x.amaxShown = r.2.2.1 then .same
   else if loose && fpLe (fpAbs (fpSub x.amaxShown r.2.2.1)) bound then .tolerated else .mismatch,
   if x.normShown = r.2.2.2 then .same else if loose then .tolerated else .mismatch]

/-- A slot's token or frame against its record (R755). -/
def compareSlot (os : Nat) (fast : Bool) (x : SlotRun) (b : List Byte) : Compared :=
  if leAt b 16 4 = x.out.toNat ∧ leAt b 20 4 = x.crc.toNat then .same
  else if os ≠ 0 ∧ fast then .tolerated else .mismatch

/-- Counts one comparison (R756): the first mismatch is latched and raises event 0xA005. -/
def State.countCompared (s : State) (slot : Nat) : Compared → State
  | .same => s
  | .tolerated => s.modReh (fun h => { h with tol := bump h.tol })
  | .mismatch =>
    let first := match s.reh.replay with | some r => !r.raised | none => false
    let t := s.modReh (fun h => { h with
      mismatch := bump h.mismatch,
      mmTick := if first then word s.tick.count.toNat else h.mmTick, mmSlot := if first then BitVec.ofNat 8 slot else h.mmSlot,
      mmValid := h.mmValid || first,
      replay := h.replay.map (fun r => { r with raised := true, mismatches := bump r.mismatches }) })
    if first then t.raise 0xA005 else t

/-- Compares a replayed tick with its record (R755, R756): a slot step that failed here and was committed there is a mismatch;
with CHECK = 1, tokens, frames and statistics too. -/
def State.compareTick (s : State) (rec : List Byte) (final fail : BitVec 256) (runs : List SlotRun) : State :=
  let check := match s.reh.replay with | some r => r.check | none => false
  let fast := s.prec.invs.any (fun e => LayerDesc.fast e.2.desc)
  let s := runs.foldl (fun s x =>
    if fail.getLsbD x.r.slot.val ∧ !final.getLsbD x.r.slot.val then s.countCompared x.r.slot.val .mismatch
    else if !check ∨ final.getLsbD x.r.slot.val then s
    else match (recSlots rec).find? (fun b => byteAt b 0 == x.r.slot.val) with
      | some b => s.countCompared x.r.slot.val (compareSlot (recOs rec) fast x b)
      | none => s) s
  if !check then s
  else (s.recStats rec).foldl (fun s r => (s.compareStat (recOs rec) r).foldl (fun s c => s.countCompared 0 c) s) s

end Sys2Proof.Machine
end

