-- ==== Sys2Proof/Machine/Curtain.lean ====
section
/-! DEFINITION. The curtain: what a step makes of a slot, rollback and confirmation, rings, precision state, results, step
messages (10, R487 to R517; 13, R637 to R641; 07, R304, R321, R322; 06, R292; 08, R392). -/

namespace Sys2Proof.Machine

/-! ## A slot's pointers (R487, R500, R501) -/

/-- The step samples a token: a decode step, or the last prompt chunk (R485). -/
def SlotSt.samples (x : SlotSt) (r : SlotRec) : Bool := !r.stream && (r.lastChunk || x.state == 3)

/-- The pending copy after a step that stands (R500, R501). The token joins it at the confirmation. -/
def SlotSt.advance (x : SlotSt) (r : SlotRec) : SlotSt :=
  let n := r.positions.toNat
  let fills := !r.stream && (x.state == 1 || x.state == 2)
  { x with pend := true, new := {
      step := x.com.step + 1,
      kvLen := if r.stream then x.com.kvLen else bump x.com.kvLen n,
      promptLeft := if fills then word (x.com.promptLeft.toNat - n) else x.com.promptLeft,
      lastToken := x.com.lastToken } }

/-- A latched cancel acts once the step is no longer pending (R488). -/
def SlotSt.unpend (x : SlotSt) : SlotSt :=
  if x.cancel then { x with pend := false, cancel := false, state := 5 } else { x with pend := false }

/-- The committed copy goes back into the pending copy, and the input is kept for the repeat (R501, R509). -/
def SlotSt.rollback (x : SlotSt) : SlotSt :=
  { x with new := x.com, inputs := x.fed.toList ++ x.inputs, fed := none }.unpend

/-- The state that a confirmed step leaves (R479, R485); FAULT stays. -/
def SlotSt.stateAfter (x : SlotSt) (r : SlotRec) : BitVec 3 :=
  if x.state = 6 then 6 else if r.stream then 4 else if x.samples r then 3 else 2

/-- The pending copy is committed with the token of the step's record (R501, R514). -/
def SlotSt.commit (x : SlotSt) (r : SlotRec) : SlotSt :=
  let p := { x.new with lastToken := if x.samples r then r.token else x.com.lastToken }
  { x with com := p, new := p, state := x.stateAfter r, fed := none }.unpend

/-- The confirmed step retires its slot: the stop token, or the length limit (R487, R638); the result status. -/
def SlotSt.finalStatus (x : SlotSt) (r : SlotRec) : Option (BitVec 8) :=
  if !x.samples r then none
  else if x.stop ≠ 0xFFFFFFFF ∧ r.token = x.stop then some 3
  else if x.maxLen ≤ x.new.kvLen then some 4 else none

/-! ## SLOT registers (R502, R520) -/

/-- The six SLOT registers of a slot, without its GROUP field. -/
def SlotSt.words (x : SlotSt) (tick : DWord) : List Word :=
  [word (x.state.toNat + bitAt x.pend 3 + bitAt x.kind 8 + bitAt x.cancel 9), x.com.step, x.com.kvLen, x.com.promptLeft,
   x.com.lastToken, word tick.toNat]

/-- The SLOT registers of a group take the values of a confirmation. -/
def State.showSlots (s : State) (g : Nat) : State :=
  let keys := ((s.slots.map (fun e => e.1) ++ s.tick.view.map (fun e => e.1)).eraseDups).filter (fun i => i % s.chainLen == g)
  s.modTick (fun t => { t with
    view := keys.foldl (fun v i => Tab.set [0, 0, 0, 0, 0, 0] v i ((s.slot i).words t.count)) t.view })

/-! ## Freeing and confirming (R487 to R489, R501, R509, R510) -/

/-- A slot becomes FREE: its inputs are released and its KV entries are queued for freeing (R538). An admission entry that waits
for the number's next first step stays. -/
def State.freeSlot (s : State) (i : Nat) : State :=
  let x := s.slot i
  let s := ((x.fed.toList ++ x.inputs).filterMap InputFrame.index).foldl (fun s n => s.admRelease n) s
  let s := (s.kvQueueFree i).modTwin (fun t => { t with adoptedMask := maskClear t.adoptedMask i })
  s.modSlot i (fun x => { SlotSt.reset with local_ := x.local_ })

/-- One slot of a confirmation: rolled back, or committed and freed where FREEM names it. -/
def State.settleSlot (s : State) (failM freeM : BitVec 256) (r : SlotRec) : State :=
  let i := r.slot.val
  if failM.getLsbD i then s.modSlot i SlotSt.rollback
  else
    let s := (((s.slot i).fed.bind InputFrame.index).toList).foldl (fun s n => s.admRelease n) s
    let s := s.modSlot i (fun x => x.commit r)
    if freeM.getLsbD i then s.freeSlot i else s

/-- GLB_STATE goes from RUN to READY when no slot is admitted; the first cue after READY is exempt (R476, R784). -/
def State.leaveRun (s : State) : State :=
  if s.glb.st = .run ∧ s.admittedCount = 0 ∧ s.reh.replay.isNone then
    (s.goto .ready).modPwr (fun p => { p with exempt := true })
  else s

/-- Confirms a group's step (R510, R513): the slots of STEPM that FAILM does not mark; then FULL bits, the registers, and what is
due to the twin partner. -/
def State.confirmStep (s : State) (g : Nat) (failM freeM : BitVec 256) (records : List SlotRec) : State :=
  let done := (records.map (fun r => r.slot.val)).filter (fun i => !failM.getLsbD i)
  let s := records.foldl (fun s r => s.settleSlot failM freeM r) s
  let s := done.foldl (fun s i => (List.range 4).foldl (fun s d => s.kvMarkFull d i) s) s
  let kept := done.filter (fun i => !freeM.getLsbD i)
  (s.showSlots g).noteConfirmed kept (done.filter (fun i => freeM.getLsbD i))

/-- The slots of FREEM at a device's own curtain (R489). -/
def State.freeSlots (s : State) (l : List Nat) : State := (l.foldl (fun s i => s.freeSlot i) s).noteConfirmed [] l

/-! ## Results (R637 to R641, R667) -/

/-- What the tick gave for a slot: the record with its token, and its frame. A token that the outside does not name is a free
value (log 9). -/
def fillRecord (results : List StepResult) (n : Nat) (r : SlotRec) : SlotRec × List Byte :=
  match results.find? (fun x => x.slot == r.slot) with
  | some x => ({ r with token := x.token }, x.frame)
  | none => ({ r with token := Config.freeWord n }, [])

/-- The result entry of a confirmed step, if it posts one (R638, R640). -/
def SlotSt.result (x : SlotSt) (r : SlotRec) (frame : List Byte) (tick : DWord) : Option ResEntry :=
  let e : ResEntry :=
    { slot := BitVec.ofNat 8 r.slot.val, status := 1, step := r.step, value := r.token, outLen := 0, tag := x.tag, tick := tick,
      vec := x.vec, lastOfVec := false, wait := false }
  if r.stream then some { e with status := 2, value := word (r.step.toNat % x.outN.toNat), outLen := word frame.length }
  else if x.samples r then some { e with status := (x.finalStatus r).getD 1 }
  else none

/-- The result entry of a slot freed under R489. -/
def SlotSt.cancelResult (x : SlotSt) (i : Nat) (tick : DWord) : ResEntry :=
  { slot := BitVec.ofNat 8 i, status := 5, step := x.com.step, value := 0xFFFFFFFF, outLen := 0, tag := x.tag, tick := tick,
    vec := x.vec, lastOfVec := false, wait := false }

/-- Entries in ascending slot order. -/
def resInsert (x : ResEntry) : List ResEntry → List ResEntry
  | [] => [x]
  | y :: t => if x.slot ≤ y.slot then x :: y :: t else y :: resInsert x t

/-- Marks the last entry of each vector (R630). -/
def markLast : List ResEntry → List ResEntry
  | [] => []
  | x :: t => { x with lastOfVec := !t.any (fun y => y.vec == x.vec) } :: markLast t

/-- Posts entries into the result queue; with SYNC they wait for the partner while PAIRED (R667). -/
def State.postResults (s : State) (l : List ResEntry) : State :=
  let l := markLast (l.foldl (fun a x => resInsert x a) [])
  let wait := s.cfg.sync && s.twin.state == 2
  s.modHost (fun h => { h with resq := h.resq ++ l.map (fun x => { x with wait := wait }) })

/-- Writes the frame output of a confirmed stream step (R639). -/
def State.writeFrame (s : State) (r : SlotRec) (frame : List Byte) : State :=
  let x := s.slot r.slot.val
  let a := x.outBase.toNat + r.step.toNat % x.outN.toNat * x.outStride.toNat
  if !r.stream ∨ frame.isEmpty then s
  else if x.oloc then (if (s.place a).isStack then s.writeDev a frame else s)
  else s.hostWrite s.host.owner a frame

/-- The steps that the posting device fails because no output buffer is bound (R637). -/
def State.unboundFails (s : State) (records : List SlotRec) : List Nat :=
  (records.filter (fun r => r.stream && (s.slot r.slot.val).unbound && !(s.slot r.slot.val).oloc)).map (fun r => r.slot.val)

/-! ## Rings at the curtain (R392, R508) -/

/-- R508. -/
def RingSt.toCue (r : RingSt) (inbound : Bool) : RingSt :=
  if inbound then { r with head := r.cueAt.tail, free := r.cueAt.tail, ctail := r.cueAt.tail, marks := [], pwait := false, cwait := false }
  else { r with
    head := r.cueAt.head, free := r.cueAt.free, ctail := r.cueAt.ctail, tail := r.cueAt.tail, turn := r.cueAt.turn, marks := [],
    resv := [], pwait := false, cwait := false, full := false }

/-- The rings of a core at a curtain: R508 after a whole-step rollback; otherwise every epoch is confirmed (R387) and DISCARD rings
are emptied (R392). A fault's stop ends. -/
def State.curtainRings (s : State) (whole : Bool) (c : CoreId) : State :=
  s.modCore c (fun k => { k with rings := k.rings.map (fun e =>
    let r := if whole then e.2.toCue (s.ringInbound c e.1) else
      (if e.2.discard then (e.2.confirm 65535).discardAll else e.2.confirm 65535)
    (e.1, { r with stopped := false })) })

/-- A core after the curtain: its sequencer is at PC 0, nothing of the tick is queued (R505, R421). One that has reported END
reads DONE until the next cue (log 82). -/
def CoreSt.afterTick (k : CoreSt) : CoreSt :=
  { k.cancelWork with
    seq := { k.seq with state := if k.seq.state = 0 then 0 else 2, pc := 0, ended := false, cueLatched := false, waitBar := none }, sb := [] }

/-! ## Precision state at the curtain (R304, R321, R322, R347) -/

/-- The descriptor of a layer. -/
def State.layerDesc (s : State) (lix : Nat) : Option LayerDesc :=
  (s.cfg.layers.find? (fun l => LayerDesc.lix l.desc == lix)).map (fun l => l.desc)

/-- A layer's withhold count and sticky widen at a curtain that commits (R321, R322). -/
def LayerSt.count (l : LayerSt) (d : LayerDesc) : LayerSt × Bool :=
  if !l.refusedTick then ({ l with wrun := 0 }, false)
  else if l.wrun.toNat < 2 then ({ l with wrun := l.wrun + 1 }, false)
  else
    let n := l.widenings + 1
    let wide : BitVec 5 := if d.rr then BitVec.ofNat 5 (widenN d n d.form).aw else l.inMin
    ({ l with wrun := 0, sticky := true, widenings := n, inMin := wide }, true)

/-- A layer whose tick state is restored (R304, R504). -/
def LayerSt.restore (l old : LayerSt) : LayerSt :=
  { l with wrun := old.wrun, sticky := old.sticky, widenings := old.widenings, inMin := old.inMin, meanSet := old.meanSet, mean := old.mean }

/-- The layers at a curtain. -/
def State.curtainLayers (s : State) (whole : Bool) : State :=
  let s := s.prec.layers.foldl (fun s e =>
    if whole then s.modLayer e.1 (fun l => l.restore (Tab.get .reset s.prec.committed e.1))
    else
      let r := e.2.count ((s.layerDesc e.1).getD 0)
      let s := s.modLayer e.1 (fun _ => r.1)
      if r.2 then s.raise 0x2203 else s) s
  let b := 3 * s.tick.period.toNat * s.prec.rrbForce.toNat / 1000
  s.modPrec (fun p => { p with
    seen := p.layers, lastBudget := word (min p.used b / 3), lastStretch := word ((p.used - b) / 3) })

/-- The miss watch of R292: one event for each core and prompter layer above its limit. -/
def State.curtainMisses (s : State) : State :=
  s.listedCores.foldl (fun s c =>
    let s := (s.coreAt c).sparse.miss.foldl (fun s e =>
      let lim := ((s.layerDesc e.1).getD 0).pmiss
      if lim ≠ 0 ∧ lim * e.2.1 < e.2.2 * 65536 then s.raise 0x3162 none none (posOf c 0) else s) s
    s.modSparse c (fun x => { x with miss := [] })) s

/-- The FCLK cycles granted to narrow requests and the longest wait of one, at most 16, are free values (R361, log 27). -/
def State.curtainTraffic (s : State) : State :=
  s.clu.foldl (fun s e =>
    let d := s.drawWord
    let w : BitVec 5 := BitVec.ofNat 5 (d.1.toNat % 17)
    d.2.modClu e.1 (fun k => { k with forced := k.forced + d.1, narrowMax := if k.narrowMax < w then w else k.narrowMax })) s

/-- The clusters and cores after the tick. -/
def State.curtainUnits (s : State) (whole : Bool) : State :=
  let s := s.listedCores.foldl (fun s c => s.curtainRings whole c) s
  { s with
    core := s.core.map (fun e => (e.1, e.2.afterTick)),
    clu := s.clu.map (fun e => (e.1, { e.2 with svuQ := [], waiting := [], topIn := [], scatIn := [] })),
    prec := { s.prec with squash := none } }

/-! ## Step messages (R495 to R498, R562, R563, R597, R674) -/

/-- The primary port of the SOUTH bond, or the port that carries its traffic while it is DOWN (R562, R563). -/
def State.southPort (s : State) : Nat := if s.win.bondDown.contains 1 then 6 else 1

/-- Slot s and slot s + 128 exchanged (R674). -/
def swapMsg (m : StepMsg) : StepMsg :=
  let r := fun (x : BitVec 256) => (x <<< 128) ||| (x >>> 128)
  { m with
    stepM := r m.stepM, failM := r m.failM, freeM := r m.freeM,
    records := m.records.map (fun x => { x with slot := Fin.ofNat 256 (x.slot.val + 128) }) }

/-- Sends a step message on the SOUTH port, and with WIN_BYPASS.OUT a copy through SPARE-D (R495, R597, R674). In a replay every
send is discarded (R754). -/
def State.sendStep (s : State) (typ : Nat) (m : StepMsg) : State :=
  if s.reh.replay.isSome then s
  else
    let n := 128 + 16 * m.records.length
    let s := s.sendOn s.southPort n (.step s.southPort typ m)
    if s.win.bypassOut then s.sendOn 3 n (.step 3 typ (swapMsg m)) else s

/-- The slots that a paired device serves: its own, and those that it has adopted (R656, R672, log 71). -/
def State.served (s : State) : BitVec 256 :=
  if s.cfg.paired then BitVec.ofNat 256 (2 ^ 128 - 1) ||| s.twin.adoptedMask else BitVec.allOnes 256

/-- A step message without the slots that the device does not serve. -/
def onlyMsg (m : StepMsg) (x : BitVec 256) : StepMsg :=
  { m with
    stepM := m.stepM &&& x, failM := m.failM &&& x, freeM := m.freeM &&& x,
    records := m.records.filter (fun r => x.getLsbD r.slot.val) }

/-- A slot whose step number differs from that of a step message enters FAULT (R517): the slots so found. -/
def State.mismatched (s : State) (l : List SlotRec) : List Nat :=
  (l.filter (fun r => (s.slot r.slot.val).state != 6 && (s.slot r.slot.val).com.step != r.step)).map (fun r => r.slot.val)

/-- Those slots enter FAULT, with event 0x1005. -/
def State.faultMismatched (s : State) (l : List Nat) : State :=
  l.foldl (fun s i => (s.modSlot i (fun x => { x with state := 6 })).raise 0x1005 none (some i)) s

/-! ## The curtain (R510) -/

/-- Every send of the tick has left and been acknowledged; a replay discards them (R510, R754). -/
def State.sendsLanded (s : State) : Bool :=
  s.reh.replay.isSome ||
  (List.range 256).all (fun r => !s.outEn r || (s.ringAt (s.outRing r).1 (s.outRing r).2).unsentOfTick == 0)

/-- The waits of R510 have ended; an abandoned tick waits only for its writes (R505). -/
def State.curtainDue (s : State) (r : RunTick) : Bool :=
  r.abandoned || (s.allEnded && s.prec.squash.isNone && s.prec.invs.all (fun e => e.2.decided) && s.sendsLanded)

/-- In a replay the outbound rings are emptied at the curtain, their sends discarded (R754). -/
def State.discardSends (s : State) : State :=
  if s.reh.replay.isNone then s
  else (List.range 256).foldl (fun s r =>
    if s.outEn r then s.modRing (s.outRing r).1 (s.outRing r).2 RingSt.discardAll else s) s

/-- The final FAILM of a replayed step: of the confirmation record of its tick where there is one, else of the tick record (R754). -/
def ReplaySt.finalFail (x : ReplaySt) (w : List Byte) : BitVec 256 :=
  match x.confs.find? (fun c => recTick c == recTick w) with
  | some c => recFailM c
  | none => recFailM w

/-- What a curtain knows of its step: the records with their tokens and frames, the failed slots. -/
structure Outcome where
  runs : List (SlotRec × List Byte)
  fail : BitVec 256
  deriving DecidableEq, Repr

/-- The slot steps as a rehearsal record tells them (R744). -/
def State.slotRuns (s : State) (r : RunTick) (o : Outcome) : List SlotRun :=
  o.runs.map (fun e =>
    let x := s.slot e.1.slot.val
    let out := x.samples e.1
    { r := { e.1 with token := 0xFFFFFFFF }, withheld := s.prec.withheld.getLsbD e.1.slot.val,
      fed := if !e.1.stream ∧ x.state = 3 then x.com.lastToken else 0xFFFFFFFF,
      input := match r.hostIn.find? (fun i => i.1 == e.1.slot.val) with | some i => i.2 | none => [],
      out := if e.1.stream then word e.2.length else if out then e.1.token else 0xFFFFFFFF,
      crc := if e.1.stream then word (crc32 e.2) else 0 })

/-- Counters of rollbacks, ERR_MODE.RUN and events 0x1002 (R504, R519, R736). -/
def State.countRollback (s : State) (whole : Bool) (n : Nat) : State :=
  let s := s.modTick (fun t => { t with stepRb := if whole then bump t.stepRb else t.stepRb, slotRb := bump t.slotRb n })
  let s := s.modErr (fun e => { e with runLen := if whole then (if e.runLen = 255 then 255 else e.runLen + 1) else 0 })
  if whole then s.raise 0x1002 else s

/-- The posting device's confirmation at its own curtain (R510, R637 to R641): results, outputs, and in a chain the curtain
message. Cancelled slots without room in the result queue stay RETIRING (log 72). -/
def State.confirmLast (s : State) (r : RunTick) (o : Outcome) : State :=
  let tick := s.tick.count
  let gone := maskList r.freeM
  let ok := o.runs.filter (fun e => !o.fail.getLsbD e.1.slot.val)
  let results := ok.filterMap (fun e => (s.slot e.1.slot.val).result e.1 e.2 tick)
  let retired := maskOf ((ok.filter (fun e => ((s.slot e.1.slot.val).finalStatus e.1).isSome)).map (fun e => e.1.slot.val))
  let room := decide (s.host.resq.length + results.length + gone.length ≤ Config.resultQueueDepth)
  let goneRoom := decide (s.host.resq.length + gone.length ≤ Config.resultQueueDepth)
  let fail := if room then o.fail else o.fail ||| r.stepM
  let s := if room ∨ ok.isEmpty then s else
    (s.modHost (fun h => { h with backlogRb := bump h.backlogRb ok.length })).raise 0x6005 (some ok.length)
  let s := if room then s else s.modTick (fun t => { t with slotRb := bump t.slotRb ok.length })
  let s := if room then ok.foldl (fun s e => s.writeFrame e.1 e.2) s else s
  let free := if room then retired else 0
  let cancels := if goneRoom then gone.map (fun i => (s.slot i).cancelResult i tick) else []
  let s := if goneRoom then s.freeSlots gone else gone.foldl (fun s i => s.modSlot i (fun x => { x with state := 5 })) s
  let s := s.confirmStep r.group fail free (o.runs.map (fun e => e.1))
  let s := s.postResults (cancels ++ if room then results else [])
  if s.chainLen = 1 then s
  else s.sendStep 2
    { tick := r.tick, group := BitVec.ofNat 8 r.group, sender := BitVec.ofNat 8 s.chainPos, clen := BitVec.ofNat 8 s.chainLen,
      stepM := r.stepM, failM := fail ||| r.upFail, freeM := free ||| r.freeM, records := o.runs.map (fun e => e.1), checkOk := true }

/-- Another device's own curtain: the step is pending, and the status message goes downstream (R489, R496, R510). -/
def State.confirmLater (s : State) (r : RunTick) (o : Outcome) : State :=
  let records := o.runs.map (fun e => { e.1 with token := 0xFFFFFFFF })
  let fail := o.fail ||| r.upFail
  let s := s.freeSlots (maskList r.freeM)
  let s := s.modTick (fun t => { t with pend := Tab.put t.pend r.group ⟨r.tick, r.stepM, fail, records⟩ })
  s.sendStep 1
    { tick := r.tick, group := BitVec.ofNat 8 r.group, sender := BitVec.ofNat 8 s.chainPos, clen := BitVec.ofNat 8 s.chainLen,
      stepM := r.stepM, failM := fail, freeM := r.freeM, records := records, checkOk := true }

/-- A replay's confirmation: exactly what the record committed (R754, R756); nothing is posted. -/
def State.confirmReplay (s : State) (r : RunTick) (o : Outcome) (x : ReplaySt) (w : List Byte) (runs : List SlotRun) : State :=
  let final := x.finalFail w
  let s := s.compareTick w final o.fail runs
  let tokens := o.runs.map (fun e =>
    match (recSlots w).find? (fun b => byteAt b 0 == e.1.slot.val) with
    | some b => { e.1 with token := word (leAt b 16 4) }
    | none => e.1)
  let s := o.runs.foldl (fun s e => if final.getLsbD e.1.slot.val then s else s.modSlot e.1.slot.val (fun y => y.advance e.1)) s
  let s := s.confirmStep r.group final 0 tokens
  s.modReh (fun h => { h with replay := h.replay.map (fun y => { y with now := none }) })

/-- The failed slots of the step (R503, R504, R510, R637). -/
def State.curtainFails (s : State) (r : RunTick) (unbound : List Nat) : BitVec 256 :=
  if r.wholeFault then r.stepM else (s.prec.withheld ||| r.slotFail ||| r.upFail ||| maskOf unbound) &&& r.stepM

/-- TICK_OUT with function PHASE falls at the end of the curtain (R771). -/
def State.phaseLow (s : State) : State := if s.pinFunc 5 = 3 then s.modPin (fun p => { p with tickOut := false }) else s

/-- The curtain of R510: the failed set, the pointers, the rings, the step in force, the confirmation or the status message; then
what follows it. -/
def State.curtain (s : State) (r : RunTick) (at_ : Nat) (results : List StepResult) : State :=
  let unbound := if s.isLast ∧ s.reh.replay.isNone then s.unboundFails r.records else []
  let fail := s.curtainFails r unbound
  let n := s.free
  let s := { s with free := n + r.records.length }
  let s := s.modHost (fun h => { h with unboundN := bump h.unboundN (unbound.filter (fun i => !r.wholeFault ∧ r.stepM.getLsbD i)).length })
  let o : Outcome := ⟨r.records.zipIdx.map (fun e => fillRecord results (n + e.2) e.1), fail⟩
  let s := s.countRollback r.wholeFault (maskList fail).length
  let s := (s.curtainMisses.curtainLayers r.wholeFault).curtainTraffic
  let runs := s.slotRuns r o
  let note := s.tickRecord r r.wholeFault fail runs
  let s := o.runs.foldl (fun s e => s.modSlot e.1.slot.val (fun x =>
    if fail.getLsbD e.1.slot.val then { x with pend := true, new := x.com } else x.advance e.1)) s
  let s := (s.discardSends.curtainUnits r.wholeFault).applyStep
  let s := (List.range 4).foldl (fun s d => s.kvSwitch d) s
  let s := match s.reh.replay, s.reh.replay.bind ReplaySt.now with
    | some x, some w => s.confirmReplay r o x w runs
    | _, _ => if s.isLast then s.confirmLast r o else s.confirmLater r o
  let s := (List.range 4).foldl (fun s d => s.kvSpillSelect d) s
  let s := if s.cfg.rehEn then s.putRecord note true else s
  let s := s.modTick (fun t => { t with
    running := none, lastLen := word (at_ - r.released) })
  let s := (s.leaveRun.modHost (fun h => { h with switchDue := h.claimed })).phaseLow
  s.stageMirror

/-- CURTAIN (R505, R510): `results` are the tokens and frames that the tick program left (log 9). -/
def execCurtain (at_ : Nat) (results : List StepResult) (s : State) : Answer :=
  .next (match s.tick.running with
    | none => s
    | some r => if s.curtainDue r then s.curtain r at_ results else s)

/-! ## Messages and timeouts (R496, R497, R505, R513 to R517) -/

/-- A step message from upstream is for this device: on NORTH, or with WIN_BYPASS.IN or after an adoption on SPARE-U, there under
the numbers of R674 (R597, log 71). -/
def State.stepSource (s : State) (p : Nat) (m : StepMsg) : Option StepMsg :=
  if p = 7 then (if s.win.bypassReg.getLsbD 0 ∨ s.twin.state = 4 then some (onlyMsg (swapMsg m) s.served) else none)
  else if s.win.bypassReg.getLsbD 0 then none else some (onlyMsg m s.served)

/-- Two status messages of one tick, the chain's own and the adopted slots' (R674). -/
def mergeMsg (a b : StepMsg) : StepMsg :=
  { a with
    stepM := a.stepM ||| b.stepM, failM := a.failM ||| b.failM, freeM := a.freeM ||| b.freeM, records := a.records ++ b.records,
    checkOk := a.checkOk && b.checkOk }

/-- STATUS_MESSAGE (R496, R497, R517): kept for the cue after the sender's tick. -/
def execStatusMessage (lp : Fin 8) (h : FlitHdr) (m : StepMsg) (s : State) : Answer :=
  .next (s.recvCtrl lp.val h fun s =>
    match s.stepSource lp.val m with
    | none => s
    | some m =>
      if s.isHead ∨ !s.readyOrRun then s
      else
        let bad := if m.checkOk then s.mismatched (m.records.filter (fun r => !r.first)) else []
        let m := { m with failM := m.failM ||| maskOf bad }
        let s := if m.checkOk then s.faultMismatched bad else s.raise 0x1004
        let m := match s.tick.upstream.find? (fun e => e.1 == m.tick.toNat) with
          | some e => mergeMsg e.2 m
          | none => m
        s.modTick (fun t => { t with upstream := Tab.put t.upstream m.tick.toNat m }))

/-- Rolls back a pending step (R501, R515). -/
def State.rollbackPending (s : State) (g : Nat) (p : PendStep) : State :=
  let s := p.records.foldl (fun s r => s.modSlot r.slot.val SlotSt.rollback) s
  let s := s.modTick (fun t => { t with pend := Tab.erase t.pend g, slotRb := bump t.slotRb p.records.length })
  s.recordConf p g p.stepM

/-- The curtain message's step is the pending one of its group: the last device serves it C − 1 − i ticks after device i (R491,
R516). -/
def State.pendingFor (s : State) (m : StepMsg) : Option PendStep :=
  (s.tick.pend.find? (fun e => e.1 == m.group.toNat % 16 && decide (e.2.tick.toNat + s.chainLen = m.tick.toNat + s.chainPos + 1))).map
    (fun e => e.2)

/-- CURTAIN_MESSAGE (R497, R513, R514, R516, R517): without its pending step it is discarded. -/
def execCurtainMessage (lp : Fin 8) (h : FlitHdr) (m : StepMsg) (s : State) : Answer :=
  .next (s.recvCtrl lp.val h fun s =>
    match s.stepSource lp.val m with
    | none => s
    | some m =>
      match s.pendingFor m with
      | none => s
      | some p =>
        let g := m.group.toNat % 16
        let bad := if m.checkOk then s.mismatched (m.records.filter (fun r => p.stepM.getLsbD r.slot.val)) else []
        let s := if m.checkOk then s.faultMismatched bad else s.raise 0x1004
        let m := { m with failM := if m.checkOk then m.failM ||| maskOf bad else m.stepM ||| p.stepM, checkOk := true }
        let fail := m.failM &&& p.stepM
        let records := p.records.map (fun r => match m.records.find? (fun x => x.slot == r.slot) with
          | some x => { r with token := x.token } | none => r)
        let more := (maskList fail).filter (fun i => !p.failM.getLsbD i)
        let s := s.modTick (fun t => { t with pend := Tab.erase t.pend g, slotRb := bump t.slotRb more.length })
        let s := s.confirmStep g fail (m.freeM &&& p.stepM) records
        let s := (s.recordConf p g fail).leaveRun
        (if s.chainPos + 2 < s.chainLen then s.sendStep 2 m else s).stageMirror)

/-- TICK_MAX_EXPIRY (R505): the tick has not reached its curtain TICK_MAX after its cue release. -/
def execTickMaxExpiry (at_ : Nat) (s : State) : Answer :=
  .next (match s.tick.running with
    | none => s
    | some r => if r.abandoned ∨ at_ < r.released + s.tick.tickMax.toNat then s else s.abandonTick.raise 0x1001)

end Sys2Proof.Machine
end

