-- ==== Sys2Proof/Machine/Cues.lean ====
section
/-! DEFINITION. Cues: taking one from the timer, TICK_IN or the chain, what a release decides and does, the chain hold and its
end, TICK_PERIOD and TICK_MAX (10, R471 to R518; 07, R322 to R325; 14, R668 to R675; 16, R736, R752 to R754; 17, R768, R784,
R785). -/

namespace Sys2Proof.Machine

/-! ## Taking a cue (R471 to R475, R659, R785) -/

/-- A power hold ends when the next cue is taken (R785): counted, event 0x9003 at the first cut of a run. -/
def State.cutHold (s : State) : State :=
  if s.pwr.holdFrom.isSome ∧ !s.pwr.cut then
    let t := s.modPwr (fun p => { p with cut := true, exempt := true, holdCut := bump p.holdCut })
    if s.pwr.cutRun then t else t.raise 0x9003
  else s

/-- A cue is taken (R473, R475, R783): a third one abandons the running tick with event 0x1001; it is dropped and takes no
number (log 66). -/
def State.takeCue (s : State) (n : DWord) (at_ : Nat) (mismatch : Bool) : State :=
  if !s.readyOrRun then s
  else
    let s := s.cutHold
    if 2 ≤ s.tick.held.length then s.abandonTick.raise 0x1001
    else (s.modTick (fun t => { t with
        held := t.held ++ [⟨n, at_, mismatch⟩], anyCue := true, nextNum := n + 1, lastTaken := some at_ })).modPwr
      (fun p => { p with capInForce := p.cap })

/-- The number of the next cue of SRC 0 and 1 (R474, R659). -/
def State.cueNumber (s : State) : DWord :=
  if s.tick.anyCue then s.tick.nextNum
  else if !s.cfg.paired then 0
  else match s.twin.helloTick with | some n => n + 1 | none => 0

/-- The period has passed since the previous cue was taken, and its curtain has ended (R471). -/
def State.timerDue (s : State) (at_ : Nat) : Bool :=
  s.tick.running.isNone && s.tick.held.isEmpty &&
  (match s.tick.lastTaken with | none => true | some t => decide (t + s.tick.period.toNat ≤ at_))

/-- TIMER_CUE (R471): SRC 0; in a replay the cue of the next record, whatever SRC says (R754). -/
def execTimerCue (at_ : Nat) (s : State) : Answer :=
  .next (if !s.timerDue at_ then s
    else match s.reh.replay with
      | some r =>
        (match r.recs with
        | [] => s
        | w :: _ =>
          let t := s.takeCue (recTick w) at_ false
          t.modTick (fun x => { x with anyCue := s.tick.anyCue, nextNum := s.tick.nextNum }))
      | none => if s.tick.src = 0 then s.takeCue s.cueNumber at_ false else s)

/-- TICK_IN_EDGE (R471, R768): the pin has the function CUE_IN. An edge within 200 µs of the last accepted one is counted. The
pulse has passed when the command has: the pin is low again (log 12). -/
def execTickInEdge (at_ highNs lowNs : Nat) (s : State) : Answer :=
  .next (let s := s.modPin (fun p => { p with tickIn := false })
    if s.glb.st = .off ∨ s.pinFunc 4 ≠ 1 ∨ highNs < 50 ∨ lowNs < 50 then s
    else if (match s.pin.lastTickIn with | none => false | some t => decide (at_ < t + 200000)) then
      s.modPin (fun p => { p with tickRej := bump p.tickRej })
    else
      let s := s.modPin (fun p => { p with lastTickIn := some at_ })
      if s.tick.src = 1 ∧ s.reh.replay.isNone then s.takeCue s.cueNumber at_ false else s)

/-- A cue flit of the chain: its period and limit are compared (R494). -/
def State.chainCue (s : State) (tick : DWord) (period tickMax : Word) (at_ : Nat) : State :=
  let differs := decide (period.toNat ≠ s.tick.period.toNat) || decide (tickMax.toNat ≠ s.tick.tickMax.toNat)
  (if differs then s.raise 0x1003 else s).takeCue tick at_ differs

/-- CUE (R471, R494, R562, R563, R597, R675): on NORTH, of a bond once both copies have come; through window 63 with
WIN_BYPASS.IN, or, on a device that has adopted, as the mark of its adopted slots' inputs. -/
def execCue (lp : Fin 8) (h : FlitHdr) (bypass : Bool) (tick : DWord) (period tickMax : Word) (at_ : Nat) (s : State) :
    Answer :=
  .next (s.recvCtrl lp.val h fun s =>
    if !s.readyOrRun ∨ s.reh.replay.isSome then s
    else if bypass then
      if s.win.bypassReg.getLsbD 0 then s.chainCue tick period tickMax at_
      else if s.twin.state = 4 then s.modTick (fun t => { t with marks := tick :: t.marks })
      else s
    else if s.win.bypassReg.getLsbD 0 ∨ s.tick.src ≠ 2 then s
    else if s.isN4 ∧ (s.lnkAt 0).isUp ∧ (s.lnkAt 4).isUp ∧ !s.tick.bondCue.contains tick then
      s.modTick (fun t => { t with bondCue := tick :: t.bondCue })
    else (s.modTick (fun t => { t with bondCue := t.bondCue.filter (fun x => x != tick) })).chainCue tick period tickMax at_)

/-! ## What a cue changes before its tick -/

/-- A missed interval, or the heartbeat that ends a run of them (R660, R667, R668). -/
def State.twinInterval (s : State) : State :=
  let t := s.twin
  if t.state ≠ 2 ∧ t.state ≠ 3 then s
  else if t.beat then s.modTwin (fun t => { t with beat := false, missed := 0, state := 2 })
  else
    let s := if t.state = 2 then (s.modTwin TwinSt.giveUp).releaseResults (fun _ => true) else s
    let s := s.modTwin (fun t => { t with
      state := 3, missed := if t.missed = 3 then 3 else t.missed + 1, hbMissed := bump t.hbMissed })
    if t.missed = 0 then s.raise 0x7003 else s

/-- An adoption runs at the cue at which it is decided (R669, R670). -/
def State.adoptAtCue (s : State) : State :=
  if (s.twin.state = 2 ∨ s.twin.state = 3) ∧ (s.twin.adoptReq ∨ (s.cfg.auto ∧ s.twin.missed = 3)) then
    s.mirrorUnpacked.adoptNow
  else s

/-- Safe mode begins or ends (R736 to R738). -/
def State.safeModeCue (s : State) : State :=
  let e := s.err
  if e.active then (if e.safemode then s else s.modErr (fun e => { e with active := false }))
  else if e.safemode ∨ (e.storm ≠ 0 ∧ e.storm ≤ e.runLen) then
    let s := s.modErr (fun e => { e with safemode := true, active := true, entries := bump e.entries })
    ((s.raise 0xA010).rehTrigger (word (0xFFFF0000 + (Config.triggerSource 3).toNat))).raiseAll
  else s

/-- The bond ports whose traffic the other port of the bond carries from this cue on (R563). -/
def State.bondsDown (s : State) : List Nat :=
  if !s.isN4 then []
  else [0, 1, 2, 4, 5, 6].filter (fun p => !(s.lnkAt p).isUp && ((bondMate p).elim false (fun m => (s.lnkAt m).isUp)))

/-- Routes, the outbound table and WIN_BYPASS take effect at the next cue (R572, R576, R597). -/
def State.linksAtCue (s : State) : State :=
  s.modWin (fun w => { w with
    routes := w.routesNext, out0 := w.out0Next, out1 := w.out1Next, bypassIn := w.bypassReg.getLsbD 0,
    bypassOut := w.bypassReg.getLsbD 1, bondDown := s.bondsDown })

/-- A layer at a cue: CLR_STICKY reverts its base form (R323); the marks of the last tick go. -/
def LayerSt.atCue (l : LayerSt) (clear : Bool) : LayerSt :=
  let l := if clear then { l with sticky := false, widenings := 0, inMin := 0 } else l
  { l with trips := 0, refusedTick := false, trippedTick := false, withheldTick := false }

/-- The precision controller at a cue: the budget in force (R325), cleared layers (R323), the tick state of R304. -/
def PrecSt.atCue (p : PrecSt) : PrecSt :=
  let layers := (p.layers.map (fun e => (e.1, e.2.atCue (p.clearReq.contains e.1))))
  { p with
    rrbForce := if p.rrb < p.rrbMax then p.rrb else p.rrbMax, layers := layers, committed := layers, clearReq := [], invs := [],
    used := 0, stretched := false, withheld := 0, squash := none }

/-- The cap interval ends (R783, R784): the average of the last one, the new one starts. -/
def PwrSt.atCue (p : PwrSt) (at_ : Nat) : PwrSt :=
  { p with
    lastInterval := if p.sampleCount = 0 then 0 else BitVec.ofNat 16 (p.energy / p.sampleCount), energy := 0, sampleCount := 0,
    holdUs := match p.holdFrom with | none => p.holdUs | some t => bump p.holdUs ((at_ - t) / 1000),
    holdFrom := none, cutRun := p.cut, cut := false, exempt := false }

/-- A core at a cue: the cue is latched, epoch 0 is confirmed, nothing of an earlier tick is counted (R425, R426, R62). -/
def CoreSt.atCue (k : CoreSt) : CoreSt :=
  { k with
    conf := 0, merged := [], madeUp := [], hist := [], probes := [],
    sparse := { k.sparse with oorRaised := [] },
    seq := { k.seq with state := 2, cueLatched := true, ended := false, bound := [], halves := [], arrivals := [], part1 := none } }

/-! ## The plan (R477, R483, R484, R489, R498) -/

/-- The step of a tick: which slots take it and how, what already fails or leaves. -/
structure Plan where
  records : List SlotRec
  freeM : BitVec 256
  upFail : BitVec 256
  slotFail : BitVec 256
  whole : Bool
  deriving DecidableEq, Repr

/-- The slots of the step. -/
def Plan.stepM (p : Plan) : BitVec 256 := maskOf (p.records.map (fun r => r.slot.val))

/-- Keys in rising order of a number. -/
def insertBy {α : Type} (f : α → Nat) (x : α) : List α → List α
  | [] => [x]
  | y :: t => if f x ≤ f y then x :: y :: t else y :: insertBy f x t

/-- A list in rising order of a number. -/
def sortBy {α : Type} (f : α → Nat) (l : List α) : List α := l.foldr (insertBy f) []

/-- The group that a tick serves here (R491). -/
def State.groupOf (s : State) (n : DWord) : Nat := (n.toNat + s.chainLen - s.chainPos % s.chainLen) % s.chainLen

/-- The slots of a group that the device serves. -/
def State.groupSlots (s : State) (g : Nat) : List Nat :=
  (List.range 256).filter (fun i => i % s.chainLen == g && s.served.getLsbD i && (s.slot i).state != 0)

/-- The positions of a slot's step under what is left of PFA; 0 for no step (R483, R637). -/
def SlotSt.positions (x : SlotSt) (left : Nat) : Nat :=
  if x.pend || x.cancel then 0
  else if x.kind then (if (x.state == 1 || x.state == 4) && !x.inputs.isEmpty then 1 else 0)
  else if x.state = 3 then 1
  else if (x.state == 1 || x.state == 2) && (x.ploc || !x.unbound) then min x.com.promptLeft.toNat left
  else 0

/-- The record of a slot's step of n positions. -/
def SlotSt.record (x : SlotSt) (i n : Nat) : SlotRec :=
  { slot := Fin.ofNat 256 i, first := x.state == 1, lastChunk := !x.kind && x.state != 3 && decide (x.com.promptLeft.toNat = n),
    stream := x.kind, positions := BitVec.ofNat 16 n, step := x.com.step, token := 0xFFFFFFFF }

/-- plan_step of R483 over slots in admission order. -/
def State.planSteps (s : State) : Nat → List Nat → List SlotRec
  | _, [] => []
  | left, i :: t =>
    let x := s.slot i
    let n := x.positions left
    let fills := !x.kind && x.state != 3
    if n = 0 then s.planSteps left t else x.record i n :: s.planSteps (if fills then left - n else left) t

/-- The stream slots of a group whose frame has not landed (R484). -/
def State.lateSlots (s : State) (l : List Nat) : List Nat :=
  l.filter (fun i => let x := s.slot i
    x.kind && (x.state == 1 || x.state == 4) && !x.pend && !x.cancel && x.inputs.isEmpty)

/-- The RETIRING slots of a group (R489). -/
def State.retiring (s : State) (g : Nat) : BitVec 256 := maskOf ((s.groupSlots g).filter (fun i => (s.slot i).state == 5))

/-- The chain head's plan (R483, R484, R489). -/
def State.headPlan (s : State) (g : Nat) : Plan × State :=
  let l := sortBy (fun i => (s.slot i).order) (s.groupSlots g)
  let late := s.lateSlots l
  let records := sortBy (fun (r : SlotRec) => r.slot.val) (s.planSteps s.tick.pfa.toNat l)
  let s' := s.modTick (fun t => { t with slotLate := bump t.slotLate late.length })
  (⟨records, s.retiring g, 0, 0, false⟩, if late.isEmpty then s' else s'.raise 0x1007)

/-- A slot's first step above position 0 (R498): the slot starts from its own driver's entry; without one it fails. -/
def State.startSlot (s : State) (i : Nat) : Bool × State :=
  match (s.slot i).local_ with
  | some e => (true, (s.modSlot i (fun _ => slotFrom e s.host.admSeq)).modHost (fun h => { h with admSeq := h.admSeq + 1 }))
  | none => if (s.slot i).state = 1 then (true, s) else (false, s.raise 0x1008)

/-- The adopted slots of a step whose mark has not come (R675). -/
def State.unmarked (s : State) (n : DWord) (m : StepMsg) : BitVec 256 :=
  if s.twin.state = 4 ∧ !s.win.bypassIn ∧ !s.tick.marks.contains n then m.stepM &&& s.twin.adoptedMask else 0

/-- The plan of a device above position 0: the step of the status message of the tick before (R491, R496 to R498, R517, R675);
none came: nobody steps (log 73). -/
def State.laterPlan (s : State) (n : DWord) (g : Nat) : Plan × State :=
  let own := if s.isLast then s.retiring g else 0
  match s.tick.upstream.find? (fun e => e.1 + 1 == n.toNat) with
  | none => (⟨[], own, 0, 0, false⟩, s)
  | some (_, m) =>
    let late := s.unmarked n m
    let m := onlyMsg m (~~~late)
    let s := s.modTick (fun t => { t with
      slotLate := bump t.slotLate (maskList late).length, upstream := t.upstream.filter (fun e => decide (n.toNat ≤ e.1)),
      marks := t.marks.filter (fun x => decide (n < x)) })
    let r := (m.records.filter (fun r => r.first)).foldl (fun (a : List Nat × State) r =>
      let u := a.2.startSlot r.slot.val
      (if u.1 then a.1 else r.slot.val :: a.1, u.2)) ([], s)
    let stuck := (m.records.filter (fun x => (r.2.slot x.slot.val).state == 6)).map (fun x => x.slot.val)
    (⟨sortBy (fun (r : SlotRec) => r.slot.val) m.records, m.freeM ||| own, m.failM, maskOf (r.1 ++ stuck), !m.checkOk⟩, r.2)

/-! ## A replay's tick (R754) -/

/-- The slots that a replayed tick needs: started from its ADMIT entries; a stream slot in mid-life starts at its step. -/
def State.replaySlots (s : State) (w : List Byte) : State :=
  let s := (recAdmits w).foldl (fun s e => s.modSlot e.1 (fun _ => slotFrom e.2 e.1)) s
  (recSteps w).foldl (fun s r =>
    if (s.slot r.slot.val).state ≠ 0 then s
    else s.modSlot r.slot.val (fun x =>
      let p : SlotPtrs := ⟨r.step, 0, 0, 0xFFFFFFFF⟩
      { x with state := 4, kind := r.stream, com := p, new := p })) s

/-- A recorded inbound entry goes into its ring. -/
def State.pushRecorded (s : State) (e : CoreId × Nat × List Byte) : State :=
  let r := s.ringAt e.1 e.2.1
  let t := s.ringPut e.1 e.2.1 r.tail e.2.2
  t.modRing e.1 e.2.1 (fun r => { r with tail := r.adv r.tail e.2.2.length }.settle)

/-- The plan and the settings of a replayed tick. -/
def State.replayPlan (s : State) (x : ReplaySt) (w : List Byte) : Plan × State :=
  let s := s.replaySlots w
  let s := { s with glb := { s.glb with aclkStep := BitVec.ofNat 2 (byteAt w 26) } }
  let s := (s.modPrec (fun p => { p with rrbForce := BitVec.ofNat 10 (leAt w 60 2) })).raiseAll
  let s := s.modReh (fun h => { h with
    replay := some { x with recs := x.recs.drop 1, now := some w, ctrl := BitVec.ofNat 3 (byteAt w 27) } })
  (⟨(recSteps w).map (fun r => { r with token := 0xFFFFFFFF }), 0, 0, 0, false⟩, (s.recEntries w).foldl State.pushRecorded s)

/-! ## Host inputs (R509, R636; log 67) -/

/-- Host DMA pushes an entry into every ring of the script that it feeds. -/
def State.pushHost (s : State) (kind : Nat) (l : List Byte) : State :=
  if l.isEmpty then s
  else s.cfg.rings.foldl (fun s r =>
    if r.producers.contains .hostDma then
      s.pushCluster r.core.cluster.num
        { code := 0, prod := .hostDma, ord := 0, conv := 0, epoch := 0, ring := some (r.core.num, r.q.val),
          kind := BitVec.ofNat 4 kind, bytes := l, blocked := false, window := none, acked := false, failed := false }
    else s) s

/-- The activation tiles of a coded input, by the LEN of their headers (R243, R636). -/
def splitTiles : Nat → List Byte → List (List Byte)
  | 0, _ => []
  | n + 1, l => if l.isEmpty then [] else
      let k := 8 + 8 * field (leAt l 0 8) 63 48
      l.take k :: splitTiles n (l.drop k)

/-- Pushes a frame: of elements, or a tensor record and tiles. -/
def State.pushFrame (s : State) (fmt : BitVec 2) (l : List Byte) : State :=
  if fmt = 2 then (splitTiles (l.length / 8 + 1) (l.drop 32)).foldl (fun s t => s.pushHost 0 t) (s.pushHost 1 (l.take 32))
  else s.pushHost 6 l

/-- The prompt tokens of a chunk: from device memory, or from the host, whose bytes are free values (log 67). A chunk that
cannot be read fails its slot (R503). -/
def State.promptTokens (s : State) (r : SlotRec) : List Byte × State :=
  let x := s.slot r.slot.val
  let a := x.promptAddr.toNat + 4 * (x.promptLen.toNat - x.com.promptLeft.toNat)
  let n := 4 * r.positions.toNat
  if !x.ploc then (s.send (.hostRead s.host.owner (BitVec.ofNat 64 a) n)).drawBytes n
  else
    let c := s.readGranules (a / 32 * 32) ((a + n - 1) / 32 - a / 32 + 1)
    if c.1 then (s.peek a n, c.2) else ([], c.2.slotFault (maskOf [r.slot.val]))

/-- The input of a slot's step at the chain head: its record bytes, and the entry pushed. -/
def State.feedSlot (s : State) (r : SlotRec) : List Byte × State :=
  let x := s.slot r.slot.val
  if r.stream then
    match x.inputs with
    | [] => ([], s)
    | f :: rest =>
      (f.body, (s.pushFrame f.fmt f.body).modSlot r.slot.val (fun x => { x with fed := some f, inputs := rest }))
  else if x.state = 3 then ([], s.pushHost 6 (leBytes 4 x.com.lastToken.toNat))
  else let p := s.promptTokens r; (p.1, p.2.pushHost 6 p.1)

/-- The inputs of every slot of the step. -/
def State.feedAll (s : State) : List SlotRec → List (Nat × List Byte) × State
  | [] => ([], s)
  | r :: t =>
    let a := s.feedSlot r
    let b := a.2.feedAll t
    (if a.1.isEmpty then b.1 else (r.slot.val, a.1) :: b.1, b.2)

/-- The inputs of a replayed tick: those of its record (log 67). -/
def State.feedReplay (s : State) (w : List Byte) : List (Nat × List Byte) × State :=
  let ins := (recInputs w).filter (fun e => !e.2.isEmpty)
  (ins, (recSteps w).foldl (fun (s : State) (r : SlotRec) =>
    match ins.find? (fun e => e.1 == r.slot.val) with
    | some e => s.pushHost 6 e.2
    | none => if r.token == 0xFFFFFFFF then s else s.pushHost 6 (leBytes 4 r.token.toNat)) s)

/-- The entries that the rings fed by links hold at the cue, as a record carries them (R743; host inputs stand in its section
of their own). -/
def State.inboundEntries (s : State) : List (List Byte) :=
  s.cfg.rings.flatMap (fun r =>
    if r.producers.any (fun p => match p with | .linkPort _ => true | _ => false) then
      let x := s.ringAt r.core r.q.val
      (s.entriesFrom r.core r.q.val x.head x.readable 4096).zipIdx.map (fun e =>
        leBytes 8 (r.core.num + r.q.val * 1024) ++
          s.ringGet r.core r.q.val (x.adv x.head (((s.entriesFrom r.core r.q.val x.head x.readable e.2).map (fun y => y.total)).sum)) e.1.total)
    else [])

/-! ## The release (R472, R476 to R478, R492, R506) -/

/-- A ring's cue state (R506). -/
def RingSt.latchCue (r : RingSt) : RingSt :=
  let r := r.settle
  { r with cueAt := ⟨r.head, r.free, r.ctail, r.tail, r.turn⟩ }

/-- Every ring's cue state. -/
def State.latchRings (s : State) : State :=
  { s with core := s.core.map (fun e => (e.1, { e.2 with rings := e.2.rings.map (fun r => (r.1, r.2.latchCue)) })) }

/-- The cue flits of a cue (R492, R562, R597); none in a replay (R754). -/
def State.sendCue (s : State) (n : DWord) : State :=
  if s.reh.replay.isSome ∨ s.chainLen ≤ s.chainPos + 1 then s
  else
    let f := fun (s : State) (p : Nat) => s.sendOn p 16 (.cue p n (word s.tick.period.toNat) (word s.tick.tickMax.toNat))
    let s := if s.isN4 ∧ (s.lnkAt 1).isUp ∧ (s.lnkAt 6).isUp then f (f s 1) 6 else f s s.southPort
    if s.win.bypassOut then f s 3 else s

/-- HEARTBEAT on the TWIN ports (R663), and event 0x7005 for a mirror more than 2 ticks old (R665). -/
def State.twinBeat (s : State) (n : DWord) : State :=
  if !s.cfg.paired ∨ s.twin.state = 0 ∨ s.twin.state = 1 ∨ s.twin.state = 5 then s
  else
    let f := fun (s : State) (p : Nat) =>
      if (s.lnkAt p).role = 2 then s.sendOn p 24 (.heartbeat (s.twin.state == 4) n s.twin.mirrorTick) else s
    let s := f (f s 2) 5
    match s.twin.staged.or s.twin.awaiting with
    | some m => if m.tick + 2 < n then s.raise 0x7005 else s
    | none => s

/-- A re-fetch is open and its 1 ms has not passed (R679). -/
def State.refetchHolds (s : State) : Bool := s.twin.refetch.isSome && s.twin.refetchAt.isNone

/-- The chain hold (R515): the cue's group has a pending step. -/
def State.chainHeld (s : State) (c : HeldCue) : Bool := s.tick.pend.any (fun e => e.1 == s.groupOf c.tick)

/-- The power hold (R784): E ÷ I > CAP; the first cue after READY, and one whose hold was cut, are exempt. -/
def State.powerHeld (s : State) (at_ : Nat) : Bool :=
  match s.tick.lastRelease with
  | none => false
  | some t => !s.pwr.exempt && decide (s.pwr.capInForce.toNat * (at_ - t) < s.pwr.energy * 1000)

/-- What a cue settles before the plan. -/
def State.beforePlan (s : State) (c : HeldCue) (rest : List HeldCue) (at_ : Nat) : State :=
  let s := s.modTick (fun t => { t with
    held := rest, holdFrom := none,
    holdUs := match t.holdFrom with | none => t.holdUs | some x => bump t.holdUs ((at_ - x) / 1000) })
  let s := (s.modPwr (fun p => p.atCue at_)).twinInterval.adoptAtCue
  let s := (s.applyStep.coolCue.linksAtCue.modPrec PrecSt.atCue).modTick (fun t => { t with
    count := c.tick, group := BitVec.ofNat 4 (s.groupOf c.tick), lastRelease := some at_ })
  let s : State := { s with clu := s.clu.map (fun e => (e.1, { e.2 with oorRaised := [] })) }
  s.safeModeCue

/-- The plan of the tick. -/
def State.planTick (s : State) : Plan × State :=
  match s.reh.replay with
  | some x => (match x.recs with | w :: _ => s.replayPlan x w | [] => (⟨[], 0, 0, 0, false⟩, s))
  | none =>
    if s.isHead then s.headPlan s.tick.group.toNat else s.laterPlan s.tick.count s.tick.group.toNat

/-- The inputs of the tick. -/
def State.feedTick (s : State) (p : Plan) : List (Nat × List Byte) × State :=
  if !s.isHead then ([], s)
  else match s.reh.replay.bind ReplaySt.now with
    | some w => s.feedReplay w
    | none => s.feedAll p.records

/-- The clusters at 0.48 V, as OSMASK (R743). -/
def State.lowered (s : State) : BitVec 64 :=
  BitVec.ofNat 64 (((s.clu.filter (fun e => e.2.vsup != 0)).map (fun e => 2 ^ e.1)).sum)

/-- The tick starts: the cue reaches every sequencer (R62), TICK_OUT rises (R771); an empty tick goes to its curtain at once
(R477, R478). -/
def State.startTick (s : State) (r : RunTick) (at_ : Nat) : State :=
  let s := s.modTick (fun t => { t with running := some r })
  if r.stepM = 0 then s.curtain r at_ []
  else
    let s : State := { s with core := s.core.map (fun e => (e.1, e.2.atCue)) }
    if s.pinFunc 5 = 2 ∨ s.pinFunc 5 = 3 then s.modPin (fun p => { p with tickOut := true }) else s

/-- Releases a cue (R472 to R498, R506, R668 to R675, R736, R754). -/
def State.releaseCue (s : State) (c : HeldCue) (rest : List HeldCue) (at_ : Nat) : State :=
  let s := s.beforePlan c rest at_
  let p := s.planTick
  let s := if p.2.admittedCount ≠ 0 ∧ p.2.reh.replay.isNone then p.2.enterRun else p.2
  let m := p.1.stepM
  let r : RunTick :=
    { tick := c.tick, group := s.tick.group.toNat, released := at_, stepM := m, slotFail := p.1.slotFail &&& m,
      upFail := p.1.upFail &&& m, freeM := p.1.freeM, records := p.1.records, wholeFault := p.1.whole || c.mismatch,
      abandoned := false, once := [], hostIn := [], inbound := [], osMask := s.lowered }
  let s := s.modTick (fun t => { t with running := some r })
  let f := s.feedTick p.1
  let s := f.2.latchRings
  let r := match s.tick.running with | some x => x | none => r
  let r := { r with hostIn := f.1, inbound := if s.cfg.rehEn ∧ m ≠ 0 then s.inboundEntries else [] }
  ((s.sendCue c.tick).twinBeat c.tick).startTick r at_

/-- Releases the oldest held cue if nothing holds it; a hold that begins is noted. -/
def State.tryRelease (s : State) (at_ : Nat) : State :=
  match s.tick.held with
  | [] => s
  | c :: rest =>
    if !s.readyOrRun ∨ s.tick.running.isSome ∨ at_ < c.taken + 120 ∨ s.refetchHolds then s
    else if s.chainHeld c then s.modTick (fun t => { t with holdFrom := some (t.holdFrom.getD at_) })
    else if s.powerHeld at_ then
      (if s.pwr.holdFrom.isSome then s else s.modPwr (fun p => { p with holds := bump p.holds, holdFrom := some at_ }))
    else s.releaseCue c rest at_

/-- CUE_RELEASE (R472, R679, R784): 96 FCLK cycles after the cue reached N0, free of every hold. -/
def execCueRelease (at_ : Nat) (s : State) : Answer := .next (s.tryRelease at_)

/-- CHAIN_TIMEOUT (R515): the hold has lasted TICK_MAX − TICK_PERIOD since the cue was taken. -/
def execChainTimeout (at_ : Nat) (s : State) : Answer :=
  .next (match s.tick.held with
    | [] => s
    | c :: _ =>
      let g := s.groupOf c.tick
      match s.tick.pend.find? (fun e => e.1 == g) with
      | none => s
      | some (_, p) =>
        if s.tick.running.isSome ∨ at_ < c.taken + (s.tick.tickMax.toNat - s.tick.period.toNat) then s
        else
          let s := (s.rollbackPending g p).modTick (fun t => { t with chainTimeouts := bump t.chainTimeouts })
          (s.raise 0x1004).tryRelease at_)

/-! ## TICK_PERIOD and TICK_MAX (R324, R325, R518, R522) -/

/-- The largest RRB with which the script passes R324 at a period. -/
def rrbMaxOf (proven period : Nat) : Nat := if period < proven ∨ period = 0 then 0 else min 1000 (1000 * (period - proven) / period)

/-- The limits of R518 and R522. -/
def periodOk (proven period tickMax : Nat) : Bool :=
  decide (250000 ≤ period) && decide (period ≤ 100000000) && decide (period ≤ tickMax) && decide (4 * tickMax ≤ 7 * period) &&
  decide (proven ≤ period)

/-- A write of the two together; refused with event 0x1009. -/
def State.setPeriod (s : State) (period : BitVec 27) (tickMax : BitVec 28) : State :=
  if s.glb.st = .ready ∧ periodOk s.tick.proven.toNat period.toNat tickMax.toNat then
    (s.modTick (fun t => { t with period := period, tickMax := tickMax })).modPrec (fun p => { p with
      rrbMax := BitVec.ofNat 10 (rrbMaxOf s.tick.proven.toNat period.toNat) })
  else s.raise 0x1009

/-- TICK_PERIOD (R518). -/
def execTickPeriod (p : Port) (v : Word) (s : State) : Answer :=
  .next (s.ownerOnly p fun s => s.setPeriod (BitVec.ofNat 27 v.toNat) s.tick.tickMax)

/-- TICK_MAX (R518). -/
def execTickMax (p : Port) (v : Word) (s : State) : Answer :=
  .next (s.ownerOnly p fun s => s.setPeriod s.tick.period (BitVec.ofNat 28 v.toNat))

end Sys2Proof.Machine
end

