-- ==== Sys2Proof/Machine/Spm.lean ====
section
/-! DEFINITION. Scratchpad: ring configuration, scrub, patrol (08, R394 to R402). -/

namespace Sys2Proof.Machine

/-! ## Ring registers (R402) -/

/-- A write of a ring register: in READY it takes effect and clears the ring's pointers and marks; else event 0x4143. -/
def State.ringWrite (s : State) (p : Port) (c : CoreId) (q : Nat) (f : RingSt → RingSt) : State :=
  s.ownerOnly p fun s =>
    if s.glb.st = .ready then s.modRing c q (fun r => (f r).clear) else s.raise 0x4143 none none (posOf c 0)

/-- RING_BASE: [14:0] BASE, [15] LOC. -/
def execRingBase (p : Port) (c : CoreId) (q : Fin 16) (v : Word) (s : State) : Answer :=
  .next (s.ringWrite p c q.val (fun r => { r with base := BitVec.ofNat 15 v.toNat, loc := v.getLsbD 15 }))

/-- RING_SIZE: [14:0] SIZE_M1. -/
def execRingSize (p : Port) (c : CoreId) (q : Fin 16) (v : Word) (s : State) : Answer :=
  .next (s.ringWrite p c q.val (fun r => { r with sizeM1 := BitVec.ofNat 15 v.toNat }))

/-- RING_CFG: [11:0] ESIZE, [15:12] NPROD_M1, [17:16] CONS, [18] SPEC, [19] WINGS, [20] DISCARD, [21] EN. -/
def execRingCfg (p : Port) (c : CoreId) (q : Fin 16) (v : Word) (s : State) : Answer :=
  .next (s.ringWrite p c q.val (fun r => { r with
    esize := BitVec.ofNat 12 v.toNat, nprodM1 := BitVec.ofNat 4 (field v.toNat 15 12),
    cons := BitVec.ofNat 2 (field v.toNat 17 16), spec := v.getLsbD 18, wings := v.getLsbD 19,
    discard := v.getLsbD 20, en := v.getLsbD 21 }))

/-! ## Scrub (R395, R396) -/

/-- SPM_SCRUB: [15:0] CORES, [16] CLUSTER; the regions of the mask are scrubbed. -/
def execSpmScrub (p : Port) (c : ClusterId) (v : Word) (s : State) : Answer :=
  .next (s.ownerOnly p fun s =>
    if s.glb.st = .ready ∨ s.glb.st = .safe then
      s.modClu c.num (fun k => { k with
        scrub := BitVec.ofNat 17 v.toNat, scrubBusy := k.scrubBusy ||| BitVec.ofNat 17 v.toNat })
    else s.raise 0x4143 none none (posOfCluster c))

/-- The bit of a region in SPM_SCRUB. -/
def regionBit : Region → Nat
  | .core c => c.core.val
  | .cluster _ => 16

/-- The cores whose rings may lie in a region. -/
def regionCores : Region → List CoreId
  | .core c => [c]
  | .cluster k => (List.range 16).map (fun i => ⟨k.die, k.cl, Fin.ofNat 16 i⟩)

/-- The ring lies in the region. -/
def RingSt.liesIn (r : RingSt) : Region → Bool
  | .core _ => !r.loc
  | .cluster _ => r.loc

/-- Every word of a region to 0 with valid check bits, and the pointers and marks of the rings in it to 0 (R395). -/
def State.zeroRegion (s : State) (r : Region) : State :=
  let a := regionBase r
  let n := regionBytes r
  let out := fun w => !(decide (a / 4 ≤ w) && decide (w < (a + n) / 4))
  let s := { s with
    mem := Tab.clearRange s.mem a n, badOne := s.badOne.filter out, badTwo := s.badTwo.filter out }
  (regionCores r).foldl (fun s c => s.modCore c (fun k => { k with
    rings := k.rings.map (fun e => (e.1, if e.2.liesIn r then e.2.clear else e.2)) })) s

/-- SCRUB_DONE: the scrub of a region ends. -/
def execScrubDone (r : Region) (s : State) : Answer :=
  .next (let c := (regionClu r).num
    if (s.cluAt c).scrubBusy.getLsbD (regionBit r) then
      (s.zeroRegion r).modClu c (fun k => { k with
        scrubBusy := k.scrubBusy &&& ~~~(BitVec.ofNat 17 (2 ^ regionBit r)) })
    else s)

/-! ## Patrol (R400) -/

/-- SPM_PATROL_READ: one row of the region, in ascending order. Its errors follow R398 and R399 and fail no tick. -/
def execSpmPatrolRead (r : Region) (s : State) : Answer :=
  .next (let c := (regionClu r).num
    if s.glb.st = .off ∨ !(s.cluAt c).patrolEn then s
    else
      let row := Tab.get 0 (s.cluAt c).patrolAt (regionBit r)
      let s := (s.readSpm r (row * 128) 128 false).2
      s.modClu c (fun k => { k with
        patrolAt := Tab.set 0 k.patrolAt (regionBit r) ((row + 1) % (regionBytes r / 128)) }))

end Sys2Proof.Machine
end

