-- ==== Sys2Proof/Machine/Load.lean ====
section
/-! DEFINITION. What step 5 of a start-up places in the device, and what a self-test clears and places again (15, R695, R705; 16,
R758 to R760). -/

namespace Sys2Proof.Machine

/-! ## Cores and scratchpad (R350, R366, R402, R461) -/

/-- A ring as its row of the script's ring table gives it, empty. -/
def ringOf (r : RingCfg) : RingSt :=
  { RingSt.reset with
    base := r.base, loc := r.loc, sizeM1 := r.sizeM1, esize := r.esize, nprodM1 := r.nprodM1,
    cons := r.cons, spec := r.spec, wings := r.wings, discard := r.discard, en := r.en }

/-- An instruction store that holds a program from index 0 (R407). -/
def storeOf (l : List DWord) : Tab DWord := Tab.setRange 0 [] 0 l

/-- The instruction stores, the ring descriptors and the descriptor copies of the configuration, for the clusters of `on`. -/
def State.placeItems (s : State) (on : Nat → Bool) : State :=
  let s := s.cfg.programs.foldl (fun s e =>
    if on e.1.cluster.num then s.modSeq e.1 (fun q => { q with imem := storeOf e.2, imemBad := [] }) else s) s
  let s := s.cfg.rings.foldl (fun s r =>
    if on r.core.cluster.num then s.modRing r.core r.q.val (fun _ => ringOf r) else s) s
  s.cfg.layers.foldl (fun s l =>
    match s.place l.addr.toNat with
    | .spm r _ => if on (regionClu r).num then s.writeDev l.addr.toNat (leBytes 256 l.desc.toNat) else s
    | _ => s) s

/-! ## What a self-test leaves (R758) -/

/-- An engine with both banks at 0; its counters stay. -/
def EngineSt.cleared (x : EngineSt) : EngineSt :=
  { EngineSt.reset with
    state := x.state, steps := x.steps, passes := x.passes, skipped := x.skipped, rowsums := x.rowsums,
    bankWait := x.bankWait, skidStall := x.skidStall, gsumOvf := x.gsumOvf }

/-- A sequencer with every register at 0; its counters stay. -/
def SeqSt.cleared (x : SeqSt) : SeqSt :=
  { SeqSt.reset with
    issued := x.issued, qwait := x.qwait, rwait := x.rwait, bwait := x.bwait, cwait := x.cwait, restores := x.restores,
    opSeq := x.opSeq }

/-- A core after a self-test: sequencer registers, banks and accumulator entries at 0, nothing queued. -/
def CoreSt.cleared (k : CoreSt) : CoreSt :=
  { CoreSt.reset with
    seq := k.seq.cleared, engines := k.engines.map (fun e => (e.1, e.2.cleared)), ocv := k.ocv, sparse := k.sparse,
    rings := k.rings.map (fun e => (e.1, e.2.clear)), sbWait := k.sbWait }

/-- The regions of a cluster. -/
def clusterRegions (c : ClusterId) : List Region :=
  .cluster c :: (List.range 16).map (fun i => .core ⟨c.die, c.cl, Fin.ofNat 16 i⟩)

/-- A self-test of the clusters of `on` leaves every scratchpad region, bank, accumulator entry and sequencer register at 0. -/
def State.selfTestClear (s : State) (on : Nat → Bool) : State :=
  let l := (List.range 64).filter on
  let s := l.foldl (fun s n => (clusterRegions (ClusterId.ofNum n)).foldl (fun s r => s.zeroRegion r) s) s
  { s with core := s.core.map (fun e => (e.1, if on (CoreId.ofNum e.1).cluster.num then e.2.cleared else e.2)) }

/-- ERR_ST_RESULT and the event of a failure (R759). -/
def State.selfTestFailed (s : State) (row : BitVec 4) (pos : BitVec 16) : State :=
  (s.modErr (fun e => { e with stBusy := false, stPass := false, stRan := true, stRow := row, stPos := pos })).raise
    0xA011 (some row.toNat) none pos.toNat

/-- A pass: the items of the configuration are placed again. -/
def State.selfTestPassed (s : State) (on : Nat → Bool) : State :=
  (s.placeItems on).modErr (fun e => { e with stBusy := false, stPass := true, stRan := true, stRow := 0, stPos := 0 })

/-- The cluster is ON (R780). -/
def State.clusterOn (s : State) (n : Nat) : Bool := (Tab.get .reset s.pwr.gCluster n).state == 2

/-! ## Registers with reset "config" (R705) -/

/-- Codes packed by index into fields of b bits, n of them. -/
def packCodes (b : Nat) (l : List (Nat × BitVec 4)) (n : Nat) : Nat :=
  ((List.range n).map (fun i => (match l.find? (fun e => e.1 == i) with | some e => e.2.toNat | none => 0) * 2 ^ (b * i))).sum

/-- KV_CFG of a die's configuration. -/
def kvCfgWord (k : KvCfg) : Word :=
  word (k.lsh.toNat + k.kvbLog.toNat * 2 ^ 6 + k.slots.toNat * 2 ^ 11 + k.nld.toNat * 2 ^ 20)

/-- The KV registers of a die. -/
def kvRegs (k : KvCfg) : KvSt :=
  { KvSt.reset with cfg := kvCfgWord k, policy := word (k.hot.toNat + k.spill.toNat * 2 ^ 24), pt := k.pt }

/-- WIN_RH_CFG of a configured handle. -/
def handleCfgWord (h : HandleCfg) : Word :=
  word (h.dest.toNat + h.window.toNat * 2 ^ 8 + h.port.toNat * 2 ^ 14 + h.cls.toNat * 2 ^ 17 + 2 ^ 19)

/-- The window block under a configuration. -/
def WinSt.load (w : WinSt) (b : CfgBody) : WinSt :=
  let routes := b.routes.foldl (fun t e => Tab.set 15 t e.1 e.2) []
  let o0 := b.outs.foldl (fun t o => Tab.set 0 t o.r.val o.word0) []
  let o1 := b.outs.foldl (fun t o => Tab.set 0 t o.r.val o.word1) []
  { w with
    linkId := b.linkId, routes := routes, routesNext := routes, out0 := o0, out1 := o1, out0Next := o0, out1Next := o1,
    handles := b.handles.foldl (fun t h => Tab.upd .reset t h.h.val (fun x => { x with cfg := handleCfgWord h })) w.handles }

/-- A link port under a configuration. -/
def LnkSt.load (l : LnkSt) (c : LinkCfg) : LnkSt := { l with en := c.en, role := c.role, lanes := c.lanes, peerId := c.peerId }

/-- The requests of PWR_GATE that a configuration makes: its clusters and its enabled ports. -/
def PwrSt.load (p : PwrSt) (b : CfgBody) : PwrSt :=
  { p with
    gateClu := BitVec.ofNat 64 ((b.usedClusters.eraseDups.map (fun n => 2 ^ n)).sum),
    gateLnk := BitVec.ofNat 8 ((((b.links.filter (fun l => l.en)).map (fun l => l.port.val)).eraseDups.map (fun n => 2 ^ n)).sum) }

/-- Every register with reset "config" takes its value (R705). -/
def State.takeConfig (s : State) (c : CfgImage) : State :=
  let b := c.body
  let s : State := { s with cfg := b, kv := b.kv.zipIdx.map (fun e => (e.2, kvRegs e.1)) }
  let s := s.modTick (fun t => { t with
    src := b.src, cpos := b.cpos, clenM1 := b.clenM1, period := b.period, tickMax := b.tickMax, pfa := b.pfa, proven := b.proven })
  let s := s.modPrec (fun p => { p with rrbMax := BitVec.ofNat 10 (rrbMaxOf b.proven.toNat b.period.toNat) })
  let s := s.modHost (fun h => { h with defOwner := b.defOwner })
  let s := s.modPin (fun p => { p with
    cfg := BitVec.ofNat 24 (packCodes 4 b.pins 6), timer := word (packCodes 8 b.timers 4) })
  let s := (s.modWin (fun w => w.load b)).modPwr (fun p => p.load b)
  let s := b.links.foldl (fun s l => s.modLnk l.port.val (fun x => x.load l)) s
  let s := s.modReh (fun h => { h with triggerMask := b.rehMask, post := b.rehPost })
  (s.modUpd (fun u => { u with cfgRun := some c, flash := { u.flash with cfgEpoch := bump u.flash.cfgEpoch } })).placeItems (fun _ => true)

/-- The settings in force are loaded after the configuration (R718). -/
def State.takeSettings (s : State) (r : Settings) : State :=
  let s := (s.modHost (fun h => { h with limit := r.limit })).modPrec (fun p => { p with ctrl := r.precCtrl, rrb := r.rrb })
  let s := s.modPwr (fun p => { p with cap := r.cap, capInForce := r.cap })
  let s := r.stkPatrol.foldl (fun s e => s.modStk e.1 (fun t => { t with
    patrolEn := e.2.getLsbD 0, hours := if field e.2.toNat 15 8 = 0 then t.hours else BitVec.ofNat 8 (field e.2.toNat 15 8) })) s
  r.spmPatrol.foldl (fun s e => s.modClu e.1 (fun c => { c with patrolEn := e.2 })) s

end Sys2Proof.Machine
end

