-- ==== Sys2Proof/Machine/Paths.lean ====
section
/-! DEFINITION. The loader's analysis of tick programs: every path through a core's program, with the values that its registers
can hold (09, R466, R797). -/

namespace Sys2Proof.Machine

/-! ## What a path carries (R797) -/

/-- The invocation that a path has bound: layer, ordinal, PMODE, fast class, VERIFY. -/
structure BoundAt where
  lix : Nat
  ord : Nat
  pmode : Nat
  fast : Bool
  verify : Bool
  deriving DecidableEq, Repr

/-- A point of a path: PC, the values of the scalar registers and loop counters (none: unknown), the seed, whether a TWAIT has
been passed, the epoch, the binding, the ACB entries written under it by bit (entry, from 32 on with HALF), the drains (0 none, 1
without LAST, 2 with LAST), whether an input record has been taken, the probes by tile register and column tile, the arrivals at
each barrier. -/
structure PathSt where
  pc : Nat
  s : List (Option Nat)
  l : List (Option Nat)
  seed : Option Nat
  waited : Bool
  epoch : Nat
  lay : Option BoundAt
  written : Nat
  drains : Nat
  record : Bool
  probes : List (Nat × Nat)
  bars : List Nat
  deriving DecidableEq, Repr

/-- The conditions of R466, and those of R202 and R362 that an instruction's path decides. -/
inductive PathRow where
  | illegal | target | barSet | unbound | noTwait | mode | firstAcc | lastDrain | verify | noRecord | epoch | ordinal | descriptor
  | undecided | half | reach
  deriving DecidableEq, Repr

/-- The group of R707 of a condition. -/
def PathRow.group : PathRow → Nat
  | .half => 4
  | .reach => 7
  | _ => 8

/-- What the analysis of a core has found: the conditions met, the layers bound by ordinal, the seeds held by ordinal and layer,
the layers that scatter, the register values that END leaves, the arrivals at END. -/
structure PathFound where
  rows : List PathRow
  binds : List (Nat × Nat)
  seeds : List (Nat × Nat × Option Nat)
  scats : List Nat
  ends : List (List (Option Nat) × List (Option Nat) × Option Nat)
  bars : List (List Nat)
  deriving DecidableEq, Repr

/-- No condition met, no binding, no END seen. -/
def PathFound.empty : PathFound := ⟨[], [], [], [], [], []⟩

/-- A condition is met. -/
def PathFound.hit (f : PathFound) (r : PathRow) : PathFound := if f.rows.contains r then f else { f with rows := r :: f.rows }

/-- A list with x, once. -/
def withOnce {α : Type} [DecidableEq α] (l : List α) (x : α) : List α := if l.contains x then l else x :: l

/-- The value of S[i]. -/
def PathSt.reg (p : PathSt) (i : Nat) : Option Nat := if i = 0 then some 0 else p.s.getD i none

/-- Writes S[i]. -/
def PathSt.setReg (p : PathSt) (i : Nat) (v : Option Nat) : PathSt := if i = 0 then p else { p with s := p.s.set i v }

/-- The start of a tick with given register values. -/
def pathStart (s l : List (Option Nat)) (seed : Option Nat) : PathSt :=
  { pc := 0, s := s, l := l, seed := seed, waited := false, epoch := 0, lay := none, written := 0, drains := 0,
    record := false, probes := [], bars := List.replicate 16 0 }

/-! ## One instruction (R421 to R443, R797) -/

/-- The descriptor that a configuration places at a cluster address. -/
def descAt (b : CfgBody) (a : Nat) : Option LayerDesc :=
  (b.layers.find? (fun l => l.addr.toNat == a && LayerDesc.checkOk l.desc)).map (fun l => l.desc)

/-- The ACB bits that an instruction names. -/
def acbBits (base n : Nat) (half : Bool) : Nat := ((List.range n).map (fun i => 2 ^ ((base + i) % 32 + if half then 32 else 0))).sum

/-- Sum of two known values modulo 2^32. -/
def addKnown (a : Option Nat) (n : Nat) : Option Nat := a.map (fun v => (v + n) % 2 ^ 32)

/-- A LYR: the ordinal, the descriptor, what is bound from here on. -/
def State.pathLyr (s : State) (c : CoreId) (w : DWord) (p : PathSt) (f : PathFound) : List PathSt × PathFound :=
  match p.reg (fA w), addKnown (p.reg (fB w)) (bitsOf w 15 0) with
  | some a, some o =>
    let addr := clusterAddr c (a + bitsOf w 31 16 * 256) 256
    if o = 0 ∨ 65535 < o then ([], f.hit .ordinal)
    else if o < p.epoch then ([], f.hit .epoch)
    else if !s.coreReach c addr then ([], f.hit .reach)
    else match descAt s.cfg addr with
      | none => ([], f.hit .descriptor)
      | some d =>
        let f := { f with binds := withOnce f.binds (o, d.lix), seeds := withOnce f.seeds (o, d.lix, p.seed) }
        let b : BoundAt := ⟨d.lix, o, d.pmode, d.fast, d.prm == 2⟩
        let same := match p.lay with | some x => x.ord == o | none => false
        let q := { p with pc := p.pc + 1, epoch := max p.epoch o, lay := some b, probes := [] }
        if same then ([q], f)
        else ([{ q with written := 0, drains := 0, record := false }], if p.drains = 1 then f.hit .lastDrain else f)
  | _, _ => ([], f.hit .undecided)

/-- The mode of a matrix opcode. -/
def matrixMode (op : Nat) : Nat := if op = 0x35 then 0 else op - 0x30

/-- A matrix instruction or an IMPORT. -/
def pathMatrix (w : DWord) (b : BoundAt) (p : PathSt) (f : PathFound) : PathSt × PathFound :=
  let half := bitOf w.toNat 54
  let bits := acbBits (bitsOf w 53 49) (bitsOf w 48 43) (half && b.fast)
  let matrix := decide (opOf w ≠ 0x39)
  let f := if matrix && matrixMode (opOf w) != b.pmode then f.hit .mode else f
  let f := if bitOf w.toNat 55 && decide (p.written &&& bits ≠ bits) then f.hit .firstAcc else f
  let f := if half && !b.fast then f.hit .half else f
  let f := if matrix && b.verify then
      (match p.reg (bitsOf w 37 33) with
      | some ct => if p.probes.contains (bitsOf w 42 39, ct) then f else f.hit .verify
      | none => f.hit .verify)
    else f
  ({ p with pc := p.pc + 1, written := p.written ||| bits, record := p.record || matrix || bitOf w.toNat 38 }, f)

/-- A DRAIN. -/
def pathDrain (w : DWord) (b : BoundAt) (p : PathSt) (f : PathFound) : PathSt × PathFound :=
  let f := if bitOf w.toNat 54 && !b.fast then f.hit .half else f
  let f := if p.record then f else f.hit .noRecord
  let f := if p.drains = 2 then f.hit .lastDrain else f
  ({ p with pc := p.pc + 1, drains := if bitOf w.toNat 31 then 2 else max p.drains 1 }, f)

/-- The branches of a path at JMP, BR and LOOP. -/
def pathBranch (w : DWord) (p : PathSt) (f : PathFound) : List PathSt × PathFound :=
  let next := { p with pc := p.pc + 1 }
  let jump := { p with pc := branchTo p.pc w }
  match opOf w with
  | 0x02 =>
    if !fI w then ([jump], f)
    else (match addKnown (p.reg (fA w)) (fIMM w) with
      | none => ([], f.hit .undecided)
      | some t => if 4095 < t then ([], f.hit .target) else ([{ p with pc := t }], f))
  | 0x03 =>
    (match p.reg (fA w), p.reg (fB w) with
    | some a, some b => ([if brHolds (fFN w) a b then jump else next], f)
    | _, _ => ([next, jump], f))
  | _ =>
    let i := fD w % 8
    match p.l.getD i none with
    | none => ([{ next with l := p.l.set i (some 0) }, jump], f)
    | some v =>
      if v ≤ 1 then ([{ next with l := p.l.set i (some (v - 1)) }], f) else ([{ jump with l := p.l.set i (some (v - 1)) }], f)

/-- The instructions that neither branch nor bind nor compute. -/
def pathScalar (c : CoreId) (w : DWord) (p : PathSt) : PathSt :=
  let q := { p with pc := p.pc + 1 }
  match opOf w with
  | 0x05 =>
    (match fFN w with
    | 0 => q.setReg (fD w) (some (fIMM w))
    | 1 => { q with l := q.l.set (fD w % 8) (some (fIMM w)) }
    | 3 => q.setReg (fD w) (some (posOf c 0))
    | _ => q.setReg (fD w) none)
  | 0x06 =>
    q.setReg (fD w) (match p.reg (fA w), (if fI w then some (fIMM w) else p.reg (fB w)) with
      | some a, some b => some (aluValue (fFN w) a b)
      | _, _ => none)
  | 0x07 => q.setReg (fD w) none
  | 0x09 => { q with probes := q.probes.filter (fun e => e.1 != fD w % 16) }
  | 0x0A => { q with probes := q.probes.filter (fun e => e.1 != fD w % 16) }
  | 0x11 => { q with bars := q.bars.set (bitsOf w 55 52) (q.bars.getD (bitsOf w 55 52) 0 + 1) }
  | 0x36 =>
    (match p.reg (bitsOf w 37 33) with
    | some ct => { q with probes := withOnce q.probes (bitsOf w 42 39, ct) }
    | none => q)
  | 0x50 => { q with seed := (match p.reg (fA w), p.reg (fB w) with | some a, some b => some (b * 2 ^ 32 + a) | _, _ => none) }
  | _ => q

/-- LDS, STS or TLD at a known address beyond reach. -/
def State.pathReach (s : State) (c : CoreId) (w : DWord) (p : PathSt) : Bool :=
  (opOf w == 0x07 || opOf w == 0x08 || opOf w == 0x09) &&
  (match p.reg (fA w) with | some a => !s.coreReach c (clusterAddr c (a + fIMM w) 4) | none => false)

/-- The successors of a point of a path, and what its instruction shows. -/
def State.pathStep (s : State) (c : CoreId) (prog : List DWord) (p : PathSt) (f : PathFound) : List PathSt × PathFound :=
  match prog[p.pc]? with
  | none => ([], f)
  | some w =>
    let bound := p.lay.isSome
    let f := if s.pathReach c w p then f.hit .reach else f
    if illegalWord w then ([], f)
    else if needsBound w && !bound then ([], f.hit .unbound)
    else match opOf w, p.lay with
      | 0x01, _ =>
        let f := if p.waited then f else f.hit .noTwait
        let f := if p.drains = 1 then f.hit .lastDrain else f
        ([], { f with ends := if p.waited then withOnce f.ends (p.s, p.l, p.seed) else f.ends, bars := withOnce f.bars p.bars })
      | 0x02, _ => pathBranch w p f
      | 0x03, _ => pathBranch w p f
      | 0x04, _ => pathBranch w p f
      | 0x0B, _ => s.pathLyr c w p f
      | 0x10, _ => ([{ pathStart p.s p.l p.seed with pc := p.pc + 1, waited := true }], f)
      | 0x12, _ =>
        (match addKnown (p.reg (fA w)) (bitsOf w 15 0) with
        | none => ([], f.hit .undecided)
        | some v => if v < p.epoch ∨ 65535 < v then ([], f.hit .epoch) else ([{ p with pc := p.pc + 1, epoch := v }], f))
      | 0x37, some b => let r := pathDrain w b p f; ([r.1], r.2)
      | 0x4D, some b => ([pathScalar c w p], { f with scats := withOnce f.scats b.lix })
      | n, some b =>
        if (0x30 ≤ n ∧ n ≤ 0x35) ∨ n = 0x39 then let r := pathMatrix w b p f; ([r.1], r.2) else ([pathScalar c w p], f)
      | _, none => ([pathScalar c w p], f)

/-! ## All paths (R797) -/

/-- Two sets of register values as one: what differs is unknown. -/
def joinVals (a b : List (Option Nat)) : List (Option Nat) := (a.zip b).map (fun e => if e.1 = e.2 then e.1 else none)

/-- The register values that every END leaves, as one. -/
def joinEnds : List (List (Option Nat) × List (Option Nat) × Option Nat) → List (Option Nat) × List (Option Nat) × Option Nat
  | [] => (List.replicate 32 (some 0), List.replicate 8 (some 0), some 0)
  | [e] => e
  | e :: t =>
    let r := joinEnds t
    (joinVals e.1 r.1, joinVals e.2.1 r.2.1, if e.2.2 = r.2.2 then e.2.2 else none)

/-- Register values that others cover: equal, or unknown there. -/
def coveredVals (a b : List (Option Nat)) : Bool := (a.zip b).all (fun e => e.2.isNone || e.1 == e.2)

/-- Values at END that are not covered by values known before. -/
def newEnds (old l : List (List (Option Nat) × List (Option Nat) × Option Nat)) :
    List (List (Option Nat) × List (Option Nat) × Option Nat) :=
  l.filter (fun e => !old.any (fun o => coveredVals e.1 o.1 && coveredVals e.2.1 o.2.1 && (o.2.2.isNone || e.2.2 == o.2.2)))

/-- Explores the points that remain, each once. New values that END leaves start a tick of their own; beyond 64 of them they are
joined, and what differs becomes unknown. Where the steps run out the conditions are not decided. -/
def State.explore (s : State) (c : CoreId) (prog : List DWord) : Nat → List PathSt → List PathSt → PathFound → PathFound
  | 0, [], _, f => f
  | 0, _ :: _, _, f => f.hit .undecided
  | _ + 1, [], _, f => f
  | n + 1, p :: todo, seen, f =>
    if seen.contains p then s.explore c prog n todo seen f
    else
      let r := s.pathStep c prog p f
      let fresh := newEnds f.ends r.2.ends
      let all := fresh ++ f.ends
      let ends := if all.length ≤ 64 then all else [joinEnds all]
      let starts := (if all.length ≤ 64 then fresh else ends).map (fun e => pathStart e.1 e.2.1 e.2.2)
      s.explore c prog n (r.1 ++ starts ++ todo) (p :: seen) { r.2 with ends := ends }

/-- The most points that the analysis of one core visits. -/
def pathLimit : Nat := 1048576

/-- What a program shows without its paths (R420, R466). -/
def State.staticRows (s : State) (c : CoreId) (prog : List DWord) : List PathRow :=
  let l := prog.zipIdx
  (if prog.length ≤ 4096 ∧ !prog.any illegalWord then [] else [.illegal]) ++
  (if l.any (fun e => !(opOf e.1 == 0x02 && fI e.1) && badTarget e.2 0 e.1) then [.target] else []) ++
  (if prog.any (fun w => opOf w == 0x11 && (s.barrierOf c (bitsOf w 55 52)).isNone) then [.barSet] else [])

/-- The analysis of a core's program. -/
def State.analyse (s : State) (c : CoreId) (prog : List DWord) : PathFound :=
  let f := s.explore c prog pathLimit [pathStart (List.replicate 32 (some 0)) (List.replicate 8 (some 0)) (some 0)] [] PathFound.empty
  (s.staticRows c prog).foldl PathFound.hit f

end Sys2Proof.Machine
end

