-- ==== Sys2Proof/Machine/Loader.lean ====
section
/-! DEFINITION. The configuration loader: every loader condition, by its group (15, R705 to R708, and the tables of R124, R185,
R235, R294, R346, R401, R466, R522, R554, R600, R680, R771 to R773). -/

namespace Sys2Proof.Machine

/-- The groups of conditions that are met: one entry for each. -/
def failing (group : Nat) (l : List Bool) : List Nat := (l.filter id).map (fun _ => group)

/-! ## The layers of a script -/

/-- One copy of each layer, the first. -/
def uniqueLayers : List Nat → List LayerCopy → List LayerCopy
  | _, [] => []
  | seen, l :: t => if seen.contains (LayerDesc.lix l.desc) then uniqueLayers seen t
      else l :: uniqueLayers (LayerDesc.lix l.desc :: seen) t

/-- One copy of each layer of the configuration. -/
def State.scriptLayers (s : State) : List LayerCopy := uniqueLayers [] s.cfg.layers

/-- The descriptors of every layer. -/
def State.scriptDescs (s : State) : List LayerDesc := s.scriptLayers.map (fun l => l.desc)

/-- The copies of a layer. -/
def State.copiesOf (s : State) (lix : Nat) : List LayerCopy := s.cfg.layers.filter (fun l => LayerDesc.lix l.desc == lix)

/-- The descriptors of a layer's consumers. -/
def State.consumerLayers (s : State) (d : LayerDesc) : List LayerDesc :=
  s.scriptDescs.filter (fun x => (s.consumersOf d.lix).contains x.lix)

/-- The cores that bind a layer. -/
def State.coresOf (s : State) (d : LayerDesc) : List CoreId := (s.copiesOf d.lix).flatMap LayerCopy.cores

/-- The clusters of an invocation of a layer. -/
def State.clustersOf (s : State) (d : LayerDesc) : List Nat := ((s.coresOf d).map (fun c => c.cluster.num)).eraseDups

/-- An FP32 parameter is negative or not finite. -/
def badParam (w : Word) : Bool := !fpFinite w || (w.getLsbD 31 && decide (fpAbs w ≠ 0))

/-- A width of the layer descriptor's encodings. -/
def widthOk (n : Nat) : Bool := decide (1 ≤ n ∧ n ≤ 8) || n == 16

/-! ## Group 0x02 (R124) -/

/-- The combinations of R124. -/
def engineFails (d : LayerDesc) : List Nat :=
  failing 2
    [decide (4 < d.pmode) || d.gsz == 3, !widthOk d.aw || !widthOk d.wpl,
     d.pmode == 1 && (d.aw != 1 || d.wpl != 1 || d.asign), (d.pmode == 2 || d.pmode == 3) && (d.wpl != 8 || d.aw == 16),
     d.pmode == 4 && !d.fast && d.gsz == 0, (d.aw == 16 && d.wpl == 1) || (d.wpl == 16 && d.aw == 1)]

/-- ROWS of a copy (R65). -/
def rowsFails (d : LayerDesc) : List Nat :=
  failing 2 [(d.pmode == 0 && decide (2048 < d.rows)) || (d.pmode == 4 && decide (4096 < d.rows))]

/-! ## Group 0x03 (R185) -/

/-- A zero point is out of its range or stands with a signed tensor (R150). -/
def badZero (zp width : Nat) (sign : Bool) : Bool := decide (2 ^ width - 1 < zp) || (zp != 0 && sign)

/-- The clusters that produce the columns [lo, hi) of a layer. -/
def State.columnClusters (s : State) (d : LayerDesc) (lo hi : Nat) : List ClusterId :=
  let tiles := (List.range (ceilDiv d.cols 128)).filter (fun t => decide (t * 128 < hi) && decide (lo < (t + 1) * 128))
  ((s.cfg.tilePlaces.filter (fun e => e.1 == d.lix && tiles.contains e.2.1)).flatMap (fun e => e.2.2.map CoreId.cluster)).eraseDups

/-- A rotation block is placed against R178. -/
def State.badBlock (s : State) (d : LayerDesc) (b i : Nat) : Bool :=
  let one := fun lo hi => decide ((s.columnClusters d lo hi).length ≤ 1)
  if b ≤ 2048 then !one (i * b) ((i + 1) * b)
  else
    let h := i * b + b / 2
    !one (i * b) h || !one h ((i + 1) * b) ||
    (match s.columnClusters d (i * b) h, s.columnClusters d h ((i + 1) * b) with
    | x :: _, y :: _ => !(x.die == y.die && meshAdjacent x.cl.val y.cl.val)
    | _, _ => false)

/-- ROT_OUT against R178 and its encoding (R174). -/
def State.badRotation (s : State) (d : LayerDesc) : Bool :=
  let k := d.rotOut
  k != 0 && (!d.osign || !decide (5 ≤ k ∧ k ≤ 12) || d.cols % 2 ^ k != 0 ||
    (List.range (d.cols / 2 ^ k)).any (fun i => s.badBlock d (2 ^ k) i))

/-- The conditions of R185 on one layer. -/
def State.formatFails (s : State) (d : LayerDesc) : List Nat :=
  let cons := s.consumerLayers d
  let prods := s.scriptDescs.filter (fun x => (s.consumersOf x.lix).contains d.lix)
  failing 3
    [(d.asign && d.aw == 1) || (d.osign && d.oaw == 1), d.oaw == 16 && (!d.osign || d.ozp != 0),
     badZero d.zp d.aw d.asign || badZero d.ozp d.oaw d.osign,
     d.zp != 0 && (d.pmode == 1 || d.pmode == 2 || d.pmode == 3 || d.wpl == 16 || prods.any LayerDesc.pcm),
     d.ctp == 0 && (d.pmode == 0 || d.pmode == 4) && (decide (d.wpl < 8) || d.zp != 0),
     (s.copiesOf d.lix).any (fun l => decide (LayerDesc.kdim l.desc < LayerDesc.rbase l.desc + LayerDesc.rows l.desc)),
     cons.any (fun x => decide (32 * 2 ^ d.bxg < 32 * 2 ^ x.gsz)),
     (s.copiesOf d.lix).any (fun l => decide (4096 ≤ LayerDesc.rows l.desc)) && decide (d.aw ≤ 4) && d.rotIn == 0,
     prods.any (fun x => x.rotOut != d.rotIn), s.badRotation d,
     (d.role == 1 || d.role == 2) && (decide (d.aw < 8) || decide (d.wpl < 8) || d.pcm)]

/-! ## Group 0x04 (R235) -/

/-- The SVU input ring of a cluster stands under R804. -/
def State.svuRingOk (s : State) (n : Nat) : Bool :=
  match s.cfg.svuRings.find? (fun e => e.1 == n) with
  | none => false
  | some (_, c, q) =>
    decide (c.cluster.num = n) &&
    (match s.cfg.rings.find? (fun r => r.core == c && r.q == q) with | some r => r.loc && r.esize == 0 | none => false)

/-- The conditions of R235 on one layer. -/
def State.edgeFails (s : State) (d : LayerDesc) (scats : List Nat) : List Nat :=
  let wide := d.ofmt == 1 || d.ofmt == 2
  let top := d.topk != 0
  failing 4
    [d.act && d.atp == 0, d.ofmt == 3, wide && (d.oenc || !(s.consumersOf d.lix).isEmpty),
     decide (64 < d.topk) || (top && d.rotOut != 0), top && !(s.clustersOf d).contains d.tkg,
     (top && !s.svuRingOk d.tkg) || (scats.contains d.lix && !s.svuRingOk d.sg)]

/-- TM and ACBASE of an instruction (R202). -/
def acbFails (prog : List DWord) : List Nat :=
  failing 4 [prog.any (fun w =>
    let n := opOf w
    (decide (0x30 ≤ n ∧ n ≤ 0x35) || decide (0x37 ≤ n ∧ n ≤ 0x39)) &&
      (bitsOf w 48 43 == 0 || decide (32 < bitsOf w 53 49 + bitsOf w 48 43)))]

/-! ## Group 0x05 (R294) -/

/-- The column tiles of a layer with their clusters. -/
def State.tileMap (s : State) (d : LayerDesc) : List (Nat × List Nat) :=
  (List.range (ceilDiv d.cols 128)).map (fun t =>
    (t, ((s.cfg.tilePlaces.filter (fun e => e.1 == d.lix && e.2.1 == t)).flatMap (fun e => e.2.2.map (fun c => c.cluster.num))).eraseDups))

/-- The conditions of R294 on one layer. -/
def State.sparseFails (s : State) (d : LayerDesc) (scats : List Nat) : List Nat :=
  let on := d.prm != 0
  let writers := s.scriptDescs.filter (fun x => x.pmk && x.pmq == d.pmq)
  failing 5
    [decide (1000 < d.spth), d.prm == 3 || (on && !d.fast), on && (d.pmode != 0 || d.rotOut != 0 || d.role != 0 || d.dlt),
     on && (d.pref == 0 || writers.isEmpty), d.pmk && decide (1 < writers.length),
     on && writers.any (fun x => x.cols != d.cols || s.tileMap x != s.tileMap d),
     on && (s.tileMap d).any (fun e => decide (1 < e.2.length)), badParam d.pzm || badParam d.pth,
     scats.contains d.lix && !(s.clustersOf d).contains d.sg]

/-! ## Group 0x06 (R346, R324) -/

/-- The EXQ ring of a layer on a core holds less than the layer's tiles of one tick. -/
def State.exqSmall (s : State) (d : LayerDesc) : Bool :=
  let need := match s.cfg.exqBytes.find? (fun e => e.1 == d.lix) with | some e => e.2 | none => 0
  (s.coresOf d).any (fun c => match s.ringRow c d.exq with
    | some r => decide ((r.sizeM1.toNat + 1) * 128 < need)
    | none => true)

/-- The conditions of R346 on one layer. -/
def State.precisionFails (s : State) (d : LayerDesc) : List Nat :=
  let prods := s.scriptDescs.filter (fun x => (s.consumersOf x.lix).contains d.lix)
  failing 6
    [d.pcm && (d.ofmt != 0 || d.role == 1 || d.role == 2 || d.ozp != 0 || decide (d.kmax < d.kmin) || decide (8 < d.kmax) ||
       (decide (d.kmin < 2) && d.osign) || badParam d.rq || decide (fpAbs d.rq = 0)),
     bitOf d.wen 1 && (d.whb == 0 || d.whb == 63),
     bitOf d.wen 2 && (!fpFinite d.wj || fpLe d.wj fpOne || d.wnw == 0 || decide (8 < d.wnw)),
     d.rr && (d.dlt || d.role == 1 || s.exqSmall d), d.osAllow && !d.fast,
     d.uss == 1 || decide (12 < d.uss) || (d.uss != 0 && d.usc == 0) || badParam d.uta || badParam d.utr,
     d.dlt && (d.pmode == 1 || d.role != 0 || d.drn == 0 || badParam d.dth || prods.any (fun x => !x.dout || !x.osign)),
     d.dchk && (!d.fast || s.exqSmall d), d.dout && (s.consumerLayers d).any (fun x => !x.dlt)]

/-! ## Group 0x07 (R401) -/

/-- A ring's region has this many 128-byte granules (R350). -/
def ringGranules (r : RingCfg) : Nat := if r.loc then 32768 else 4096

/-- The first granule after a ring. -/
def ringStop (r : RingCfg) : Nat := r.base.toNat + r.sizeM1.toNat + 1

/-- Two rings of one core overlap. -/
def ringsOverlap (r x : RingCfg) : Bool :=
  r.core == x.core && r.q != x.q && r.loc == x.loc && decide (r.base.toNat < ringStop x) && decide (x.base.toNat < ringStop r)

/-- The conditions of R401 on ring n of the script: a pair of rings that overlap counts at the later one; a producer's index
is its place in the list. -/
def State.ringFails (s : State) (r : RingCfg) (n : Nat) : List Nat :=
  failing 7
    [decide (ringGranules r < ringStop r), (s.cfg.rings.take n).any (fun x => ringsOverlap r x),
     r.esize != 0 && (r.sizeM1.toNat + 1) * 128 % (r.esize.toNat * 8) != 0,
     decide (r.producers.length ≠ r.nprodM1.toNat + 1) || decide (r.producers.eraseDups.length ≠ r.producers.length)]

/-- The conditions of R401 on one layer: EXQ (R393) and RAC (R389). -/
def State.ringLayerFails (s : State) (d : LayerDesc) : List Nat :=
  let exqOk := fun (c : CoreId) => match s.ringRow c d.exq with
    | some r => r.esize == 0 && r.wings && r.discard
    | none => false
  failing 7 [(d.rr || d.dchk) && (s.coresOf d).any (fun c => !exqOk c), decide (d.rac < 400)]

/-! ## Group 0x08 (R466) -/

/-- A descriptor without RBASE, ROWS and its CHECK (R465). -/
def LayerDesc.shared (d : LayerDesc) : Nat := d.toNat % 2 ^ 2016 - d.rows * 2 ^ 43 - d.rbase * 2 ^ 81

/-- The conditions of R466 on one copy (R461, R463, R465). -/
def State.copyFails (s : State) (l : LayerCopy) : List Nat :=
  let inCluster := match s.place l.addr.toNat with | .spm (.cluster _) _ => true | _ => false
  failing 8 [l.addr.toNat % 256 != 0 || !inCluster || !LayerDesc.checkOk l.desc,
    (s.copiesOf (LayerDesc.lix l.desc)).any (fun x => LayerDesc.shared x.desc != LayerDesc.shared l.desc)]

/-- The arrivals of a core at a barrier set that its paths leave. -/
def PathFound.arrivals (f : PathFound) (id : Nat) : List Nat := (f.bars.map (fun b => b.getD id 0)).eraseDups

/-- The conditions of R466 and R185 over the cores together: one ordinal under two layers (R425), different seeds of one
invocation (R446), barrier arrivals that differ (R426), two layers of one seed and LID (R182). -/
def State.jointFails (s : State) (l : List (CoreId × PathFound)) : List Nat :=
  let binds := (l.flatMap (fun e => e.2.binds)).eraseDups
  let seeds := (l.flatMap (fun e => e.2.seeds)).eraseDups
  let lid := fun n => (s.scriptDescs.find? (fun d => d.lix == n)).map LayerDesc.lid
  failing 8
    [binds.any (fun a => binds.any (fun b => a.1 == b.1 && a.2 != b.2)),
     seeds.any (fun a => seeds.any (fun b => a.1 == b.1 && a.2.2 != b.2.2))] ++
  s.cfg.barriers.flatMap (fun b =>
    let all := (b.members.flatMap (fun c => match l.find? (fun e => e.1 == c) with
      | some e => e.2.arrivals b.id.val | none => [0])).eraseDups
    failing 8 [decide (1 < all.length)]) ++
  failing 3 [seeds.any (fun a => a.2.2.isSome && seeds.any (fun b => a.2.1 != b.2.1 && a.2.2 == b.2.2 && lid a.2.1 == lid b.2.1))]

/-! ## Group 0x09 (R522) -/

/-- The conditions of R522; SRC 3 is reserved. -/
def tickFails (b : CfgBody) : List Nat :=
  failing 9
    [decide (b.period.toNat < 250000) || decide (100000000 < b.period.toNat),
     decide (b.tickMax.toNat < b.period.toNat) || decide (7 * b.period.toNat < 4 * b.tickMax.toNat),
     decide (b.clenM1 < b.cpos), (b.src == 2) == (b.cpos == 0) || b.src == 3, !b.proofPfa || !b.proofCurtain] ++
  b.rings.flatMap (fun r => failing 9
    [r.producers.any (fun p => match p with | .linkPort _ => true | .hostDma => true | _ => false) &&
     r.producers.contains (.core r.core.num)])

/-! ## Group 0x0A (R554) -/

/-- The device addresses of die d's fast range and its deep range, first and past the last (R2, R526). -/
def State.dieRange (s : State) (d : Nat) (deep : Bool) : Nat × Nat :=
  let f := if s.is4008 then 2 ^ 36 else 2 ^ 37
  let z := if s.is4008 then 0x3000000000 else 0x6000000000
  if deep then (0x10000000000 + d * z, 0x10000000000 + (d + 1) * z) else (d * f, (d + 1) * f)

/-- A range lies in another. -/
def within (a b : Nat × Nat) : Bool := decide (b.1 ≤ a.1) && decide (a.2 ≤ b.2)

/-- Two ranges share an address. -/
def meets (a b : Nat × Nat) : Bool := decide (a.1 < b.2) && decide (b.1 < a.2)

/-- The conditions of R554 on one die; a die that holds no KV has none (log 25). -/
def State.kvFails (s : State) (k : KvCfg) (d : Nat) : List Nat :=
  let pt := (k.pt.toNat * 4096, k.pt.toNat * 4096 + 2 ^ 27)
  let fast := (k.fastFirst * 65536, (k.fastFirst + k.fastPages) * 65536)
  let deep := (k.deepFirst * 65536, (k.deepFirst + k.deepPages) * 65536)
  let used := pt :: s.cfg.weightRanges.map (fun r => (r.1, r.1 + r.2))
  let bad := fun (x y : Nat × Nat) => decide (x.1 < x.2) && (!within x y || used.any (meets x))
  if k.nld = 0 then []
  else failing 10
    [decide (k.kvbLog.toNat < 6) || decide (16 < k.kvbLog.toNat), decide (2 ^ 40 < k.slots.toNat * k.nld.toNat * 2 ^ k.lsh.toNat),
     decide (256 < k.slots.toNat) || (s.cfg.paired && decide (128 < k.slots.toNat)),
     !within pt (s.dieRange d false) || pt.1 % 2 ^ 27 != 0, bad fast (s.dieRange d false) || bad deep (s.dieRange d true)]

/-- A streamed range lies on the stacks of its core's die (R529). -/
def State.streamOk (s : State) (e : CoreId × Nat × Nat) : Bool :=
  let x := (e.2.1, e.2.1 + e.2.2)
  within x (s.dieRange e.1.die.val false) || within x (s.dieRange e.1.die.val true)

/-- The conditions of R554. -/
def State.memoryFails (s : State) : List Nat :=
  s.cfg.kv.zipIdx.flatMap (fun e => s.kvFails e.1 e.2) ++ failing 10 [!s.cfg.proofSpill] ++
  s.cfg.streamed.flatMap (fun e => failing 10 [!s.streamOk e])

/-! ## Group 0x0B (R600) -/

/-- The route of a LINK_ID in the configuration. -/
def cfgRoute (b : CfgBody) (id : Nat) : Option Nat :=
  (b.routes.find? (fun e => e.1 == id)).bind (fun e => if e.2.toNat < 8 then some e.2.toNat else none)

/-- The port is enabled by the configuration. -/
def cfgPortOn (b : CfgBody) (p : Nat) : Bool := b.links.any (fun l => l.port.val == p && l.en)

/-- A port of this role is enabled. -/
def cfgRoleOn (b : CfgBody) (r : BitVec 3) : Bool := b.links.any (fun l => l.en && l.role == r)

/-- A memory window lies outside R584. -/
def State.badWindow (s : State) (w : WindowCfg) : Bool :=
  !w.gate && (w.base.toNat % 32 != 0 || w.size % 32 != 0 || decide (w.size < 32) || decide (2 ^ 34 < w.size) ||
    !((s.place w.base.toNat).isStack || (s.place w.base.toNat).isSpm) ||
    !(s.place w.base.toNat).same (s.place (w.base.toNat + w.size - 1)))

/-- Two windows overlap. -/
def windowsOverlap (w x : WindowCfg) : Bool :=
  !w.gate && !x.gate && w.w != x.w && meets (w.base.toNat, w.base.toNat + w.size) (x.base.toNat, x.base.toNat + x.size)

/-- The conditions of R600 on an entry of the outbound table. -/
def outFails (b : CfgBody) (o : OutCfg) : List Nat :=
  let v := o.word0.toNat
  let south := match cfgRoute b (field v 23 16) with | some p => b.links.any (fun l => l.port.val == p && l.role == 1) | none => false
  failing 11 [bitOf v 15 && (if bitOf v 14 then !b.handles.any (fun h => h.h.val == field v 29 24) else !south)]

/-- The conditions of R600 on a ring: an outbound one has SPEC = 0 and an entry of the outbound table (R574). -/
def outRingFails (b : CfgBody) (r : RingCfg) : List Nat :=
  let named := b.outs.any (fun o => let v := o.word0.toNat
    bitOf v 15 && field v 9 0 == r.core.num && field v 13 10 == r.q.val)
  failing 11 [r.cons == 2 && (r.spec || !named)]

/-- The conditions of R600. Port number 7 of an -N2 variant is the SPARE-U half of port 3. -/
def State.linkFails (s : State) : List Nat :=
  let b := s.cfg
  let north := cfgRoleOn b 0
  let south := cfgRoleOn b 1
  failing 11 [if b.clenM1 = 0 then north || south else !north || !south,
    !s.isN4 && (cfgPortOn b 4 || cfgPortOn b 5 || cfgPortOn b 6), b.linkId == 255 || b.routes.any (fun e => e.1 == b.linkId.toNat && decide (e.2.toNat < 8))] ++
  b.routes.flatMap (fun e => failing 11 [decide (e.2.toNat < 8) && !cfgPortOn b e.2.toNat]) ++
  b.rings.flatMap (outRingFails b) ++ b.outs.flatMap (outFails b) ++
  failing 11 [b.handles.any (fun h => b.handles.any (fun x => h.h != x.h && h.dest == x.dest && h.window == x.window))] ++
  b.windows.zipIdx.flatMap (fun e => if 48 ≤ e.1.w.val then failing 11 [true]
    else failing 11 [s.badWindow e.1 || (b.windows.take e.2).any (fun x => windowsOverlap e.1 x)])

/-! ## Group 0x0C (R680) and 0x0D (R708, R771 to R773) -/

/-- The LINK_ID of the partner: PEER_ID of port 2 (R655). -/
def cfgPartner (b : CfgBody) : BitVec 8 := match b.links.find? (fun l => l.port.val == 2) with | some l => l.peerId | none => 255

/-- The conditions of R680. -/
def State.twinFails (s : State) : List Nat :=
  let b := s.cfg
  let a := b.stageBase.toNat
  let stage := (a, a + b.stagePages.toNat * 4096)
  let names := fun (h w : Nat) => b.handles.any (fun x => x.h.val == h && x.window.toNat == w && x.dest == cfgPartner b)
  let c := b.clenM1.toNat + 1
  if !b.paired then []
  else failing 12
    [!within stage (0, if s.is4008 then 0x4000000000 else 0x8000000000) || a % 4096 != 0 ||
       decide (b.stagePages.toNat * 4096 < b.mirrorBound),
     !names 62 48 || !names 63 49, !(c == 1 || c == 2 || c == 4 || c == 8 || c == 16),
     b.kv.any (fun k => decide (2 ^ 40 < (128 + k.slots.toNat) * k.nld.toNat * 2 ^ k.lsh.toNat))]

/-- A function is allowed on a pin (R771): pins 0 to 3 GP0 to GP3, 4 TICK_IN, 5 TICK_OUT. -/
def pinAllowed (pin f : Nat) : Bool :=
  match f with
  | 0 => true
  | 1 => pin == 4
  | 2 => pin == 5
  | 3 => pin == 5
  | 4 => decide (pin < 4)
  | 5 => decide (pin < 2)
  | 6 => pin == 2 || pin == 3
  | _ => false

/-- The users of a timer that are present (R773): 1 tick timer, 2 CUE_PULSE, 3 REH_TRIG, 4 PWR_BRAKE_N. -/
def timerUsers (b : CfgBody) : List Nat :=
  let f := fun (n : Nat) => b.pins.any (fun e => e.2.toNat == n)
  (if b.src = 0 then [1] else []) ++ (if f 2 then [2] else []) ++ (if f 4 then [3] else []) ++ (if f 5 then [4] else [])

/-- The conditions of R708, R771, R772 and R773. -/
def pinFails (b : CfgBody) : List Nat :=
  let used := b.pins.filter (fun e => e.2 != 0)
  let users := b.timers.filter (fun e => e.2 != 0)
  used.flatMap (fun e => failing 13 [!decide (e.1 < 6) || !pinAllowed e.1 e.2.toNat]) ++
  failing 13
    [used.any (fun e => used.any (fun x => e.1 == x.1 && e.2 != x.2)), users.any (fun e => users.any (fun x => e.1 == x.1 && e.2 != x.2)),
     users.any (fun e => !decide (e.1 < 4) || decide (4 < e.2.toNat)), b.src == 1 && !b.pins.any (fun e => e.1 == 4 && e.2 == 1)] ++
  (timerUsers b).flatMap (fun u => failing 13 [!users.any (fun e => e.2.toNat == u)])

/-! ## The loader (R706, R707) -/

/-- The conditions of R706, group 0x01. -/
def State.headerFails (s : State) (c : CfgImage) : List Nat :=
  failing 1 [c.magic != 0x4346, c.variant.toNat != s.glb.variant.toNat, decide (96 * 2 ^ 20 - 4096 < c.length.toNat), !c.bodyDigOk,
    decide (s.fwVersion < c.minFw), c.ownerSigned && (s.upd.flash.ownerKey.isNone || !c.ownerSigOk)]

/-- Every failing condition of the body that `s` holds as its configuration. -/
def State.bodyFails (s : State) : List Nat :=
  let b := s.cfg
  let l := b.programs.map (fun e => (e.1, s.analyse e.1 e.2))
  let scats := l.flatMap (fun e => e.2.scats)
  s.scriptDescs.flatMap (fun d => engineFails d ++ s.formatFails d ++ s.edgeFails d scats ++ s.sparseFails d scats ++
    s.precisionFails d ++ s.ringLayerFails d) ++
  b.layers.flatMap (fun x => rowsFails x.desc ++ s.copyFails x) ++ b.programs.flatMap (fun e => acbFails e.2) ++
  l.flatMap (fun e => e.2.rows.map PathRow.group) ++ s.jointFails l ++
  failing 6 [decide (1024 < s.scriptDescs.length), decide (b.period.toNat < b.proven.toNat)] ++
  b.rings.zipIdx.flatMap (fun e => s.ringFails e.1 e.2) ++ tickFails b ++ s.memoryFails ++ s.linkFails ++ s.twinFails ++ pinFails b

/-- The groups of every failing condition of an image; an empty slot fails its header (log 8). -/
def State.loaderFails (s : State) (c : Option CfgImage) : List Nat :=
  match c with
  | none => [1]
  | some c => s.headerFails c ++ State.bodyFails { s with cfg := c.body }

/-- A rejected configuration (R707): the count of its failing conditions, the group of the first in body order, a header check
before all others; which of the body comes first, and its offset, are free values, for the body has no layout here (log 8). -/
def State.rejectConfig (s : State) (l : List Nat) : State :=
  let d := s.drawWord
  let e := d.2.drawWord
  let g := if l.contains 1 then 1 else l.getD (d.1.toNat % l.length) 1
  let v := word (g + l.length % 65536 * 65536)
  (e.2.modUpd (fun u => { u with ldrErr := v, ldrLoc := if g = 1 then 0 else e.1 })).raise 0x8005 (some v.toNat)

end Sys2Proof.Machine
end

