-- ==== Sys2Proof/Machine/Ports.lean ====
section
/-! DEFINITION. Host ports: heartbeat, claim and switch of ownership, port resets, configuration requests, BAR0 refusals,
the BAR4 aperture, and the TAP (13, R603 to R621, R649 to R652; 16, R761 to R763). -/

namespace Sys2Proof.Machine

/-! ## Heartbeat, offer, claim (R616 to R619) -/

/-- LAPSED follows HB_AGE ≥ HB_LIMIT; where it becomes 1, event 0x6007 and vector 1 on the standby port (R616). -/
def State.checkLapse (s : State) : State :=
  let now := decide (s.host.limit.toNat ≤ s.host.age.toNat)
  let was := s.host.lapsed
  let s := s.modHost (fun h => { h with lapsed := now })
  if now && !was then (s.raise 0x6007).msix s.host.owner.other 1 else s

/-- HOST_HEARTBEAT (R616). -/
def execHostHeartbeat (p : Port) (v : Word) (s : State) : Answer :=
  .next (s.ownerOnly p fun s => (s.modHost (fun h => { h with heartbeat := v, age := 0 })).checkLapse)

/-- HB_AGE_ADVANCE (R616): each ms outside BOOT, saturating. -/
def execHbAgeAdvance (s : State) : Answer :=
  .next (if s.glb.st = .off then s
    else if s.glb.st = .boot then s.modHost (fun h => { h with age := 0 })
    else (s.modHost (fun h => { h with age := if h.age = 0xFFFFFFFF then h.age else h.age + 1 })).checkLapse)

/-- OFFER (R617, R619). -/
def execOffer (p : Port) (v : Bool) (s : State) : Answer :=
  .next (s.ownerOnly p fun s =>
    let s := s.modHost (fun h => { h with offer := v })
    if v then s.msix s.host.owner.other 1 else s)

/-- CLAIM (R618, R619). -/
def execClaim (p : Port) (v : Bool) (s : State) : Answer :=
  .next (s.via p fun s =>
    if p = s.host.owner ∨ v = false ∨ s.host.claimed then s
    else if s.glb.st ≠ .boot ∧ (s.host.lapsed ∨ s.host.offer) then s.modHost (fun h => { h with claimed := true })
    else s.raise 0x6003)

/-! ## The switch (R620, R621) and port resets (R649, R650, R652) -/

/-- A host ring as it stands disabled from index 0. -/
def HostRingSt.disable (r : HostRingSt) : HostRingSt := { r with en := false, head := 0, tail := 0 }

/-- The target of a running LOAD or FILL that is cut short holds undefined bytes (R647). -/
def State.cutCommand (s : State) : State :=
  match s.host.run with
  | none => s
  | some r =>
    let s := if r.op = 1 ∨ r.op = 3 then s.scramble r.daddr (r.len / 32) else s
    s.modHost (fun h => { h with run := none })

/-- Completions of status ABANDONED: the running command's under its TAG, the queued ones' under TAGs that the device has
not read and no rule states (log 32). -/
def State.abandonQueued (s : State) : State :=
  let n := (s.host.cmd.tail - s.host.cmd.head).toNat
  let s := match s.host.run with
    | some r => s.raise 0x6001 (some 7) (some r.tag.toNat)
    | none => s
  (List.range n).foldl (fun s _ => s.raise 0x6001 (some 7)) s

/-- Writes queued event entries into the event ring as far as it has room. -/
def State.flushEvents (s : State) : State := s.host.evtq.foldl (fun s _ => s.putEvent) s

/-- At a switch a slot's host bindings become unbound and its INPUT entries go (R621, R637). -/
def SlotSt.loseOwner (x : SlotSt) : SlotSt :=
  { x with inputs := [], fed := x.fed.map (fun f => { f with index := none }), unbound := x.unbound || (x.state != 0 && (!x.ploc || !x.oloc)) }

/-- Every slot at a switch. -/
def State.loseOwner (s : State) : State := { s with slots := s.slots.map (fun e => (e.1, e.2.loseOwner)) }

/-- OWNER_CHANGE (R620, R621): the six actions in order. -/
def execOwnerChange (s : State) : Answer :=
  .next (if !s.host.claimed || (s.glb.st == .run && !s.host.switchDue) then s
    else
      let s := if s.ownerPort.canIssue then s.abandonQueued.flushEvents else s
      let s := s.cutCommand
      let s := { s.endStaging with sec := { s.sec with chal := none } }
      let s := s.modHost (fun h => { h with
        owner := h.owner.other, offer := false, claimed := false, switchDue := false, age := 0, lapsed := false,
        adm := h.adm.disable, res := h.res.disable, evt := h.evt.disable, cmd := h.cmd.disable, admRead := 0,
        admReleased := [], switches := bump h.switches })
      ((s.loseOwner.raise 0x6004).msix .a 1).msix .b 1)

/-- The per-port registers of R649 outside configuration space. -/
def PortSt.clearLatches (x : PortSt) : PortSt :=
  { x with
    apLo := 0, apHi := 0, apStamp := 0, precLidx := 0, engRb := [], seqRb := [], stkL := [], spmIdx := [],
    slotP := .reset, twinM := .reset }

/-- Configuration space, BAR assignments, the MSI-X table and the pending bits (R649, R805). -/
def PortSt.clearConfig (x : PortSt) : PortSt :=
  { x with command := 0, bars := [], msixTable := [], msixEnable := false, msixFnMask := false, msixPend := 0, d3hot := false }

/-- Doorbells and rings of a reset owner port (R649, R650): ownership stays, the running command is abandoned, the queued
ones are discarded, and the result and event queues stay. -/
def State.resetOwnerRings (s : State) (p : Port) : State :=
  if p ≠ s.host.owner then s
  else
    let s := (s.cutCommand.modHost (fun h => { h with
      adm := .reset, res := .reset, evt := .reset, cmd := .reset, admRead := 0, admReleased := [] })).orphanInputs
    s.modPort p (fun x => { x with dbAdm := 0, dbCmd := 0, dbRes := 0, dbEvt := 0 })

/-- The level of a port's PERST pin: false is asserted. -/
def State.setPerst (s : State) (p : Port) (b : Bool) : State :=
  s.modPin (fun x => match p with | .a => { x with perstA := b } | .b => { x with perstB := b })

/-- PORT_RESET (R649, R650). PERST holds the port in reset until it answers again (log 33). -/
def execPortReset (p : Port) (kind : ResetKind) (s : State) : Answer :=
  .next (let s := if kind = .perst then s.setPerst p false else s
    if s.glb.st = .off then s
    else
      let s := s.modPort p (fun x => { x.clearLatches.clearConfig with
        linkUp := if kind = .perst ∨ kind = .linkDown then false else x.linkUp,
        inReset := if kind = .perst then true else x.inReset })
      (s.resetOwnerRings p).modHost (fun h => { h with resets := bump h.resets }))

/-- D3HOT_ENTRY (R652). -/
def execD3hotEntry (p : Port) (s : State) : Answer :=
  .next (if (s.port p).d3hot ∨ !(s.port p).linkUp then s
    else (s.modPort p (fun x => { x.clearLatches with d3hot := true })).resetOwnerRings p)

/-- D0_RETURN (R652). -/
def execD0Return (p : Port) (s : State) : Answer := .next (s.modPort p (fun x => { x with d3hot := false }))

/-! ## Configuration requests (R603, R606, R651, R697; log 17) -/

/-- A configuration-space word. Offsets that the base specification fixes are its own (log 17). -/
def State.configRead (s : State) (p : Port) (off : Nat) : Word :=
  let x := s.port p
  if off = 0 then word (0x2A8C + s.deviceId * 65536)
  else if off = 4 then word x.command.toNat
  else if off = 8 then word (0x12000000 + Config.stepping.toNat)
  else if 0x10 ≤ off ∧ off < 0x28 then Tab.get 0 x.bars ((off - 0x10) / 4) ||| (if off = 0x20 then 0xC else if off % 8 = 0 then 4 else 0)
  else if off = 0x2C then word (0x2A8C + s.glb.variant.toNat * 65536)
  else if off = 0x50 then word (63 * 65536 + bitAt x.msixFnMask 30 + bitAt x.msixEnable 31 + 0x11)
  else if off = 0x100 then word (0x0003 + 0x10000 + field (Config.configWord 0x100).toNat 31 20 * 2 ^ 20)
  else if off = 0x104 then word (s.sec.devId.toNat % 2 ^ 32)
  else if off = 0x108 then word (s.sec.devId.toNat / 2 ^ 32 % 2 ^ 32)
  else Config.configWord off

/-- The writable bits of a BAR word: the size of R603 and, for BAR4, its default of 64 GiB. -/
def barMask (i : Nat) : Word :=
  if i = 0 then 0xF0000000 else if i = 2 then 0xFFFF0000 else if i = 4 then 0 else if i = 5 then 0xFFFFFFF0 else 0xFFFFFFFF

/-- A write of a configuration-space word. -/
def PortSt.configWrite (x : PortSt) (off : Nat) (v : Word) : PortSt :=
  if off = 4 then { x with command := BitVec.ofNat 16 v.toNat }
  else if 0x10 ≤ off ∧ off < 0x28 then { x with bars := Tab.set 0 x.bars ((off - 0x10) / 4) (v &&& barMask ((off - 0x10) / 4)) }
  else if off = 0x50 then { x with msixEnable := v.getLsbD 31, msixFnMask := v.getLsbD 30 }
  else x

/-- CONFIG_REQUEST: answered with retry status until step 4 of the start-up ends (R697). A request that arrives shows
that the port is out of reset and its link is up (log 33). -/
def execConfigRequest (p : Port) (off : BitVec 12) (wr : Option Word) (s : State) : Answer :=
  .next (if s.glb.st = .off then s.answer .noCompletion
    else
      let s := (s.setPerst p true).modPort p (fun x => { x with linkUp := true, inReset := false })
      if s.glb.st = .boot then s.answer .retry
      else
        match wr with
        | none => s.answer (.word (s.configRead p off.toNat))
        | some v => (s.modPort p (fun x => x.configWrite off.toNat v)).answer .none)

/-! ## BAR0 refusals and the BAR4 aperture (R607 to R613, R682) -/

/-- BAR0_ACCESS_REFUSED (R607). -/
def execBar0AccessRefused (p : Port) (off : BitVec 28) (size : Nat) (isWrite : Bool) (s : State) : Answer :=
  .next (if !s.decodes p then s.answer .noCompletion
    else if size = 4 ∧ off.toNat % 4 = 0 then s
    else s.barRefuse.answer (if isWrite then .none else .unsupported))

/-- The port's AP_BASE (R610). -/
def PortSt.apBase (x : PortSt) : Nat := x.apLo.toNat + x.apHi.toNat * 2 ^ 32

/-- A checked read of n bytes from a, piece by piece within granules, over any memories. -/
def State.readSpan (s : State) (a n : Nat) : Nat → Bool × State
  | 0 => (true, s)
  | f + 1 =>
    if n = 0 then (true, s)
    else
      let k := min n (32 - a % 32)
      let r := s.readDev a k
      if r.1 then r.2.readSpan (a + k) (n - k) f else r

/-- Writes bytes piece by piece within granules, over any memories. -/
def State.writeSpan (s : State) (a : Nat) (l : List Byte) : Nat → State
  | 0 => s
  | f + 1 =>
    if l.isEmpty then s
    else
      let k := 32 - a % 32
      (s.writeDev a (l.take k)).writeSpan (a + k) (l.drop k) f

/-- Every address of the range is populated memory inside the aperture's reach (R610, R612). -/
def State.apertureOk (s : State) (a n : Nat) : Bool :=
  decide (a + n ≤ 0x50000000000) && s.rangeMapped (a / 32 * 32) ((a + n - 1) / 32 - a / 32 + 1)

/-- BAR4_READ (R610 to R612, R682): data, or Unsupported Request; a read that returns data latches GLB_AP_STAMP. Data that
cannot be read back leave no completion with data (log 24). -/
def execBar4Read (p : Port) (off : BitVec 41) (len : Nat) (s : State) : Answer :=
  .next (if !s.decodes p then s.answer .noCompletion
    else if s.glb.st = .boot ∨ s.glb.st = .park then s.barRefuse.answer .unsupported
    else
      let a := (s.port p).apBase + off.toNat
      if len = 0 ∨ !s.apertureOk a len then (s.raise 0x4108).answer .unsupported
      else
        let r := s.readSpan a len (len / 32 + 2)
        if r.1 then
          (r.2.modPort p (fun x => { x with apStamp := s.stamp })).answer (.bytes (s.peek a len))
        else r.2.answer .unsupported)

/-- The write is accepted by state and target (R611). -/
def State.bar4Writable (s : State) (a : Nat) : Bool :=
  s.glb.st == .ready || (s.glb.st == .run && (s.place a).isStack)

/-- BAR4_WRITE (R610 to R613, R615). -/
def execBar4Write (p : Port) (off : BitVec 41) (data : List Byte) (s : State) : Answer :=
  .next (if !s.decodes p then s
    else s.ownerOnly p fun s =>
      let a := (s.port p).apBase + off.toNat
      if s.glb.st = .boot ∨ s.glb.st = .park then s.barRefuse
      else if data.isEmpty ∨ !s.apertureOk a data.length then s.raise 0x4108
      else if s.bar4Writable a && s.bar4Writable (a + data.length - 1) then s.writeSpan a data (data.length / 32 + 2)
      else s.barRefuse)

/-! ## The TAP (R761, R762) -/

/-- The TAP works: the package is powered. -/
def State.tapOn (s : State) : Bool := s.glb.st != .off

/-- Changes the TAP. -/
def State.modTap (s : State) (f : TapSt → TapSt) : State := if s.tapOn then { s with tap := f s.tap } else s

/-- BYPASS. -/
def execBypass (s : State) : Answer := .next (s.modTap (fun t => { t with ir := 0xFF, dr := 0 }))

/-- The identification word (R761). -/
def State.idWord (s : State) : Nat := Config.stepping.toNat * 2 ^ 28 + s.deviceId * 2 ^ 12 + 0x2E1 * 2 + 1

/-- IDCODE. -/
def execIdcode (s : State) : Answer :=
  .next (if s.tapOn then (s.modTap (fun t => { t with ir := 1, dr := BitVec.ofNat 64 s.idWord })).answer (.word (word s.idWord))
    else s.answer .noCompletion)

/-- The levels of GP0 to GP3; a pin with FAULT_N is low while the device is in SAFE or in safe mode (R771). -/
def State.gpPins (s : State) : Nat :=
  let low := fun (i : Nat) => s.pinFunc i == 6 && (s.glb.st == .safe || s.err.active)
  ((List.range 4).map (fun i => bitAt (s.pin.gp.getLsbD i && !low i) i)).sum

/-- The module pins, in an order that no rule gives (log 34): PERST_A_N, PERST_B_N, TICK_IN, TICK_OUT, ALERT_N, THERM_N,
PWR_HOLD_N, MOTION_N, GP0 to GP3. -/
def State.pinWord (s : State) : Nat :=
  bitAt s.pin.perstA 0 + bitAt s.pin.perstB 1 + bitAt s.pin.tickIn 2 + bitAt s.pin.tickOut 3 + bitAt (!s.pwr.alert) 4 +
  bitAt (!s.pwr.therm) 5 + bitAt s.pin.pwrHoldN 6 + bitAt s.pin.motionN 7 + s.gpPins * 2 ^ 8

/-- SAMPLE_PRELOAD: captures the module pins; no effect on the device. -/
def execSamplePreload (s : State) : Answer :=
  .next (s.modTap (fun t => { t with ir := 2, pins := BitVec.ofNat 24 s.pinWord }))

/-- A pin-driving instruction (R762): it takes effect only while both PERST pins are asserted. -/
def State.pinDrive (s : State) (code : Nat) : State :=
  let t := s.modTap (fun t => { t with ir := BitVec.ofNat 8 code })
  if s.tapOn && !s.pin.perstA && !s.pin.perstB then t.goSafe.raise 0xA020 else t

/-- EXTEST. -/
def execExtest (s : State) : Answer := .next (s.pinDrive 3)

/-- CLAMP. -/
def execClamp (s : State) : Answer := .next (s.pinDrive 4)

/-- HIGHZ. -/
def execHighz (s : State) : Answer := .next (s.pinDrive 5)

/-- TAP_RESET: TRST_N resets the TAP only. -/
def execTapReset (s : State) : Answer := .next { s with tap := .reset }

end Sys2Proof.Machine
end

