-- ==== Sys2Proof/Machine/Boot.lean ====
section
/-! DEFINITION. The start-up sequence: power-good and RESTART, trial starts and reverts, components, configuration, settings, training,
the start-up self-test (15, R691 to R699, R702, R703, R712 to R722; 17, R776, R782; 11, R551, R552; 16, R758). -/

namespace Sys2Proof.Machine

/-! ## BOOT (R59, R691 to R693) -/

/-- The device enters BOOT from power-good, or from a restart as from a cold power-up: the synthesisers lock to REFCLK_A when it is
present and otherwise to REFCLK_B; with neither they are not locked (log 74). -/
def State.enterBoot (s : State) (env : BootEnv) : State :=
  let s := s.powerOff
  let any := env.refA || env.refB
  ({ s with glb := { s.glb with
      st := .boot, fclkLock := any, cclkLock := any, refSel := !env.refA && env.refB, holdover := !any } }).modPin
    (fun p => { p with refA := env.refA, refB := env.refB })

/-- What follows a start, whether it ends in READY or in SAFE: the default owner owns the device, and its heartbeat age is 0
(R614, R616). -/
def State.afterBoot (s : State) : State :=
  s.modHost (fun h => { h with owner := h.defOwner, age := 0 })

/-- A start ends in SAFE (R699). -/
def State.bootSafe (s : State) : State := s.goSafe.afterBoot

/-- Steps 1 and 2: the identity (R691 to R693). -/
def State.bootIdentity (s : State) : State :=
  { s with sec := { s.sec with devId := BitVec.ofNat 512 (leNat Sys2Proof.Machine.deviceId) } }

/-! ## Which slots run (R712 to R714) -/

/-- The slots of a start: firmware B, configuration B, and whether it is a trial start. -/
structure Chosen where
  fwB : Bool
  cfgB : Bool
  trial : Bool
  deriving DecidableEq, Repr

/-- revert(r) of R714: the pointer names the previous slots, the new ones become REVERTED, event 0x8004. -/
def State.revert (s : State) (r : Nat) : State :=
  let p := s.upd.ptr
  let s := s.putPtr { p with
    seq := p.seq + 1, fw := p.prevFw, cfg := p.prevCfg, trial := false, tries := 0, lastRev := BitVec.ofNat 8 r, ok := true }
  let s := s.modFlash (fun f =>
    let f := if p.fw = p.prevFw then f else f.setSlotCode (slotIndex false p.fw) 6
    if p.cfg = p.prevCfg then f else f.setSlotCode (slotIndex true p.cfg) 6)
  s.raise 0x8004

/-- Step 3: the floor in force (R721) and the pointer (R713, R714). -/
def State.choose (s : State) : Chosen × State :=
  let p := s.upd.flash.ptr
  let s := s.modUpd (fun u => { u with
    ptr := p, flash := { u.flash with starts := bump u.flash.starts },
    floor := match u.flash.floorRec with | some r => r.floor | none => u.floor })
  if !p.trial then (⟨p.fw, p.cfg, false⟩, s)
  else if p.tries = 0 ∧ (!s.pin.motionN ∨ !s.pin.pwrHoldN) then (⟨p.prevFw, p.prevCfg, false⟩, s.raise 0x800A)
  else if p.tries = 3 then (⟨p.prevFw, p.prevCfg, false⟩, s.revert 1)
  else (⟨p.fw, p.cfg, true⟩, s.putPtr { p with seq := p.seq + 1, tries := p.tries + 1 })

/-! ## Firmware (R700 to R703, R716, R721, R722) -/

/-- What the checks of a firmware slot give. -/
inductive FwCheck where
  | good (m : FwImage)
  | manifest
  | component (kind index : Nat)
  deriving DecidableEq, Repr

/-- The checks of a firmware slot against the floor in force; where no floor record passes, that of the manifest itself (R722). -/
def State.checkFw (s : State) (b : Bool) : FwCheck :=
  match s.upd.flash.fwSlot b with
  | none => .manifest
  | some m =>
    let floor := match s.upd.flash.floorRec with | some r => r.floor | none => m.floor
    if !manifestOk s.glb.variant.toNat floor m then .manifest
    else match m.components.find? (fun c => !c.digestOk) with
      | some c => .component c.kind.toNat c.index.toNat
      | none => .good m

/-- A settings copy of another format than f is erased (R716). -/
def SettingsCopy.keep (c : SettingsCopy) (f : BitVec 8) : SettingsCopy := if c.format = f then c else .reset

/-- The version floor at a start (R716, R721, R722). -/
def State.bootFloor (s : State) (m : FwImage) (trial : Bool) : State :=
  let put := fun (s : State) (v : Word) => s.modUpd (fun u => { u with floor := v, flash := u.flash.writeFloor v })
  let s := match s.upd.flash.floorRec with
    | some r => s.modUpd (fun u => { u with floor := r.floor })
    | none => (put s m.floor).raise 0x800C
  if trial ∨ m.floor ≤ s.upd.floor then s else put s m.floor

/-- The settings copies at a start: outside a trial the copy of another format is erased (R716); a copy takes the running format
where none has it: the one without a record (log 75). -/
def Flash.takeFormat (f : Flash) (fmt : BitVec 8) (trial : Bool) : Flash :=
  let f := if trial then f else { f with set0 := f.set0.keep fmt, set1 := f.set1.keep fmt }
  if f.set0.format = fmt ∨ f.set1.format = fmt then f
  else
    let old := if f.set0.newest.isSome then f.set0.newest else f.set1.newest
    let c : SettingsCopy := ⟨fmt, if trial then old else none⟩
    if f.set0.newest.isSome then { f with set1 := c } else { f with set0 := c }

/-- The states of the slots that a start leaves: TRIAL or ACTIVE for those that run, PREVIOUS for those that ran (UPD_SLOT_STATE). -/
def Flash.runSlots (f : Flash) (c : Chosen) : Flash :=
  let f := f.settle c.fwB c.cfgB
  if !c.trial then f
  else
    let f := if f.ptr.fw = f.ptr.prevFw then f else f.setSlotCode (slotIndex false c.fwB) 4
    if f.ptr.cfg = f.ptr.prevCfg then f else f.setSlotCode (slotIndex true c.cfgB) 4

/-- A firmware slot runs. -/
def State.runFw (s : State) (m : FwImage) (c : Chosen) : State :=
  let s := s.bootFloor m c.trial
  let s := s.modUpd (fun u => { u with
    fwRun := some m, runFwB := c.fwB, runCfgB := c.cfgB, setFormat := m.setFmt,
    flash := (u.flash.takeFormat m.setFmt c.trial).runSlots c })
  { s with stk := (List.range 16).foldl (fun t k =>
      match m.components.find? (fun x => x.kind == 3 && x.index.toNat == k) with
      | some x => if s.stkPopulated k then Tab.upd .reset t k (fun y => { y with fwVer := BitVec.ofNat 16 x.cver.toNat }) else t
      | none => t) s.stk }

/-- Steps 3 and 4 outside a trial. -/
def State.bootFw (s : State) (c : Chosen) : Option State × State :=
  match s.checkFw c.fwB with
  | .good m => (some (s.runFw m c), s)
  | .manifest => (none, s.raise 0x8002)
  | .component k i => (none, s.raise 0x8003 (some (k + 256 * i)))

/-- Steps 3 and 4: the slots that run and the state with their firmware; a trial that fails reverts in the same start (R714).
None: the state in which the start has failed. -/
def State.bootSlots (s : State) : Option (Chosen × State) × State :=
  let r := s.choose
  let c := r.1
  let s := r.2
  let back := fun (s : State) =>
    let old : Chosen := ⟨s.upd.ptr.fw, s.upd.ptr.cfg, false⟩
    let x := s.bootFw old
    (x.1.map (fun t => (old, t)), x.2)
  if c.trial then
    match s.checkFw c.fwB with
    | .good m => (some (c, s.runFw m c), s)
    | .manifest => back (s.revert 2)
    | .component _ _ => back (s.revert 3)
  else
    let x := s.bootFw c
    (x.1.map (fun t => (c, t)), x.2)

/-! ## Configuration and settings (R705 to R707, R718, R719) -/

/-- The newest settings record of the running format. -/
def State.settingsInForce (s : State) : Option Settings :=
  (if s.copy0Runs then s.upd.flash.set0 else s.upd.flash.set1).newest

/-- An accepted configuration and the owner's settings after it. -/
def State.bootConfig (s : State) (c : CfgImage) : State :=
  let s := s.takeConfig c
  match s.settingsInForce with
  | some r => s.takeSettings r
  | none => s

/-! ## Training (R551, R552, R565, R758, R782) -/

/-- The stack failed training: a failed channel, or two failed lanes in one. -/
def stackFailed (t : StackTrain) : Bool :=
  t.fastFail != 0 || t.deepFail != 0 ||
  t.laneMarks.any (fun a => t.laneMarks.any (fun b => a.1 == b.1 && a.2 != b.2))

/-- Training of a populated stack (R551, R552): its marks raise event 0x4101 (R542). -/
def State.trainStack (s : State) (t : StackTrain) : State :=
  let k := t.stack.val
  if !s.stkPopulated k then s
  else
    let bad := stackFailed t
    let s := s.modStk k (fun x => { x with
      state := if bad then 3 else 2, fastFail := t.fastFail, deepFail := t.deepFail, trainMs := t.ms,
      trainLanes := BitVec.ofNat 8 t.laneMarks.length,
      laneMap := t.laneMarks.foldl (fun m e => Tab.set 0 m e.1 (Tab.get 0 m e.1 ||| BitVec.ofNat 9 (2 ^ (e.2 % 9)))) x.laneMap })
    let s := t.laneMarks.foldl (fun s _ => s.raise 0x4101) s
    if bad then s.raise 0x4105 else s

/-- Every stack trains; one that the command does not name trains without a fault. -/
def State.trainStacks (s : State) (l : List StackTrain) : State :=
  (List.range 16).foldl (fun s k =>
    match l.find? (fun t => t.stack.val == k) with
    | some t => s.trainStack t
    | none => s.trainStack ⟨Fin.ofNat 16 k, 0, 0, [], 0⟩) s

/-- Every enabled port of the variant trains (R565); one that the command does not name hears no peer. -/
def State.trainLinks (s : State) (l : List LinkTrain) : State :=
  (List.range 8).foldl (fun s p =>
    if !(s.lnkAt p).en || !s.lnkPresent p then s
    else match l.find? (fun t => t.port.val == p) with
      | some t => s.trained t
      | none => s.trained ⟨Fin.ofNat 8 p, false, 255, 0, 0⟩) s

/-- The start-up self-test (R758, R759). -/
def State.startTest (s : State) (fail : Option (BitVec 4 × BitVec 16)) : State :=
  if !s.cfg.rehStest then s
  else
    let s := s.selfTestClear (fun _ => true)
    match fail with
    | none => s.selfTestPassed (fun _ => true)
    | some (row, pos) => s.selfTestFailed row pos

/-- Every function is ON through the start, and at its end those that the script does not use receive a request of 0 (R782). -/
def State.gateUnused (s : State) : State :=
  let on := fun (s : State) (f : Gateable) => s.modGate f (fun _ => ⟨2, false⟩)
  let clusters := (List.range 64).map (fun n => Gateable.cluster (Fin.ofNat 64 n))
  let ports := ((List.range 8).filter s.lnkPresent).map (fun n => Gateable.link (Fin.ofNat 8 n))
  let s := (clusters ++ ports).foldl on s
  ((clusters ++ ports).filter (fun f => !s.gateNeeded f)).foldl (fun s f => s.gateReq f false) s

/-- A window that the configuration opens (R584, R600). -/
def State.openConfigured (s : State) (w : WindowCfg) : State :=
  (s.modWindow w.w.val (fun x => { x with
    base := w.base, sizeM1 := BitVec.ofNat 29 (w.size / 32 - 1), src := w.src, cmd := BitVec.ofNat 3 (bitAt w.gate 0 + 2) })).openWindow w.w.val

/-- The window of the SPARE-U port opens with the sources that the configuration names (R599). -/
def State.openSpare (s : State) : State :=
  if s.cfg.spareSrc = 0xFFFFFFFF then s
  else (s.modWindow 63 (fun x => { x with src := s.cfg.spareSrc, cmd := 3 })).openWindow 63

/-- READY: the arrays run at the requested step, the first cue is exempt from the power cap (R784), a paired device is in WAIT (R660),
the configured windows open (log 76). -/
def State.enterReady (s : State) (trial : Bool) : State :=
  let s : State := { s with glb := { s.glb with st := .ready, trial := trial, aclkStep := BitVec.ofNat 2 s.reqStep } }
  let s := (s.modPwr (fun p => { p with exempt := true })).modTwin (fun t => { t with state := if s.cfg.paired then 1 else 0 })
  (s.cfg.windows.foldl State.openConfigured s).openSpare.afterBoot

/-- Step 6 (R695). -/
def State.bootTrain (s : State) (env : BootEnv) (trial : Bool) : State :=
  let s := ((s.trainStacks env.stkRes).trainLinks env.links).startTest env.selfTestFail
  let s := s.gateUnused
  let stacksOk := (List.range 16).all (fun k => (s.stkAt k).state != 3)
  let testOk := !s.cfg.rehStest || env.selfTestFail.isNone
  if stacksOk && testOk then s.enterReady trial else s.bootSafe

/-! ## The whole start -/

/-- A start from BOOT on; `again` is what a configuration revert does: the internal restart of R714. -/
def State.bootFrom (s : State) (env : BootEnv) (again : State → State) : State :=
  if !env.pufOk then (s.raise 0x8001).bootSafe
  else
    let r := s.bootIdentity.bootSlots
    match r.1 with
    | none => r.2.bootSafe
    | some (c, s) =>
      let img := s.upd.flash.cfgSlot c.cfgB
      let l := s.loaderFails img
      match l, img with
      | [], some i => (s.bootConfig i).bootTrain env c.trial
      | _, _ =>
        let s := s.rejectConfig l
        if c.trial then again (s.revert 4) else s.bootSafe

/-- A start as a cold power-up. A revert for the configuration restarts once more, then outside a trial. -/
def State.coldStart (s : State) (env : BootEnv) : State :=
  (s.enterBoot env).bootFrom env (fun s => (s.enterBoot env).bootFrom env State.bootSafe)

/-- POWER_GOOD (R776): both supplies lie in range and the device leaves OFF; a trip holds it there until it is released (R787). -/
def execPowerGood (env : BootEnv) (s : State) : Answer :=
  .next (if s.glb.st = .off ∧ !s.pwr.trip then s.coldStart env else s)

/-- RESTART (R717): accepted in READY and SAFE only. The links of both ports go down and train again at step 6. -/
def execRestart (p : Port) (env : BootEnv) (s : State) : Answer :=
  .next (s.ownerOnly p fun s =>
    let s := s.setUpdCmd 5
    if s.glb.st = .ready ∨ s.glb.st = .safe then
      let up := fun (q : Port) (t : State) => t.modPort q (fun x => { x with linkUp := (s.port q).linkUp })
      up .b (up .a (s.coldStart env))
    else s)

end Sys2Proof.Machine
end

