-- ==== Sys2Proof/Machine/Eu.lean ====
section
/-! DEFINITION. EU: probes, make-ups, understudy samples and refresh checks (06, R282 to R293; 07, R336 to R343). -/

namespace Sys2Proof.Machine

/-! ## One vector of a tile, computed from the recorded sources (R285, R336, R339, R430) -/

/-- The steps of a buffer over every slice pair. -/
def stepCount (f : PassForm) (b : PlaneBuf) : Nat := (f.pairs.map (fun p => (stepList f b p.2).length)).sum

/-- The values of one vector of a tile over the engines in use, with nothing skipped, in a class; `corr` takes z × C along.
EU's own rows sum R for itself. -/
def State.euRow (s : State) (o : ChainOp) (t : TileData) (m : Nat) (fast corr : Bool) : List Acc :=
  let d : LayerDesc := o.bound.desc
  let o : ChainOp := { o with skip := [], sparse := false, rowsum := [] }
  let mode := o.bound.pmode.toNat
  let wpl := o.bound.wpl.toNat
  (List.range o.engines).foldl (fun acc e =>
    let f : PassForm := { o.form e with fast := fast, sparse := false }
    let w := s.srcWeights o e
    let b := denseBuf o t e m
    let row := (List.range 128).map (fun n => (f.pairs.zipIdx).foldl (fun a p =>
      ((List.range f.regs).filter f.groupOn).foldl (fun a x =>
        let g := groupSum f w b p.1 x n
        let xs := layerGroup d mode e x
        let code := leNat (s.peek (scaleAddr d o.ct xs + 2 * n) 2)
        let cv : Int := if corr && d.ctp != 0 then (o.zp : Int) * corrValue wpl (leNat (s.peek (corrAddr d o.ct xs + 4 * n) 4)) else 0
        let dd : Int := (hOf mode wpl : Int) * rowSum f w b x n - cv
        let highs := (if wpl = 16 ∧ p.1.1 then 1 else 0) + (if f.aw = 16 ∧ p.1.2 then 1 else 0)
        if g.2 then .inf
        else (accAdd fast a (accClip fast (promote fast code (b.exps.getD x 0)
          (g.1 * (2 ^ (8 * highs) : Nat) + if p.2 = 0 then dd else 0)))).1) a) (.fin 0))
    (accAddRow fast acc row).1) accZeros

/-- EU's counters of one vector's passes (R126). -/
def State.euRan (s : State) (c : CoreId) (o : ChainOp) (t : TileData) (m : Nat) : State :=
  let o : ChainOp := { o with skip := [], sparse := false, rowsum := [] }
  let n := ((List.range o.engines).map (fun e => stepCount (o.form e) (denseBuf o t e m))).sum
  s.modEng c 16 (fun x => { x with steps := x.steps + BitVec.ofNat 64 n, passes := bump x.passes o.engines })

/-! ## Probes (R282, R283, R442) -/

/-- Twice the probed value of a code (R282): its top bit, plus 2^(a − 2). -/
def probeCode (aw : Nat) (sign : Bool) (code : Nat) : Int :=
  let top : Int := if bitOf code (aw - 1) then (2 ^ (aw - 1) : Nat) else 0
  2 * (if sign then -top else top) + (2 ^ (aw - 1) : Nat)

/-- A weight read at 2 planes (R139, R282). -/
def probeWeight (t : Tab Word) (r n : Nat) : Int :=
  (if bankBit t 7 r n then -128 else 0) + (if bankBit t 6 r n then 64 else 0) + 32

/-- One core's partial probe of a vector, as FP32 (R282). -/
def State.probeRow (s : State) (c : CoreId) (b : Bound) (r : TRec) (t : TileData) (ct m : Nat) : List Word :=
  let d : LayerDesc := b.desc
  let k := s.coreAt c
  let engines := enginesUsed d 0
  let imgs := (List.range engines).map (fun e => s.srcImage (Tab.get ⟨[], []⟩ k.sources (2 * e + Tab.get 0 k.lastBank e)).planes)
  (List.range 128).map (fun n =>
    let v : Int := ((List.range engines).map (fun e =>
      ((List.range (128 / d.g)).map (fun x =>
        let rows := ((List.range d.g).map (fun i => x * d.g + i)).filter (fun i => decide (128 * e + i < d.rows))
        let q : Int := (rows.map (fun i => probeCode r.width r.sign ((t.vec m).code (128 * e + i)) * probeWeight (imgs.getD e []) i n)).sum
        let code := leNat (s.peek (scaleAddr d ct (layerGroup d 0 e x) + 2 * n) 2)
        promote false code (t.exp m ((128 * e + x * d.g) / 32)) q)).sum)).sum
    fpOfInt v (-65))

/-- PROBE (R282, R442): EU probes every vector that holds a neuron predicted inactive; without a VERIFY prompter in force it
does nothing. EU takes probes before its other work (R293), so a probe ends when it issues; successive PROBEs of a column tile
hold its vectors in the order of the invocation (log 56). -/
def execProbe (c : CoreId) (s : State) : Answer :=
  .next (s.runSeq c 0x36 fun w s =>
    match (s.seqAt c).last with
    | none => s
    | some b =>
      let d : LayerDesc := b.desc
      let td := (s.seqAt c).treg (bitsOf w 42 39)
      let tm := bitsOf w 48 43
      let ct := (s.seqAt c).sreg (bitsOf w 37 33)
      if b.prm ≠ 2 then s.issued c
      else match s.source c td with
        | .wait => s.waitAt c seqWaitRing
        | .bad e q => s.ringFault e q
        | x =>
          if !td.ring && !(s.coreReach c td.addr && s.coreReach c (td.addr - 32)) then s.reachFault c
          else match x.tile, s.recordOf c td with
            | some src, some r =>
              if !r.ok then s.inputFault c 0x2141
              else
                s.withSb c [] [] (if td.ring then [] else s.sbRange (td.addr - 32) (32 + s.tileLen src)) fun s =>
                  let g := s.tileRead src (s.tileLen src)
                  let s := g.2.issued c
                  if !g.1 then s
                  else match s.tileOf src tm d.rows r.width r.sign with
                    | none => s.inputFault c 0x3161
                    | some t =>
                      let base := ((s.coreAt c).probes.filter (fun p => p.ord == b.ord && p.ct == ct)).length
                      let res := (List.range tm).map (fun m =>
                        let l := if s.predicted c.cluster b ct (base + m) = 0 then [] else s.probeRow c b r t ct m
                        (⟨b.ord, ct, base + m, l⟩ : ProbeRes))
                      (s.modCore c (fun k => { k with probes := k.probes ++ res })).modLast c (fun b => b.take r)
            | _, _ => s.inputFault c 0x2141)

/-! ## Make-up (R285, R286) -/

/-- A candidate's vector needs make-up: none while its probe sum is missing (R283 to R285). -/
def State.needsMakeUp (s : State) (c : CoreId) (e : EuOp) : Option Bool :=
  match e.ops.head? with
  | none => some false
  | some o =>
    let h := o.half
    ((s.prompt c e.bound e.ct (placeOf e.bound h o.acbase e.vec)).2).map (fun r => r != 0)

/-- MAKE_UP (R285, R286): the first candidate, once its chain pass has landed and its probe sum has come. -/
def execMakeUp (c : CoreId) (s : State) : Answer :=
  .next (let k := s.coreAt c
    match k.euQ.find? (fun e => e.kind == 1) with
    | none => s
    | some e =>
      let d : LayerDesc := e.bound.desc
      let same := fun (x : EuOp) => x.kind == 1 && x.ord == e.ord
      let drop1 := fun (s : State) => s.modCore c (fun k => { k with euQ := k.euQ.erase e })
      match e.ops.head?, s.needsMakeUp c e with
      | some o, some need =>
        let landed := match k.chainOp o.id with | some q => q.landed.contains e.vec | none => true
        if !need then drop1 s
        else if (s.invAt e.ord.toNat).muOver then drop1 s
        else if d.pmu < Tab.get 0 k.madeUp e.ord.toNat +
            ((k.euQ.filter same).filter (fun x => s.needsMakeUp c x == some true)).length then
          (((s.modCore c (fun k => { k with euQ := k.euQ.filter (fun x => !same x) })).modInv e.ord.toNat
            (fun x => { x with muOver := true }))).raise 0x3163 none none (posOf c 16)
        else if !landed then s
        else match s.opTile o with
          | none => drop1 s
          | some t =>
            let row := s.euRow o t e.vec true false
            let s := (drop1 s).euRan c o t e.vec
            let s := s.modCore c (fun k =>
              let k := k.acbAdd e.bound.fast o.half e.acbase row
              { k with madeUp := Tab.set 0 k.madeUp e.ord.toNat (Tab.get 0 k.madeUp e.ord.toNat + 1) })
            s.modSparse c (fun x => { x with prmMakeup := bump x.prmMakeup })
      | none, _ => drop1 s
      | _, none => s)

/-! ## Exact recomputation (R339 to R342) -/

/-- A value of a class in units of 2^−64. -/
def accExact (fast : Bool) : Acc → Acc
  | .inf => .inf
  | .fin v => .fin (if fast then v * (2 ^ 32 : Nat) else v)

/-- One instruction's effect on entry index j of the recomputed tile, in exact class. -/
def State.euApply (s : State) (o : ChainOp) (j : Nat) (old : List Acc) : List Acc :=
  if j < o.acbase ∨ o.acbase + o.tm ≤ j then old
  else
    let m := j - o.acbase
    let row := if o.code = 0x39 then (o.image.getD m []).map (accExact o.bound.fast)
      else match s.opTile o with
        | some t => s.euRow o t m false true
        | none => accZeros
    if o.acc then (accAddRow false old row).1 else row

/-- The tolerance of R340 around EU's value. -/
def tolerance (d : LayerDesc) (fast : Bool) (xu : Int) : Word :=
  if fast then fpAdd d.uta (fpMul d.utr (fpAbs (fpOfInt xu (-64)))) else 0

/-- A chain entry against EU's (R340, R341), both in units of 2^−64. -/
def mismatch (d : LayerDesc) (fast : Bool) (xc xu : Acc) : Bool :=
  match xc, xu with
  | .inf, .inf => false
  | .inf, .fin _ => true
  | .fin _, .inf => true
  | .fin a, .fin b => let v := fpOfInt (a - b) (-64); fpAbs v != 0 && fpLe (tolerance d fast b) (fpAbs v)

/-- A sample's neurons that the prompter holds inactive (R290, R291). -/
def State.heldOff (s : State) (c : CoreId) (e : EuOp) (m : Nat) : BitVec 128 :=
  let p := s.prompt c e.bound e.ct (placeOf e.bound e.half e.acbase m)
  p.1 &&& ~~~(p.2.getD 0)

/-- The neuron would have been marked active (R277, R290). -/
def State.wouldBeActive (s : State) (e : EuOp) (red : Option Red) (xu : Acc) (n : Nat) (e4 : Nat) : Bool :=
  let d : LayerDesc := e.bound.desc
  match yOf (s.outTables d e.ct) false (e.bound.sIn.getD 0) xu n with
  | none => true
  | some y =>
    let zero := match red with
      | some r => d.ofmt == 0 && (convertLevel (outForm d r r.width.toNat) y e4 0).1 == 0
      | none => false
    !(fpLt (fpAbs y) d.pzm || zero)

/-- Adds to a layer's sampled counts of the tick (R292). -/
def addMiss (l : List (Nat × Nat × Nat)) (lix a b : Nat) : List (Nat × Nat × Nat) :=
  match l.find? (fun e => e.1 == lix) with
  | some e => (lix, e.2.1 + a, e.2.2 + b) :: l.filter (fun e => e.1 != lix)
  | none => (lix, a, b) :: l

/-- US_SAMPLE (R290, R291, R338 to R342): the first sampled tile whose entries are captured. -/
def execUsSample (c : CoreId) (s : State) : Answer :=
  .next (let k := s.coreAt c
    match k.euQ.find? (fun e => e.kind == 2 && !e.vals.isEmpty) with
    | none => s
    | some e =>
      let d : LayerDesc := e.bound.desc
      let red := (s.invAt e.ord.toNat).reds[e.bound.part]?
      if k.euQ.any (fun x => x.kind == 1) ∨ (e.bound.prm ≠ 0 ∧ red.isNone) then s
      else
        let n := realCols d e.ct
        let rows := (List.range e.tm).map (fun m =>
          (s.heldOff c e m, (e.ops.foldl (fun a o => s.euApply o (e.acbase + m) a) accZeros).take n, (e.vals.getD m []).take n))
        let bad := rows.any (fun r => (r.2.1.zip r.2.2).zipIdx.any (fun x =>
          !r.1.getLsbD x.2 && mismatch d e.bound.fast (accExact e.bound.fast x.1.2) x.1.1))
        let off := rows.flatMap (fun r => r.2.1.zipIdx.filter (fun x => r.1.getLsbD x.2))
        let miss := (off.filter (fun x => s.wouldBeActive e red x.1 x.2 0)).length
        let f := s.drawWord
        let s := f.2.modCore c (fun k => { k with euQ := k.euQ.erase e })
        let s := s.modSparse c (fun x => { x with
          usSamples := bump x.usSamples, usMismatch := if bad then bump x.usMismatch else x.usMismatch,
          usCycles := x.usCycles + f.1, sampInact := bump x.sampInact off.length, sampMiss := bump x.sampMiss miss,
          miss := if e.bound.prm = 0 then x.miss else addMiss x.miss d.lix off.length miss })
        let s := s.modEng c 16 (fun x => { x with passes := bump x.passes e.ops.length })
        if bad then (s.modInv e.ord.toNat (fun x => { x with understudy := true })).raise 0x2206 none none (posOf c 16) else s)

/-! ## Refresh checks (R336, R337) -/

/-- The n-th check tile of ring EXQ with its record (R336). -/
def State.checkTile (s : State) (c : CoreId) (d : LayerDesc) (n : Nat) : Option (TileSrc × TRec) :=
  match s.extPlace c d.exq n with
  | none => none
  | some off =>
    let t := ringTile c d.exq off
    match (s.source c t).tile, s.recordOf c t with
    | some x, some r => some (x, r)
    | _, _ => none

/-- EU's value of entry index j from the kept image of buffer t mod 2 and the product with the check tiles (R336); none while a
check tile is missing. -/
def State.checkRow (s : State) (c : CoreId) (e : EuOp) (j : Nat) : Option (List Acc) :=
  let d : LayerDesc := e.bound.desc
  e.ops.foldl (fun a o =>
    match a with
    | none => none
    | some old =>
      if j < o.acbase ∨ o.acbase + o.tm ≤ j then some old
      else if o.code.toNat = 0x39 then
        match o.src with
        | .mem base => match s.keptAddr o.bound base (placeOf o.bound o.half o.acbase (j - o.acbase)) false with
          | some x => some ((rawRow o.bound.fast (s.peek x (rawBytes o.bound.fast))).map (accExact o.bound.fast))
          | none => some old
        | _ => some old
      else match o.chk with
        | none => some old
        | some i => match s.checkTile c d i with
          | none => none
          | some (x, r) =>
            let q : ChainOp := { o with src := x, aw := r.width, sign := r.sign, zp := r.zp }
            match s.opTile q with
            | some t => some (accAddRow false old (s.euRow q t (j - o.acbase) false true)).1
            | none => some old) (some accZeros)

/-- DELTA_CHECK (R336): the first refresh check, EU's last choice (R293). -/
def execDeltaCheck (c : CoreId) (s : State) : Answer :=
  .next (let k := s.coreAt c
    match k.euQ.find? (fun e => e.kind == 3 && !e.vals.isEmpty) with
    | none => s
    | some e =>
      let d : LayerDesc := e.bound.desc
      let n := realCols d e.ct
      let fresh := (List.range e.tm).filter (fun m => s.refreshes d e.ord.toNat (placeOf e.bound e.half e.acbase m))
      let rows := fresh.map (fun m => (s.checkRow c e (e.acbase + m), (e.vals.getD m []).take n))
      if k.euQ.any (fun x => x.kind == 1 || x.kind == 2) ∨ rows.any (fun r => r.1.isNone) then s
      else
        let bad := rows.any (fun r => ((r.1.getD []).zip r.2).any (fun x => mismatch d e.bound.fast (accExact e.bound.fast x.2) x.1))
        let s := s.modCore c (fun k => { k with euQ := k.euQ.erase e })
        let s := s.modSparse c (fun x => { x with
          deltaChk := bump x.deltaChk, deltaChkFail := if bad then bump x.deltaChkFail else x.deltaChkFail })
        if bad then s.raise 0x2207 none none (posOf c 16) else s)

end Sys2Proof.Machine
end

