-- ==== Sys2Proof/Machine/ReadBack.lean ====
section
/-! DEFINITION. The latching read-backs: engine and sequencer words, marks and scoreboard entries, lane maps, pending and
mirrored slots (03, R78, R128 to R131; 08, R403; 09, R467, R468; 11, R555; 14, R681 to R684). -/

namespace Sys2Proof.Machine

/-! ## Engine words (R129 to R131) -/

/-- The class of an instruction in the chain, else that of the engine's last pass. -/
def CoreSt.opFast (k : CoreSt) (x : EngineSt) (op : Nat) : Bool :=
  match k.chainQ.find? (fun o => o.id == op) with
  | some o => o.bound.fast
  | none => x.cls

/-- The skid buffer of a link (R115): the operands that wait for their partner, and whether they are contributions. A
running sum and a contribution of one tag have met. -/
def EngineSt.skid (x : EngineSt) : Bool × List Tagged :=
  if x.sums.length ≤ x.contribs.length then (true, x.contribs.drop x.sums.length)
  else (false, x.sums.drop x.contribs.length)

/-- The tag of R113: the tile number modulo 8 above the vector index. -/
def Tagged.tag (t : Tagged) : Nat := t.op % 8 * 32 + t.vec % 32

/-- Word i of the skid buffer (R131). -/
def CoreSt.skidWord (k : CoreSt) (x : EngineSt) (i : Nat) : Word :=
  let s := x.skid
  match s.2[i / 1024]? with
  | none => 0
  | some t =>
    let j := i % 1024
    if j = 0 then word (t.tag + bitAt s.1 8 + 512)
    else if 641 ≤ j then 0
    else word (accBits (k.opFast x t.op) (t.vals.getD ((j - 1) / 5) (.fin 0)) / 2 ^ (32 * ((j - 1) % 5)) % 2 ^ 32)

/-- Word i of the plane buffers (R131). -/
def EngineSt.planeWord (x : EngineSt) (i : Nat) : Word :=
  match if i < 128 then x.buf0 else x.buf1 with
  | none => 0
  | some b => word ((b.planes.getD (i % 128 / 8) 0).toNat / 2 ^ (32 * (i % 8)) % 2 ^ 32)

/-- Word i of the group-sum registers (R131). -/
def EngineSt.gsumWord (x : EngineSt) (i : Nat) : Word :=
  if !x.cls ∧ (4 ≤ i % 8 ∨ 1024 ≤ i) then 0
  else if i < 1024 then BitVec.ofInt 32 (Tab.get 0 x.gsum i)
  else if x.govf.contains (i - 1024) then 1 else 0

/-- The word of an engine that ENG_RB_ADDR names, and its number in the parity check (R130, R131). -/
def CoreSt.engineWord (k : CoreSt) (x : EngineSt) (target off : Nat) : Option Word × Option Nat :=
  let stored := fun (t : Tab Word) (n base : Nat) => if off < n then (some (Tab.get 0 t off), some (base + off)) else (none, none)
  match target with
  | 0 => stored x.bankA 4096 0
  | 1 => stored x.bankB 4096 4096
  | 2 => stored x.idxA 1024 8192
  | 3 => stored x.idxB 1024 9216
  | 4 => (if off < 2048 then some (x.gsumWord off) else none, none)
  | 5 => (if off < 256 then some (x.planeWord off) else none, none)
  | 6 => (if off < 8192 then some (k.skidWord x off) else none, none)
  | _ => (none, none)

/-- The plane row of a word has a parity error (R78). -/
def EngineSt.rowBad (x : EngineSt) (w : Nat) : Bool := x.bad.any (fun b => b / 4 == w / 4)

/-- A parity error that a read-back finds: its flag and event, failing no pass (R79, R131; log 79). -/
def State.readParity (s : State) (c : CoreId) (e : Nat) : State :=
  (s.modEng c e (fun x => { x with err := x.err ||| 2 })).raise 0x4130 none none (posOf c e)

/-- The address, data and stamp that a latch takes. -/
def State.latchOf (s : State) (v mask : Word) (f : Option Word) : Latch := ⟨v &&& mask, f.getD 0, s.stamp f.isSome⟩

/-- The number of an engine's copy of its latch. -/
def engKey (c : CoreId) (e : Nat) : Nat := c.num * 32 + e

/-- ENG_RB_ADDR (R128 to R131). -/
def execEngRbAddr (p : Port) (c : CoreId) (e : Fin 17) (v : Word) (s : State) : Answer :=
  .next (s.via p fun s =>
    let x := s.engAt c e.val
    let r := (s.coreAt c).engineWord x (field v.toNat 30 28) (field v.toNat 13 0)
    let s := s.modPort p (fun q => { q with engRb := Tab.set .reset q.engRb (engKey c e.val) (s.latchOf v 0x70003FFF r.1) })
    match r.2 with
    | some w => if x.rowBad w then s.readParity c e.val else s
    | none => s)

/-! ## Sequencer words (R467, R468) -/

/-- Word i of a 256-bit register. -/
def tWord (t : BitVec 256) (i : Nat) : Word := word (t.toNat / 2 ^ (32 * i) % 2 ^ 32)

/-- Word x of a checkpoint. -/
def Ckpt.word (k : Ckpt) (x : Nat) : Word :=
  if x = 0 then Sys2Proof.Machine.word k.key.toNat
  else if x = 1 then Sys2Proof.Machine.word k.pc.toNat
  else if x = 2 then Sys2Proof.Machine.word k.epoch.toNat
  else if x = 3 then Sys2Proof.Machine.word (k.seed.toNat % 2 ^ 32)
  else if x = 4 then Sys2Proof.Machine.word (k.seed.toNat / 2 ^ 32)
  else if x < 37 then Tab.get 0 k.s (x - 5)
  else if x < 45 then Tab.get 0 k.l (x - 37)
  else if x < 173 then tWord (Tab.get 0 k.t ((x - 45) / 8)) ((x - 45) % 8)
  else if x = 173 then 1 else 0

/-- Word i of the bound descriptors (R468); a slot is a place in the list of the bound invocations, oldest first (log 80). -/
def SeqSt.boundWord (q : SeqSt) (i : Nat) : Word :=
  if i < 256 then
    match q.bound[i / 64]? with
    | some b => Sys2Proof.Machine.word (b.desc.toNat / 2 ^ (32 * (i % 64)) % 2 ^ 32)
    | none => 0
  else
    match q.bound[i - 256]? with
    | some b => Sys2Proof.Machine.word (b.ord.toNat + 65536)
    | none => 0

/-- The barrier arrivals, 2 bits for each set. -/
def SeqSt.arrivalWord (q : SeqSt) : Word :=
  Sys2Proof.Machine.word (((List.range 16).map (fun i => Tab.get 0 q.arrivals i % 4 * 4 ^ i)).sum)

/-- The row-sum store below word 20,480, the z × C products from there (R468). -/
def CoreSt.storeWord (k : CoreSt) (i : Nat) : Word :=
  BitVec.ofInt 32 (if i < 20480 then Tab.get 0 k.rowsums i else Tab.get 0 k.zc (i - 20480))

/-- The word that SEQ_RB_ADDR names (R468). -/
def CoreSt.seqWord (k : CoreSt) (target off : Nat) : Option Word :=
  let q := k.seq
  let inside := fun (n : Nat) (w : Word) => if off < n then some w else none
  match target with
  | 0 => inside 8192 (word ((Tab.get 0 q.imem (off / 2)).toNat / 2 ^ (32 * (off % 2)) % 2 ^ 32))
  | 1 => inside 32 (word (q.sreg off))
  | 2 => inside 8 (Tab.get 0 q.l off)
  | 3 => inside 128 (tWord (q.treg (off / 8)) (off % 8))
  | 4 => inside 260 (q.boundWord off)
  | 5 => inside 20480 (word ((Tab.get 0 k.acb (off / 5)).toNat / 2 ^ (32 * (off % 5)) % 2 ^ 32))
  | 6 => inside 36864 (k.storeWord off)
  | 7 => inside 2048 (match q.ckpts[off / 256]? with | some x => x.word (off % 256) | none => 0)
  | 8 => inside 4 (match off with
    | 0 => word (q.seed.toNat % 2 ^ 32)
    | 1 => word (q.seed.toNat / 2 ^ 32)
    | 2 => if q.cueLatched then 1 else 0
    | _ => q.arrivalWord)
  | _ => none

/-- SEQ_RB_ADDR (R467, R468). -/
def execSeqRbAddr (p : Port) (c : CoreId) (v : Word) (s : State) : Answer :=
  .next (s.via p fun s =>
    let f := (s.coreAt c).seqWord (field v.toNat 19 16) (field v.toNat 15 0)
    s.modPort p (fun q => { q with seqRb := Tab.set .reset q.seqRb c.num (s.latchOf v 0xFFFFF f) }))

/-! ## Marks and scoreboard entries (R403) -/

/-- The data words of a ring mark. -/
def RingMark.words (m : RingMark) : Word × Word × Word :=
  (word (m.epoch.toNat + bitAt m.tp 16 + 2 ^ 31), word m.head, word (m.tail + m.turn.toNat * 2 ^ 24))

/-- The data words of a scoreboard entry; region 16 of a cluster is its cluster scratchpad. -/
def SbEntry.words (x : SbEntry) : Word × Word × Word :=
  (word (x.first % 2 ^ 15 + bitAt (x.region % 17 == 16) 15 + bitAt x.longRead 16 + 2 ^ 31), word (x.last % 2 ^ 15), 0)

/-- The words that SPM_IDX selects in a core; zeros where nothing stands. -/
def CoreSt.idxWords (k : CoreSt) (v : Nat) : Word × Word × Word :=
  if bitOf v 11 then (match k.sb[field v 7 4]? with | some x => x.words | none => (0, 0, 0))
  else match (Tab.get .reset k.rings (field v 7 4)).marks[field v 10 8]? with
    | some m => m.words
    | none => (0, 0, 0)

/-- Core k of a cluster. -/
def ClusterId.core (c : ClusterId) (k : Nat) : CoreId := ⟨c.die, c.cl, Fin.ofNat 16 k⟩

/-- SPM_IDX (R403). -/
def execSpmIdx (p : Port) (c : ClusterId) (v : Word) (s : State) : Answer :=
  .next (s.via p fun s =>
    let w := (s.coreAt (ClusterId.core c (field v.toNat 3 0))).idxWords v.toNat
    s.modPort p (fun q => { q with
      spmIdx := Tab.set .reset q.spmIdx c.num ⟨v &&& 0xFFF, w.1, w.2.1, w.2.2, s.stamp false⟩ }))

/-! ## Lane maps (R555) -/

/-- STK_LMAP for channel ch of stack k: the failed lanes and VALID. -/
def State.laneWord (s : State) (k ch : Nat) : Word :=
  if ch < 160 then word ((Tab.get 0 (s.stkAt k).laneMap ch).toNat + 512) else 0

/-- STK_LIDX (R555); the window of an unpopulated stack holds no register (R795). -/
def execStkLidx (p : Port) (k : Fin 16) (v : Word) (s : State) : Answer :=
  .next (s.via p fun s =>
    if !s.stkPopulated k.val then s
    else
      let ch := v.toNat % 256
      s.modPort p (fun q => { q with stkL := Tab.set .reset q.stkL k.val ⟨word ch, s.laneWord k.val ch, 0⟩ }))

/-! ## Slots (R501, R520, R684) -/

/-- The group of a slot, in the place that SLOT_STATE gives it. -/
def State.groupBits (s : State) (i : Nat) : Word := word (i % s.chainLen * 16)

/-- The SLOT registers of slot i, as at its last confirmation (R502, R520). -/
def State.slotWord (s : State) (i j : Nat) : Word :=
  (s.slotView i).getD j 0 ||| (if j = 0 then s.groupBits i else 0)

/-- The pending copy of slot i in the layout of the SLOT registers (R501, R684). -/
def State.pendingWords (s : State) (i : Nat) : List Word :=
  let x := s.slot i
  [word (x.state.toNat + bitAt x.pend 3 + bitAt x.kind 8 + bitAt x.cancel 9) ||| s.groupBits i,
   x.new.step, x.new.kvLen, x.new.promptLeft, x.new.lastToken, (s.slotView i).getD 5 0]

/-- SLOT_PIDX (R684). -/
def execSlotPidx (p : Port) (v : Word) (s : State) : Answer :=
  .next (s.via p fun s =>
    let i := v.toNat % 256
    s.modPort p (fun q => { q with slotP := ⟨BitVec.ofNat 8 i, s.pendingWords i, s.stamp⟩ }))

/-- The mirror copy of partner slot i in the layout of the SLOT registers; zeros where none is held. -/
def State.mirrorWords (s : State) (i : Nat) : List Word :=
  match s.twin.mirror.find? (fun e => e.1 == i) with
  | none => [0, 0, 0, 0, 0, 0]
  | some (_, m) => [word (m.state.toNat + bitAt m.kind 8) ||| s.groupBits i, m.step, m.kvLen, m.promptLeft, m.lastToken, m.tick]

/-- TWIN_MIDX (R684). -/
def execTwinMidx (p : Port) (v : Word) (s : State) : Answer :=
  .next (s.via p fun s =>
    let i := v.toNat % 256
    s.modPort p (fun q => { q with twinM := ⟨BitVec.ofNat 8 i, s.mirrorWords i, Tab.get 0 s.twin.mirrorTicks i⟩ }))

end Sys2Proof.Machine
end

