-- ==== Sys2Proof/Machine/RegMap.lean ====
section
/-! DEFINITION. Which register block an offset of BAR0 lies in (18, R793 to R795; 12, LNK windows). -/

namespace Sys2Proof.Machine

/-- A register block or a repeated unit of one. -/
inductive Block where
  | glb | tick | slots | host | pwr | upd | sec | err | reh | twin | win | pin | prec
  | slot (i : Nat)
  | hostRing (r : HostRing)
  | lnk (p : Nat)
  | window (w : Nat)
  | handle (h : Nat)
  | route (id : Nat)
  | out (r : Nat)
  | stk (k : Nat)
  | kv (d : Nat)
  | clu (n : Nat)
  | ocv (c : CoreId)
  | sparse (c : CoreId)
  | us (c : CoreId)
  | ring (c : CoreId) (q : Nat)
  | eng (c : CoreId) (e : Nat)
  | seq (c : CoreId)
  | hole
  deriving DecidableEq, Repr

/-- The port whose window an LNK offset lies in: a window of 0x4000 for ports 0 to 3, the second port of each pair at
+0x2000. -/
def lnkPortAt (x : Nat) : Nat :=
  let p := x / 0x4000 % 4
  if x / 0x2000 % 2 = 0 then p else if p = 1 then 6 else if p = 2 then 5 else p + 4

/-- A WIN offset. -/
def winAt (x : Nat) : Block × Nat :=
  if x < 0x800 then (.window (x / 0x20), x % 0x20)
  else if x < 0x1000 then (.win, x)
  else if x < 0x1400 then (.handle ((x - 0x1000) / 0x10), x % 0x10)
  else if 0x2000 ≤ x ∧ x < 0x23FC then (.route ((x - 0x2000) / 4), 0)
  else if 0x3000 ≤ x ∧ x < 0x4000 then (.out ((x - 0x3000) / 0x10), x % 0x10)
  else (.hole, 0)

/-- The ring of an index of R622. -/
def hostRingOf (i : Nat) : HostRing := if i = 0 then .admission else if i = 1 then .result else if i = 2 then .event else .command

/-- An offset of the blocks below the stacks. -/
def lowAt (x : Nat) : Block × Nat :=
  let y := x % 0x10000
  match x / 0x10000 with
  | 0 => (.glb, y)
  | 1 => (.tick, y)
  | 2 => if y < 0x2000 then (.slot (y / 0x20), y % 0x20) else (.slots, y)
  | 3 => if 0x100 ≤ y ∧ y < 0x180 then (.hostRing (hostRingOf ((y - 0x100) / 0x20)), y % 0x20) else (.host, y)
  | 4 => (.pwr, y)
  | 5 => (.upd, y)
  | 6 => (.sec, y)
  | 7 => (.err, y)
  | 8 => (.reh, y)
  | 9 => (.twin, y)
  | 10 => (.lnk (lnkPortAt y), y % 0x2000)
  | 11 => winAt y
  | 12 => (.pin, y)
  | _ => (.hole, 0)

/-- An offset of a cluster control window. -/
def cluAt (c : ClusterId) (y : Nat) : Block × Nat :=
  let core := fun (k : Nat) => (⟨c.die, c.cl, Fin.ofNat 16 k⟩ : CoreId)
  if 0x1000 ≤ y ∧ y < 0x1400 then (.ocv (core ((y - 0x1000) / 0x40)), y % 0x40)
  else if 0x3000 ≤ y ∧ y < 0x3400 then (.sparse (core ((y - 0x3000) / 0x40)), y % 0x40)
  else if 0x4000 ≤ y ∧ y < 0x4400 then (.us (core ((y - 0x4000) / 0x40)), y % 0x40)
  else if 0x6000 ≤ y ∧ y < 0x8000 then (.ring (core ((y - 0x6000) / 0x200)) (y / 0x20 % 16), y % 0x20)
  else (.clu c.num, y)

/-- An offset of a core window. -/
def coreWinAt (c : CoreId) (z : Nat) : Block × Nat :=
  if z < 0x4400 then (.eng c (z / 0x400), z % 0x400) else if z < 0x4800 then (.seq c, z - 0x4400) else (.hole, 0)

/-- An offset of a die window. -/
def dieAt (d x : Nat) : Block × Nat :=
  if x < 0x1000000 then
    if x / 0x10000 = 4 ∧ d = 0 then (.prec, x % 0x10000)
    else if x / 0x10000 = 5 then (.kv d, x % 0x10000)
    else (.hole, 0)
  else
    let c : ClusterId := ⟨Fin.ofNat 4 d, Fin.ofNat 16 ((x - 0x1000000) / 0x100000)⟩
    let y := x % 0x100000
    if y < 0x8000 then cluAt c y
    else if y < 0x88000 then coreWinAt ⟨c.die, c.cl, Fin.ofNat 16 ((y - 0x8000) / 0x8000)⟩ ((y - 0x8000) % 0x8000)
    else (.hole, 0)

/-- The block of a BAR0 offset and the offset in it (R793, R794). -/
def regAt (off : Nat) : Block × Nat :=
  if off % 4 ≠ 0 then (.hole, 0)
  else if off < 0x100000 then lowAt off
  else if off < 0x200000 then (.stk ((off - 0x100000) / 0x10000), off % 0x10000)
  else if 0x1000000 ≤ off ∧ off < 0x9000000 then dieAt ((off - 0x1000000) / 0x2000000) ((off - 0x1000000) % 0x2000000)
  else (.hole, 0)

end Sys2Proof.Machine
end

