-- ==== Sys2Proof/Machine/Flags.lean ====
section
/-! DEFINITION. What every register of BAR0 reads, with the flags and status words computed from the state (the Registers
sections of 00, 02, 03 and 05 to 17; 18, R795, R796). A reserved bit reads as 0 (R12), a read has no side effect (R15). -/

namespace Sys2Proof.Machine

/-! ## GLB, TICK, SLOT, HOST -/

/-- GLB_VARIANT: the variant code, I/O dies, stacks and link lanes (R1). -/
def State.variantWord (s : State) : Word :=
  if s.isN4 then 0x40100403 else if s.is4008 then 0x20080202 else 0x20100201

/-- GLB registers as port p reads them. -/
def State.glbReg (s : State) (p : Port) (o : Nat) : Word :=
  match o with
  | 0x10 => s.variantWord
  | 0x14 => word (s.glb.st.code + bitAt s.trialReads 4)
  | 0x18 => word (s.glb.aclkStep.toNat + bitAt s.glb.fclkLock 8 + bitAt s.glb.cclkLock 9 + bitAt s.glb.refSel 10 + bitAt s.glb.holdover 11)
  | 0x20 => (s.port p).apStamp
  | _ => 0

/-- A chain hold delays the next cue (R515): it is held, no tick runs, and its group has a pending step. -/
def State.chainHold (s : State) : Bool :=
  match s.tick.held with
  | c :: _ => s.tick.running.isNone && s.chainHeld c
  | [] => false

/-- TICK registers. -/
def State.tickReg (s : State) (o : Nat) : Word :=
  let t := s.tick
  match o with
  | 0x00 => word (t.src.toNat + t.cpos.toNat * 4 + t.clenM1.toNat * 64)
  | 0x04 => word t.period.toNat
  | 0x08 => word t.tickMax.toNat
  | 0x0C => word (t.count.toNat % 2 ^ 32)
  | 0x10 => word (t.count.toNat / 2 ^ 32)
  | 0x14 => word (s.phase + bitAt s.chainHold 4 + t.held.length % 4 * 32 +
      bitAt (match t.running with | some r => r.abandoned | none => false) 7 + t.group.toNat * 256)
  | 0x18 => t.lastLen
  | 0x1C => word t.pfa.toNat
  | 0x20 => t.proven
  | 0x24 => t.abandoned
  | 0x28 => t.stepRb
  | 0x2C => t.slotRb
  | 0x30 => t.holdUs
  | 0x34 => t.chainTimeouts
  | 0x38 => t.slotLate
  | _ => 0

/-- SLOT_SUMMARY and a port's copies of SLOT_PIDX, SLOT_PD0 to SLOT_PD5 and SLOT_PSTAMP (R684). -/
def State.slotsReg (s : State) (p : Port) (o : Nat) : Word :=
  let l := (s.port p).slotP
  if o = 0x2000 then word (s.admittedCount + (if s.cfg.paired then 128 else 256) * 512)
  else if o = 0x2100 then word l.idx.toNat
  else if o = 0x211C then l.stamp
  else if 0x2104 ≤ o ∧ o < 0x211C then l.d.getD ((o - 0x2104) / 4) 0
  else 0

/-- HOST registers as port p reads them. -/
def State.hostReg (s : State) (p : Port) (o : Nat) : Word :=
  let h := s.host
  let x := s.port p
  let side := fun (q : Port) (i : Nat) => bitAt (q == .b) i
  match o with
  | 0x00 => word (side h.owner 0 + bitAt h.offer 1 + bitAt h.lapsed 2 + bitAt h.claimed 3 + side h.defOwner 4)
  | 0x04 => h.heartbeat
  | 0x08 => word h.limit.toNat
  | 0x0C => h.age
  | 0x10 => word (bitAt h.claimed 0)
  | 0x14 => x.apLo
  | 0x18 => x.apHi
  | 0x1C => word ((if x.linkUp then (Config.hostLinkWidth (p == .b)).toNat else 0) + bitAt x.linkUp 8 + bitAt x.busMaster 9 + bitAt x.d3hot 10)
  | 0x200 => word h.resq.length
  | 0x204 => word h.evtq.length
  | 0x208 => word h.err.toNat
  | 0x20C => match h.run with | some r => word (1 + r.op.toNat * 256) | none => 0
  | 0x240 => h.admits
  | 0x244 => h.rejects
  | 0x248 => h.results
  | 0x24C => h.evtLost
  | 0x250 => h.backlogRb
  | 0x254 => h.unboundN
  | 0x258 => h.switches
  | 0x25C => h.resets
  | 0x260 => h.discards
  | _ => 0

/-- A host ring's registers. -/
def HostRingSt.reg (r : HostRingSt) (o : Nat) : Word :=
  match o with
  | 0x00 => word (r.base.toNat % 2 ^ 32)
  | 0x04 => word (r.base.toNat / 2 ^ 32)
  | 0x08 => word (r.log2n.toNat + bitAt r.en 8)
  | 0x0C => r.head
  | 0x10 => r.tail
  | _ => 0

/-! ## PWR, PIN, UPD, SEC -/

/-- Eight gating nibbles (PWR_GSTATE). -/
def gateNibbles (t : Tab GateSt) (base : Nat) : Word :=
  word (((List.range 8).map (fun i =>
    let g := Tab.get .reset t (base + i)
    (g.state.toNat + bitAt g.pending 2) * 16 ^ i)).sum)

/-- PWR registers. -/
def State.pwrReg (s : State) (o : Nat) : Word :=
  let w := s.pwr
  if 0x40 ≤ o ∧ o < 0x60 then gateNibbles w.gCluster (8 * ((o - 0x40) / 4))
  else match o with
  | 0x00 => word (s.reqStep + s.reqSrc * 4 + bitAt w.holdFrom.isSome 4 + bitAt w.therm 5 + bitAt (!s.pin.pwrHoldN) 6 +
      bitAt (!s.pin.motionN) 7 + s.hottest % 256 * 256)
  | 0x04 => word w.cap.toNat
  | 0x08 => word w.cmd.toNat
  | 0x0C => word w.stepMin.toNat
  | 0x10 => word (w.inputAvg.toNat + w.lastInterval.toNat * 65536)
  | 0x14 => word (w.mv10.toNat + w.auxMv.toNat * 65536)
  | 0x18 => w.tj
  | 0x1C => w.tjIo
  | 0x20 => word (w.gateClu.toNat % 2 ^ 32)
  | 0x24 => word (w.gateClu.toNat / 2 ^ 32)
  | 0x28 => word w.gateLnk.toNat
  | 0x60 => gateNibbles w.gLink 0
  | 0x80 => w.holds
  | 0x84 => w.holdUs
  | 0x88 => w.holdCut
  | 0x8C => w.steps
  | 0x90 => w.thermMs
  | _ => 0

/-- PIN registers. -/
def State.pinReg (s : State) (o : Nat) : Word :=
  match o with
  | 0x00 => word s.pin.cfg.toNat
  | 0x04 => s.pin.timer
  | 0x08 => word (s.gpPins + bitAt s.pin.tickIn 4 + bitAt s.pin.tickOut 5 + bitAt s.pin.pwrHoldN 6 + bitAt s.pin.motionN 7 +
      bitAt (!s.pwr.therm) 8 + bitAt (!s.pwr.alert) 9)
  | 0x10 => s.pin.tickRej
  | _ => 0

/-- UPD_ACTIVE_SLOT: the running slots and the pointer in force (R712). -/
def State.activeSlot (s : State) : Word :=
  let u := s.upd
  let p := u.ptr
  word (bitAt u.runFwB 0 + bitAt u.runCfgB 1 + bitAt p.trial 2 + p.tries.toNat * 8 +
    bitAt (p.fw != u.runFwB || p.cfg != u.runCfgB) 5 + p.lastRev.toNat * 64)

/-- UPD registers. -/
def State.updReg (s : State) (o : Nat) : Word :=
  let u := s.upd
  match o with
  | 0x00 => s.activeSlot
  | 0x04 => word u.flash.slotState.toNat
  | 0x08 => word (s.fwVersion.toNat % 2 ^ 32)
  | 0x0C => word (s.fwVersion.toNat / 2 ^ 32)
  | 0x10 => match u.fwRun with | some m => m.svn | none => 0
  | 0x14 => u.floor
  | 0x18 => word (u.haddr.toNat % 2 ^ 32)
  | 0x1C => word (u.haddr.toNat / 2 ^ 32)
  | 0x20 => u.len
  | 0x24 => u.cmd
  | 0x28 => word (bitAt u.staging.isSome 0 + u.result.toNat * 16 + u.mib.toNat * 65536)
  | 0x2C => u.ldrErr
  | 0x30 => u.ldrLoc
  | 0x34 => u.flash.starts
  | 0x38 => word (u.setFormat.toNat + (if s.copy0Runs then u.flash.set1.format else u.flash.set0.format).toNat * 256)
  | _ => 0

/-- SEC registers as port p reads them. -/
def State.secReg (s : State) (p : Port) (o : Nat) : Word :=
  let x := s.port p
  if o < 0x40 then word (s.sec.devId.toNat / 2 ^ (8 * o) % 2 ^ 32)
  else if 0x1000 ≤ o ∧ o < 0x3000 then word (leNat (Tab.range 0 x.mbx (o - 0x1000) 4))
  else match o with
  | 0x40 => word (bitAt s.upd.flash.ownerKey.isSome 0 + bitAt s.upd.flash.ownerLock 1)
  | 0x44 => x.mbxCmd
  | 0x48 => x.mbxStatus
  | 0x4C => s.upd.flash.challenge
  | _ => 0

/-! ## ERR, REH, TWIN -/

/-- ERR registers. -/
def State.errReg (s : State) (o : Nat) : Word :=
  let e := s.err
  if 0x40 ≤ o ∧ o < 0x68 then Tab.get 0 e.cls ((o - 0x40) / 4 + 1)
  else match o with
  | 0x00 => word (bitAt e.safemode 0 + bitAt e.active 1 + e.storm.toNat * 256 + e.runLen.toNat * 65536)
  | 0x04 => match e.first with | some (c, _) => word (c.toNat + 65536) | none => 0
  | 0x08 => match e.first with | some (_, t) => t | none => 0
  | 0x0C => word (bitAt e.injArm 0 + bitAt e.injTier 1 + bitAt e.injFired 2)
  | 0x10 => word (e.injAddr.toNat % 2 ^ 32)
  | 0x14 => word (e.injAddr.toNat / 2 ^ 32)
  | 0x18 => word (bitAt e.stCmd 0 + bitAt e.stBusy 1)
  | 0x1C => word (bitAt e.stPass 0 + bitAt e.stRan 1 + e.stRow.toNat * 16 + e.stPos.toNat * 65536)
  | 0x68 => e.entries
  | 0x6C => e.injected
  | _ => 0

/-- REH_STATUS (R747, R757): a replay, a spill, frozen records or none. -/
def State.rehStatus (s : State) : Word :=
  let h := s.reh
  word ((if h.replay.isSome then 3 else if h.spilling then 2 else if h.frozen then 1 else 0) + bitAt (h.reading || h.replay.isSome) 2 +
    h.refusal.toNat * 16)

/-- REH registers. -/
def State.rehReg (s : State) (o : Nat) : Word :=
  let h := s.reh
  if 0x10 ≤ o ∧ o < 0x20 then Tab.get 0 h.codes ((o - 0x10) / 4)
  else match o with
  | 0x00 => word (bitAt s.cfg.rehEn 0 + bitAt s.cfg.rehStats 1 + bitAt s.cfg.rehUpload 2 + bitAt s.cfg.rehStest 3)
  | 0x04 => s.cfg.rehBase
  | 0x08 => s.cfg.rehSize
  | 0x0C => word (h.triggerMask.toNat + h.post.toNat * 65536)
  | 0x20 => h.cmd
  | 0x24 => s.rehStatus
  | 0x28 => word (h.rfirst.toNat % 2 ^ 32)
  | 0x2C => word (h.rfirst.toNat / 2 ^ 32)
  | 0x30 => h.rcount
  | 0x34 => h.rbase
  | 0x38 => h.rdbase
  | 0x3C => h.mmTick
  | 0x40 => word (h.mmSlot.toNat + bitAt h.mmValid 8)
  | 0x44 => s.cfg.rehPeer
  | 0x60 => h.records
  | 0x64 => h.gap
  | 0x68 => h.spills
  | 0x6C => h.trigLost
  | 0x70 => h.upDrop
  | 0x74 => h.mismatch
  | 0x78 => h.tol
  | _ => 0

/-- TWIN registers as port p reads them. -/
def State.twinReg (s : State) (p : Port) (o : Nat) : Word :=
  let t := s.twin
  let c := s.cfg
  let l := (s.port p).twinM
  if 0x20 ≤ o ∧ o < 0x40 then word (t.adoptedMask.toNat / 2 ^ (8 * (o - 0x20)) % 2 ^ 32)
  else if 0x44 ≤ o ∧ o < 0x5C then l.d.getD ((o - 0x44) / 4) 0
  else match o with
  | 0x00 => word (bitAt c.paired 0 + bitAt c.side 1 + bitAt c.auto 2 + bitAt c.sync 3)
  | 0x04 => word (t.state.toNat + t.missed.toNat * 8 + bitAt t.refetch.isSome 5 + bitAt t.partAdopted 6)
  | 0x08 => word (bitAt t.adoptCmd 0)
  | 0x0C => word (c.stageBase.toNat % 2 ^ 32 / 4096 * 4096)
  | 0x10 => word (c.stageBase.toNat / 2 ^ 32)
  | 0x14 => c.stagePages
  | 0x18 => word (t.mirrorTick.toNat % 2 ^ 32)
  | 0x1C => t.sentTick
  | 0x40 => word l.idx.toNat
  | 0x5C => l.stamp
  | 0x60 => t.mirrors
  | 0x64 => t.mirrorKib
  | 0x68 => t.lag
  | 0x6C => t.hbMissed
  | 0x70 => t.refetchN
  | 0x74 => t.refetchFailN
  | _ => 0

/-! ## LNK, WIN, STK -/

/-- A link port's registers; an absent port's window reads 0 (R795). -/
def State.lnkReg (s : State) (p o : Nat) : Word :=
  let l := s.lnkAt p
  if !s.lnkPresent p then 0
  else match o with
  | 0x00 => word (bitAt l.en 0 + l.role.toNat * 2 + l.lanes.toNat * 16 + l.peerId.toNat * 256)
  | 0x04 => word (l.state.toNat + l.width.toNat * 4 + l.peerSeen.toNat * 64 + bitAt l.replay 14)
  | 0x08 => word l.err.toNat
  | 0x0C => word l.lanesFailed.toNat
  | 0x10 => l.txFlits
  | 0x14 => l.rxFlits
  | 0x18 => l.crcErr
  | 0x1C => l.replays
  | 0x20 => l.fecCorr
  | 0x24 => l.fecUncorr
  | 0x28 => l.ringStall
  | 0x2C => l.ringDrop
  | 0x30 => l.fwd
  | 0x34 => l.unrouted
  | 0x38 => l.nakRx
  | 0x3C => l.downs
  | _ => 0

/-- A window's registers. -/
def WindowSt.reg (x : WindowSt) (o : Nat) : Word :=
  match o with
  | 0x00 => word (x.base.toNat % 2 ^ 32 / 32 * 32)
  | 0x04 => word (x.base.toNat / 2 ^ 32)
  | 0x08 => word x.sizeM1.toNat
  | 0x0C => x.src
  | 0x10 => word x.cmd.toNat
  | 0x14 => word (x.state.toNat + bitAt x.pending 2 + x.epoch.toNat * 65536)
  | 0x18 => x.drain
  | 0x1C => x.acc
  | _ => 0

/-- A remote handle's registers. -/
def HandleSt.reg (x : HandleSt) (o : Nat) : Word :=
  match o with
  | 0x0 => x.cfg
  | 0x4 => word (x.state.toNat + x.epoch.toNat * 65536)
  | 0x8 => word x.size.toNat
  | 0xC => word (x.nakReason.toNat + x.nakEpoch.toNat * 65536)
  | _ => 0

/-- WIN_DROP and WIN_BYPASS. -/
def State.winReg (s : State) (o : Nat) : Word :=
  match o with
  | 0x800 => s.win.drop
  | 0x804 => word s.win.bypassReg.toNat
  | _ => 0

/-- A stack's registers as port p reads them; an unpopulated stack's window reads 0 (R47, R795). -/
def State.stkReg (s : State) (p : Port) (k o : Nat) : Word :=
  let x := s.stkAt k
  let l := Tab.get .reset (s.port p).stkL k
  if !s.stkPopulated k then 0
  else match o with
  | 0x00 => word (k + 256 + x.fwVer.toNat * 65536)
  | 0x04 => word (x.state.toNat + bitAt x.repair 3 + bitAt x.patrolOn 4 + bitAt x.hot 5)
  | 0x08 => word (x.fastFail.toNat + x.deepFail.toNat * 256 + x.trainLanes.toNat * 65536 + x.trainMs.toNat * 2 ^ 24)
  | 0x0C => word (x.tempNow.toNat + x.tempPeak.toNat * 256)
  | 0x10 => word (bitAt x.patrolEn 0 + x.hours.toNat * 256)
  | 0x14 => word (x.ueAddr.toNat % 2 ^ 32)
  | 0x18 => word (x.ueAddr.toNat / 2 ^ 32)
  | 0x1C => word (x.sparesFast.toNat + x.sparesDeep.toNat * 65536)
  | 0x20 => l.addr
  | 0x24 => l.data
  | 0x30 => x.ceFast
  | 0x34 => x.ceDeep
  | 0x38 => x.ue
  | 0x3C => x.spared
  | 0x40 => x.lanesMarked
  | 0x44 => x.rounds
  | _ => 0

/-! ## Die controllers -/

/-- PREC_LSTATE of a layer. -/
def LayerSt.word (l : LayerSt) : Word :=
  Sys2Proof.Machine.word (l.width.toNat + l.inMin.toNat * 32 + bitAt l.sticky 10 + l.wrun.toNat * 2048 + bitAt l.meanSet 13 +
    l.trips.toNat * 2 ^ 14)

/-- The precision controller's registers as port p reads them (R347). -/
def State.precReg (s : State) (p : Port) (o : Nat) : Word :=
  let x := s.prec
  let i := (s.port p).precLidx.toNat
  let l := Tab.get .reset x.seen i
  match o with
  | 0x00 => word x.ctrl.toNat
  | 0x04 => word (x.rrb.toNat + x.rrbMax.toNat * 65536)
  | 0x08 => x.lastBudget
  | 0x0C => x.lastStretch
  | 0x10 => word i
  | 0x14 => l.word
  | 0x18 => l.mean
  | 0x1C => word (bitAt x.lclear 0)
  | 0x20 => x.trips
  | 0x24 => x.reruns
  | 0x28 => x.rerunTrip
  | 0x2C => x.widest
  | 0x30 => x.withheldN
  | 0x34 => x.stretchedN
  | 0x38 => x.deltaRefresh
  | _ => 0

/-- The free pages of die d (R533): of its fast range, else of its deep range. -/
def State.kvFree (s : State) (d : Nat) (deep : Bool) : Nat :=
  match s.kvCfg d with
  | none => 0
  | some c =>
    if deep then freeCount (s.kvAt d).used c.deepFirst c.deepPages else freeCount (s.kvAt d).used c.fastFirst c.fastPages

/-- The KV registers of die d. -/
def State.kvReg (s : State) (d o : Nat) : Word :=
  let k := s.kvAt d
  match o with
  | 0x00 => k.cfg
  | 0x04 => k.policy
  | 0x08 => k.pt
  | 0x10 => word (s.kvFree d false)
  | 0x14 => word (s.kvFree d true)
  | 0x18 => word k.freeq.length
  | 0x20 => k.alloc
  | 0x24 => k.spilled
  | 0x28 => k.nopage
  | 0x2C => k.xmiss
  | _ => 0

/-! ## Cluster control -/

/-- A core of cluster n has reported statistics whose package reduction has not run (R226). -/
def State.statsWait (s : State) (n : Nat) : Bool :=
  s.prec.invs.any (fun e => e.2.shares.any (fun h => h.core / 16 == n && h.reported && decide (e.2.reds.length ≤ h.part)))

/-- MRG_STATUS: the merge that the cluster's tree works on, its k, and the lists of the round still to merge. -/
def State.mrgStatus (s : State) (n : Nat) : Word :=
  let u := s.cluAt n
  let work := if !u.topIn.isEmpty then 1 else if !u.scatIn.isEmpty then 2 else if s.statsWait n then 3 else 0
  word (work + u.mrgK.toNat * 256 + u.topIn.length % 64 * 2 ^ 15)

/-- Work of EU on a core of cluster n holds the supply at 0.55 V (R326, R327). -/
def State.euHold (s : State) (n : Nat) : Bool :=
  s.core.any (fun e => e.1 / 16 == n && !e.2.euQ.isEmpty)

/-- A cluster's registers as port p reads them. -/
def State.cluReg (s : State) (p : Port) (n o : Nat) : Word :=
  let u := s.cluAt n
  let l := Tab.get .reset (s.port p).spmIdx n
  if 0x5140 ≤ o ∧ o < 0x5180 then (s.coreAt (CoreId.ofNum (n * 16 + (o - 0x5140) / 4))).sbWait
  else match o with
  | 0x2000 => s.mrgStatus n
  | 0x2004 => word u.mrgTkg.toNat
  | 0x2008 => u.mrgRounds
  | 0x200C => u.mrgInf
  | 0x2010 => u.scatRecs
  | 0x2014 => u.scatOor
  | 0x5000 => word (u.vsup.toNat + bitAt (s.euHold n) 2)
  | 0x5004 => u.osCycles
  | 0x5008 => u.vraise
  | 0x5100 => word (u.scrub.toNat + bitAt (u.scrubBusy != 0) 17)
  | 0x5104 => word (bitAt u.patrolEn 0)
  | 0x5108 => word u.ueAddr.toNat
  | 0x510C => l.idx
  | 0x5110 => l.d0
  | 0x5114 => l.d1
  | 0x5118 => l.d2
  | 0x511C => l.stamp
  | 0x5120 => u.ce
  | 0x5124 => u.ue
  | 0x5128 => u.squashed
  | 0x512C => u.forced
  | 0x5130 => u.reach
  | 0x5134 => word u.narrowMax.toNat
  | _ => 0

/-- An output converter's registers. -/
def OcvSt.reg (x : OcvSt) (o : Nat) : Word :=
  match o with
  | 0x00 => word (x.state.toNat + bitAt x.fmt 3 + x.base.toNat * 16 + x.m.toNat * 512 + bitAt x.half 15 + x.lid.toNat * 65536)
  | 0x04 => x.held
  | 0x08 => x.formats
  | 0x0C => x.amax
  | 0x10 => x.norm
  | 0x14 => word x.err.toNat
  | 0x18 => x.sat
  | 0x1C => x.inf
  | 0x20 => x.promInf
  | 0x24 => x.holdWait
  | 0x28 => x.elems
  | 0x2C => x.topk
  | _ => 0

/-- A core's sparsity and prompter registers; `bitmap` is the form that output converters write (R249). -/
def SparseSt.reg (x : SparseSt) (bitmap : Bool) (o : Nat) : Word :=
  match o with
  | 0x00 => word (bitAt x.path 0 + bitAt bitmap 1 + bitAt x.prmWait 2 + x.npass.toNat * 256)
  | 0x04 => x.oor
  | 0x08 => x.tiles
  | 0x0C => x.dense
  | 0x10 => x.demote
  | 0x14 => x.storedDense
  | 0x18 => x.prmSkipped
  | 0x1C => x.prmMasked
  | 0x20 => x.prmReleased
  | 0x24 => x.prmMakeup
  | 0x28 => x.sampInact
  | 0x2C => x.sampMiss
  | _ => 0

/-- A core's understudy and refresh-check counters. -/
def SparseSt.usReg (x : SparseSt) (o : Nat) : Word :=
  match o with
  | 0x00 => x.usSamples
  | 0x04 => x.usMismatch
  | 0x08 => x.usCapped
  | 0x0C => x.usCycles
  | 0x10 => x.deltaChk
  | 0x14 => x.deltaChkFail
  | 0x18 => x.deltaChkSkip
  | _ => 0

/-- RING_STAT: full, empty to the consumer, marks held, waiting push and release, TURN, FRAME_ERR. -/
def RingSt.status (r : RingSt) : Word :=
  word (bitAt r.full 0 + bitAt (r.readable == 0) 1 + r.marks.length % 16 * 4 + bitAt r.pwait 6 + bitAt r.cwait 7 +
    r.turn.toNat * 256 + bitAt r.frameErr 12)

/-- A ring's registers. -/
def RingSt.reg (r : RingSt) (o : Nat) : Word :=
  match o with
  | 0x00 => word (r.base.toNat + bitAt r.loc 15)
  | 0x04 => word r.sizeM1.toNat
  | 0x08 => word (r.esize.toNat + r.nprodM1.toNat * 4096 + r.cons.toNat * 65536 + bitAt r.spec 18 + bitAt r.wings 19 +
      bitAt r.discard 20 + bitAt r.en 21)
  | 0x0C => word r.head
  | 0x10 => word r.free
  | 0x14 => word r.tail
  | 0x18 => word r.ctail
  | 0x1C => r.status
  | _ => 0

/-! ## Core windows -/

/-- ENG_BANK: valid planes and index planes, a load or a pass at work. -/
def bankWord (valid : BitVec 8) (idx : BitVec 2) (loading reading : Bool) : Word :=
  word (valid.toNat + idx.toNat * 256 + bitAt loading 10 + bitAt reading 11)

/-- An engine's registers as port p reads them; EU has no chain link, and its ENG_SKID and ENG_SKID_STALL read 0. -/
def State.engReg (s : State) (p : Port) (c : CoreId) (e o : Nat) : Word :=
  let x := s.engAt c e
  let l := Tab.get .reset (s.port p).engRb (engKey c e)
  match o with
  | 0x00 => word (x.state.toNat + bitAt x.activeBank 3 + bitAt x.cls 4 + x.pmode.toNat * 32 + x.aw.toNat * 256 + x.wpl.toNat * 2 ^ 13 +
      x.gsz.toNat * 2 ^ 18 + x.vec.toNat * 2 ^ 20 + x.tile.toNat * 2 ^ 25)
  | 0x04 => bankWord x.validA x.idxValidA x.loadingA x.readingA
  | 0x08 => bankWord x.validB x.idxValidB x.loadingB x.readingB
  | 0x0C => word x.err.toNat
  | 0x10 => word (x.steps.toNat % 2 ^ 32)
  | 0x14 => word (x.steps.toNat / 2 ^ 32)
  | 0x18 => x.passes
  | 0x1C => x.skipped
  | 0x20 => x.rowsums
  | 0x24 => x.bankWait
  | 0x28 => if e = 16 then 0 else x.skidStall
  | 0x2C => x.gsumOvf
  | 0x30 => if e = 16 then 0 else word (x.skid.2.length + bitAt (x.skid.1 && !x.skid.2.isEmpty) 4)
  | 0x34 => l.addr
  | 0x38 => l.data
  | 0x3C => l.stamp
  | _ => 0

/-- A sequencer's registers as port p reads them. -/
def State.seqReg (s : State) (p : Port) (c : CoreId) (o : Nat) : Word :=
  let q := s.seqAt c
  let l := Tab.get .reset (s.port p).seqRb c.num
  match o with
  | 0x00 => word (q.state.toNat + q.pc.toNat * 16 + bitAt q.rerun 16)
  | 0x04 => word (q.epoch.toNat + q.ckpts.length % 16 * 65536)
  | 0x08 => word (q.invOrd.toNat + q.invLix.toNat * 65536 + bitAt q.invWide 26)
  | 0x0C => word q.err.toNat
  | 0x10 => l.addr
  | 0x14 => l.data
  | 0x18 => l.stamp
  | 0x20 => q.issued
  | 0x24 => q.qwait
  | 0x28 => q.rwait
  | 0x2C => q.bwait
  | 0x30 => q.cwait
  | 0x34 => q.restores
  | _ => 0

/-! ## BAR2 (R609) -/

/-- What port p reads at an offset of BAR2: the doorbells, the MSI-X table and the pending bits (log 17). -/
def State.readBar2 (s : State) (p : Port) (off : Nat) : Word :=
  let x := s.port p
  if off = 0 then x.dbAdm
  else if off = 0x1000 then x.dbCmd
  else if off = 0x2000 then x.dbRes
  else if off = 0x3000 then x.dbEvt
  else if 0xE000 ≤ off ∧ off < 0xE400 ∧ off % 4 = 0 then
    Tab.get (if (off - 0xE000) / 4 % 4 = 3 then 1 else 0) x.msixTable ((off - 0xE000) / 4)
  else if off = 0xF000 then word (x.msixPend.toNat % 2 ^ 32)
  else if off = 0xF004 then word (x.msixPend.toNat / 2 ^ 32)
  else 0

/-! ## The whole map -/

/-- What port p reads at an offset of BAR0. -/
def State.readReg (s : State) (p : Port) (off : Nat) : Word :=
  let o := (regAt off).2
  match (regAt off).1 with
  | .glb => s.glbReg p o
  | .tick => s.tickReg o
  | .slots => s.slotsReg p o
  | .slot i => if o < 0x18 then s.slotWord i (o / 4) else 0
  | .host => s.hostReg p o
  | .hostRing r => (s.host.ring r).reg o
  | .pwr => s.pwrReg o
  | .pin => s.pinReg o
  | .upd => s.updReg o
  | .sec => s.secReg p o
  | .err => s.errReg o
  | .reh => s.rehReg o
  | .twin => s.twinReg p o
  | .lnk k => s.lnkReg k o
  | .win => s.winReg o
  | .window w => (s.windowAt w).reg o
  | .handle h => (s.handleAt h).reg o
  | .route i => word (Tab.get 15 s.win.routesNext i).toNat
  | .out r => if o = 0 then Tab.get 0 s.win.out0Next r else if o = 4 then Tab.get 0 s.win.out1Next r else 0
  | .stk k => s.stkReg p k o
  | .prec => s.precReg p o
  | .kv d => s.kvReg d o
  | .clu n => s.cluReg p n o
  | .ocv c => (s.coreAt c).ocv.reg o
  | .sparse c => (s.coreAt c).sparse.reg s.bitmapForced o
  | .us c => (s.coreAt c).sparse.usReg o
  | .ring c q => (s.ringAt c q).reg o
  | .eng c e => s.engReg p c e o
  | .seq c => s.seqReg p c o
  | .hole => 0

end Sys2Proof.Machine
end

