-- ==== Sys2Proof/Machine/Rehearse.lean ====
section
/-! DEFINITION. The rehearsal commands and the spill, the first-event latch, fault injection, the on-demand self-test (16, R735,
R739, R740, R746 to R757, R759, R760). -/

namespace Sys2Proof.Machine

/-! ## REH_CMD (R746, R750, R752, R757) -/

/-- A REH_CMD from the owner port; the word written reads back. -/
def State.rehCommand (s : State) (p : Port) (op : Nat) (check : Bool) (f : State → State) : State :=
  s.ownerOnly p fun s => f (s.modReh (fun h => { h with cmd := word (op + bitAt check 4) }))

/-- A refused REH_CMD (R757). -/
def State.rehRefuse (s : State) (r : Nat) : State :=
  (s.modReh (fun h => { h with refusal := BitVec.ofNat 4 r })).raise 0xA004 (some r)

/-- REH_STATUS.BUSY: a readout or a replay runs. -/
def RehSt.busy (h : RehSt) : Bool := h.reading || h.replay.isSome

/-- TRIGGER (R746, R747). -/
def execTrigger (p : Port) (check : Bool) (s : State) : Answer :=
  .next (s.rehCommand p 1 check fun s =>
    if s.reh.busy then s.rehRefuse 5 else s.rehTrigger (word (0xFFFF0000 + (Config.triggerSource 1).toNat)))

/-- The populated stacks of die 0 read READY (R750). -/
def State.die0Ready (s : State) : Bool := (List.range 4).all (fun k => !s.stkPopulated k || (s.stkAt k).state == 2)

/-- READOUT (R750). -/
def execReadout (p : Port) (check : Bool) (s : State) : Answer :=
  .next (s.rehCommand p 2 check fun s =>
    if s.reh.busy then s.rehRefuse 5
    else if (s.readyOrRun || s.glb.st == .safe) && s.die0Ready then s.modReh (fun h => { h with reading := true })
    else s.rehRefuse 1)

/-- What the spill area holds: a header and records, or an erased header (R749). -/
def Flash.spillArea (f : Flash) : List Byte := f.spill.getD (List.replicate 4096 0xFF)

/-- READOUT_DONE (R750): the copy stands in the deep tier. -/
def execReadoutDone (s : State) : Answer :=
  .next (if s.reh.reading then
      let a := s.reh.rdbase.toNat * 4096
      let t := if (s.place a).isStack then s.writeDev a s.upd.flash.spillArea else s
      (t.modReh (fun h => { h with reading := false })).raise 0xA002 (some 0)
    else s)

/-! ## The spill (R747 to R749) -/

/-- REH_SPILL: the span is complete; the header of the spill area is erased. -/
def execRehSpill (s : State) : Answer :=
  .next (if s.reh.frozen ∧ s.reh.trigLeft = some 0 ∧ !s.reh.spilling then
      (s.modReh (fun h => { h with spilling := true })).modFlash (fun f => { f with spill := none })
    else s)

/-- A record of the ring, wrapping from its end to its base; none where it cannot be read (R731). -/
def State.readEntry (s : State) (e : RehEntry) : Option (List Byte) × State :=
  let n := min e.bytes (s.rehCap - e.off)
  let a := s.rehBaseAddr + e.off
  let r := s.readSpan a n (n / 32 + 2)
  let t := r.2.readSpan s.rehBaseAddr (e.bytes - n) ((e.bytes - n) / 32 + 2)
  (if r.1 && t.1 then some (s.peek a n ++ s.peek s.rehBaseAddr (e.bytes - n)) else none, t.2)

/-- The records of entries that can be read. -/
def State.readEntries (s : State) : List RehEntry → List (List Byte) × State
  | [] => ([], s)
  | e :: t =>
    let r := s.readEntry e
    let u := r.2.readEntries t
    (r.1.toList ++ u.1, u.2)

/-- The header of a spill (R749). -/
def State.spillHeader (s : State) (l : List (List Byte)) : List Byte :=
  let tick := fun (r : Option (List Byte)) => match r with | some b => (recTick b).toNat | none => 0
  let b := leBytes 2 0x5253 ++ leBytes 1 1 ++ leBytes 1 0 ++ leBytes 4 s.reh.trigCode.toNat ++ leBytes 8 s.reh.trigTick.toNat ++
    leBytes 8 (tick l.head?) ++ leBytes 8 (tick l.getLast?) ++ leBytes 4 l.length ++ leBytes 4 ((l.map List.length).sum) ++
    leBytes 8 s.bodyDig8 ++ List.replicate 4044 0
  b ++ leBytes 4 (crc32 b)

/-- REH_SPILLED (R747): the frozen records stand in the flash, oldest first, and are released. -/
def execRehSpilled (s : State) : Answer :=
  .next (if s.reh.spilling then
      let r := s.readEntries ((s.reh.ring.drop s.reh.frozenSkip).take s.reh.frozenLen).reverse
      let area := r.2.spillHeader r.1 ++ r.1.flatMap id
      let s := r.2.modFlash (fun f => { f with spill := some area })
      let s := s.modReh (fun h => { h with
        spilling := false, frozen := false, trigLeft := none, frozenLen := 0, frozenSkip := 0, spills := bump h.spills })
      s.raise 0xA002 (some r.1.length)
    else s)

/-! ## Replay (R752, R753, R756) -/

/-- The record at an address; none where it is none, fails its trailer check or cannot be read. -/
def State.recordAt (s : State) (a : Nat) : Option (List Byte) × State :=
  let n := recLen (s.peek a 8)
  if leAt (s.peek a 8) 0 2 ≠ 0x5248 ∨ n < 192 ∨ n % 64 ≠ 0 then (none, s)
  else
    let r := s.readSpan a n (n / 32 + 2)
    let l := s.peek a n
    (if r.1 && recOk l then some l else none, r.2)

/-- What a walk over the replay source has found. -/
structure Walked where
  recs : List (List Byte)
  confs : List (List Byte)
  bad : Bool
  deriving DecidableEq, Repr

/-- Walks records from an address on: tick records from REH_RFIRST until REH_RCOUNT of them, then only confirmation records up to
the first thing that is no record. -/
def State.walkRecords (s : State) (a : Nat) (w : Walked) : Nat → Walked × State
  | 0 => (w, s)
  | n + 1 =>
    let full := decide (s.reh.rcount.toNat ≤ w.recs.length)
    let r := s.recordAt a
    match r.1 with
    | none => ({ w with bad := !full }, r.2)
    | some l =>
      let w := if recType l = 1 then { w with confs := w.confs ++ [l] }
        else if recType l = 0 ∧ s.reh.rfirst ≤ recTick l ∧ !full then { w with recs := w.recs ++ [l] } else w
      r.2.walkRecords (a + l.length) w n

/-- The first replayed record of each slot: its step is its first, or a stream slot's at a step that every DRN and PREF divides
(R753). -/
def State.historyOk (s : State) (recs : List (List Byte)) : Bool :=
  let steps := recs.flatMap recSteps
  let every := (s.cfg.layers.flatMap (fun l => [LayerDesc.drn l.desc, LayerDesc.pref l.desc])).filter (fun n => n != 0)
  (List.range 256).all (fun i =>
    match steps.find? (fun r => r.slot.val == i) with
    | none => true
    | some r => r.first || (r.stream && every.all (fun n => r.step.toNat % n == 0)))

/-- The records belong to the running configuration (R753). -/
def State.recordsOfCfg (s : State) (recs : List (List Byte)) : Bool :=
  recs.all (fun l => decide (leAt l 40 8 = s.bodyDig8) && decide (leAt l 32 4 = s.upd.flash.cfgEpoch.toNat))

/-- REPLAY (R752, R753): the checks in the order state, record, configuration, slot history. -/
def execRehReplay (p : Port) (check : Bool) (s : State) : Answer :=
  .next (s.rehCommand p 3 check fun s =>
    if s.reh.busy then s.rehRefuse 5
    else if s.glb.st ≠ .ready ∨ s.admittedCount ≠ 0 then s.rehRefuse 1
    else
      let r := s.walkRecords (s.reh.rbase.toNat * 4096) ⟨[], [], false⟩ (4 * s.reh.rcount.toNat + 64)
      let w := r.1
      let s := r.2
      if w.bad ∨ w.recs.length < s.reh.rcount.toNat then s.rehRefuse 3
      else if !s.recordsOfCfg w.recs then s.rehRefuse 2
      else if !s.historyOk w.recs then s.rehRefuse 4
      else s.modReh (fun h => { h with replay := some ⟨w.recs, w.confs, none, s.prec.ctrl, check, false, 0⟩ }))

/-- Every slot becomes FREE without a result, and the SLOT registers show it. -/
def State.dropSlots (s : State) : State :=
  let s := (s.slots.filter (fun e => e.2.state != 0)).foldl (fun s e => (s.kvQueueFree e.1).modSlot e.1 (fun _ => .reset)) s
  (List.range s.chainLen).foldl (fun s g => s.showSlots g) s

/-- REPLAY_DONE (R754, R756): after its ticks the replay frees every slot and returns the device to READY, at the step that is
requested. -/
def execReplayDone (s : State) : Answer :=
  .next (match s.reh.replay with
    | none => s
    | some x =>
      if !x.recs.isEmpty ∨ s.tick.running.isSome ∨ !s.tick.held.isEmpty then s
      else
        let s := s.dropSlots.modReh (fun h => { h with replay := none })
        let s : State := { s with glb := { s.glb with st := .ready, aclkStep := BitVec.ofNat 2 s.reqStep } }
        (s.modPwr (fun p => { p with exempt := true })).raise 0xA006 (some x.mismatches.toNat))

/-! ## ERR_FIRST (R735) -/

/-- ERR_FIRST_CLR: a write of 1 to CLR clears the whole latch, from either port. -/
def execErrFirstClr (p : Port) (v : Word) (s : State) : Answer :=
  .next (s.via p fun s => if v.getLsbD 31 then s.modErr (fun e => { e with first := none }) else s)

/-! ## Fault injection (R739, R740) -/

/-- ERR_INJ_ADDR lies where an injection of the tier may be armed (R740). -/
def State.injTarget (s : State) (stack : Bool) : Bool :=
  if stack then (s.place s.err.injAddr.toNat).isStack else (s.place s.err.injAddr.toNat).isSpm

/-- INJ_ARM: a write of ARM = 1. -/
def execInjArm (p : Port) (v : Word) (s : State) : Answer :=
  .next (if !v.getLsbD 0 then s
    else s.ownerOnly p fun s =>
      let tier := v.getLsbD 1
      if s.readyOrRun ∧ s.injTarget tier then s.modErr (fun e => { e with
          injArm := true, injTier := tier, injFired := false, injLatchTier := tier, injLatch := e.injAddr })
      else s.raise 0xA031)

/-- INJ_DISARM: a write of ARM = 0. -/
def execInjDisarm (p : Port) (v : Word) (s : State) : Answer :=
  .next (if v.getLsbD 0 then s
    else s.ownerOnly p fun s => s.modErr (fun e => { e with injArm := false, injTier := v.getLsbD 1 }))

/-! ## The on-demand self-test (R759, R760) -/

/-- ST_RUN: a write of 1 to ERR_ST_CMD runs the test where it may; the field reads back the last value taken. -/
def execStRun (p : Port) (v : Word) (s : State) : Answer :=
  .next (s.ownerOnly p fun s =>
    if !v.getLsbD 0 then s.modErr (fun e => { e with stCmd := false })
    else if s.glb.st = .ready ∧ s.admittedCount = 0 ∧ s.reh.replay.isNone then
      s.modErr (fun e => { e with stCmd := true, stBusy := true })
    else s.raise 0xA013)

/-- ST_DONE: the self-test of the clusters that are ON ends (R782): a pass places the configuration's items again, a failure
enters SAFE. -/
def execStDone (fail : Option (BitVec 4 × BitVec 16)) (s : State) : Answer :=
  .next (if !s.err.stBusy then s
    else
      let on := s.clusterOn
      let s := s.selfTestClear on
      match fail with
      | none => (s.selfTestPassed on).raise 0xA012
      | some (row, pos) => (s.selfTestFailed row pos).goSafe)

end Sys2Proof.Machine
end

