-- ==== Sys2Proof/Machine/Registers.lean ====
section
/-! DEFINITION. Writes of registers by their types (00, R9 to R15; 12, R573, R583, R586; 18, R795), and the TAP's register read
(16, R761, R763). -/

namespace Sys2Proof.Machine

/-! ## Helpers over words -/

/-- A 64-bit value with its low or high half replaced. -/
def setHalf (x : Nat) (hi : Bool) (v : Nat) : Nat := if hi then v * 2 ^ 32 + x % 2 ^ 32 else x / 2 ^ 32 * 2 ^ 32 + v

/-! ## Fields that a write sets -/

/-- HOST registers without a row of their own: HOST_HB_CFG with LIMIT from 1 to 10,000, the port's AP_BASE, HOST_ERR. -/
def State.writeHost (s : State) (p : Port) (o : Nat) (v : Word) : State :=
  let n := v.toNat % 2 ^ 14
  if o = 0x08 then s.ownerOnly p fun s =>
    if 1 ≤ n ∧ n ≤ 10000 then (s.modHost (fun h => { h with limit := BitVec.ofNat 14 n })).checkLapse else s
  else s.via p fun s =>
    match o with
    | 0x14 => s.modPort p (fun x => { x with apLo := v &&& 0xC0000000 })
    | 0x18 => s.modPort p (fun x => { x with apHi := v &&& 0x7FF })
    | 0x208 => s.modHost (fun h => { h with err := h.err &&& ~~~(BitVec.ofNat 4 v.toNat) })
    | _ => s

/-- PWR_CAP from 300 to 600 W and PWR_STEP from 0 to 2; other values are ignored. -/
def State.writePwr (s : State) (p : Port) (o : Nat) (v : Word) : State :=
  let c := v.toNat % 1024
  let m := v.toNat % 4
  match o with
  | 0x04 => s.ownerOnly p fun s => if 300 ≤ c ∧ c ≤ 600 then s.modPwr (fun w => { w with cap := BitVec.ofNat 10 c }) else s
  | 0x08 => s.ownerOnly p fun s => s.modPwr (fun w => { w with cmd := BitVec.ofNat 2 m })
  | 0x0C => s.ownerOnly p fun s => if m = 3 then s else s.modPwr (fun w => { w with stepMin := BitVec.ofNat 2 m })
  | _ => s

/-- UPD_HADDR, UPD_LEN, and an UPD_CMD that names no command. -/
def State.writeUpd (s : State) (p : Port) (o : Nat) (v : Word) : State :=
  match o with
  | 0x18 => s.ownerOnly p fun s => s.modUpd (fun u => { u with haddr := BitVec.ofNat 64 (setHalf u.haddr.toNat false v.toNat) })
  | 0x1C => s.ownerOnly p fun s => s.modUpd (fun u => { u with haddr := BitVec.ofNat 64 (setHalf u.haddr.toNat true v.toNat) })
  | 0x20 => s.ownerOnly p fun s => s.modUpd (fun u => { u with len := v })
  | 0x24 => s.ownerOnly p fun s => s.setUpdCmd (v.toNat % 64)
  | _ => s

/-- A mailbox word of the port, and a SEC_MBX_CMD that names no operation. -/
def State.writeSec (s : State) (p : Port) (o : Nat) (v : Word) : State :=
  s.via p fun s =>
    if 0x1000 ≤ o ∧ o < 0x3000 then s.modPort p (fun x => { x with mbx := Tab.setRange 0 x.mbx (o - 0x1000) (leBytes 4 v.toNat) })
    else if o = 0x44 then s.modPort p (fun x => { x with mbxCmd := v &&& 0xFFFF00FF })
    else s

/-- ERR_MODE and the injection address. -/
def State.writeErr (s : State) (p : Port) (o : Nat) (v : Word) : State :=
  match o with
  | 0x00 => s.ownerOnly p fun s => s.modErr (fun e => { e with safemode := v.getLsbD 0, storm := BitVec.ofNat 8 (field v.toNat 15 8) })
  | 0x10 => s.ownerOnly p fun s => s.modErr (fun e => { e with injAddr := BitVec.ofNat 44 (setHalf e.injAddr.toNat false v.toNat) })
  | 0x14 => s.ownerOnly p fun s =>
      s.modErr (fun e => { e with injAddr := BitVec.ofNat 44 (setHalf e.injAddr.toNat true (v.toNat % 4096)) })
  | _ => s

/-- REH_TRIG, the trigger codes, the replay and readout places, and a REH_CMD that names no command. -/
def State.writeReh (s : State) (p : Port) (o : Nat) (v : Word) : State :=
  if 0x10 ≤ o ∧ o < 0x20 then
    s.ownerOnly p fun s => s.modReh (fun h => { h with codes := Tab.set 0 h.codes ((o - 0x10) / 4) (v &&& 0xFFFF) })
  else match o with
  | 0x0C => s.ownerOnly p fun s => s.modReh (fun h => { h with
      triggerMask := BitVec.ofNat 10 v.toNat, post := BitVec.ofNat 8 (field v.toNat 23 16) })
  | 0x20 => s.ownerOnly p fun s => s.modReh (fun h => { h with cmd := v &&& 0x1F })
  | 0x28 => s.ownerOnly p fun s => s.modReh (fun h => { h with rfirst := BitVec.ofNat 64 (setHalf h.rfirst.toNat false v.toNat) })
  | 0x2C => s.ownerOnly p fun s => s.modReh (fun h => { h with rfirst := BitVec.ofNat 64 (setHalf h.rfirst.toNat true v.toNat) })
  | 0x30 => s.ownerOnly p fun s => s.modReh (fun h => { h with rcount := v })
  | 0x34 => s.ownerOnly p fun s => s.modReh (fun h => { h with rbase := v })
  | 0x38 => s.ownerOnly p fun s => s.modReh (fun h => { h with rdbase := v })
  | _ => s

/-- LNK_ERR of a present port, write 1 to clear from either port. -/
def State.writeLnk (s : State) (p : Port) (k o : Nat) (v : Word) : State :=
  if o = 0x08 ∧ s.lnkPresent k then s.via p fun s => s.modLnk k (fun l => { l with err := l.err &&& ~~~(BitVec.ofNat 5 v.toNat) }) else s

/-- A window's setting with one word replaced (R584). -/
def WindowSt.put (x : WindowSt) (o : Nat) (v : Word) : WindowSt :=
  match o with
  | 0x00 => { x with base := BitVec.ofNat 44 (setHalf x.base.toNat false (v.toNat / 32 * 32)) }
  | 0x04 => { x with base := BitVec.ofNat 44 (setHalf x.base.toNat true (v.toNat % 4096)) }
  | 0x08 => { x with sizeM1 := BitVec.ofNat 29 v.toNat }
  | _ => { x with src := v }

/-- WIN_BASE, WIN_SIZE and WIN_SRC: a driver's window that is CLOSED with PENDING = 0, else event 0x5012 (R583, R586); a write
that changes nothing is no change. -/
def State.writeWindow (s : State) (p : Port) (w o : Nat) (v : Word) : State :=
  if 0x10 ≤ o then s
  else s.ownerOnly p fun s =>
    let x := s.windowAt w
    if 48 ≤ w then s.raise 0x5012
    else if (x.state = 0 ∧ !x.pending) ∨ x.put o v = x then s.modWindow w (fun x => x.put o v)
    else s.raise 0x5012

/-- WIN_CMD: the command of its field (R585), or MODE alone. -/
def writeWinCmd (p : Port) (w : Nat) (v : Word) (s : State) : Answer :=
  match field v.toNat 2 1 with
  | 1 => execWinOpen p (Fin.ofNat 64 w) (v.getLsbD 0) s
  | 2 => execWinClose p (Fin.ofNat 64 w) (v.getLsbD 0) s
  | n => .next (s.ownerOnly p fun s => s.winCommand w n (v.getLsbD 0) (fun s => s))

/-- WIN_BYPASS, in force from the next cue (R597). -/
def State.writeWin (s : State) (p : Port) (o : Nat) (v : Word) : State :=
  if o = 0x804 then s.ownerOnly p fun s => s.modWin (fun w => { w with bypassReg := BitVec.ofNat 2 v.toNat }) else s

/-- WIN_ROUTE, in force from the next cue (R573). -/
def State.writeRoute (s : State) (p : Port) (i : Nat) (v : Word) : State :=
  s.ownerOnly p fun s => s.modWin (fun w => { w with routesNext := Tab.set 15 w.routesNext i (BitVec.ofNat 4 v.toNat) })

/-- WIN_OUT, in force from the next cue. -/
def State.writeOut (s : State) (p : Port) (r o : Nat) (v : Word) : State :=
  if o = 0 then s.ownerOnly p fun s => s.modWin (fun w => { w with out0Next := Tab.set 0 w.out0Next r (v &&& 0x3FFFFFFF) })
  else if o = 4 then s.ownerOnly p fun s => s.modWin (fun w => { w with out1Next := Tab.set 0 w.out1Next r (v &&& 0xFFFFF) })
  else s

/-- STK_PATROL: EN, and HOURS where it is not 0. -/
def State.writeStk (s : State) (p : Port) (k o : Nat) (v : Word) : State :=
  let h := field v.toNat 15 8
  if o = 0x10 ∧ s.stkPopulated k then
    s.ownerOnly p fun s => s.modStk k (fun x => { x with patrolEn := v.getLsbD 0, hours := if h = 0 then x.hours else BitVec.ofNat 8 h })
  else s

/-- PREC_CTRL, PREC_BUDGET and the port's PREC_LIDX. -/
def State.writePrec (s : State) (p : Port) (o : Nat) (v : Word) : State :=
  match o with
  | 0x00 => s.ownerOnly p fun s => s.modPrec (fun x => { x with ctrl := BitVec.ofNat 3 v.toNat })
  | 0x04 => s.ownerOnly p fun s => s.modPrec (fun x => { x with rrb := BitVec.ofNat 10 v.toNat })
  | 0x10 => s.via p fun s => s.modPort p (fun x => { x with precLidx := BitVec.ofNat 10 v.toNat })
  | _ => s

/-- SPM_PATROL. -/
def State.writeClu (s : State) (p : Port) (n o : Nat) (v : Word) : State :=
  if o = 0x5104 then s.ownerOnly p fun s => s.modClu n (fun u => { u with patrolEn := v.getLsbD 0 }) else s

/-- RING_STAT.FRAME_ERR, write 1 to clear. -/
def State.writeRing (s : State) (p : Port) (c : CoreId) (q o : Nat) (v : Word) : State :=
  if o = 0x1C ∧ v.getLsbD 12 then s.via p fun s => s.modRing c q (fun r => { r with frameErr := false }) else s

/-- OCV_ERR, write 1 to clear. -/
def State.writeOcv (s : State) (p : Port) (c : CoreId) (o : Nat) (v : Word) : State :=
  if o = 0x14 then s.via p fun s => s.modOcv c (fun x => { x with err := x.err &&& ~~~(BitVec.ofNat 3 v.toNat) }) else s

/-- ENG_ERR, write 1 to clear. -/
def State.writeEng (s : State) (p : Port) (c : CoreId) (e o : Nat) (v : Word) : State :=
  if o = 0x0C then s.via p fun s => s.modEng c e (fun x => { x with err := x.err &&& ~~~(BitVec.ofNat 3 v.toNat) }) else s

/-- SEQ_ERR, write 1 to clear. -/
def State.writeSeq (s : State) (p : Port) (c : CoreId) (o : Nat) (v : Word) : State :=
  if o = 0x0C then s.via p fun s => s.modSeq c (fun q => { q with err := q.err &&& ~~~(BitVec.ofNat 5 v.toNat) }) else s

/-! ## Registers with a row of their own -/

/-- A write of UPD_CMD. A STAGE or a RESTART comes as its own command, which carries what the device finds (log 77). -/
def writeUpdCmd (p : Port) (v : Word) (s : State) : Answer :=
  match v.toNat % 16 with
  | 1 => .next s
  | 2 => .next s
  | 3 => execActivate p (v.getLsbD 4) (v.getLsbD 5) s
  | 4 => execConfirm p s
  | 5 => .next s
  | 6 => execSaveSettings p s
  | 7 => execAbort p s
  | _ => .next (s.writeUpd p 0x24 v)

/-- A write of SEC_MBX_CMD: OP in [7:0], the request's length in [31:16] (R728). -/
def writeMbxCmd (p : Port) (v : Word) (s : State) : Answer :=
  let len : BitVec 16 := BitVec.ofNat 16 (field v.toNat 31 16)
  match v.toNat % 256 with
  | 1 => execCert p s
  | 2 => execAttest p s
  | 3 => execChallenge p s
  | 4 => execToken p len s
  | 5 => execEnroll p len s
  | 6 => execLock p s
  | _ => .next (s.writeSec p 0x44 v)

/-- A write of REH_CMD (R746, R750, R752). -/
def writeRehCmd (p : Port) (v : Word) (s : State) : Answer :=
  match v.toNat % 16 with
  | 1 => execTrigger p (v.getLsbD 4) s
  | 2 => execReadout p (v.getLsbD 4) s
  | 3 => execRehReplay p (v.getLsbD 4) s
  | _ => .next (s.writeReh p 0x20 v)

/-- A write of a host ring's register. -/
def writeHostRing (p : Port) (r : HostRing) (o : Nat) (v : Word) (s : State) : Answer :=
  match o with
  | 0x00 => execHostRingBase p r false v s
  | 0x04 => execHostRingBase p r true v s
  | 0x08 => execHostRingCfg p r v s
  | _ => .next s

/-- A write at an offset of BAR0: a register with a row of its own acts as that row states, any other by its type; where no
register takes writes nothing changes (R9, R12, R795). -/
def writeBar0 (p : Port) (off : Nat) (v : Word) (s : State) : Answer :=
  let o := (regAt off).2
  match (regAt off).1 with
  | .tick => if o = 0x04 then execTickPeriod p v s else if o = 0x08 then execTickMax p v s else .next s
  | .slots => if o = 0x2100 then execSlotPidx p v s else .next s
  | .host =>
    if o = 0x00 then execOffer p (v.getLsbD 1) s
    else if o = 0x04 then execHostHeartbeat p v s
    else if o = 0x10 then execClaim p (v.getLsbD 0) s
    else .next (s.writeHost p o v)
  | .hostRing r => writeHostRing p r o v s
  | .pwr =>
    if o = 0x08 ∧ v.toNat % 4 = 1 then execPark p s
    else if o = 0x08 ∧ v.toNat % 4 = 2 then execWake p s
    else if 0x20 ≤ o ∧ o ≤ 0x28 then execGateRequest p (Fin.ofNat 3 ((o - 0x20) / 4)) v s
    else .next (s.writePwr p o v)
  | .upd => if o = 0x24 then writeUpdCmd p v s else .next (s.writeUpd p o v)
  | .sec => if o = 0x44 then writeMbxCmd p v s else .next (s.writeSec p o v)
  | .err =>
    if o = 0x04 then execErrFirstClr p v s
    else if o = 0x0C then (if v.getLsbD 0 then execInjArm p v s else execInjDisarm p v s)
    else if o = 0x18 then execStRun p v s
    else .next (s.writeErr p o v)
  | .reh => if o = 0x20 then writeRehCmd p v s else .next (s.writeReh p o v)
  | .twin => if o = 0x08 then execAdopt p v s else if o = 0x40 then execTwinMidx p v s else .next s
  | .lnk k => .next (s.writeLnk p k o v)
  | .win => .next (s.writeWin p o v)
  | .window w => if o = 0x10 then writeWinCmd p w v s else .next (s.writeWindow p w o v)
  | .route i => .next (s.writeRoute p i v)
  | .out r => .next (s.writeOut p r o v)
  | .stk k => if o = 0x20 then execStkLidx p (Fin.ofNat 16 k) v s else .next (s.writeStk p k o v)
  | .prec => if o = 0x1C then execClrSticky p v s else .next (s.writePrec p o v)
  | .clu n =>
    if o = 0x5100 then execSpmScrub p (ClusterId.ofNum n) v s
    else if o = 0x510C then execSpmIdx p (ClusterId.ofNum n) v s
    else .next (s.writeClu p n o v)
  | .ring c q =>
    if o = 0x00 then execRingBase p c (Fin.ofNat 16 q) v s
    else if o = 0x04 then execRingSize p c (Fin.ofNat 16 q) v s
    else if o = 0x08 then execRingCfg p c (Fin.ofNat 16 q) v s
    else .next (s.writeRing p c q o v)
  | .ocv c => .next (s.writeOcv p c o v)
  | .eng c e => if o = 0x34 then execEngRbAddr p c (Fin.ofNat 17 e) v s else .next (s.writeEng p c e o v)
  | .seq c => if o = 0x10 then execSeqRbAddr p c v s else .next (s.writeSeq p c o v)
  | _ => .next s

/-- A write at an offset of BAR2 (R609): the doorbells, and the MSI-X table of the PCI-SIG base specification (log 17). -/
def writeBar2 (p : Port) (off : Nat) (v : Word) (s : State) : Answer :=
  if off = 0 then execDbAdmTail p v s
  else if off = 0x1000 then execDbCmdTail p v s
  else if off = 0x2000 then execDbResHead p v s
  else if off = 0x3000 then execDbEvtHead p v s
  else if 0xE000 ≤ off ∧ off < 0xE400 ∧ off % 4 = 0 then
    let i := (off - 0xE000) / 4
    .next (s.via p fun s => s.modPort p (fun x => { x with msixTable := Tab.set (if i % 4 = 3 then 1 else 0) x.msixTable i v }))
  else .next s

/-- REGISTER_WRITE (R9 to R13): a 4-byte write through port p to BAR0 or BAR2. -/
def execRegisterWrite (p : Port) (bar2 : Bool) (off : BitVec 28) (v : Word) (s : State) : Answer :=
  if bar2 then writeBar2 p off.toNat v s else writeBar0 p off.toNat v s

/-! ## REGRD (R761, R763) -/

/-- What a REGRD reads: the register as the standby port reads it; at an offset that is no multiple of 4 a free value (log 78). -/
def State.regrdWord (s : State) (off : Nat) : Word × State :=
  if off % 4 = 0 then (s.readReg s.host.owner.other off, s) else s.drawWord

/-- REGRD: the offset goes into [31:0] and the register into [63:32]. -/
def execRegrd (off : BitVec 32) (s : State) : Answer :=
  .next (if !s.tapOn then s.answer .noCompletion
    else
      let r := s.regrdWord off.toNat
      (r.2.modTap (fun t => { t with ir := 0x10, dr := BitVec.ofNat 64 (r.1.toNat * 2 ^ 32 + off.toNat) })).answer (.word r.1))

end Sys2Proof.Machine
end

