-- ==== Sys2Proof/Machine/Resume.lean ====
section
/-! DEFINITION. The end of a sequencer's wait on a ring (08, R368, R800). -/

namespace Sys2Proof.Machine

/-- The state that an issue attempt leaves. -/
def tried (s : State) : Answer → State
  | .next t => t
  | _ => s

/-- The state after the waiting instruction at PC is tried again, for the instructions that read a ring. -/
def State.reissue (s : State) (c : CoreId) : State :=
  match opOf (s.seqAt c).word with
  | 0x20 => tried s (execBld c s)
  | 0x21 => tried s (execDma c s)
  | 0x24 => tried s (execPush c s)
  | 0x25 => tried s (execPop c s)
  | 0x30 => tried s (execMbp c s)
  | 0x31 => tried s (execMxn c s)
  | 0x32 => tried s (execMsh1 c s)
  | 0x33 => tried s (execMsh2 c s)
  | 0x34 => tried s (execMb24 c s)
  | 0x35 => tried s (execMsp c s)
  | 0x36 => tried s (execProbe c s)
  | 0x39 => tried s (execImprt c s)
  | 0x48 => tried s (execSvq c s)
  | 0x4C => tried s (execTopkv c s)
  | 0x4D => tried s (execScat c s)
  | _ => s

/-- CONSUMER_RESUME (R800): what the sequencer waits for on a ring has come, and it goes on; its instruction issues by its own
row. -/
def execConsumerResume (c : CoreId) (s : State) : Answer :=
  .next (if (s.seqAt c).state = seqWaitRing ∧ ((s.reissue c).seqAt c).state ≠ seqWaitRing then
      let d := s.drawWord
      d.2.modSeq c (fun q => { q with state := seqRun, rwait := q.rwait + d.1 })
    else s)

end Sys2Proof.Machine
end

