-- ==== Sys2Proof/Machine/Dispatch.lean ====
section
/-! DEFINITION. The commands' meanings, one arm per constructor. -/

namespace Sys2Proof.Machine

-- The effect of a command on everything but the queue.
def exec (i : Instr) (s : State) : Host.Outcome State Fault Refusal :=
  match i with
  -- supplies, thermal, pins
  | .powerGood env => Sys2Proof.Machine.execPowerGood env s
  | .supplyLoss mv10 => Sys2Proof.Machine.execSupplyLoss mv10 s
  | .supplyRange mv10 => Sys2Proof.Machine.execSupplyRange mv10 s
  | .junctionSample tj tjIo => Sys2Proof.Machine.execJunctionSample tj tjIo s
  | .tripRelease => Sys2Proof.Machine.execTripRelease s
  | .powerSample watts10 mv10 auxMv => Sys2Proof.Machine.execPowerSample watts10 mv10 auxMv s
  | .pwrHold level => Sys2Proof.Machine.execPwrHold level s
  | .motion level => Sys2Proof.Machine.execMotion level s
  | .pwrBrake pin => Sys2Proof.Machine.execPwrBrake pin s
  | .clkHoldover => Sys2Proof.Machine.execClkHoldover s
  | .tickInEdge at_ highNs lowNs => Sys2Proof.Machine.execTickInEdge at_ highNs lowNs s
  | .rehTrigPin pin => Sys2Proof.Machine.execRehTrigPin pin s
  | .portReset p kind => Sys2Proof.Machine.execPortReset p kind s
  | .d3hotEntry p => Sys2Proof.Machine.execD3hotEntry p s
  | .d0Return p => Sys2Proof.Machine.execD0Return p s
  | .configRequest p off wr => Sys2Proof.Machine.execConfigRequest p off wr s
  | .smbState => Sys2Proof.Machine.execSmbState s
  | .smbTj => Sys2Proof.Machine.execSmbTj s
  | .smbInputPower => Sys2Proof.Machine.execSmbInputPower s
  | .smbVin => Sys2Proof.Machine.execSmbVin s
  | .smbVariant => Sys2Proof.Machine.execSmbVariant s
  | .smbLastEvent => Sys2Proof.Machine.execSmbLastEvent s
  | .smbAlertResponse => Sys2Proof.Machine.execSmbAlertResponse s
  | .bypass => Sys2Proof.Machine.execBypass s
  | .idcode => Sys2Proof.Machine.execIdcode s
  | .samplePreload => Sys2Proof.Machine.execSamplePreload s
  | .extest => Sys2Proof.Machine.execExtest s
  | .clamp => Sys2Proof.Machine.execClamp s
  | .highz => Sys2Proof.Machine.execHighz s
  | .regrd off => Sys2Proof.Machine.execRegrd off s
  | .tapReset => Sys2Proof.Machine.execTapReset s
  -- update and identity
  | .stageFw p img => Sys2Proof.Machine.execStageFw p img s
  | .stageCfg p img => Sys2Proof.Machine.execStageCfg p img s
  | .updStaged readOk => Sys2Proof.Machine.execUpdStaged readOk s
  | .activate p fw cfg => Sys2Proof.Machine.execActivate p fw cfg s
  | .confirm p => Sys2Proof.Machine.execConfirm p s
  | .restart p env => Sys2Proof.Machine.execRestart p env s
  | .saveSettings p => Sys2Proof.Machine.execSaveSettings p s
  | .abort p => Sys2Proof.Machine.execAbort p s
  | .cert p => Sys2Proof.Machine.execCert p s
  | .attest p => Sys2Proof.Machine.execAttest p s
  | .challenge p => Sys2Proof.Machine.execChallenge p s
  | .token p len => Sys2Proof.Machine.execToken p len s
  | .enroll p len => Sys2Proof.Machine.execEnroll p len s
  | .lock p => Sys2Proof.Machine.execLock p s
  -- host accesses
  | .registerWrite p bar2 off v => Sys2Proof.Machine.execRegisterWrite p bar2 off v s
  | .bar0AccessRefused p off size isWrite => Sys2Proof.Machine.execBar0AccessRefused p off size isWrite s
  | .bar4Read p off len => Sys2Proof.Machine.execBar4Read p off len s
  | .bar4Write p off data => Sys2Proof.Machine.execBar4Write p off data s
  | .dbAdmTail p v => Sys2Proof.Machine.execDbAdmTail p v s
  | .dbCmdTail p v => Sys2Proof.Machine.execDbCmdTail p v s
  | .dbResHead p v => Sys2Proof.Machine.execDbResHead p v s
  | .dbEvtHead p v => Sys2Proof.Machine.execDbEvtHead p v s
  | .hostRingBase p r hi v => Sys2Proof.Machine.execHostRingBase p r hi v s
  | .hostRingCfg p r v => Sys2Proof.Machine.execHostRingCfg p r v s
  | .hostHeartbeat p v => Sys2Proof.Machine.execHostHeartbeat p v s
  | .hbAgeAdvance => Sys2Proof.Machine.execHbAgeAdvance s
  | .offer p v => Sys2Proof.Machine.execOffer p v s
  | .claim p v => Sys2Proof.Machine.execClaim p v s
  | .ownerChange => Sys2Proof.Machine.execOwnerChange s
  | .admitEntry e => Sys2Proof.Machine.execAdmitEntry e s
  | .cancelEntry e => Sys2Proof.Machine.execCancelEntry e s
  | .inputEntry e body => Sys2Proof.Machine.execInputEntry e body s
  | .bindEntry e => Sys2Proof.Machine.execBindEntry e s
  | .ringRead cmdRing => Sys2Proof.Machine.execRingRead cmdRing s
  | .inputBodyFail e => Sys2Proof.Machine.execInputBodyFail e s
  | .cmdNop e => Sys2Proof.Machine.execCmdNop e s
  | .load e data => Sys2Proof.Machine.execLoad e data s
  | .store e => Sys2Proof.Machine.execStore e s
  | .fill e => Sys2Proof.Machine.execFill e s
  | .digest e => Sys2Proof.Machine.execDigest e s
  | .cmdDone => Sys2Proof.Machine.execCmdDone s
  | .resultWrite => Sys2Proof.Machine.execResultWrite s
  | .eventWrite => Sys2Proof.Machine.execEventWrite s
  | .msixPending p vec => Sys2Proof.Machine.execMsixPending p vec s
  | .park p => Sys2Proof.Machine.execPark p s
  | .wake p => Sys2Proof.Machine.execWake p s
  | .gateRequest p word v => Sys2Proof.Machine.execGateRequest p word v s
  | .gateStartDone f => Sys2Proof.Machine.execGateStartDone f s
  | .gateStopDone f => Sys2Proof.Machine.execGateStopDone f s
  -- ticks
  | .timerCue at_ => Sys2Proof.Machine.execTimerCue at_ s
  | .cue lp h bypass tick period tickMax at_ => Sys2Proof.Machine.execCue lp h bypass tick period tickMax at_ s
  | .cueRelease at_ => Sys2Proof.Machine.execCueRelease at_ s
  | .curtain at_ results => Sys2Proof.Machine.execCurtain at_ results s
  | .statusMessage lp h m => Sys2Proof.Machine.execStatusMessage lp h m s
  | .curtainMessage lp h m => Sys2Proof.Machine.execCurtainMessage lp h m s
  | .chainTimeout at_ => Sys2Proof.Machine.execChainTimeout at_ s
  | .tickMaxExpiry at_ => Sys2Proof.Machine.execTickMaxExpiry at_ s
  | .tickPeriod p v => Sys2Proof.Machine.execTickPeriod p v s
  | .tickMax p v => Sys2Proof.Machine.execTickMax p v s
  -- precision
  | .packageReduction ord => Sys2Proof.Machine.execPackageReduction ord s
  | .verdict ord => Sys2Proof.Machine.execVerdict ord s
  | .squashResume => Sys2Proof.Machine.execSquashResume s
  | .epochConfirm c e => Sys2Proof.Machine.execEpochConfirm c e s
  | .clrSticky p v => Sys2Proof.Machine.execClrSticky p v s
  | .supplyLower c => Sys2Proof.Machine.execSupplyLower c s
  | .supplyRaise c => Sys2Proof.Machine.execSupplyRaise c s
  -- sequencer
  | .nop c => Sys2Proof.Machine.execNop c s
  | .seqEnd c => Sys2Proof.Machine.execSeqEnd c s
  | .jmp c => Sys2Proof.Machine.execJmp c s
  | .br c => Sys2Proof.Machine.execBr c s
  | .loop c => Sys2Proof.Machine.execLoop c s
  | .ldi c => Sys2Proof.Machine.execLdi c s
  | .alu c => Sys2Proof.Machine.execAlu c s
  | .lds c => Sys2Proof.Machine.execLds c s
  | .sts c => Sys2Proof.Machine.execSts c s
  | .tld c => Sys2Proof.Machine.execTld c s
  | .tadd c => Sys2Proof.Machine.execTadd c s
  | .lyr c => Sys2Proof.Machine.execLyr c s
  | .twait c => Sys2Proof.Machine.execTwait c s
  | .bar c => Sys2Proof.Machine.execBar c s
  | .barrierComplete c id => Sys2Proof.Machine.execBarrierComplete c id s
  | .epoch c => Sys2Proof.Machine.execEpoch c s
  | .fence c => Sys2Proof.Machine.execFence c s
  | .seqIllegal c => Sys2Proof.Machine.execSeqIllegal c s
  | .seqImemParity c => Sys2Proof.Machine.execSeqImemParity c s
  | .bld c => Sys2Proof.Machine.execBld c s
  | .bankLoadDone c => Sys2Proof.Machine.execBankLoadDone c s
  | .dma c => Sys2Proof.Machine.execDma c s
  | .dmaDone c die => Sys2Proof.Machine.execDmaDone c die s
  | .nrd c => Sys2Proof.Machine.execNrd c s
  | .nwr c => Sys2Proof.Machine.execNwr c s
  | .push c => Sys2Proof.Machine.execPush c s
  | .pop c => Sys2Proof.Machine.execPop c s
  | .pushResume c => Sys2Proof.Machine.execPushResume c s
  | .consumerResume c => Sys2Proof.Machine.execConsumerResume c s
  | .sbRetire c entry => Sys2Proof.Machine.execSbRetire c entry s
  | .mbp c => Sys2Proof.Machine.execMbp c s
  | .mxn c => Sys2Proof.Machine.execMxn c s
  | .msh1 c => Sys2Proof.Machine.execMsh1 c s
  | .msh2 c => Sys2Proof.Machine.execMsh2 c s
  | .mb24 c => Sys2Proof.Machine.execMb24 c s
  | .msp c => Sys2Proof.Machine.execMsp c s
  -- engine
  | .planeFill c e => Sys2Proof.Machine.execPlaneFill c e s
  | .rowsumStep c e => Sys2Proof.Machine.execRowsumStep c e s
  | .passStart c e => Sys2Proof.Machine.execPassStart c e s
  | .groupSumHandoff c e => Sys2Proof.Machine.execGroupSumHandoff c e s
  | .chainLinkAdd c e => Sys2Proof.Machine.execChainLinkAdd c e s
  | .probe c => Sys2Proof.Machine.execProbe c s
  | .makeUp c => Sys2Proof.Machine.execMakeUp c s
  | .usSample c => Sys2Proof.Machine.execUsSample c s
  | .deltaCheck c => Sys2Proof.Machine.execDeltaCheck c s
  -- output edge
  | .drain c => Sys2Proof.Machine.execDrain c s
  | .drainPass1 c => Sys2Proof.Machine.execDrainPass1 c s
  | .drainPass2 c => Sys2Proof.Machine.execDrainPass2 c s
  | .xport c => Sys2Proof.Machine.execXport c s
  | .imprt c => Sys2Proof.Machine.execImprt c s
  | .stat c => Sys2Proof.Machine.execStat c s
  | .svq c => Sys2Proof.Machine.execSvq c s
  | .svuGate c => Sys2Proof.Machine.execSvuGate c s
  | .svuAdd c => Sys2Proof.Machine.execSvuAdd c s
  | .svuMul c => Sys2Proof.Machine.execSvuMul c s
  | .rmsn c => Sys2Proof.Machine.execRmsn c s
  | .lnrm c => Sys2Proof.Machine.execLnrm c s
  | .smax c => Sys2Proof.Machine.execSmax c s
  | .prot c => Sys2Proof.Machine.execProt c s
  | .cvt c => Sys2Proof.Machine.execCvt c s
  | .conv c => Sys2Proof.Machine.execConv c s
  | .samp c => Sys2Proof.Machine.execSamp c s
  | .topkv c => Sys2Proof.Machine.execTopkv c s
  | .topkMerge c => Sys2Proof.Machine.execTopkMerge c s
  | .scat c => Sys2Proof.Machine.execScat c s
  | .scatterMerge c => Sys2Proof.Machine.execScatterMerge c s
  | .seed c => Sys2Proof.Machine.execSeed c s
  -- scratchpad and read-back
  | .ringBase p c q v => Sys2Proof.Machine.execRingBase p c q v s
  | .ringSize p c q v => Sys2Proof.Machine.execRingSize p c q v s
  | .ringCfg p c q v => Sys2Proof.Machine.execRingCfg p c q v s
  | .spmScrub p c v => Sys2Proof.Machine.execSpmScrub p c v s
  | .scrubDone r => Sys2Proof.Machine.execScrubDone r s
  | .spmPatrolRead r => Sys2Proof.Machine.execSpmPatrolRead r s
  | .engRbAddr p c e v => Sys2Proof.Machine.execEngRbAddr p c e v s
  | .seqRbAddr p c v => Sys2Proof.Machine.execSeqRbAddr p c v s
  | .spmIdx p c v => Sys2Proof.Machine.execSpmIdx p c v s
  | .stkLidx p k v => Sys2Proof.Machine.execStkLidx p k v s
  | .slotPidx p v => Sys2Proof.Machine.execSlotPidx p v s
  | .twinMidx p v => Sys2Proof.Machine.execTwinMidx p v s
  -- stacks
  | .stkRefresh k temp => Sys2Proof.Machine.execStkRefresh k temp s
  | .stkPatrolRead k => Sys2Proof.Machine.execStkPatrolRead k s
  | .spareCopyDone k => Sys2Proof.Machine.execSpareCopyDone k s
  | .spillCopyDone d => Sys2Proof.Machine.execSpillCopyDone d s
  | .kvFree d => Sys2Proof.Machine.execKvFree d s
  | .refetchTimeout at_ => Sys2Proof.Machine.execRefetchTimeout at_ s
  -- links and windows
  | .ringEntry lp h e => Sys2Proof.Machine.execRingEntry lp h e s
  | .wwrite lp h w => Sys2Proof.Machine.execWwrite lp h w s
  | .replay lp seq => Sys2Proof.Machine.execReplay lp seq s
  | .linkSilent lp => Sys2Proof.Machine.execLinkSilent lp s
  | .linkRetrain lp => Sys2Proof.Machine.execLinkRetrain lp s
  | .linkUp t => Sys2Proof.Machine.execLinkUp t s
  | .laneDegrade lp lane => Sys2Proof.Machine.execLaneDegrade lp lane s
  | .outboundSend lp => Sys2Proof.Machine.execOutboundSend lp s
  | .wopen lp h window gate epoch size => Sys2Proof.Machine.execWopen lp h window gate epoch size s
  | .wclosed lp h window epoch => Sys2Proof.Machine.execWclosed lp h window epoch s
  | .wnak lp h window reason epoch => Sys2Proof.Machine.execWnak lp h window reason epoch s
  | .wfence lp h window epoch => Sys2Proof.Machine.execWfence lp h window epoch s
  | .wack lp h window epoch flits => Sys2Proof.Machine.execWack lp h window epoch flits s
  | .winOpen p w gate => Sys2Proof.Machine.execWinOpen p w gate s
  | .winClose p w gate => Sys2Proof.Machine.execWinClose p w gate s
  | .winCloseDone w => Sys2Proof.Machine.execWinCloseDone w s
  -- twin
  | .helloSend lp => Sys2Proof.Machine.execHelloSend lp s
  | .hello lp h m => Sys2Proof.Machine.execHello lp h m s
  | .heartbeat lp h adopted tick applied => Sys2Proof.Machine.execHeartbeat lp h adopted tick applied s
  | .mirrorCommit lp h tick bytes slots freed => Sys2Proof.Machine.execMirrorCommit lp h tick bytes slots freed s
  | .mirrorApplyDone => Sys2Proof.Machine.execMirrorApplyDone s
  | .mirrorApplied lp h tick => Sys2Proof.Machine.execMirrorApplied lp h tick s
  | .adopt p v => Sys2Proof.Machine.execAdopt p v s
  | .refetchRequest lp h epoch addr len => Sys2Proof.Machine.execRefetchRequest lp h epoch addr len s
  | .refetchDone lp h addr => Sys2Proof.Machine.execRefetchDone lp h addr s
  | .refetchFail lp h reason addr => Sys2Proof.Machine.execRefetchFail lp h reason addr s
  -- rehearsal, errors, self-test
  | .trigger p check => Sys2Proof.Machine.execTrigger p check s
  | .rehSpill => Sys2Proof.Machine.execRehSpill s
  | .rehSpilled => Sys2Proof.Machine.execRehSpilled s
  | .readout p check => Sys2Proof.Machine.execReadout p check s
  | .readoutDone => Sys2Proof.Machine.execReadoutDone s
  | .rehReplay p check => Sys2Proof.Machine.execRehReplay p check s
  | .replayDone => Sys2Proof.Machine.execReplayDone s
  | .errFirstClr p v => Sys2Proof.Machine.execErrFirstClr p v s
  | .injArm p v => Sys2Proof.Machine.execInjArm p v s
  | .injDisarm p v => Sys2Proof.Machine.execInjDisarm p v s
  | .stRun p v => Sys2Proof.Machine.execStRun p v s
  | .stDone fail => Sys2Proof.Machine.execStDone fail s
  | .referenceRestored => Sys2Proof.Machine.execReferenceRestored s
  | .mailboxDone p => Sys2Proof.Machine.execMailboxDone p s
  | .cuePulseEnd => Sys2Proof.Machine.execCuePulseEnd s
  | .pwrBrakeRelease pin => Sys2Proof.Machine.execPwrBrakeRelease pin s
  | .idleFlit lp h => Sys2Proof.Machine.execIdleFlit lp h s
  | .eventVectorSend => Sys2Proof.Machine.execEventVectorSend s

end Sys2Proof.Machine
end

