-- ==== Sys2Proof/Safety.lean ====
section
/-! DEFINITION. What a safe run is, and the terms in which claims about the machine are made. Every error that the manual
describes is an event and a change of state, so a run of the modelled commands goes on for ever. -/

namespace Sys2Proof.Machine

/-- A step that goes on. -/
def goesOn (s : State) : Prop := ∃ s', step s = .next s'

/-- The canonical form of the device memory (log 13): addresses strictly rising, no listed byte equal to the default. -/
abbrev Memory.wf (m : List Host.Cell) : Bool := Tab.wf memDefault m

/-- A write through this port is decoded and comes from the owner (R615, R652). -/
def State.owns (s : State) (p : Port) : Prop := s.decodes p = true ∧ p = s.host.owner

/-- The sequencer of core c may issue now and holds an instruction of this opcode at PC, legal and with its parity
(R408, R416, R420). -/
def State.issues (s : State) (c : CoreId) (op : Nat) : Bool :=
  s.mayFetch c && !(s.seqAt c).imemBad.contains (s.seqAt c).pc.toNat && decide (opOf (s.seqAt c).word = op) && !s.illegalAt c

/-- The port of a command that is a write which only the owner port may make, whatever it carries (R615). -/
def ownerPortOf : Instr → Option Port
  | .stageFw p _ => some p
  | .stageCfg p _ => some p
  | .activate p _ _ => some p
  | .confirm p => some p
  | .restart p _ => some p
  | .saveSettings p => some p
  | .abort p => some p
  | .challenge p => some p
  | .token p _ => some p
  | .enroll p _ => some p
  | .lock p => some p
  | .bar4Write p _ _ => some p
  | .dbAdmTail p _ => some p
  | .dbCmdTail p _ => some p
  | .dbResHead p _ => some p
  | .dbEvtHead p _ => some p
  | .hostRingBase p _ _ _ => some p
  | .hostRingCfg p _ _ => some p
  | .hostHeartbeat p _ => some p
  | .offer p _ => some p
  | .park p => some p
  | .wake p => some p
  | .gateRequest p _ _ => some p
  | .tickPeriod p _ => some p
  | .tickMax p _ => some p
  | .clrSticky p _ => some p
  | .ringBase p _ _ _ => some p
  | .ringSize p _ _ _ => some p
  | .ringCfg p _ _ _ => some p
  | .spmScrub p _ _ => some p
  | .winOpen p _ _ => some p
  | .winClose p _ _ => some p
  | .adopt p _ => some p
  | .trigger p _ => some p
  | .readout p _ => some p
  | .rehReplay p _ => some p
  | .stRun p _ => some p
  | _ => none

end Sys2Proof.Machine
end

