-- ==== Sys2Proof/Certificates/Slice0/Obligations.lean ====
section
/-! DEFINITION. The statements for the provers, family by family: what every command does, what it leaves, and what every step
keeps. Each docstring names the rules of spec/ it rests on. -/

open Sys2Proof Sys2Proof.Machine

/-- For every command c and every state s, the step of s with c at the front of its queue is exec of c on s with the
queue's rest (log 1: the queue is the model's own way to hold commands that wait). -/
def Obligations.StepRunsTheFrontCommand : Prop :=
  ∀ (c : Instr) (rest : List Instr) (s : State),
    step { s with pending := c :: rest } = exec c { s with pending := rest }

/-- With an empty queue the block idles (DESIGN CHOICE, log 1): the step answers the same state. -/
def Obligations.EmptyQueueIdles : Prop :=
  ∀ s : State, s.pending = [] → step s = .next s

/-- From every state whose memory has the canonical form of log 13 (addresses strictly rising, no byte listed that
equals what an unlisted byte reads as), every step that goes on leads to such a state: equal memories stay equal data. -/
def Obligations.MemoryFormKept : Prop :=
  ∀ s t : State, Memory.wf s.mem = true → step s = .next t → Memory.wf t.mem = true

/-- The owner key record and the lock are changed by no command but TOKEN, ENROLL and LOCK: whatever a tick, a host, a peer,
a start or a loss of power does, every other command leaves them. A REGISTER_WRITE is left out because a write of
SEC_MBX_CMD is one of these three operations. -/
def Obligations.OwnerKeyChangesOnlyByToken : Prop :=
  ∀ (c : Instr) (s t : State),
    (∀ p n, c ≠ .token p n) → (∀ p n, c ≠ .enroll p n) → (∀ p, c ≠ .lock p) →
    (∀ p b o v, c ≠ .registerWrite p b o v) →
    exec c s = .next t →
    t.upd.flash.ownerKey = s.upd.flash.ownerKey ∧ t.upd.flash.ownerLock = s.upd.flash.ownerLock

/-- Every command leaves the queue of waiting commands and the strapped variant as they are, and the counter of free values
never goes back, so that no undefined value is drawn twice. -/
def Obligations.NoCommandTouchesQueueOrVariant : Prop :=
  ∀ (c : Instr) (s t : State), exec c s = .next t →
    t.pending = s.pending ∧ t.glb.variant = s.glb.variant ∧ s.free ≤ t.free

/-- Every command in every state answers a next state. What the manual calls an error is an event and a change of state. -/
def Obligations.EveryCommandGoesOn : Prop := ∀ (c : Instr) (s : State), ∃ t, exec c s = .next t

/-- R615, for the table's rows that are owner's writes: from the standby port such a write changes nothing but HOST_DISCARDS
and what event 0x6002 does; through a port that decodes nothing (R652) it changes nothing at all. -/
def Obligations.StandbyWritesAreDiscarded : Prop :=
  ∀ (c : Instr) (p : Port) (s : State), ownerPortOf c = some p →
    (s.decodes p = true → p ≠ s.host.owner →
      exec c s = .next ({ s with host := { s.host with discards := bump s.host.discards } }.raise 0x6002)) ∧
    (s.decodes p = false → exec c s = .next s)

/-- R777. Below 42 V or above 62 V (in 10 mV) SUPPLY_LOSS enters OFF: every slot, every memory byte and every running tick is
lost, the pins and the flash stay (here where no staging and no spill is under way), and the monitor keeps the voltage. Inside
the two excursion bands SUPPLY_RANGE raises 0x9009 where no excursion is under way, and nothing where one is; a POWER_SAMPLE
back inside 44 to 60 V ends the excursion, one outside keeps it. -/
def Obligations.SupplyLimitsAndExcursions : Prop :=
  (∀ (v : BitVec 16) (s : State), (v.toNat < 4200 ∨ 6200 < v.toNat) → s.upd.staging = none → s.reh.spilling = false →
    ∃ t, exec (.supplyLoss v) s = .next t ∧ t.glb.st = .off ∧ t.glb.variant = s.glb.variant ∧ t.slots = [] ∧ t.mem = [] ∧
      t.core = [] ∧ t.tick.running = none ∧ t.upd.flash = s.upd.flash ∧ t.pwr.mv10 = v ∧ t.pwr.trip = s.pwr.trip ∧
      t.pin.perstA = s.pin.perstA ∧ t.pin.perstB = s.pin.perstB ∧ t.pending = s.pending) ∧
  (∀ (v : BitVec 16) (s : State), s.glb.st ≠ .off →
    ((4200 ≤ v.toNat ∧ v.toNat < 4400) ∨ (6000 < v.toNat ∧ v.toNat ≤ 6200)) →
    (s.pwr.excursion = false → exec (.supplyRange v) s =
      .next ({ s with pwr := { s.pwr with mv10 := v, excursion := true } }.raise 0x9009)) ∧
    (s.pwr.excursion = true → exec (.supplyRange v) s = .next { s with pwr := { s.pwr with mv10 := v } })) ∧
  (∀ (w v a : BitVec 16) (s : State), ∃ t, exec (.powerSample w v a) s = .next t ∧
    t.pwr.excursion = (s.pwr.excursion && !decide (4400 ≤ v.toNat ∧ v.toNat ≤ 6000)) ∧ t.pwr.mv10 = v ∧ t.pwr.auxMv = a ∧
    t.pwr.samples = (w.toNat :: s.pwr.samples).take 100 ∧ t.pwr.energy = s.pwr.energy + w.toNat ∧
    t = { s with pwr := t.pwr })

/-- R787. A junction sample whose hottest byte is 110 °C or more enters OFF and latches the trip with THERM_N; below that it
never does, takes the readings, requests the 100 MHz step from 100 °C and at least the 200 MHz step from 95 °C, and lets a
request it finds stand; where THERM_N is asserted already it raises nothing. A latched trip keeps POWER_GOOD from starting the
device, and TRIP_RELEASE lifts it with THERM_N. -/
def Obligations.ThermalTripAndRelease : Prop :=
  (∀ (a b : BitVec 32) (s : State), s.glb.st ≠ .off → 110 ≤ maxByte a b →
    ∃ t, exec (.junctionSample a b) s = .next t ∧ t.glb.st = .off ∧ t.pwr.trip = true ∧ t.pwr.therm = true ∧
      t.pwr.alert = true ∧ t.pwr.last9 = 0x9005 ∧ t.mem = [] ∧ t.slots = []) ∧
  (∀ (a b : BitVec 32) (s : State), s.glb.st ≠ .off → maxByte a b < 110 → s.pwr.therm = true →
    ∃ t, exec (.junctionSample a b) s = .next t ∧ t.glb = s.glb ∧ t.pwr.tj = a ∧ t.pwr.tjIo = b ∧ t.pwr.trip = s.pwr.trip ∧
      (100 ≤ maxByte a b → 2 ≤ t.pwr.thermStep.toNat) ∧ (95 ≤ maxByte a b → 1 ≤ t.pwr.thermStep.toNat) ∧
      (maxByte a b < 95 → t.pwr.thermStep = s.pwr.thermStep ∧ t.pwr.therm = false) ∧ (95 ≤ maxByte a b → t.pwr.therm = true) ∧
      t = { s with pwr := t.pwr }) ∧
  (∀ (env : BootEnv) (s : State), s.pwr.trip = true → exec (.powerGood env) s = .next s) ∧
  (∀ s : State, s.pwr.trip = true → exec .tripRelease s = .next { s with pwr := { s.pwr with trip := false, therm := false } })

/-- R791, R711: where PWR_HOLD_N or MOTION_N changes level on a powered device, the level is taken and event 0x9006 or 0x9007
raised, and nothing else happens while nothing is staged or the pin is released; asserted (low) during a staging it also ends
the staging, with that slot INVALID (code 5). A command that names the level the pin already has changes nothing. -/
def Obligations.HoldAndMotionPins : Prop :=
  (∀ (level : Bool) (s : State), s.glb.st ≠ .off → level ≠ s.pin.pwrHoldN → (s.upd.staging = none ∨ level = true) →
    exec (.pwrHold level) s = .next ({ s with pin := { s.pin with pwrHoldN := level } }.raise 0x9006)) ∧
  (∀ (level : Bool) (s : State), s.glb.st ≠ .off → level ≠ s.pin.motionN → (s.upd.staging = none ∨ level = true) →
    exec (.motion level) s = .next ({ s with pin := { s.pin with motionN := level } }.raise 0x9007)) ∧
  (∀ (b : Bool) (m : FwImage) (s : State), s.pin.pwrHoldN = true → s.upd.staging = some (.fw b m) →
    ∃ t, exec (.pwrHold false) s = .next t ∧ t.upd.staging = none ∧ t.pin.pwrHoldN = false ∧
      t.upd.flash = s.upd.flash.setSlotCode (slotIndex false b) 5) ∧
  (∀ (b : Bool) (c : CfgImage) (s : State), s.pin.motionN = true → s.upd.staging = some (.cfg b c) →
    ∃ t, exec (.motion false) s = .next t ∧ t.upd.staging = none ∧ t.pin.motionN = false ∧
      t.upd.flash = s.upd.flash.setSlotCode (slotIndex true b) 5) ∧
  (∀ s : State, exec (.pwrHold s.pin.pwrHoldN) s = .next s ∧ exec (.motion s.pin.motionN) s = .next s)

/-- R771 on a pin that has the function: PWR_BRAKE_N (5) puts itself among the sources of a step while low and takes itself
away when released, so that its step request is that of 100 MHz (2) while any such pin is low; REH_TRIG_N (4) is a rehearsal
trigger; the end of CUE_PULSE (2) puts TICK_OUT low. On a pin with another function these commands change nothing. -/
def Obligations.ConfiguredPins : Prop :=
  (∀ (i : Fin 4) (s : State), s.pinFunc i.val = 5 →
    (∃ t, exec (.pwrBrake i) s = .next t ∧ t.pwr.brake = addKey s.pwr.brake i.val ∧ t.brakeStep = 2 ∧ 2 ≤ t.reqStep ∧
      t.pin.gp.getLsbD i.val = false ∧ t = { s with pin := t.pin, pwr := t.pwr }) ∧
    (∃ t, exec (.pwrBrakeRelease i) s = .next t ∧ t.pwr.brake = dropKey s.pwr.brake i.val ∧
      t.pin.gp.getLsbD i.val = true ∧ t = { s with pin := t.pin, pwr := t.pwr })) ∧
  (∀ (i : Fin 4) (s : State), s.pinFunc i.val = 4 →
    ∃ t, exec (.rehTrigPin i) s = .next t ∧
      t = ({ s with pin := { s.pin with gp := s.pin.gp &&& ~~~(BitVec.ofNat 4 (2 ^ i.val)) } }.rehTrigger
        (word (0xFFFF0000 + (Config.triggerSource 2).toNat)))) ∧
  (∀ s : State, s.pinFunc 5 = 2 → exec .cuePulseEnd s = .next { s with pin := { s.pin with tickOut := false } }) ∧
  (∀ (i : Fin 4) (s : State), s.pinFunc i.val ≠ 5 → s.pinFunc i.val ≠ 4 →
    exec (.pwrBrake i) s = .next s ∧ exec (.pwrBrakeRelease i) s = .next s ∧ exec (.rehTrigPin i) s = .next s)

/-- R60. On a powered device that is not in holdover, the loss of the selected reference sets HOLDOVER and raises 0x9001; the
tick controller, the device state and every core are as before. Its return clears HOLDOVER and nothing else but the level of
the reference. -/
def Obligations.ReferenceLostAndRestored : Prop :=
  (∀ s : State, s.glb.st ≠ .off → s.glb.holdover = false →
    ∃ t u : State, exec .clkHoldover s = .next t ∧ t = u.raise 0x9001 ∧
      u = { s with glb := { s.glb with holdover := true }, pin := u.pin } ∧
      u.pin = (if s.glb.refSel then { s.pin with refB := false } else { s.pin with refA := false }) ∧
      t.tick = s.tick ∧ t.core = s.core ∧ t.glb.st = s.glb.st ∧ t.pwr.last9 = 0x9001 ∧ t.pwr.alert = true) ∧
  (∀ s : State, s.glb.holdover = true → exec .referenceRestored s = .next { s with
    glb := { s.glb with holdover := false },
    pin := if s.glb.refSel then { s.pin with refB := true } else { s.pin with refA := true } })

/-- R779, from the owner. In READY, PARK stops ACLK, discards the cues held and disarms an injection (R740); in PARK, WAKE goes
back to READY at the step requested then; any other PARK or WAKE leaves the state and raises 0x900A. PWR_CMD keeps the
command written. -/
def Obligations.ParkAndWake : Prop :=
  (∀ (p : Port) (s : State), s.owns p → s.glb.st = .ready →
    exec (.park p) s = .next { s with
      glb := { s.glb with st := .park, aclkStep := 3 }, pwr := { s.pwr with cmd := 1 },
      err := { s.err with injArm := false }, tick := { s.tick with held := [], holdFrom := none } }) ∧
  (∀ (p : Port) (s : State), s.owns p → s.glb.st = .park →
    exec (.wake p) s = .next { s with
      glb := { s.glb with st := .ready, aclkStep := BitVec.ofNat 2 s.reqStep }, pwr := { s.pwr with cmd := 2 } }) ∧
  (∀ (p : Port) (s : State), s.owns p →
    (s.glb.st ≠ .ready → exec (.park p) s = .next ({ s with pwr := { s.pwr with cmd := 1 } }.raise 0x900A)) ∧
    (s.glb.st ≠ .park → exec (.wake p) s = .next ({ s with pwr := { s.pwr with cmd := 2 } }.raise 0x900A)))

/-- R780 and R781. A write of a PWR_GATE word from the owner makes a request of every function of the word: the machine of the
table moves (OFF to STARTING, ON to STOPPING, PENDING by the last request during a start or a stop), the requested-state bit
follows, and a request of 0 for a needed function leaves both; functions of other words stay. The end of a start leads to ON,
or to STOPPING where PENDING; the end of a stop to OFF, or to STARTING where PENDING. -/
def Obligations.GatingMachine : Prop :=
  (∀ (p : Port) (w : Fin 3) (v : Word) (s : State), s.owns p → ∃ t, exec (.gateRequest p w v) s = .next t ∧
    (∀ i f, (i, f) ∈ gateFunctions w →
      t.gate f = (if !v.getLsbD i && s.gateNeeded f then s.gate f else (s.gate f).request (v.getLsbD i))) ∧
    (∀ w' i f, w' ≠ w → (i, f) ∈ gateFunctions w' → t.gate f = s.gate f) ∧
    t.glb = s.glb ∧ t.slots = s.slots ∧ t.core = s.core ∧ t.lnk = s.lnk) ∧
  (∀ g : GateSt,
    (g.state = 0 → g.request true = ⟨1, false⟩ ∧ g.request false = g) ∧
    (g.state = 1 → g.request true = ⟨1, false⟩ ∧ g.request false = ⟨1, true⟩) ∧
    (g.state = 2 → g.request true = g ∧ g.request false = ⟨3, false⟩) ∧
    (g.state = 3 → g.request true = ⟨3, true⟩ ∧ g.request false = ⟨3, false⟩)) ∧
  (∀ (f : Gateable) (s : State),
    (∃ t, exec (.gateStartDone f) s = .next t ∧ t = { s with pwr := t.pwr } ∧
      t.gate f = (if (s.gate f).state = 1 then (if (s.gate f).pending then ⟨3, false⟩ else ⟨2, false⟩) else s.gate f)) ∧
    (∃ t, exec (.gateStopDone f) s = .next t ∧ t = { s with pwr := t.pwr } ∧
      t.gate f = (if (s.gate f).state = 3 then (if (s.gate f).pending then ⟨1, false⟩ else ⟨0, false⟩) else s.gate f)))

/-- R769, R770: each read-word command answers its word and changes nothing else (GLB_STATE's code, 0xF in OFF, with the trip
in bit 4 and THERM_N in bit 5; the hottest junction, 0xFFFF in OFF; the input power in W; the input in 10 mV; the strapped
variant; the code of the last event of class 0x9). The Alert Response Address is answered with 0x4C while ALERT_N is asserted,
and releases it; else no controller answers. -/
def Obligations.SmbusReads : Prop :=
  ∀ s : State,
    exec .smbState s = .next { s with reply := .word (word ((match s.glb.st with
        | .off => 15 | .safe => 1 | .boot => 2 | .ready => 3 | .run => 4 | .park => 5)
        + (if s.pwr.trip then 16 else 0) + (if s.pwr.therm then 32 else 0))) } ∧
    exec .smbTj s = .next { s with reply := .word (if s.glb.st = .off then 0xFFFF else word (maxByte s.pwr.tj s.pwr.tjIo)) } ∧
    exec .smbInputPower s = .next { s with reply := .word (word (s.pwr.inputAvg.toNat / 10)) } ∧
    exec .smbVin s = .next { s with reply := .word (word s.pwr.mv10.toNat) } ∧
    exec .smbVariant s = .next { s with reply := .word (word s.glb.variant.toNat) } ∧
    exec .smbLastEvent s = .next { s with reply := .word (word s.pwr.last9.toNat) } ∧
    (s.pwr.alert = true → exec .smbAlertResponse s =
      .next { s with reply := .word 0x4C, pwr := { s.pwr with alert := false } }) ∧
    (s.pwr.alert = false → exec .smbAlertResponse s = .next { s with reply := .noCompletion })

/-- R761 to R763 on a powered package. BYPASS, IDCODE, SAMPLE/PRELOAD and REGRD write only the TAP's own state and the answer;
IDCODE gives stepping, PCIe device ID, 0x2E1 and 1; a REGRD of a register's offset gives in [63:32] the word that the standby
port reads there. EXTEST, CLAMP and HIGHZ with both PERST pins asserted (low) enter SAFE and raise 0xA020; with either
released they only select themselves. TRST_N resets the TAP and nothing else (log 12: to IDCODE). -/
def Obligations.TapInstructions : Prop :=
  (∀ s : State, s.glb.st ≠ .off →
    exec .bypass s = .next { s with tap := { s.tap with ir := 0xFF, dr := 0 } } ∧
    (∃ t, exec .idcode s = .next t ∧ t = { s with tap := t.tap, reply := t.reply } ∧ t.tap.ir = 1 ∧
      t.tap.dr = BitVec.ofNat 64 (Config.stepping.toNat * 2 ^ 28 + s.deviceId * 2 ^ 12 + 0x2E1 * 2 + 1)) ∧
    exec .samplePreload s = .next { s with tap := { s.tap with ir := 2, pins := BitVec.ofNat 24 s.pinWord } } ∧
    (∀ off : BitVec 32, off.toNat % 4 = 0 → exec (.regrd off) s = .next { s with
      tap := { s.tap with ir := 0x10, dr := BitVec.ofNat 64 ((s.readReg s.host.owner.other off.toNat).toNat * 2 ^ 32 + off.toNat) },
      reply := .word (s.readReg s.host.owner.other off.toNat) })) ∧
  (∀ s : State, s.glb.st ≠ .off → s.pin.perstA = false → s.pin.perstB = false →
    ∀ c ∈ [(Instr.extest, 3), (Instr.clamp, 4), (Instr.highz, 5)],
      ∃ t u : State, exec c.1 s = .next t ∧ t = u.raise 0xA020 ∧ t.glb.st = .safe ∧ t.tap.ir = BitVec.ofNat 8 c.2 ∧
        t.tick.running = none ∧ t.slots = s.slots ∧ t.upd = s.upd ∧
        u = { s with tap := u.tap, glb := u.glb, tick := u.tick, err := u.err, reh := u.reh }) ∧
  (∀ s : State, s.glb.st ≠ .off → (s.pin.perstA = true ∨ s.pin.perstB = true) →
    ∀ c ∈ [(Instr.extest, 3), (Instr.clamp, 4), (Instr.highz, 5)],
      exec c.1 s = .next { s with tap := { s.tap with ir := BitVec.ofNat 8 c.2 } }) ∧
  (∀ s : State, exec .tapReset s = .next { s with tap := TapSt.reset })

/-- R649, R650, R652. A reset of any kind on a powered device puts that port's configuration space, apertures, latches and
pending bits to their reset values and counts in HOST_RESETS; the other port, the slots, the ticks, every core, the memory, the
result and event queues, ownership and the heartbeat stay. On the owner it also disables the four rings and clears their
doorbells and the running command; on the standby the host registers stay but for the count. D3HOT_ENTRY does the same to the
latches, keeps configuration space and does not count; D0_RETURN only leaves D3hot. -/
def Obligations.PortResetsAndPowerStates : Prop :=
  (∀ (p : Port) (k : ResetKind) (s : State), s.glb.st ≠ .off → s.host.run = none →
    ∃ t, exec (.portReset p k) s = .next t ∧
      (let x := t.port p
       x.command = 0 ∧ x.bars = [] ∧ x.msixTable = [] ∧ x.msixPend = 0 ∧ x.msixEnable = false ∧ x.apLo = 0 ∧ x.apHi = 0 ∧
       x.precLidx = 0 ∧ x.engRb = [] ∧ x.seqRb = [] ∧ x.stkL = [] ∧ x.spmIdx = [] ∧ x.slotP = .reset ∧ x.twinM = .reset ∧
       x.d3hot = false) ∧
      t.port p.other = s.port p.other ∧ t.glb = s.glb ∧ t.tick = s.tick ∧ t.core = s.core ∧ t.mem = s.mem ∧ t.stk = s.stk ∧
      t.host.resq = s.host.resq ∧ t.host.evtq = s.host.evtq ∧ t.host.owner = s.host.owner ∧ t.host.age = s.host.age ∧
      t.host.heartbeat = s.host.heartbeat ∧ t.host.resets = bump s.host.resets ∧
      (p ≠ s.host.owner → t.slots = s.slots ∧ t.host = { s.host with resets := bump s.host.resets }) ∧
      (p = s.host.owner → t.host.adm = .reset ∧ t.host.res = .reset ∧ t.host.evt = .reset ∧ t.host.cmd = .reset ∧
        (t.port p).dbAdm = 0 ∧ (t.port p).dbCmd = 0 ∧ (t.port p).dbRes = 0 ∧ (t.port p).dbEvt = 0)) ∧
  (∀ (p : Port) (s : State), (s.port p).linkUp = true → (s.port p).d3hot = false → s.host.run = none →
    ∃ t, exec (.d3hotEntry p) s = .next t ∧ (t.port p).d3hot = true ∧ (t.port p).apLo = 0 ∧ (t.port p).engRb = [] ∧
      (t.port p).slotP = .reset ∧ (t.port p).bars = (s.port p).bars ∧ (t.port p).command = (s.port p).command ∧
      (t.port p).msixTable = (s.port p).msixTable ∧ (t.port p).msixPend = (s.port p).msixPend ∧ t.decodes p = false ∧
      (t.port p).canIssue = false ∧ t.host.resets = s.host.resets ∧ t.port p.other = s.port p.other ∧ t.glb = s.glb ∧
      t.tick = s.tick ∧ t.core = s.core ∧ t.mem = s.mem) ∧
  (∀ (p : Port) (s : State), ∃ t, exec (.d0Return p) s = .next t ∧ t.port p = { s.port p with d3hot := false } ∧
    t.port p.other = s.port p.other ∧ t = { s with portA := t.portA, portB := t.portB })

/-- R697, R606: no completion in OFF; retry status while GLB_STATE reads BOOT; in any other state a read of word 0 gives vendor
0x2A8C and the variant's device ID, of word 0x2C the variant as subsystem ID, and a write of the command word, of a BAR or of
the MSI-X control word takes it. A request shows the port out of reset (log 33). -/
def Obligations.ConfigurationRequests : Prop :=
  (∀ p off wr (s : State), s.glb.st = .off → exec (.configRequest p off wr) s = .next { s with reply := .noCompletion }) ∧
  (∀ p off wr (s : State), s.glb.st = .boot → ∃ t, exec (.configRequest p off wr) s = .next t ∧ t.reply = .retry ∧
    (t.port p).linkUp = true ∧ (t.port p).inReset = false ∧ t.port p.other = s.port p.other ∧ t.slots = s.slots) ∧
  (∀ p (s : State), s.glb.st ≠ .off → s.glb.st ≠ .boot →
    (∃ t, exec (.configRequest p 0 none) s = .next t ∧ t.reply = .word (word (0x2A8C + s.deviceId * 65536)) ∧
      t.port p = { s.port p with linkUp := true, inReset := false }) ∧
    (∃ t, exec (.configRequest p 0x2C none) s = .next t ∧ t.reply = .word (word (0x2A8C + s.glb.variant.toNat * 65536))) ∧
    (∀ v, ∃ t, exec (.configRequest p 4 (some v)) s = .next t ∧ t.reply = .none ∧
      t.port p = { s.port p with linkUp := true, inReset := false, command := BitVec.ofNat 16 v.toNat } ∧
      t.port p.other = s.port p.other ∧ t.glb = s.glb ∧ t.host = s.host ∧ t.slots = s.slots ∧ t.mem = s.mem))

/-- R695, R699, R702, R705, R717, R776. POWER_GOOD in OFF without a latched trip starts the device. Where the identity fails it
ends in SAFE with event 0x8001 first; where the pointer in force is not on trial and its firmware slot is empty it ends in SAFE
with event 0x8002; where the pointer is not on trial, the firmware slot passes, the loader finds no fault in the configuration
slot, every stack that trains is without a fault and no start-up self-test fails, it ends in READY with that firmware and that
configuration running and no tick. RESTART from the owner in READY or SAFE is the same start with both port links as they
are found; in any other state it only writes UPD_CMD (log 77). -/
def Obligations.StartsEndInReadyOrSafe : Prop :=
  (∀ (env : BootEnv) (s : State), s.glb.st = .off → s.pwr.trip = false →
    exec (.powerGood env) s = .next (s.coldStart env) ∧
    (env.pufOk = false → (s.coldStart env).glb.st = .safe ∧
      (s.coldStart env).err.first = some (0x8001, 0)) ∧
    (env.pufOk = true → s.upd.staging = none → s.upd.flash.ptr.trial = false →
      s.upd.flash.fwSlot s.upd.flash.ptr.fw = none → s.reh.spilling = false →
      (s.coldStart env).glb.st = .safe ∧ (s.coldStart env).err.first = some (0x8002, 0))) ∧
  (∀ (env : BootEnv) (s : State), s.glb.st = .off → s.pwr.trip = false → env.pufOk = true →
    ∀ (m : FwImage) (i : CfgImage), let r := (s.enterBoot env).bootIdentity.choose
    let u := r.2.runFw m r.1
    let x := ((((u.bootConfig i).trainStacks env.stkRes).trainLinks env.links).startTest env.selfTestFail).gateUnused
    r.1.trial = false → r.2.checkFw r.1.fwB = .good m → u.upd.flash.cfgSlot r.1.cfgB = some i →
    u.loaderFails (some i) = [] → (∀ k < 16, (x.stkAt k).state ≠ 3) → env.selfTestFail = none →
    ∃ t, exec (.powerGood env) s = .next t ∧ t.glb.st = .ready ∧ t.glb.trial = false ∧ u.upd.fwRun = some m ∧
      t.upd = x.upd ∧ t.cfg = x.cfg ∧ t.tick = x.tick ∧ t.stk = x.stk ∧ t.host.age = 0 ∧
      t.host.owner = x.host.defOwner) ∧
  (∀ (p : Port) (env : BootEnv) (s : State), s.owns p →
    ((s.glb.st = .ready ∨ s.glb.st = .safe) → ∃ t, exec (.restart p env) s = .next t ∧
      (let c := (s.setUpdCmd 5).coldStart env
       t = { c with portA := { c.portA with linkUp := s.portA.linkUp }, portB := { c.portB with linkUp := s.portB.linkUp } })) ∧
    (s.glb.st ≠ .ready → s.glb.st ≠ .safe →
      exec (.restart p env) s = .next { s with upd := { s.upd with cmd := 5 } }))

/-- R709 to R711, from the owner, where no reason of R710 holds. STAGE_FW and STAGE_CFG empty the inactive slot of their kind,
mark it STAGING (1), ask the owner's host for UPD_LEN bytes at UPD_HADDR and leave every other slot's image. UPD_STAGED, with no
spill writing the flash, puts an image that was read into its slot, marks it STAGED (2) with event 0x8006 and argument 0 where
every check passes, and INVALID (5) where the read or a check fails, and ends the staging. ABORT ends a staging with the slot
INVALID; with none it only writes UPD_CMD. -/
def Obligations.StagingCourse : Prop :=
  (∀ (p : Port) (img : FwImage) (s : State), s.owns p → (s.setUpdCmd 1).updReason = none → s.upd.len.toNat ≤ 0x4000000 →
    s.upd.floor ≤ img.svn → ∃ t, exec (.stageFw p img) s = .next t ∧ t.upd.staging = some (.fw (!s.upd.ptr.fw) img) ∧
      t.upd.flash.fwSlot (!s.upd.ptr.fw) = none ∧ t.upd.flash.fwSlot s.upd.ptr.fw = s.upd.flash.fwSlot s.upd.ptr.fw ∧
      (∀ b, t.upd.flash.cfgSlot b = s.upd.flash.cfgSlot b) ∧ t.upd.cmd = 1 ∧ t.upd.result = 0 ∧
      t.sent = .hostRead s.host.owner s.upd.haddr s.upd.len.toNat :: s.sent ∧ t = { s with upd := t.upd, sent := t.sent }) ∧
  (∀ (p : Port) (img : CfgImage) (s : State), s.owns p → (s.setUpdCmd 2).updReason = none → s.upd.len.toNat ≤ 0x6000000 →
    ∃ t, exec (.stageCfg p img) s = .next t ∧ t.upd.staging = some (.cfg (!s.upd.ptr.cfg) img) ∧
      t.upd.flash.cfgSlot (!s.upd.ptr.cfg) = none ∧ t.upd.flash.cfgSlot s.upd.ptr.cfg = s.upd.flash.cfgSlot s.upd.ptr.cfg ∧
      (∀ b, t.upd.flash.fwSlot b = s.upd.flash.fwSlot b) ∧ t.upd.cmd = 2 ∧ t.upd.result = 0 ∧
      t.sent = .hostRead s.host.owner s.upd.haddr s.upd.len.toNat :: s.sent ∧ t = { s with upd := t.upd, sent := t.sent }) ∧
  (∀ (b ok : Bool) (m : FwImage) (s : State), s.upd.staging = some (.fw b m) → s.reh.spilling = false →
    ∃ t u : State, exec (.updStaged ok) s = .next t ∧ t.upd.staging = none ∧
      t.upd.flash = ((if ok then (if b then { s.upd.flash with fwB := some m } else { s.upd.flash with fwA := some m })
        else s.upd.flash).setSlotCode (slotIndex false b) (if ok && s.stagedOk (.fw b m) then 2 else 5)) ∧
      (ok = true → s.stagedOk (.fw b m) = true → t = u.raise 0x8006 (some 0))) ∧
  (∀ (b ok : Bool) (c : CfgImage) (s : State), s.upd.staging = some (.cfg b c) → s.reh.spilling = false →
    ∃ t u : State, exec (.updStaged ok) s = .next t ∧ t.upd.staging = none ∧
      t.upd.flash = ((if ok then (if b then { s.upd.flash with cfgB := some c } else { s.upd.flash with cfgA := some c })
        else s.upd.flash).setSlotCode (slotIndex true b) (if ok && s.stagedOk (.cfg b c) then 2 else 5)) ∧
      (ok = true → s.stagedOk (.cfg b c) = true → t = u.raise 0x8006 (some 0))) ∧
  (∀ (p : Port) (b : Bool) (m : FwImage) (s : State), s.owns p → s.upd.staging = some (.fw b m) →
    ∃ t, exec (.abort p) s = .next t ∧ t.upd.staging = none ∧ t.upd.flash = s.upd.flash.setSlotCode (slotIndex false b) 5) ∧
  (∀ (p : Port) (s : State), s.owns p → s.upd.staging = none →
    exec (.abort p) s = .next { s with upd := { s.upd with cmd := 7 } })

/-- R713, R715, R718, R720, from the owner. ACTIVATE, refused by no reason of R710, writes a pointer record with SEQ + 1 that names
the inactive slot of each kind in MASK, keeps the current slots as previous, with TRIAL 1 and TRIES 0, and raises 0x8008; what
runs stays. CONFIRM while TRIAL reads 1 writes the pointer with TRIAL 0 and raises 0x8009; else it raises 0x8007 with reason 9.
SAVE_SETTINGS puts the settings in force, under the next SEQ, into the copy of the running format, and during a trial into
both. -/
def Obligations.ActivateConfirmSave : Prop :=
  (∀ (p : Port) (fw cfg : Bool) (s : State), s.owns p → (s.setUpdCmd 0).updReason = none →
    let cur := s.upd.ptr
    let nf := if fw then !cur.fw else cur.fw
    let nc := if cfg then !cur.cfg else cur.cfg
    cur.trial = false → (fw = true → s.upd.flash.slotCode (slotIndex false nf) = 2) →
    (cfg = true → s.upd.flash.slotCode (slotIndex true nc) = 2) → s.minFwBad nf nc = false →
    ∃ t u : State, exec (.activate p fw cfg) s = .next t ∧ t = u.raise 0x8008 ∧ u = { s with upd := u.upd } ∧
      t.upd.ptr = ⟨cur.seq + 1, nf, nc, true, 0, cur.fw, cur.cfg, cur.lastRev, true⟩ ∧
      t.upd.flash = s.upd.flash.writePtr t.upd.ptr ∧ t.upd.fwRun = s.upd.fwRun ∧ t.upd.cfgRun = s.upd.cfgRun ∧
      t.upd.result = 0) ∧
  (∀ (p : Port) (s : State), s.owns p → s.trialReads = true →
    ∃ t u : State, exec (.confirm p) s = .next t ∧ t = u.raise 0x8009 ∧ u = { s with upd := u.upd, glb := u.glb } ∧
      t.upd.ptr = { s.upd.ptr with seq := s.upd.ptr.seq + 1, trial := false } ∧ t.glb = { s.glb with trial := false } ∧
      t.trialReads = false ∧ t.upd.result = 0) ∧
  (∀ (p : Port) (s : State), s.owns p → s.trialReads = false →
    exec (.confirm p) s = .next ({ s with upd := { s.upd with cmd := 4, result := 9 } }.raise 0x8007 (some 9))) ∧
  (∀ (p : Port) (s : State), s.owns p → ∃ t, exec (.saveSettings p) s = .next t ∧ t = { s with upd := t.upd } ∧
    (s.copy0Runs = true → t.upd.flash.set0.newest = some (s.settingsNow s.upd.flash.set0.nextSeq) ∧
      (s.upd.ptr.trial = false → t.upd.flash.set1 = s.upd.flash.set1)) ∧
    (s.copy0Runs = false → t.upd.flash.set1.newest = some (s.settingsNow s.upd.flash.set1.nextSeq) ∧
      (s.upd.ptr.trial = false → t.upd.flash.set0 = s.upd.flash.set0)) ∧
    (s.upd.ptr.trial = true → t.upd.flash.set0.newest = some (s.settingsNow s.upd.flash.set0.nextSeq) ∧
      t.upd.flash.set1.newest = some (s.settingsNow s.upd.flash.set1.nextSeq)) ∧
    t.upd.flash.set0.format = s.upd.flash.set0.format ∧ t.upd.flash.set1.format = s.upd.flash.set1.format ∧ t.upd.result = 0)

/-- R723 to R728, with no operation running on the port. CERT and ATTEST answer on either port with the certificate and with the
report over the 32-byte nonce and its signature, and change nothing but the port's mailbox. From the owner: CHALLENGE counts the
challenge counter up and answers the first 32 bytes of SHAKE256 over the MAC key, DEVID and the counter, which become the valid
challenge; TOKEN uses the challenge up, acts where every check passes (no other flash field changes) and raises 0x800B and
leaves the flash where one fails; ENROLL stores the key where none is enrolled in READY or SAFE; LOCK sets the lock. The end of
an operation puts the response at the start of the mailbox with its length. The other port is untouched throughout. -/
def Obligations.MailboxOperations : Prop :=
  (∀ (p : Port) (s : State), s.decodes p = true → (s.port p).mbxRun = none →
    (∃ t, exec (.cert p) s = .next t ∧ t = { s with portA := t.portA, portB := t.portB } ∧ t.port p.other = s.port p.other ∧
      t.port p = { s.port p with mbxCmd := 1, mbxStatus := 1, mbxRun := some (0, Config.deviceCertificate) }) ∧
    (∃ t, exec (.attest p) s = .next t ∧ t = { s with portA := t.portA, portB := t.portB } ∧ t.port p.other = s.port p.other ∧
      (let r := s.attReport ((s.port p).mbxBytes 32)
       (t.port p).mbxRun = some (0, r ++ Config.falconSign Config.identitySeed r)))) ∧
  (∀ (p : Port) (s : State), s.owns p → (s.port p).mbxRun = none →
    (∃ t, exec (.challenge p) s = .next t ∧ t = { s with portA := t.portA, portB := t.portB, sec := t.sec, upd := t.upd } ∧
      t.upd.flash = { s.upd.flash with challenge := s.upd.flash.challenge + 1 } ∧ t.port p.other = s.port p.other ∧
      (let c := (shake256 (Config.macKey ++ leBytes 64 s.sec.devId.toNat ++ leBytes 4 (s.upd.flash.challenge + 1).toNat) 64).take 32
       t.sec.chal = some c ∧ (t.port p).mbxRun = some (0, c))) ∧
    (∀ n, ∃ t, exec (.token p n) s = .next t ∧ t.sec.chal = none ∧ t.port p.other = s.port p.other ∧
      (let k := (s.port p).mbxBytes n.toNat
       (s.tokenFails k = none → t.upd.flash = s.upd.flash.tokenAct k ∧ (t.port p).mbxRun = some (0, [0])) ∧
       (∀ f, s.tokenFails k = some f → t.upd.flash = s.upd.flash ∧
         (let u := s.modPort p (fun x => { x with mbxCmd := word (4 + n.toNat * 65536) })
          let e := { u with sec := { u.sec with chal := none } }.raise 0x800B (some (Config.tokenCheck f).toNat)
          t.host = e.host ∧ t.err = e.err)))) ∧
    (∀ n, s.upd.flash.ownerKey = none → (s.glb.st = .ready ∨ s.glb.st = .safe) → ∃ t, exec (.enroll p n) s = .next t ∧
      t = { s with portA := t.portA, portB := t.portB, upd := t.upd } ∧ t.port p.other = s.port p.other ∧
      t.upd.flash = { s.upd.flash with ownerKey := some ((s.port p).mbxBytes n.toNat) } ∧ (t.port p).mbxRun = some (0, [0])) ∧
    (∀ n, s.upd.flash.ownerKey ≠ none → ∃ t, exec (.enroll p n) s = .next t ∧ t.upd = s.upd) ∧
    (∃ t, exec (.lock p) s = .next t ∧ t = { s with portA := t.portA, portB := t.portB, upd := t.upd } ∧
      t.upd.flash = { s.upd.flash with ownerLock := true } ∧ t.port p.other = s.port p.other)) ∧
  (∀ (p : Port) (r : Nat) (l : List Byte) (s : State), (s.port p).mbxRun = some (r, l) →
    ∃ t, exec (.mailboxDone p) s = .next t ∧ t = { s with portA := t.portA, portB := t.portB } ∧ t.port p.other = s.port p.other ∧
      t.port p = { s.port p with
        mbxRun := none, mbx := Tab.setRange 0 (s.port p).mbx 0 l, mbxStatus := word (r % 16 * 16 + l.length * 65536) })

/-- R607, R610 to R613, R615, R682, through a port that decodes. BAR0: an access of another size than an aligned 4 bytes
raises 0x600B; the read completes as Unsupported Request. BAR4, at AP_BASE + offset: in BOOT and PARK refused with 0x600B;
else at a range with an unpopulated byte refused with 0x4108; a read whose granules deliver answers the bytes, latches the
port's stamp and changes nothing of memory or of the other port; the owner's write, in READY anywhere populated and in RUN to
the stacks, puts exactly its bytes: they read back, and every other byte reads as before. -/
def Obligations.HostMemoryWindows : Prop :=
  (∀ (p : Port) (off : BitVec 28) (n : Nat) (wr : Bool) (s : State), s.decodes p = true →
    (¬(n = 4 ∧ off.toNat % 4 = 0) → exec (.bar0AccessRefused p off n wr) s =
      .next ({ { s with host := { s.host with err := s.host.err ||| 8 } }.raise 0x600B with
        reply := if wr then .none else .unsupported })) ∧
    (n = 4 → off.toNat % 4 = 0 → exec (.bar0AccessRefused p off n wr) s = .next s)) ∧
  (∀ (p : Port) (off : BitVec 41) (n a : Nat) (s : State), s.decodes p = true → a = (s.port p).apBase + off.toNat →
    (s.glb.st = .boot ∨ s.glb.st = .park → exec (.bar4Read p off n) s =
      .next ({ { s with host := { s.host with err := s.host.err ||| 8 } }.raise 0x600B with reply := .unsupported })) ∧
    (s.glb.st ≠ .boot → s.glb.st ≠ .park → s.apertureOk a n = false →
      exec (.bar4Read p off n) s = .next ({ s.raise 0x4108 with reply := .unsupported })) ∧
    (s.glb.st ≠ .boot → s.glb.st ≠ .park → n ≠ 0 → s.apertureOk a n = true → (s.readSpan a n (n / 32 + 2)).1 = true →
      ∃ t u : State, exec (.bar4Read p off n) s = .next t ∧ u = (s.readSpan a n (n / 32 + 2)).2 ∧
        t.reply = .bytes (s.peek a n) ∧ (t.port p).apStamp = s.stamp ∧ t.port p.other = u.port p.other ∧
        t = { u with reply := t.reply, portA := t.portA, portB := t.portB })) ∧
  (∀ (p : Port) (off : BitVec 41) (a : Nat) (l : List Byte) (s : State), s.owns p → a = (s.port p).apBase + off.toNat →
    (s.glb.st = .boot ∨ s.glb.st = .park → exec (.bar4Write p off l) s =
      .next ({ s with host := { s.host with err := s.host.err ||| 8 } }.raise 0x600B)) ∧
    (s.glb.st ≠ .boot → s.glb.st ≠ .park → s.apertureOk a l.length = false →
      exec (.bar4Write p off l) s = .next (s.raise 0x4108)) ∧
    (Memory.wf s.mem = true → l ≠ [] → s.apertureOk a l.length = true →
      (s.glb.st = .ready ∨ (s.glb.st = .run ∧ (s.place a).isStack = true ∧ (s.place (a + l.length - 1)).isStack = true)) →
      ∃ t, exec (.bar4Write p off l) s = .next t ∧ t.peek a l.length = l ∧
        (∀ x, x < a ∨ a + l.length ≤ x → t.peek x 1 = s.peek x 1) ∧
        t = { s with mem := t.mem, badOne := t.badOne, badTwo := t.badTwo, stk := t.stk }))

/-- R624, R625, R628, from the owner. A tail doorbell takes v where its ring is enabled and (v − HEAD) mod 2^32 ≤ N, and
nothing else changes; a head doorbell where (TAIL − v) mod 2^32 ≤ N; any other value, or a disabled ring, sets the error bit
and raises 0x6009 and changes no ring. BASE is written only while EN is 0 and LOG2N changes only then, else 0x6009. Setting EN
with LOG2N from 6 to 16 starts the ring with both indices at 0; with another LOG2N it is discarded with 0x6009. A read of an
admission or command entry that fails clears the ring's EN, sets HOST_ERR and raises 0x6008; admitted slots stay. -/
def Obligations.RingRegistersAndDoorbells : Prop :=
  (∀ (p : Port) (v : Word) (s : State), s.owns p →
    let bad := { s with host := { s.host with err := s.host.err ||| 4 } }.raise 0x6009
    (s.host.adm.en = true ∧ (v - s.host.adm.head).toNat ≤ s.host.adm.entries → ∃ t, exec (.dbAdmTail p v) s = .next t ∧
      t = { s with host := { s.host with adm := { s.host.adm with tail := v } }, portA := t.portA, portB := t.portB } ∧
      t.port p.other = s.port p.other ∧ t.port p = { s.port p with dbAdm := v }) ∧
    (¬(s.host.adm.en = true ∧ (v - s.host.adm.head).toNat ≤ s.host.adm.entries) → exec (.dbAdmTail p v) s = .next bad) ∧
    (s.host.cmd.en = true ∧ (v - s.host.cmd.head).toNat ≤ s.host.cmd.entries → ∃ t, exec (.dbCmdTail p v) s = .next t ∧
      t = { s with host := { s.host with cmd := { s.host.cmd with tail := v } }, portA := t.portA, portB := t.portB } ∧
      t.port p.other = s.port p.other ∧ t.port p = { s.port p with dbCmd := v }) ∧
    (¬(s.host.cmd.en = true ∧ (v - s.host.cmd.head).toNat ≤ s.host.cmd.entries) → exec (.dbCmdTail p v) s = .next bad) ∧
    (s.host.res.en = true ∧ (s.host.res.tail - v).toNat ≤ s.host.res.entries → ∃ t, exec (.dbResHead p v) s = .next t ∧
      t = { s with host := { s.host with res := { s.host.res with head := v } }, portA := t.portA, portB := t.portB } ∧
      t.port p.other = s.port p.other ∧ t.port p = { s.port p with dbRes := v }) ∧
    (¬(s.host.res.en = true ∧ (s.host.res.tail - v).toNat ≤ s.host.res.entries) → exec (.dbResHead p v) s = .next bad) ∧
    (s.host.evt.en = true ∧ (s.host.evt.tail - v).toNat ≤ s.host.evt.entries → ∃ t, exec (.dbEvtHead p v) s = .next t ∧
      t = { s with host := { s.host with evt := { s.host.evt with head := v } }, portA := t.portA, portB := t.portB } ∧
      t.port p.other = s.port p.other ∧ t.port p = { s.port p with dbEvt := v }) ∧
    (¬(s.host.evt.en = true ∧ (s.host.evt.tail - v).toNat ≤ s.host.evt.entries) → exec (.dbEvtHead p v) s = .next bad)) ∧
  (∀ (p : Port) (r : HostRing) (hi : Bool) (v : Word) (s : State), s.owns p →
    ((s.host.ring r).en = false → ∃ t, exec (.hostRingBase p r hi v) s = .next t ∧ t = { s with host := t.host } ∧
      t.host.ring r = { s.host.ring r with base := setBase (s.host.ring r).base hi v } ∧
      (∀ q, q ≠ r → t.host.ring q = s.host.ring q)) ∧
    ((s.host.ring r).en = true → exec (.hostRingBase p r hi v) s =
      .next ({ s with host := { s.host with err := s.host.err ||| 4 } }.raise 0x6009))) ∧
  (∀ (p : Port) (r : HostRing) (v : Word) (s : State), s.owns p → let n := v.toNat % 32
    let bad := { s with host := { s.host with err := s.host.err ||| 4 } }.raise 0x6009
    ((s.host.ring r).en = false → v.getLsbD 8 = true → 6 ≤ n → n ≤ 16 → ∃ t, exec (.hostRingCfg p r v) s = .next t ∧
      t.host.ring r = ⟨(s.host.ring r).base, BitVec.ofNat 5 v.toNat, true, 0, 0⟩ ∧
      (∀ q, q ≠ r → t.host.ring q = s.host.ring q) ∧ t.port p.other = s.port p.other) ∧
    ((s.host.ring r).en = false → v.getLsbD 8 = true → (n < 6 ∨ 16 < n) → exec (.hostRingCfg p r v) s = .next bad) ∧
    ((s.host.ring r).en = true → n ≠ (s.host.ring r).log2n.toNat → exec (.hostRingCfg p r v) s = .next bad) ∧
    ((s.host.ring r).en = true → n = (s.host.ring r).log2n.toNat → v.getLsbD 8 = false →
      ∃ t, exec (.hostRingCfg p r v) s = .next t ∧ t = { s with host := t.host } ∧
        t.host.ring r = { s.host.ring r with en := false })) ∧
  (∀ s : State, (s.host.adm.en = true → exec (.ringRead false) s =
      .next ({ s with host := { s.host with adm := { s.host.adm with en := false }, err := s.host.err ||| 1 } }.raise 0x6008)) ∧
    (s.host.cmd.en = true → exec (.ringRead true) s =
      .next ({ s with host := { s.host with cmd := { s.host.cmd with en := false }, err := s.host.err ||| 2 } }.raise 0x6008)))

/-- R616 to R621. The owner's heartbeat sets the age to 0. Each ms outside BOOT the age rises by 1; where it reaches the
limit, LAPSED becomes 1 with event 0x6007 and vector 1 on the standby port. An offer sends vector 1 on the standby port. A
claim from the standby port outside BOOT, under LAPSED or OFFER, is accepted; otherwise it raises 0x6003; while CLAIMED it is
ignored, as a write of HOST_CLAIM from the owner is. The switch, with no command running, nothing queued and no
staging, gives the other port ownership, clears offer, claim, lapse and age, disables the four rings, ends the challenge,
unbinds slots and raises 0x6004, with vector 1 on both ports. -/
def Obligations.HeartbeatAndOwnership : Prop :=
  (∀ (p : Port) (v : Word) (s : State), s.owns p → 1 ≤ s.host.limit.toNat →
    exec (.hostHeartbeat p v) s = .next { s with host := { s.host with heartbeat := v, age := 0, lapsed := false } }) ∧
  (∀ s : State, s.glb.st ≠ .off → s.glb.st ≠ .boot → s.host.age ≠ 0xFFFFFFFF →
    let u := { s with host := { s.host with age := s.host.age + 1, lapsed := true } }
    (s.host.age.toNat + 1 < s.host.limit.toNat →
      exec .hbAgeAdvance s = .next { s with host := { s.host with age := s.host.age + 1, lapsed := false } }) ∧
    (s.host.limit.toNat ≤ s.host.age.toNat + 1 → s.host.lapsed = true → exec .hbAgeAdvance s = .next u) ∧
    (s.host.limit.toNat ≤ s.host.age.toNat + 1 → s.host.lapsed = false →
      exec .hbAgeAdvance s = .next ((u.raise 0x6007).msix s.host.owner.other 1))) ∧
  (∀ s : State, s.glb.st = .boot → exec .hbAgeAdvance s = .next { s with host := { s.host with age := 0 } }) ∧
  (∀ (p : Port) (s : State), s.owns p →
    exec (.offer p true) s = .next ({ s with host := { s.host with offer := true } }.msix s.host.owner.other 1) ∧
    exec (.offer p false) s = .next { s with host := { s.host with offer := false } }) ∧
  (∀ (p : Port) (s : State), s.decodes p = true → p ≠ s.host.owner →
    (s.host.claimed = true → exec (.claim p true) s = .next s) ∧
    (s.host.claimed = false → s.glb.st ≠ .boot → (s.host.lapsed = true ∨ s.host.offer = true) →
      exec (.claim p true) s = .next { s with host := { s.host with claimed := true } }) ∧
    (s.host.claimed = false → (s.glb.st = .boot ∨ (s.host.lapsed = false ∧ s.host.offer = false)) →
      exec (.claim p true) s = .next (s.raise 0x6003))) ∧
  (∀ (p : Port) (v : Bool) (s : State), s.owns p → exec (.claim p v) s = .next s) ∧
  (∀ s : State, s.host.claimed = true → (s.glb.st = .run → s.host.switchDue = true) → s.host.run = none →
    s.upd.staging = none → s.host.cmd.tail = s.host.cmd.head → s.host.evtq = [] →
    ∃ t u : State, exec .ownerChange s = .next t ∧ t = ((u.raise 0x6004).msix .a 1).msix .b 1 ∧
      u.host.owner = s.host.owner.other ∧ u.host.offer = false ∧ u.host.claimed = false ∧ u.host.lapsed = false ∧
      u.host.age = 0 ∧ (∀ r, u.host.ring r = { s.host.ring r with en := false, head := 0, tail := 0 }) ∧
      u.host.switches = s.host.switches + 1 ∧ u.sec.chal = none ∧
      u.slots = s.slots.map (fun e => (e.1, e.2.loseOwner)) ∧ u.host.resq = s.host.resq ∧
      u = { s with host := u.host, sec := u.sec, slots := u.slots, upd := u.upd }) ∧
  (∀ s : State, (s.host.claimed = false ∨ (s.glb.st = .run ∧ s.host.switchDue = false)) → exec .ownerChange s = .next s)

/-- R9 to R12, R573, R583, R586, R609, R795, on registers of each type. PWR_CAP takes 300 to 600 from the owner and ignores other
values; through the standby port it is discarded with event 0x6002. HOST_ERR is cleared where ones are written, through either
port. The GLB block and an offset that no register occupies take no write. A driver's window takes WIN_SIZE while CLOSED without
PENDING; a write to a device's own window raises 0x5012. WIN_ROUTE changes what the next cue puts in force, not the route in
force. A doorbell page and TICK_PERIOD act as the commands of their own. -/
def Obligations.RegisterWrites : Prop :=
  (∀ (p : Port) (v : Word) (s : State), s.owns p →
    (300 ≤ v.toNat % 1024 → v.toNat % 1024 ≤ 600 → exec (.registerWrite p false 0x40004 v) s =
      .next { s with pwr := { s.pwr with cap := BitVec.ofNat 10 v.toNat } }) ∧
    ((v.toNat % 1024 < 300 ∨ 600 < v.toNat % 1024) → exec (.registerWrite p false 0x40004 v) s = .next s)) ∧
  (∀ (p : Port) (v : Word) (s : State), s.decodes p = true → p ≠ s.host.owner → exec (.registerWrite p false 0x40004 v) s =
    .next ({ s with host := { s.host with discards := bump s.host.discards } }.raise 0x6002)) ∧
  (∀ (p : Port) (v : Word) (s : State), s.decodes p = true → exec (.registerWrite p false 0x30208 v) s =
    .next { s with host := { s.host with err := s.host.err &&& ~~~(BitVec.ofNat 4 v.toNat) } }) ∧
  (∀ (p : Port) (off : BitVec 28) (v : Word) (s : State), ((regAt off.toNat).1 = .glb ∨ (regAt off.toNat).1 = .hole) →
    exec (.registerWrite p false off v) s = .next s) ∧
  (∀ (p : Port) (w : Nat) (v : Word) (s : State), s.owns p →
    (w < 48 → (s.windowAt w).state = 0 → (s.windowAt w).pending = false →
      exec (.registerWrite p false (BitVec.ofNat 28 (0xB0008 + 0x20 * w)) v) s =
        .next (s.modWindow w (fun x => { x with sizeM1 := BitVec.ofNat 29 v.toNat }))) ∧
    (48 ≤ w → w < 64 → exec (.registerWrite p false (BitVec.ofNat 28 (0xB0008 + 0x20 * w)) v) s = .next (s.raise 0x5012))) ∧
  (∀ (p : Port) (i : Nat) (v : Word) (s : State), s.owns p → i < 255 →
    exec (.registerWrite p false (BitVec.ofNat 28 (0xB2000 + 4 * i)) v) s =
      .next { s with win := { s.win with routesNext := Tab.set 15 s.win.routesNext i (BitVec.ofNat 4 v.toNat) } }) ∧
  (∀ (p : Port) (v : Word) (s : State), exec (.registerWrite p true 0 v) s = exec (.dbAdmTail p v) s ∧
    exec (.registerWrite p true 0x1000 v) s = exec (.dbCmdTail p v) s ∧
    exec (.registerWrite p true 0x2000 v) s = exec (.dbResHead p v) s ∧
    exec (.registerWrite p true 0x3000 v) s = exec (.dbEvtHead p v) s ∧
    exec (.registerWrite p false 0x10004 v) s = exec (.tickPeriod p v) s)

/-- R476, R481, R488, R490, R509, R633 to R635, R806, for an entry that waits. Each entry is read once, and all but an accepted INPUT
are released. At the chain head an accepted ADMIT makes its slot ADMITTED with the entry's kind, limits, buffers and tag and
starts RUN; a rejected one raises 0x1006 and changes no slot. CANCEL of a slot that is not FREE makes it RETIRING, or latches
CANCEL while a step is pending; of a FREE slot it is rejected. INPUT adds one frame to its slot; above position 0 it raises
0x6006. BIND replaces the slot's vector, buffers and tag. An OP outside 1 to 4 and an INPUT whose body fails raise 0x6006. No
other slot changes. -/
def Obligations.AdmissionEntries : Prop :=
  ∀ (e : List Byte) (s w r : State), s.admWaiting = true → let i := byteAt e 1
    w = { s with host := { s.host with admRead := s.host.admRead + 1 } } →
    r = { w with host := { w.host with rejects := bump w.host.rejects } } →
    (byteAt e 0 = 1 → s.isHead = true →
      (s.admitOk e = true → ∃ t u : State, exec (.admitEntry e) s = .next t ∧ t = (u.admRelease s.host.admRead).enterRun ∧
        u = { w with slots := u.slots, host := { w.host with admits := bump w.host.admits, admSeq := w.host.admSeq + 1 } } ∧
        (∀ j, j ≠ i → t.slot j = s.slot j) ∧
        (let x := t.slot i
         x.state = 1 ∧ x.kind = bitOf (byteAt e 2) 0 ∧ x.maxLen = word (leAt e 4 4) ∧ x.seed.toNat = leAt e 8 8 % 2 ^ 64 ∧
         x.promptLen = word (leAt e 20 4) ∧ x.vec.toNat = byteAt e 3 % 256 ∧ x.tag.toNat = leAt e 48 8 % 2 ^ 64) ∧
        t.glb.st = (if s.glb.st = .ready then .run else s.glb.st)) ∧
      (s.admitOk e = false → exec (.admitEntry e) s = .next ((r.raise 0x1006).admRelease s.host.admRead))) ∧
    (byteAt e 0 = 2 → s.isHead = true →
      (entryCheckOk e = true → (s.slot i).state ≠ 0 → ∃ t u : State, exec (.cancelEntry e) s = .next t ∧
        t = u.admRelease s.host.admRead ∧ u = { w with slots := u.slots } ∧ (∀ j, j ≠ i → t.slot j = s.slot j) ∧
        t.slot i = if s.slotPending i then { s.slot i with cancel := true } else { s.slot i with state := 5 }) ∧
      ((entryCheckOk e = false ∨ (s.slot i).state = 0) →
        exec (.cancelEntry e) s = .next ((r.raise 0x1006).admRelease s.host.admRead))) ∧
    (byteAt e 0 = 3 → ∀ body,
      (s.isHead = true → s.inputOk e = true → ∃ t, exec (.inputEntry e body) s = .next t ∧ t = { w with slots := t.slots } ∧
        (∀ j, j ≠ i → t.slot j = s.slot j) ∧ (t.slot i).inputs = (s.slot i).inputs ++ [⟨some s.host.admRead,
          BitVec.ofNat 2 (byteAt e 2 / 4 % 4), if bitOf (byteAt e 2) 1 then s.peek (leAt e 8 8) (leAt e 4 4) else body⟩]) ∧
      (s.isHead = true → s.inputOk e = false →
        exec (.inputEntry e body) s = .next ((r.raise 0x6006).admRelease s.host.admRead)) ∧
      (s.isHead = false → exec (.inputEntry e body) s = .next ((w.raise 0x6006).admRelease s.host.admRead)) ∧
      exec (.inputBodyFail e) s = .next ((r.raise 0x6006).admRelease s.host.admRead)) ∧
    (byteAt e 0 = 4 →
      (s.bindOk e = true → ∃ t u : State, exec (.bindEntry e) s = .next t ∧ t = u.admRelease s.host.admRead ∧
        u = { w with slots := u.slots } ∧ (∀ j, j ≠ i → t.slot j = s.slot j) ∧
        (let x := t.slot i
         x.vec.toNat = byteAt e 3 % 256 ∧ x.promptAddr.toNat = leAt e 24 8 % 2 ^ 64 ∧ x.outBase.toNat = leAt e 32 8 % 2 ^ 64 ∧
         x.outStride = word (leAt e 40 4) ∧ x.outN = word (leAt e 44 4) ∧ x.tag.toNat = leAt e 48 8 % 2 ^ 64 ∧
         x.unbound = false ∧ x.state = (s.slot i).state ∧ x.com = (s.slot i).com ∧ x.inputs = (s.slot i).inputs)) ∧
      (s.bindOk e = false → exec (.bindEntry e) s = .next ((r.raise 0x6006).admRelease s.host.admRead))) ∧
    ((byteAt e 0 = 0 ∨ 4 < byteAt e 0) → let z := (r.raise 0x6006).admRelease s.host.admRead
      exec (.admitEntry e) s = .next z ∧ exec (.cancelEntry e) s = .next z ∧ exec (.inputEntry e []) s = .next z ∧
      exec (.bindEntry e) s = .next z)

/-- R644 to R647, for a command that waits at the ring's HEAD. Each takes its entry and runs to one status, which stays until
the command is done. CHECK failed is 1; a bad OP, or a DADDR or LEN that is no multiple of 32, is 2; the wrong state is 6; an
unpopulated granule is 3 with its offset; NOP is 0 with nothing done. LOAD puts the host's bytes at DADDR, FILL the pattern
repeated, and every other byte of memory stays; a LOAD the host refused is 4. STORE and DIGEST send the bytes or the digest to
HADDR where every granule delivers, else 5 with the offset. The end raises 0x6001 with TAG in ARG0, and status and offset ÷ 32
in ARG1. -/
def Obligations.HostCommands : Prop :=
  (∀ (e : List Byte) (d : HostRead) (c : Instr) (op : Nat) (s r : State), s.cmdWaiting = true →
    ((c, op) = (.cmdNop e, 0) ∨ (c, op) = (.load e d, 1) ∨ (c, op) = (.store e, 2) ∨ (c, op) = (.fill e, 3) ∨
      (c, op) = (.digest e, 4)) →
    r = { s with host := { s.host with cmd := { s.host.cmd with head := s.host.cmd.head + 1 } } } →
    let fin := fun (u : State) (st off : Nat) => ({ u with host := { u.host with run := some ⟨BitVec.ofNat 8 (byteAt e 0),
      BitVec.ofNat 8 st, off, BitVec.ofNat 64 (leAt e 48 8), leAt e 16 8, leAt e 24 8⟩ } } : State)
    ((byteAt e 0 = op ∨ 4 < byteAt e 0) → entryCheckOk e = false → exec c s = .next (fin r 1 0)) ∧
    (4 < byteAt e 0 → entryCheckOk e = true → exec c s = .next (fin r 2 0)) ∧
    (byteAt e 0 = op → entryCheckOk e = true →
      (op ≠ 0 → (leAt e 16 8 % 32 ≠ 0 ∨ leAt e 24 8 % 32 ≠ 0) → exec c s = .next (fin r 2 0)) ∧
      ((op = 0 ∨ (leAt e 16 8 % 32 = 0 ∧ leAt e 24 8 % 32 = 0)) →
        (s.cmdAllowed op (leAt e 16 8) = false → exec c s = .next (fin r 6 0)) ∧
        (s.cmdAllowed op (leAt e 16 8) = true →
          (op = 0 → exec c s = .next (fin r 0 0)) ∧
          (∀ a, op ≠ 0 → r.firstHole (leAt e 16 8) (leAt e 24 8 / 32) = some a → exec c s = .next (fin
            ((if op = 1 ∨ op = 3 then r.scramble (leAt e 16 8) (leAt e 24 8 / 32) else r).holeEvent a) 3 (a - leAt e 16 8))) ∧
          (r.firstHole (leAt e 16 8) (leAt e 24 8 / 32) = none → Memory.wf s.mem = true →
            (op = 1 → d = .failed → exec c s = .next (fin (r.scramble (leAt e 16 8) (leAt e 24 8 / 32)) 4 0)) ∧
            (∀ l, ((op = 1 ∧ d = .bytes l ∧ l.length = leAt e 24 8) ∨
                (op = 3 ∧ l = repeatBytes ((e.drop 32).take 8) (leAt e 24 8 / 8) ∧ l.length = leAt e 24 8)) →
              ∃ t, exec c s = .next t ∧ t.peek (leAt e 16 8) (leAt e 24 8) = l ∧
                (∀ x, x < leAt e 16 8 ∨ leAt e 16 8 + leAt e 24 8 ≤ x → t.peek x 1 = s.peek x 1) ∧
                t = { fin r 0 0 with mem := t.mem, badOne := t.badOne, badTwo := t.badTwo, stk := t.stk, sent := t.sent }) ∧
            ((op = 2 ∨ op = 4) → ∀ (o : Option Nat) (u : State), r.readEach (leAt e 16 8) 0 (leAt e 24 8 / 32) = (o, u) →
              (∀ k, o = some k → exec c s = .next (fin u 5 k)) ∧
              (o = none → exec c s = .next (fin (u.hostWrite s.host.owner (leAt e 8 8) (if op = 2
                then r.peek (leAt e 16 8) (leAt e 24 8) else r.rangeDigest (leAt e 16 8) (leAt e 24 8 / 32))) 0 0)))))))) ∧
  (∀ (x : RunCmd) (s : State), s.host.run = some x → exec .cmdDone s = .next ({ s with host := { s.host with run := none } }.raise 0x6001
    (some (x.status.toNat + (if x.status = 0 then 0 else x.failAt / 32 % 2 ^ 24 * 256))) (some x.tag.toNat)))

/-- R626, R630, R631, R667, R805. The first queued result or event is written at index TAIL of its ring, with PH = ((i div N) + 1)
mod 2, while the ring is enabled, the owner port can issue and (i − HEAD) mod 2^32 < N; TAIL moves on by one; otherwise, or
for a result that waits for the partner, nothing changes. After the last result of a vector its MSI-X message goes out. An
event is followed by vector 0, but within 10 µs of the last vector 0 that one is due: it goes out when they have passed. A
message to a vector that cannot be sent sets its pending bit, and a pending message is sent once, when the port can. -/
def Obligations.ResultsEventsAndVectors : Prop :=
  (∀ (e : ResEntry) (l : List ResEntry) (s : State), s.host.resq = e :: l → let r := s.host.res
    let can := r.en = true ∧ s.ownerPort.canIssue = true ∧ (r.tail - r.head).toNat < r.entries
    (e.wait = false → can → ∃ t u : State, exec .resultWrite s = .next t ∧ u = { s with
        sent := .hostWrite s.host.owner (BitVec.ofNat 64 (r.base.toNat + r.tail.toNat % r.entries * 32))
          (resBytes e ((r.tail.toNat / r.entries + 1) % 2)) :: s.sent
        host := { s.host with resq := l, res := { r with tail := r.tail + 1 }, results := bump s.host.results } } ∧
      t = if e.lastOfVec then u.msix s.host.owner (e.vec.toNat % 64) else u) ∧
    ((e.wait = true ∨ ¬can) → exec .resultWrite s = .next s)) ∧
  (∀ (e : EvtEntry) (l : List EvtEntry) (s : State), s.host.evtq = e :: l → let r := s.host.evt
    let can := r.en = true ∧ s.ownerPort.canIssue = true ∧ (r.tail - r.head).toNat < r.entries
    (can → ∃ t u : State, exec .eventWrite s = .next t ∧ u = { s with
        sent := .hostWrite s.host.owner (BitVec.ofNat 64 (r.base.toNat + r.tail.toNat % r.entries * 32))
          (evtBytes e ((r.tail.toNat / r.entries + 1) % 2)) :: s.sent
        host := { s.host with evtq := l, evt := { r with tail := r.tail + 1 } } } ∧
      t = if s.host.vec0Limit then { u with host := { u.host with vec0Due := true } }
        else ({ u with host := { u.host with vec0Limit := true } } : State).msix s.host.owner 0) ∧
    (¬can → exec .eventWrite s = .next s)) ∧
  (∀ s : State, (s.host.resq = [] → exec .resultWrite s = .next s) ∧ (s.host.evtq = [] → exec .eventWrite s = .next s) ∧
    (s.host.vec0Due = true →
      exec .eventVectorSend s = .next (({ s with host := { s.host with vec0Due := false } } : State).msix s.host.owner 0)) ∧
    (s.host.vec0Due = false → exec .eventVectorSend s = .next { s with host := { s.host with vec0Limit := false } })) ∧
  (∀ (p : Port) (v : Fin 64) (s : State),
    ((s.port p).msixPend.getLsbD v.val = true → (s.port p).canMsix v.val = true → ∃ t, exec (.msixPending p v) s = .next t ∧
      t = { s with sent := .msix p v.val :: s.sent, portA := t.portA, portB := t.portB } ∧ t.port p.other = s.port p.other ∧
      (∀ k < 64, (t.port p).msixPend.getLsbD k = ((s.port p).msixPend.getLsbD k && decide (k ≠ v.val)))) ∧
    (((s.port p).msixPend.getLsbD v.val = false ∨ (s.port p).canMsix v.val = false) → exec (.msixPending p v) s = .next s) ∧
    ((s.port p).canMsix v.val = true → s.msix p v.val = { s with sent := .msix p v.val :: s.sent }) ∧
    ((s.port p).canMsix v.val = false → (s.msix p v.val).sent = s.sent ∧
      (∀ k < 64, ((s.msix p v.val).port p).msixPend.getLsbD k = ((s.port p).msixPend.getLsbD k || decide (k = v.val)))))

/-- R471, R473 to R475, R494, R518, R768, R783, R785. In READY and RUN, with no power hold begun, a cue taken from the timer (SRC 0), a
TICK_IN edge (SRC 1) or a cue flit (SRC 2) is held with its number and time, and the written cap comes into force; outside READY
and RUN none is taken. An edge within 200 µs of the last accepted one is only counted. A cue that comes while two are held
abandons the running tick and raises 0x1001. A begun power hold is cut, with 0x9003 at the first of a run. A cue flit whose
period or limit differs raises 0x1003 and its tick rolls back. TICK_PERIOD and TICK_MAX are written only in READY within their
limits, else 0x1009. -/
def Obligations.CuesAreTaken : Prop :=
  let take := fun (u : State) (n : DWord) (at_ : Nat) (bad : Bool) => ({ u with
    tick := { u.tick with held := u.tick.held ++ [⟨n, at_, bad⟩], anyCue := true, nextNum := n + 1, lastTaken := some at_ }
    pwr := { u.pwr with capInForce := u.pwr.cap } } : State)
  (∀ (at_ : Nat) (s : State), s.reh.replay = none → s.tick.src = 0 → s.tick.running = none → s.tick.held = [] →
    (∀ t, s.tick.lastTaken = some t → t + s.tick.period.toNat ≤ at_) → s.pwr.holdFrom = none →
    (s.readyOrRun = true → exec (.timerCue at_) s = .next (take s s.cueNumber at_ false)) ∧
    (s.readyOrRun = false → exec (.timerCue at_) s = .next s)) ∧
  (∀ (at_ t : Nat) (s : State), s.tick.lastTaken = some t → at_ < t + s.tick.period.toNat → exec (.timerCue at_) s = .next s) ∧
  (∀ (at_ hi lo : Nat) (s u v : State), s.readyOrRun = true → s.pinFunc 4 = 1 → 50 ≤ hi → 50 ≤ lo →
    v = { s with pin := { s.pin with tickIn := false } } → u = { v with pin := { v.pin with lastTickIn := some at_ } } →
    (∀ t, s.pin.lastTickIn = some t → at_ < t + 200000 →
      exec (.tickInEdge at_ hi lo) s = .next { v with pin := { v.pin with tickRej := bump v.pin.tickRej } }) ∧
    ((∀ t, s.pin.lastTickIn = some t → t + 200000 ≤ at_) → s.tick.src = 1 → s.reh.replay = none →
      (s.tick.held.length < 2 → s.pwr.holdFrom = none → exec (.tickInEdge at_ hi lo) s = .next (take u s.cueNumber at_ false)) ∧
      (s.tick.held.length < 2 → s.pwr.holdFrom.isSome = true → s.pwr.cut = false → s.pwr.cutRun = false →
        exec (.tickInEdge at_ hi lo) s = .next (take ({ u with
          pwr := { u.pwr with cut := true, exempt := true, holdCut := bump u.pwr.holdCut } }.raise 0x9003) s.cueNumber at_ false)) ∧
      (2 ≤ s.tick.held.length → s.pwr.holdFrom = none → exec (.tickInEdge at_ hi lo) s = .next (u.abandonTick.raise 0x1001)))) ∧
  (∀ (lp : Fin 8) (h : FlitHdr) (n : DWord) (per mx : Word) (at_ : Nat) (s u v : State), s.takeFlits lp.val h false = .here u →
    h.dst = u.win.linkId → u.readyOrRun = true → u.reh.replay = none → u.win.bypassReg.getLsbD 0 = false → u.tick.src = 2 →
    (u.isN4 = true → ((u.lnkAt 0).isUp = true → (u.lnkAt 4).isUp = true → u.tick.bondCue.contains n = true)) →
    u.tick.held.length < 2 → u.pwr.holdFrom = none →
    v = { u with tick := { u.tick with bondCue := u.tick.bondCue.filter (fun x => x != n) } } →
    (per.toNat = u.tick.period.toNat → mx.toNat = u.tick.tickMax.toNat →
      exec (.cue lp h false n per mx at_) s = .next (take v n at_ false)) ∧
    ((per.toNat ≠ u.tick.period.toNat ∨ mx.toNat ≠ u.tick.tickMax.toNat) →
      exec (.cue lp h false n per mx at_) s = .next (take (v.raise 0x1003) n at_ true))) ∧
  (∀ (p : Port) (v : Word) (s : State), s.owns p →
    (s.glb.st = .ready → periodOk s.tick.proven.toNat (v.toNat % 2 ^ 27) s.tick.tickMax.toNat = true →
      exec (.tickPeriod p v) s = .next { s with
        tick := { s.tick with period := BitVec.ofNat 27 v.toNat }
        prec := { s.prec with rrbMax := BitVec.ofNat 10 (rrbMaxOf s.tick.proven.toNat (v.toNat % 2 ^ 27)) } }) ∧
    ((s.glb.st ≠ .ready ∨ periodOk s.tick.proven.toNat (v.toNat % 2 ^ 27) s.tick.tickMax.toNat = false) →
      exec (.tickPeriod p v) s = .next (s.raise 0x1009)) ∧
    (s.glb.st = .ready → periodOk s.tick.proven.toNat s.tick.period.toNat (v.toNat % 2 ^ 28) = true →
      exec (.tickMax p v) s = .next { s with
        tick := { s.tick with tickMax := BitVec.ofNat 28 v.toNat }
        prec := { s.prec with rrbMax := BitVec.ofNat 10 (rrbMaxOf s.tick.proven.toNat s.tick.period.toNat) } }) ∧
    ((s.glb.st ≠ .ready ∨ periodOk s.tick.proven.toNat s.tick.period.toNat (v.toNat % 2 ^ 28) = false) →
      exec (.tickMax p v) s = .next (s.raise 0x1009)))

/-- R472, R477, R515, R679, R784. A taken cue stays held while a tick runs, for 120 ns after it was taken, while a re-fetch holds cues, while
its group has a pending step (the chain hold) and while the energy since the last release exceeds the cap (the power hold, counted
once). Free of every hold, on a device that is not paired, it is released: the tick counter takes its number, the next held cue
comes up, routes, the outbound table and the bypass take effect, and the precision budget in force is the lesser of RRB and
RRB_MAX. Where no slot steps, its curtain ends the tick at once; otherwise the tick runs and every core has latched the cue with
epoch 0 confirmed. -/
def Obligations.CueReleaseOrHold : Prop :=
  (∀ (at_ : Nat) (s : State), s.tick.held = [] → exec (.cueRelease at_) s = .next s) ∧
  (∀ (at_ : Nat) (c : HeldCue) (rest : List HeldCue) (s : State), s.tick.held = c :: rest →
    ((s.readyOrRun = false ∨ s.tick.running.isSome = true ∨ at_ < c.taken + 120 ∨ s.refetchHolds = true) →
      exec (.cueRelease at_) s = .next s) ∧
    (s.readyOrRun = true → s.tick.running = none → c.taken + 120 ≤ at_ → s.refetchHolds = false →
      (s.chainHeld c = true → exec (.cueRelease at_) s = .next { s with
        tick := { s.tick with holdFrom := some (s.tick.holdFrom.getD at_) } }) ∧
      (s.chainHeld c = false → s.powerHeld at_ = true →
        (s.pwr.holdFrom = none → exec (.cueRelease at_) s = .next { s with
          pwr := { s.pwr with holds := bump s.pwr.holds, holdFrom := some at_ } }) ∧
        (s.pwr.holdFrom ≠ none → exec (.cueRelease at_) s = .next s)) ∧
      (s.chainHeld c = false → s.powerHeld at_ = false → s.twin.state ≠ 2 → s.twin.state ≠ 3 → s.reh.replay = none →
        ∃ t b : State, exec (.cueRelease at_) s = .next t ∧ b = s.beforePlan c rest at_ ∧ b.tick.held = rest ∧
          b.tick.count = c.tick ∧ b.tick.group = BitVec.ofNat 4 (s.groupOf c.tick) ∧ b.tick.lastRelease = some at_ ∧
          b.win.routes = s.win.routesNext ∧ b.win.out0 = s.win.out0Next ∧ b.win.out1 = s.win.out1Next ∧
          b.win.bypassIn = s.win.bypassReg.getLsbD 0 ∧ b.win.bypassOut = s.win.bypassReg.getLsbD 1 ∧
          b.prec.rrbForce = (if s.prec.rrb < s.prec.rrbMax then s.prec.rrb else s.prec.rrbMax) ∧
          (b.planTick.1.records = [] → t.tick.running = none) ∧
          (s.isHead = false → b.planTick.1.stepM ≠ 0 → ∃ r, t.tick.running = some r ∧ r.tick = c.tick ∧ r.released = at_ ∧
            r.stepM = b.planTick.1.stepM ∧ r.records = b.planTick.1.records ∧ r.abandoned = false) ∧
          (t.tick.running = none ∨ (t.tick.running.isSome = true ∧ ∀ e ∈ t.core, e.2.seq.cueLatched = true ∧
            e.2.seq.ended = false ∧ e.2.conf = 0 ∧ e.2.seq.arrivals = [])))))

/-- R479, R485, R487, R488, R501, R505, R509, R510, R515. A tick whose waits have ended goes through its curtain: afterwards none runs and
its length is recorded; while it waits nothing changes. A tick not abandoned that has run for TICK_MAX is abandoned, with 0x1001:
its whole step will roll back and every core's queued work is cancelled. A chain hold that has lasted TICK_MAX − TICK_PERIOD
rolls the pending step back, with 0x1004, and the cue may go. At a confirmation a failed slot gets its committed pointers back
and keeps its input for the repeat; a step that stands commits the pending pointers with the sampled token; a latched cancel
retires the slot; other slots stay. -/
def Obligations.TicksEnd : Prop :=
  (∀ (at_ : Nat) (l : List StepResult) (r : RunTick) (s : State), s.tick.running = some r →
    (s.curtainDue r = true → ∃ t, exec (.curtain at_ l) s = .next t ∧ t.tick.running = none ∧
      t.tick.lastLen = word (at_ - r.released)) ∧
    (s.curtainDue r = false → exec (.curtain at_ l) s = .next s) ∧
    (r.abandoned = false → r.released + s.tick.tickMax.toNat ≤ at_ → ∃ t u : State, exec (.tickMaxExpiry at_) s = .next t ∧
      t = u.raise 0x1001 ∧ u = { s with tick := u.tick, core := u.core, clu := u.clu, prec := { s.prec with squash := none } } ∧
      u.tick = { s.tick with
        running := some { r with wholeFault := true, abandoned := true }, abandoned := bump s.tick.abandoned } ∧
      u.core = s.core.map (fun e => (e.1, e.2.cancelWork))) ∧
    ((r.abandoned = true ∨ at_ < r.released + s.tick.tickMax.toNat) → exec (.tickMaxExpiry at_) s = .next s)) ∧
  (∀ (at_ : Nat) (l : List StepResult) (s : State), s.tick.running = none →
    exec (.curtain at_ l) s = .next s ∧ exec (.tickMaxExpiry at_) s = .next s) ∧
  (∀ (at_ g : Nat) (c : HeldCue) (rest : List HeldCue) (p : PendStep) (s : State), s.tick.held = c :: rest →
    s.groupOf c.tick = g → s.tick.pend.find? (fun e => e.1 == g) = some (g, p) → s.tick.running = none →
    (c.taken + (s.tick.tickMax.toNat - s.tick.period.toNat) ≤ at_ → ∃ t w : State, exec (.chainTimeout at_) s = .next t ∧
      t = (({ w with tick := { w.tick with chainTimeouts := bump w.tick.chainTimeouts } } : State).raise 0x1004).tryRelease at_ ∧
      w.tick.pend = Tab.erase s.tick.pend g ∧ w.tick.slotRb = bump s.tick.slotRb p.records.length ∧
      (∀ r ∈ p.records, (w.slot r.slot.val).new = (w.slot r.slot.val).com) ∧ (∀ i, (w.slot i).com = (s.slot i).com)) ∧
    (at_ < c.taken + (s.tick.tickMax.toNat - s.tick.period.toNat) → exec (.chainTimeout at_) s = .next s)) ∧
  (∀ (failM freeM : BitVec 256) (r : SlotRec) (s : State), let i := r.slot.val
    let x := s.slot i
    (failM.getLsbD i = true → let y := (s.settleSlot failM freeM r).slot i
      y.com = x.com ∧ y.new = x.com ∧ y.fed = none ∧ y.inputs = x.fed.toList ++ x.inputs ∧ y.pend = false ∧ y.cancel = false ∧
      y.state = if x.cancel then 5 else x.state) ∧
    (failM.getLsbD i = false → freeM.getLsbD i = false → let y := (s.settleSlot failM freeM r).slot i
      y.com = { x.new with lastToken := if x.samples r then r.token else x.com.lastToken } ∧ y.new = y.com ∧ y.fed = none ∧
      y.inputs = x.inputs ∧ y.pend = false ∧ y.cancel = false ∧
      y.state = if x.cancel then 5 else if x.state = 6 then 6 else if r.stream then 4 else if x.samples r then 3 else 2) ∧
    (∀ j, j ≠ i → freeM.getLsbD i = false → (s.settleSlot failM freeM r).slot j = s.slot j))

/-- R496, R497, R513, R514, R516, R517, for a message that reached this device on NORTH in READY or RUN, the bypass not set. Above position
0 a status message is kept for the cue after its tick, without the slots that the device does not serve; a slot whose step number
differs goes to FAULT with 0x1005 and into FAILM; with a failed CHECK it is kept as failed, with 0x1004; the head keeps none. A
curtain message takes the pending step of its group, gives its records the tokens, confirms the slots that FAILM does not mark
and rolls back the others, and goes on except at position C − 2; with a failed CHECK every slot rolls back; without its pending
step it is discarded. -/
def Obligations.StepMessagesInAChain : Prop :=
  (∀ (lp : Fin 8) (h : FlitHdr) (m n : StepMsg) (s u : State), s.takeFlits lp.val h false = .here u → h.dst = u.win.linkId →
    lp ≠ 7 → u.win.bypassReg.getLsbD 0 = false → n = onlyMsg m u.served →
    (u.isHead = true → exec (.statusMessage lp h m) s = .next u) ∧
    (u.isHead = false → u.readyOrRun = true → u.tick.upstream.find? (fun e => e.1 == m.tick.toNat) = none →
      (m.checkOk = true → (∀ r ∈ n.records, r.first = false → (u.slot r.slot.val).com.step = r.step) →
        exec (.statusMessage lp h m) s = .next { u with
          tick := { u.tick with upstream := Tab.put u.tick.upstream m.tick.toNat n } }) ∧
      (∀ (r : SlotRec) (q : StepMsg), q = { n with failM := n.failM ||| maskOf [r.slot.val] } → m.checkOk = true → n.records = [r] → r.first = false → (u.slot r.slot.val).com.step ≠ r.step →
        (u.slot r.slot.val).state ≠ 6 → ∃ t v : State, exec (.statusMessage lp h m) s = .next t ∧
          v = (u.modSlot r.slot.val (fun x => { x with state := 6 })).raise 0x1005 none (some r.slot.val) ∧
          t = { v with tick := { v.tick with upstream := Tab.put u.tick.upstream m.tick.toNat q } }) ∧
      (m.checkOk = false → ∃ t v : State, exec (.statusMessage lp h m) s = .next t ∧ v = u.raise 0x1004 ∧
        t.tick.upstream = Tab.put u.tick.upstream m.tick.toNat n ∧ t = { v with tick := t.tick }))) ∧
  (∀ (lp : Fin 8) (h : FlitHdr) (m n : StepMsg) (s u : State), s.takeFlits lp.val h false = .here u → h.dst = u.win.linkId →
    lp ≠ 7 → u.win.bypassReg.getLsbD 0 = false → n = onlyMsg m u.served →
    (u.pendingFor n = none → exec (.curtainMessage lp h m) s = .next u) ∧
    (∀ p, u.pendingFor n = some p → let g := m.group.toNat % 16
      let records := p.records.map (fun r => match n.records.find? (fun x => x.slot == r.slot) with
        | some x => { r with token := x.token } | none => r)
      (m.checkOk = true → (∀ r ∈ n.records, p.stepM.getLsbD r.slot.val = true → (u.slot r.slot.val).com.step = r.step) →
        ∃ t v w : State, exec (.curtainMessage lp h m) s = .next t ∧
          v = { u with tick := { u.tick with
            pend := Tab.erase u.tick.pend g,
            slotRb := bump u.tick.slotRb ((maskList (n.failM &&& p.stepM)).filter (fun i => !p.failM.getLsbD i)).length } } ∧
          w = ((v.confirmStep g (n.failM &&& p.stepM) (n.freeM &&& p.stepM) records).recordConf p g (n.failM &&& p.stepM)).leaveRun ∧
          t = (if w.chainPos + 2 < w.chainLen then w.sendStep 2 n else w).stageMirror) ∧
      (m.checkOk = false → ∃ t v w : State, exec (.curtainMessage lp h m) s = .next t ∧ v.tick.pend = Tab.erase u.tick.pend g ∧
        v = ({ (u.raise 0x1004) with tick := v.tick } : State) ∧
        w = ((v.confirmStep g p.stepM (n.freeM &&& p.stepM) records).recordConf p g p.stepM).leaveRun ∧
        t = (if w.chainPos + 2 < w.chainLen
          then w.sendStep 2 { n with failM := n.stepM ||| p.stepM, checkOk := true } else w).stageMirror)))

/-- R160, R162, R298 to R306, R316 to R319, R455 to R459. When every core of the next part has reported, a package reduction adds that part's
amax over its cores, s_T and width to the invocation; nothing outside the precision controller changes. A due verdict: without a
trip, and without a make-up excess that is watched, the output stands: the verdict is decided and no re-run is charged. A trip is
counted and marked in the layer. In a re-run it raises 0x2204 and the output stands; with no wider form it raises 0x2205 and the
output stands; with the watches off it stands. Otherwise the budget decides: with every slot of the invocation withheld already
the output stands; a charge that B + H covers is added to U, the re-run is marked, with the prompter OFF only where nothing
tripped, and the squash of the ordinal starts; a charge beyond B + H withholds the slots of the invocation, marks the layer
refused, and the output stands. An undue verdict and an unready reduction change nothing. -/
def Obligations.ReductionsAndVerdicts : Prop := ∀ (o : BitVec 16) (s : State) (x : InvSt) (d : LayerDesc), x = s.invAt o.toNat → x.desc = d →
  (∀ p, p = x.reds.length → x.cores ≠ [] → p < x.parts → x.reportedAll p = true → s.tickLive = true →
    ∃ t : State, exec (.packageReduction o) s = .next t ∧ t = { s with prec := t.prec } ∧
      (∃ (w : Nat) (recip : Word), w = s.outWidth d (x.amax p) ∧ (t.invAt o.toNat).reds = x.reds ++ [⟨x.amax p,
        (⟨w, d.osign, if d.osign then 0 else d.ozp, x.amax p, 0, d.rnd⟩ : OutForm).sT, recip, BitVec.ofNat 5 w⟩])) ∧
  ((x.cores = [] ∨ x.parts ≤ x.reds.length ∨ x.reportedAll x.reds.length = false ∨ s.tickLive = false) →
    exec (.packageReduction o) s = .next s) ∧
  (s.verdictDue o.toNat = false → exec (.verdict o) s = .next s) ∧
  (s.verdictDue o.toNat = true → ∀ (g : BitVec 5) (f : Form) (c : Nat) (only : Bool), g = trips d (s.layerAt d.lix) x →
    f = { s.baseForm d with aw := x.aw.toNat } → only = decide (g = 0) →
    c = ((if only then d.prc else d.wrc) + d.rac) * s.aclkThirds → ∃ t : State, exec (.verdict o) s = .next t ∧
    ((g = 0 ∧ ¬(x.muOver = true ∧ s.watchEnabled = true)) →
      (t.invAt o.toNat).decided = true ∧ t.prec.used = s.prec.used ∧ t.prec.squash = none ∧ t.prec.withheld = s.prec.withheld) ∧
    (g ≠ 0 → t.prec.trips = bump s.prec.trips ∧ (t.layerAt d.lix).trips = (s.layerAt d.lix).trips ||| g ∧
      (t.layerAt d.lix).trippedTick = true) ∧
    (g ≠ 0 → x.rerun = true → ∃ u : State, t = (u.raise 0x2204).stand o.toNat ∧ (t.invAt o.toNat).decided = true ∧
      t.prec.rerunTrip = bump s.prec.rerunTrip ∧ t.prec.used = s.prec.used ∧ t.prec.squash = none) ∧
    (g ≠ 0 → x.rerun = false → widen d f = f → ∃ u : State, t = (u.raise 0x2205).stand o.toNat ∧ (t.invAt o.toNat).decided = true ∧
      t.prec.widest = bump s.prec.widest ∧ t.prec.used = s.prec.used ∧ t.prec.squash = none) ∧
    (g ≠ 0 → x.rerun = false → widen d f ≠ f → s.watchEnabled = false →
      (t.invAt o.toNat).decided = true ∧ t.prec.used = s.prec.used ∧ t.prec.squash = none) ∧
    ((g ≠ 0 → x.rerun = false ∧ widen d f ≠ f) → (g = 0 → x.muOver = true) → s.watchEnabled = true →
      (s.invSlots o.toNat ≠ [] ∧ (s.invSlots o.toNat).all (fun i => s.prec.withheld.getLsbD i) = true →
        (t.invAt o.toNat).decided = true ∧ t.prec.used = s.prec.used ∧ t.prec.squash = none) ∧
      (¬(s.invSlots o.toNat ≠ [] ∧ (s.invSlots o.toNat).all (fun i => s.prec.withheld.getLsbD i) = true) → s.affords c = true →
        t.prec.used = s.prec.used + c ∧ t.prec.reruns = bump s.prec.reruns ∧ t.prec.squash = some o.toNat ∧
        (t.invAt o.toNat).rerun = true ∧ (t.invAt o.toNat).promptOff = only) ∧
      (¬(s.invSlots o.toNat ≠ [] ∧ (s.invSlots o.toNat).all (fun i => s.prec.withheld.getLsbD i) = true) → s.affords c = false →
        t.prec.used = s.prec.used ∧ t.prec.squash = none ∧ (t.invAt o.toNat).decided = true ∧
        (t.layerAt d.lix).refusedTick = true ∧ t.prec.withheld = s.prec.withheld |||
          BitVec.ofNat 256 ((((s.invSlots o.toNat).filter (fun i => !s.prec.withheld.getLsbD i)).map (fun i => 2 ^ i)).sum))))

/-- R323, R326, R327, R382, R387, R388, R455. The last step of a squash of v: each ring of a core takes head, tail and turn from its oldest
mark at or above v and drops such marks; each core restores its oldest checkpoint keyed v or more, keeps it, drops the younger
ones and the row-sum store, and runs on from its PC; a core without one goes on; the invocations above v are forgotten. An epoch
all of whose ordinals are settled is confirmed on a core: its checkpoints up to it go, and so do its rings' marks, the consumer's and
the producer's confirmed pointers moving to the oldest mark left. CLR_STICKY by the owner notes the layer that the port's
PREC_LIDX names. A cluster's supply goes to 0.48 V only with over-scaling on, every core's bound layer permitting it and no EU task;
it returns to 0.55 V as soon as one of these fails, and stays while none does. -/
def Obligations.SquashesConfirmationsAndSupply : Prop :=
  (∀ s : State, s.prec.squash = none → exec .squashResume s = .next s) ∧
  (∀ (v : Nat) (s : State), s.prec.squash = some v → s.listedCores.Nodup → ∃ t : State, exec .squashResume s = .next t ∧
    t.prec.squash = none ∧ (∀ e ∈ t.prec.invs, e.1 ≤ v) ∧
    t = { s with core := t.core, clu := t.clu, prec := t.prec } ∧
    (∀ c ∈ s.listedCores, ∀ q : Nat, t.ringAt c q = { (s.ringAt c q).squash v with resv := [] }) ∧
    (∀ (c : CoreId) (k : Ckpt), (s.seqAt c).ckptFrom v = some k → (t.coreAt c).rowsums = [] ∧ ∃ q : SeqSt, t.seqAt c = q ∧
      q.pc = k.pc ∧ q.epoch = k.epoch ∧ q.seed = k.seed ∧ q.s = k.s ∧ q.l = k.l ∧ q.t = k.t ∧ q.state = 1 ∧ q.ended = false ∧
      q.ckpts = (s.seqAt c).ckpts.filter (fun x => decide (x.key.toNat ≤ k.key.toNat))) ∧
    (∀ c : CoreId, (s.seqAt c).ckptFrom v = none → t.seqAt c = s.seqAt c)) ∧
  (∀ (r : RingSt) (m : RingMark) (v : Nat), r.marks.find? (fun m => decide (v ≤ m.epoch.toNat)) = some m →
    r.squash v = { r with
      head := m.head, tail := m.tail, turn := m.turn, marks := r.marks.filter (fun x => decide (x.epoch.toNat < v)),
      pwait := false, cwait := false }) ∧
  (∀ (c : CoreId) (e : BitVec 16) (s : State), (s.tickLive = true ∧ s.settledTo e.toNat = true →
      ∃ t : State, exec (.epochConfirm c e) s = .next t ∧ t = { s with core := t.core } ∧ (t.coreAt c).conf = max (s.coreAt c).conf e.toNat ∧
        (t.seqAt c).ckpts = (s.seqAt c).ckpts.filter (fun x => decide (e.toNat < x.key.toNat)) ∧
        (∀ q : Nat, t.ringAt c q = (s.ringAt c q).confirm e.toNat) ∧ (∀ d, d ≠ c → t.coreAt d = s.coreAt d)) ∧
    (¬(s.tickLive = true ∧ s.settledTo e.toNat = true) → exec (.epochConfirm c e) s = .next s)) ∧
  (∀ (r : RingSt) (m : RingMark) (rest : List RingMark) (e : Nat), r.marks.any (fun m => decide (m.epoch.toNat ≤ e)) = true →
    r.marks.filter (fun m => decide (e < m.epoch.toNat)) = m :: rest →
    r.confirm e = { r with marks := m :: rest, ctail := m.tail, free := m.head, pwait := false, cwait := false }) ∧
  (∀ (p : Port) (v : Word) (s : State), s.owns p → exec (.clrSticky p v) s = .next { s with
    prec := { s.prec with
      lclear := v.getLsbD 0,
      clearReq := if v.getLsbD 0 then addKey s.prec.clearReq (s.port p).precLidx.toNat else s.prec.clearReq } }) ∧
  (∀ (c : ClusterId) (s : State),
    (s.osEnabled = true ∧ (clusterCores c.num).all (fun d => s.osLayer d == some true) = true ∧ s.euTask c = false →
      exec (.supplyRaise c) s = .next s ∧ ∃ t, exec (.supplyLower c) s = .next t ∧ (t.cluAt c.num).vsup = 2) ∧
    (¬(s.osEnabled = true ∧ (clusterCores c.num).all (fun d => s.osLayer d == some true) = true ∧ s.euTask c = false) →
      exec (.supplyLower c) s = .next s) ∧
    (s.osEnabled = false ∨ (clusterCores c.num).any (fun d => s.osLayer d == some false) = true ∨ s.euTask c = true →
      ∃ t, exec (.supplyRaise c) s = .next t ∧ (t.cluAt c.num).vsup = 0))

/-- R408, R416, R420 to R427, R452, R454. An issue moves PC on by one and leaves S, L, T, epoch, seed, checkpoints and bound descriptors,
and all of the core but its wait counters. JMP
goes to S[A] + IMM or PC + IMM; BR goes to PC + IMM where its condition holds; LOOP counts L down and goes to PC + IMM unless it
held at most 1; TWAIT takes a latched cue, with epoch 0 and no checkpoint, or waits for it; BAR arrives and waits; FENCE waits for
the classes it names; SEED sets the seed. An EPOCH to the current epoch changes nothing else; a larger one sets it with a checkpoint of the instruction's PC,
which the ninth has to wait for; a smaller one, or one above 65,535, stops the sequencer with 0x2112 and a fault in shared work.
A barrier completes for the members that wait once each has arrived as often. An illegal word stops the sequencer with 0x2110, a
parity error with 0x4131. No row acts where its instruction does not issue. -/
def Obligations.SequencerControl : Prop := ∀ (c : CoreId) (s : State) (q : SeqSt) (w : DWord), q = s.seqAt c → q.word = w →
  (∃ t : State, s.issued c = t ∧ t = { s with core := t.core, free := t.free } ∧ (∀ d, d ≠ c → t.coreAt d = s.coreAt d) ∧
    ∃ x : SeqSt, t.seqAt c = x ∧ x.pc = q.pc + 1 ∧ x.state = 1 ∧ x.issued = bump q.issued ∧ x.s = q.s ∧ x.l = q.l ∧ x.t = q.t ∧
      x.epoch = q.epoch ∧ x.seed = q.seed ∧ x.ckpts = q.ckpts ∧ x.bound = q.bound ∧ x.ended = q.ended ∧
      t.coreAt c = { (s.coreAt c) with seq := x, sbWait := (t.coreAt c).sbWait }) ∧
  (∀ p ∈ [(Instr.nop c, 0), (.seqEnd c, 1), (.jmp c, 2), (.br c, 3), (.loop c, 4), (.ldi c, 5), (.alu c, 6), (.lds c, 7), (.sts c, 8),
      (.tld c, 9), (.tadd c, 10), (.lyr c, 11), (.twait c, 16), (.bar c, 17), (.epoch c, 18), (.bld c, 0x20), (.dma c, 0x21),
      (.nrd c, 0x22), (.nwr c, 0x23), (.push c, 0x24), (.pop c, 0x25), (.mbp c, 0x30), (.mxn c, 0x31), (.msh1 c, 0x32), (.msh2 c, 0x33),
      (.mb24 c, 0x34), (.msp c, 0x35), (.seed c, 0x50), (.fence c, 0x51)], s.issues c p.2 = false → exec p.1 s = .next s) ∧
  (s.issues c 0 = true → exec (.nop c) s = .next (s.issued c)) ∧
  (s.issues c 2 = true → exec (.jmp c) s = .next ((s.issued c).modSeq c (fun x => { x with
    pc := BitVec.ofNat 12 (if fI w then (q.sreg (fA w) + fIMM w) % 2 ^ 32 else (q.pc.toNat + fIMM w) % 2 ^ 32) }))) ∧
  (s.issues c 3 = true → ∀ a b : Nat, a = q.sreg (fA w) → b = q.sreg (fB w) →
    ∃ y : Prop, (fFN w = 0 → (y ↔ a = b)) ∧ (fFN w = 1 → (y ↔ a ≠ b)) ∧ (fFN w = 2 → (y ↔ signed 32 a < signed 32 b)) ∧
      (fFN w = 3 → (y ↔ signed 32 b ≤ signed 32 a)) ∧ (fFN w = 4 → (y ↔ a < b)) ∧ (fFN w = 5 → (y ↔ b ≤ a)) ∧
      (y → exec (.br c) s = .next ((s.issued c).modSeq c (fun x => { x with
        pc := BitVec.ofNat 12 ((q.pc.toNat + fIMM w) % 2 ^ 32) }))) ∧ (¬y → exec (.br c) s = .next (s.issued c))) ∧
  (s.issues c 4 = true → ∀ (i v : Nat) (u : State), i = fD w % 8 → v = (Tab.get 0 q.l i).toNat →
    u = (s.issued c).modSeq c (fun x => { x with l := Tab.set 0 x.l i (word (v - 1)) }) →
    (1 < v → exec (.loop c) s = .next (u.modSeq c (fun x => { x with pc := BitVec.ofNat 12 ((q.pc.toNat + fIMM w) % 2 ^ 32) }))) ∧
    (v ≤ 1 → exec (.loop c) s = .next u)) ∧
  (s.issues c 16 = true → (q.cueLatched = true → exec (.twait c) s = .next ((s.issued c).modSeq c (fun x => { x with
      cueLatched := false, epoch := 0, ckpts := [] }))) ∧
    (q.cueLatched = false → exec (.twait c) s = .next (s.modSeq c (fun x => { x with state := 2 })))) ∧
  (s.issues c 17 = true → ∀ id, id = bitsOf w 55 52 → exec (.bar c) s = .next (s.modSeq c (fun x => { x with
    state := 7, waitBar := some id, arrivals := Tab.set 0 x.arrivals id (Tab.get 0 x.arrivals id + 1) }))) ∧
  (s.issues c 18 = true → ∀ v, v = (q.sreg (fA w) + bitsOf w 15 0) % 2 ^ 32 →
    (v = q.epoch.toNat → exec (.epoch c) s = .next (s.issued c)) ∧
    (v < q.epoch.toNat ∨ 65535 < v ∧ v ≠ q.epoch.toNat → exec (.epoch c) s = .next (s.seqStop c 0x2112 2)) ∧
    (q.epoch.toNat < v → v ≤ 65535 → q.ckptFull v = true → exec (.epoch c) s = .next (s.modSeq c (fun x => { x with state := 8 }))) ∧
    (q.epoch.toNat < v → v ≤ 65535 → q.ckptFull v = false → (∀ k ∈ q.ckpts, k.key.toNat ≠ v) →
      exec (.epoch c) s = .next ((s.modSeq c (fun x => { x with
        ckpts := x.ckpts ++ [⟨BitVec.ofNat 16 v, x.pc, x.epoch, x.seed, x.s, x.l, x.t⟩], epoch := BitVec.ofNat 16 v })).issued c))) ∧
  (s.issues c 0x51 = true → let free := (List.range 8).all (fun i => !bitOf (bitsOf w 55 48) i || s.classDone c i)
    (free = true → exec (.fence c) s = .next (s.issued c)) ∧ (free = false → exec (.fence c) s = .next s)) ∧
  (s.issues c 0x50 = true → exec (.seed c) s = .next ((s.issued c).modSeq c (fun x => { x with
    seed := BitVec.ofNat 64 (q.sreg (fB w) * 2 ^ 32 + q.sreg (fA w)) }))) ∧
  (∀ (id : Fin 16) (b : BarrierCfg) (n : Nat), s.barrierOf c id.val = some b → n = Tab.get 0 q.arrivals id.val →
    ∀ waits : CoreId → Bool, waits = (fun d => (s.seqAt d).waitBar == some id.val && Tab.get 0 (s.seqAt d).arrivals id.val == n) →
    (waits c = true → (∀ d ∈ b.members, n ≤ Tab.get 0 (s.seqAt d).arrivals id.val) → b.members.Nodup →
      ∃ t : State, exec (.barrierComplete c id) s = .next t ∧ ∀ d ∈ b.members, waits d = true →
        (t.seqAt d).waitBar = none ∧ (t.seqAt d).state = 1 ∧ (t.seqAt d).pc = (s.seqAt d).pc + 1) ∧
    ((waits c = false ∨ ∃ d ∈ b.members, Tab.get 0 (s.seqAt d).arrivals id.val < n) → exec (.barrierComplete c id) s = .next s)) ∧
  (s.mayFetch c = true → q.imemBad.contains q.pc.toNat = false → s.illegalAt c = true →
    exec (.seqIllegal c) s = .next (s.seqStop c 0x2110 0)) ∧
  (s.mayFetch c = true → q.imemBad.contains q.pc.toNat = true → exec (.seqImemParity c) s = .next (s.seqStop c 0x4131 4)) ∧
  (∀ (code e : Nat), s.seqStop c code e = ((s.modSeq c (fun x => { x with
    state := 11, err := x.err ||| BitVec.ofNat 5 (2 ^ e) })).raise code none none (posOf c 0)).sharedFault)

/-- R362, R363, R378, R406, R407, R411, R418, R421 to R423. S0 reads as 0 and ignores writes. LDI loads IMM into S or L, the low tick count,
or the core's place; ALU writes what its 13 functions give of S[A] and S[B] or IMM, modulo 2^32, shifts by the low five bits, MIN,
MAX, SLT and SRA signed; TADD moves ADDR of T[D] on by S[A] + IMM × STRIDE modulo 2^44. LDS, STS and TLD address S[A] + IMM in the
cluster's window, aligned to 4 or 32 bytes; within reach and with the scoreboard free LDS loads the word that memory holds, STS
stores S[B], its range entered in the scoreboard, and TLD loads a descriptor; otherwise they wait with WAIT_SB, and beyond reach
they fault. -/
def Obligations.ScalarInstructions : Prop :=
  (∀ (q : SeqSt) (i v : Nat), q.sreg 0 = 0 ∧ q.setS 0 v = q ∧ (i ≠ 0 → Tab.wf (0 : Word) q.s = true →
    (q.setS i v).sreg i = v % 2 ^ 32 ∧ ∀ j, j ≠ i → (q.setS i v).sreg j = q.sreg j)) ∧
  (∀ (c : CoreId) (s : State) (q : SeqSt) (w : DWord), q = s.seqAt c → q.word = w →
    (s.issues c 5 = true →
      (fFN w = 0 → exec (.ldi c) s = .next ((s.issued c).modSeq c (fun x => x.setS (fD w) (fIMM w)))) ∧
      (fFN w = 1 → exec (.ldi c) s = .next ((s.issued c).modSeq c (fun x => { x with l := Tab.set 0 x.l (fD w % 8) (word (fIMM w)) }))) ∧
      (fFN w = 2 → exec (.ldi c) s = .next ((s.issued c).modSeq c (fun x => x.setS (fD w) (s.tick.count.toNat % 2 ^ 32)))) ∧
      (fFN w = 3 → exec (.ldi c) s = .next ((s.issued c).modSeq c (fun x => x.setS (fD w)
        (c.die.val * 2 ^ 14 + c.cl.val * 2 ^ 10 + c.core.val * 2 ^ 6)))) ∧
      (fFN w = 4 → ∀ b, q.bound.getLast? = some b → exec (.ldi c) s = .next ((s.issued c).modSeq c (fun x => x.setS (fD w)
        (bitAt b.rerun 0 + bitAt (s.layerAt (LayerDesc.lix b.desc)).sticky 1 + b.aw.toNat * 4 + b.wpl.toNat * 128 + bitAt b.fast 12))))) ∧
    (s.issues c 6 = true → ∀ a b : Nat, a = q.sreg (fA w) → b = (if fI w then fIMM w else q.sreg (fB w)) →
      ∀ e ∈ [(0, (a + b) % 2 ^ 32), (1, (2 ^ 32 + a - b) % 2 ^ 32), (2, a &&& b), (3, a ||| b), (4, a ^^^ b), (5, a * 2 ^ (b % 32) % 2 ^ 32),
        (6, a / 2 ^ (b % 32)), (7, unsigned 32 (signed 32 a / (2 ^ (b % 32) : Nat))), (8, a * b % 2 ^ 32),
        (9, if signed 32 a < signed 32 b then a else b), (10, if signed 32 a < signed 32 b then b else a),
        (11, if signed 32 a < signed 32 b then 1 else 0), (12, if a < b then 1 else 0)],
      fFN w = e.1 → exec (.alu c) s = .next ((s.issued c).modSeq c (fun x => x.setS (fD w) e.2))) ∧
    (s.issues c 10 = true → ∀ t : TileDesc, t = q.treg (fD w % 16) → exec (.tadd c) s = .next ((s.issued c).modSeq c (fun x =>
      x.setT (fD w % 16) (t.setAddr (unsigned 44 ((t.addr : Int) + (q.sreg (fA w) : Int) + signed 32 (fIMM w) * t.stride)))))) ∧
    (∀ (g a : Nat), a = 0x40000000000 + c.die.val * 0x10000000 + c.cl.val * 0x1000000 + (q.sreg (fA w) + fIMM w) % 2 ^ 24 / g * g →
      ∀ (r : List SbRange) (u : State), r = s.sbRange a g →
      (s.issues c 7 = true → g = 4 →
        (s.coreReach c a = true → (s.coreAt c).sbFree [] [] r = true → u = s.sbEnter c [] [] → (u.workRead a 4).1 = true →
          exec (.lds c) s = .next (((u.workRead a 4).2.issued c).modSeq c (fun x => x.setS (fD w) (leNat (u.peek a 4))))) ∧
        (s.coreReach c a = true → (s.coreAt c).sbFree [] [] r = false → exec (.lds c) s = .next (s.modSeq c (fun x => { x with state := 4 }))) ∧
        (s.coreReach c a = false → exec (.lds c) s = .next (s.reachFault c))) ∧
      (s.issues c 8 = true → g = 4 →
        (s.coreReach c a = true → (s.coreAt c).sbFree r [] [] = true → u = s.sbEnter c r [] →
          exec (.sts c) s = .next ((u.writeDev a (leBytes 4 ((u.seqAt c).sreg (fB w)))).issued c) ∧ (u.seqAt c).sreg (fB w) = q.sreg (fB w)) ∧
        (s.coreReach c a = true → (s.coreAt c).sbFree r [] [] = false → exec (.sts c) s = .next (s.modSeq c (fun x => { x with state := 4 }))) ∧
        (s.coreReach c a = false → exec (.sts c) s = .next (s.reachFault c))) ∧
      (s.issues c 9 = true → g = 32 →
        (s.coreReach c a = true → (s.coreAt c).sbFree [] [] r = true → u = s.sbEnter c [] [] → (u.workRead a 32).1 = true →
          exec (.tld c) s = .next (((u.workRead a 32).2.issued c).modSeq c (fun x =>
            x.setT (fD w % 16) (BitVec.ofNat 256 (leNat (u.peek a 32)))))) ∧
        (s.coreReach c a = true → (s.coreAt c).sbFree [] [] r = false → exec (.tld c) s = .next (s.modSeq c (fun x => { x with state := 4 }))) ∧
        (s.coreReach c a = false → exec (.tld c) s = .next (s.reachFault c)))))

/-- R337, R363, R378, R421, R427, R446, R452 to R454, R463, R464, R801. A LYR beyond reach faults; an ordinal of 0, above 65,535 or below
the epoch stops the sequencer with 0x2112; while four descriptors are bound, a ninth checkpoint is needed or the scoreboard is not
free, it waits; a descriptor whose MAGIC or CHECK fails binds nothing and stops it with 0x2111. Otherwise the descriptor is the
last bound one, under its ordinal, with the current seed as its layer seed; the epoch is at least its ordinal, a checkpoint of the
ordinal is held, the invocation lists the core and PC moves on. END waits, with WAIT_QUEUE, until every class of issued work is
done; then PC is 0, the sequencer has ended and unfinished refresh checks are abandoned. -/
def Obligations.BindAndEnd : Prop := ∀ (c : CoreId) (s : State) (q : SeqSt) (w : DWord), q = s.seqAt c → q.word = w →
  (s.issues c 11 = true → ∀ (a ord : Nat), ord = (q.sreg (fB w) + bitsOf w 15 0) % 2 ^ 32 →
    a = 0x40000000000 + c.die.val * 0x10000000 + c.cl.val * 0x1000000 + (q.sreg (fA w) + bitsOf w 31 16 * 256) % 2 ^ 24 / 256 * 256 →
    (s.coreReach c a = false → exec (.lyr c) s = .next (s.reachFault c)) ∧
    (s.coreReach c a = true → ord = 0 ∨ 65535 < ord ∨ ord < q.epoch.toNat → exec (.lyr c) s = .next (s.seqStop c 0x2112 2)) ∧
    (s.coreReach c a = true → 0 < ord → ord ≤ 65535 → q.epoch.toNat ≤ ord →
      (4 ≤ (s.liveBounds c).length → exec (.lyr c) s = .next (s.modSeq c (fun x => { x with state := 9 }))) ∧
      ((s.liveBounds c).length < 4 → q.ckptFull ord = true → exec (.lyr c) s = .next (s.modSeq c (fun x => { x with state := 8 }))) ∧
      ((s.liveBounds c).length < 4 → q.ckptFull ord = false → (s.coreAt c).sbFree [] [] (s.sbRange a 256) = false →
        exec (.lyr c) s = .next (s.modSeq c (fun x => { x with state := 4 }))) ∧
      ((s.liveBounds c).length < 4 → q.ckptFull ord = false → (s.coreAt c).sbFree [] [] (s.sbRange a 256) = true →
        ∀ (u : State) (d : LayerDesc), u = s.sbEnter c [] [] → d = BitVec.ofNat 2048 (leNat (u.peek a 256)) → (u.workRead a 256).1 = true →
        (d.checkOk = false → exec (.lyr c) s = .next ((u.workRead a 256).2.seqStop c 0x2111 1)) ∧
        (d.checkOk = true → ∃ (t : State) (b : Bound), exec (.lyr c) s = .next t ∧ (t.seqAt c).bound.getLast? = some b ∧
          b.ord = BitVec.ofNat 16 ord ∧ b.desc = d ∧ b.seed = q.seed ∧ (t.seqAt c).epoch = (if q.epoch < BitVec.ofNat 16 ord then BitVec.ofNat 16 ord else q.epoch) ∧
          (∃ k ∈ (t.seqAt c).ckpts, k.key.toNat = ord) ∧ (t.seqAt c).pc = q.pc + 1 ∧ (t.seqAt c).state = 1 ∧
          (t.invAt ord).cores.contains c.num = true)))) ∧
  (s.issues c 1 = true → (s.allDone c = false → exec (.seqEnd c) s = .next (s.modSeq c (fun x => { x with state := 5 }))) ∧
    (s.allDone c = true → ∃ t : State, exec (.seqEnd c) s = .next t ∧ (t.seqAt c).pc = 0 ∧ (t.seqAt c).ended = true ∧ (t.seqAt c).state = 0 ∧
      ∀ e ∈ (t.coreAt c).euQ, e.kind ≠ 3))

/-- R158, R172, R205, R209, R236, R363, R378, R417, R435 to R438, R459. A matrix instruction under a bound descriptor: one of the other half of a split is
passed over; a configured mode other than the opcode's stops the sequencer with 0x2113; a range beyond entry 31 faults with 0x2151, an
accumulation into entries of the other format with 0x2150; a source beyond reach faults; entries that the converter holds make it
wait at issue, so does a chain queue with four waiting instructions, or the scoreboard; a record that fails its CHECK faults with 0x2141, a
correction table that does not fit with 0x2140. Otherwise it enters the chain queue with its operands, the record's width and
sign, counts one input tile, and PC moves on. -/
def Obligations.MatrixInstructions : Prop := ∀ (c : CoreId) (s : State) (w : DWord) (b : Bound) (tm base : Nat) (half : Bool) (e : Instr × Nat × Nat),
  e ∈ [(Instr.mbp c, 0x30, 0), (.mxn c, 0x31, 1), (.msh1 c, 0x32, 2), (.msh2 c, 0x33, 3), (.mb24 c, 0x34, 4), (.msp c, 0x35, 0)] →
  s.issues c e.2.1 = true → (s.seqAt c).word = w → (s.seqAt c).bound.getLast? = some b → tm = bitsOf w 48 43 → base = bitsOf w 53 49 →
  half = bitOf w.toNat 54 →
  (b.split = true → half ≠ (b.part == 1) → exec e.1 s = .next (s.modSeq c (fun x => { x with state := 1, pc := x.pc + 1 }))) ∧
  (b.split = false ∨ half = (b.part == 1) →
    (LayerDesc.pmode b.desc ≠ e.2.2 → exec e.1 s = .next (s.seqStop c 0x2113 3)) ∧
    (LayerDesc.pmode b.desc = e.2.2 → 32 < base + tm → exec e.1 s = .next (s.ocvFault c 0x2151 1)) ∧
    (LayerDesc.pmode b.desc = e.2.2 → base + tm ≤ 32 → bitOf w.toNat 55 = true → (s.coreAt c).formatsFit b.fast base tm = false →
      exec e.1 s = .next (s.ocvFault c 0x2150 0)) ∧
    (LayerDesc.pmode b.desc = e.2.2 → base + tm ≤ 32 → (bitOf w.toNat 55 = true → (s.coreAt c).formatsFit b.fast base tm = true) →
      (s.inputTile c b ((s.seqAt c).treg (bitsOf w 42 39)) = none → exec e.1 s = .next (s.modSeq c (fun x => { x with state := 6 }))) ∧
      (∀ (td : TileDesc) (src : TileSrc) (x : Source), s.inputTile c b ((s.seqAt c).treg (bitsOf w 42 39)) = some td → s.source c td = x → x.tile = some src →
        (td.ring = false → (s.coreReach c td.addr = false ∨ s.coreReach c (td.addr - 32) = false) → exec e.1 s = .next (s.reachFault c)) ∧
        ((td.ring = false → s.coreReach c td.addr = true ∧ s.coreReach c (td.addr - 32) = true) →
          ((s.coreAt c).heldBy b.fast (half && b.fast) base tm = true → ∃ t : State, exec e.1 s = .next t ∧ (t.seqAt c).pc = (s.seqAt c).pc ∧
            (t.coreAt c).chainQ = (s.coreAt c).chainQ) ∧
          ((s.coreAt c).heldBy b.fast (half && b.fast) base tm = false →
            (4 ≤ ((s.coreAt c).chainQ.filter (fun o => !o.started)).length → exec e.1 s = .next (s.modSeq c (fun x => { x with state := 5 }))) ∧
            (((s.coreAt c).chainQ.filter (fun o => !o.started)).length < 4 → ∀ r : TRec, s.recordOf c td = some r →
              (r.ok = false → exec e.1 s = .next ((s.raise 0x2141 none none (posOf c 0)).sharedFault)) ∧
              (r.ok = true → LayerDesc.ctp b.desc ≠ 0 → s.corrHeaderOk b.desc = false →
                exec e.1 s = .next ((s.raise 0x2140 none none (posOf c 0)).sharedFault)) ∧
              (r.ok = true → (LayerDesc.ctp b.desc = 0 ∨ s.corrHeaderOk b.desc = true) →
                ∀ ck, ck = (if td.ring then [] else s.sbRange (td.addr - 32) (32 + s.tileLen src)) →
                ((s.coreAt c).sbFree [] [] ck = false → exec e.1 s = .next (s.modSeq c (fun x => { x with state := 4 }))) ∧
                ((s.coreAt c).sbFree [] [] ck = true → ∃ (t : State) (o : ChainOp) (b' : Bound), exec e.1 s = .next t ∧
                  (t.coreAt c).chainQ = (if tm = 0 then (s.coreAt c).chainQ else (s.coreAt c).chainQ ++ [o]) ∧
                  o.code = BitVec.ofNat 8 e.2.1 ∧ o.ord = b.ord ∧ o.acc = bitOf w.toNat 55 ∧ o.half = (half && b.fast) ∧ o.acbase = base ∧ o.tm = tm ∧
                  o.bank = bitOf w.toNat 38 ∧ o.ct = (s.seqAt c).sreg (bitsOf w 37 33) ∧ o.tile = td ∧ o.src = src ∧ o.aw = r.width ∧
                  o.sign = r.sign ∧ o.zp = r.zp ∧ o.started = false ∧
                  (t.seqAt c).bound.getLast? = some b' ∧ b'.nIn = b.nIn + 1 ∧ b'.ord = b.ord ∧ b'.desc = b.desc ∧
                  b'.sIn = (if b.sIn = none then some r.sT else b.sIn) ∧
                  (t.seqAt c).pc = (s.seqAt c).pc + 1 ∧ (t.seqAt c).state = 1))))))))

/-- R68, R69, R73, R354, R362, R363, R378, R417, R428 to R432, R589, R590. BLD whose blocks are there and in reach enters the load queue with its
planes from the highest down, clear flag, engines and block addresses; the loads of its engines' bank are marked and PC moves on;
with four queued, no block yet or the scoreboard not free it waits; beyond reach it faults. The first load of the queue completes
once no earlier instruction reads its bank: its engines' bank is then written and it leaves the queue. DMA within reach, with
room and the scoreboard free, delivers the bytes it has read: to memory, or to its ring entry by entry, and enters its queue. NRD
and NWR copy the words of their blocks between local rows and the far region. The first move of a queue leaves it when nothing
is left to push and a window has acknowledged it. -/
def Obligations.LoadsAndMoves : Prop := ∀ (c : CoreId) (s : State) (w : DWord), (s.seqAt c).word = w →
  (s.issues c 0x20 = true → ∀ (td : TileDesc) (first n : Nat) (planes idx : List Nat) (bank : Bool), td = (s.seqAt c).treg (bitsOf w 34 31) →
    bank = bitOf w.toNat 55 → first = (if bitOf w.toNat 43 then 16 else bitsOf w 42 39) → n = (if bitOf w.toNat 43 then 1 else bitsOf w 38 35 + 1) →
    planes = maskDown 8 (bitsOf w 53 46) → idx = maskDown 2 (bitsOf w 45 44) →
    (td.ring = true → (s.ringAt (s.ringOwner c td) td.q).en = true ∧ (s.ringAt (s.ringOwner c td) td.q).stopped = false) →
    (s.loadBlocks c td (planes.length + idx.length) n = some none → exec (.bld c) s = .next (s.modSeq c (fun x => { x with state := 6 }))) ∧
    (s.loadBlocks c td (planes.length + idx.length) n = none → exec (.bld c) s = .next (s.ringFault (s.ringOwner c td) td.q)) ∧
    (∀ bs : List (List Nat), s.loadBlocks c td (planes.length + idx.length) n = some (some bs) →
      (bs.all (fun l => l.all (fun a => s.coreReach c a)) = false → exec (.bld c) s = .next (s.reachFault c)) ∧
      (bs.all (fun l => l.all (fun a => s.coreReach c a)) = true →
        (4 ≤ (s.coreAt c).loadQ.length → exec (.bld c) s = .next (s.modSeq c (fun x => { x with state := 5 }))) ∧
        ((s.coreAt c).loadQ.length < 4 → ∀ ck, ck = (if td.ring then [] else bs.flatMap (fun l => l.flatMap (fun a => s.sbRange a 2048))) →
          ((s.coreAt c).sbFree [] [] ck = false → exec (.bld c) s = .next (s.modSeq c (fun x => { x with state := 4 }))) ∧
          ((s.coreAt c).sbFree [] [] ck = true → ∃ (t : State) (o : LoadOp), exec (.bld c) s = .next t ∧
            (t.coreAt c).loadQ = (s.coreAt c).loadQ ++ [o] ∧ o.bank = bank ∧ o.clr = bitOf w.toNat 54 ∧ o.planes = planes ∧ o.idxPlanes = idx ∧
            o.first = first ∧ o.n = n ∧ o.blocks = bs ∧ (t.seqAt c).pc = (s.seqAt c).pc + 1 ∧ (t.seqAt c).state = 1))))) ∧
  ((s.coreAt c).loadQ = [] → exec (.bankLoadDone c) s = .next s) ∧
  (∀ (o : LoadOp) (rest : List LoadOp) (busy : Bool), (s.coreAt c).loadQ = o :: rest →
    busy = (s.coreAt c).chainQ.any (fun p => decide (p.id < o.id) && p.readsBank o.bank &&
      (List.range o.n).any (fun i => !(s.engAt c (o.first + i)).doneWith (o.first + i) p)) →
    (busy = true → exec (.bankLoadDone c) s = .next s) ∧
    (busy = false → ∀ r, r = s.readAll (o.blocks.flatMap (fun l => l.map (fun a => (a, 2048)))) →
      (r.1 = false → exec (.bankLoadDone c) s = .next r.2) ∧
      (r.1 = true → ∃ t u : State, exec (.bankLoadDone c) s = .next t ∧ u = (List.range o.n).foldl (fun s i => s.loadEngine c o i) r.2 ∧
        (t.coreAt c).loadQ = rest ∧ ∀ e, ∃ x : EngineSt, t.engAt c e = x ∧ x.bankA = (u.engAt c e).bankA ∧ x.bankB = (u.engAt c e).bankB ∧
          x.validA = (u.engAt c e).validA ∧ x.validB = (u.engAt c e).validB))) ∧
  (∀ (x : EngineSt) (p : Nat) (l : List Byte), (x.putPlane false p l).bankA = Tab.setRange 0 x.bankA (p * 512) (leWords 512 l) ∧
    (x.putPlane false p l).validA = x.validA ||| BitVec.ofNat 8 (2 ^ p) ∧ (x.putPlane false p l).bankB = x.bankB ∧
    (x.putPlane true p l).bankB = Tab.setRange 0 x.bankB (p * 512) (leWords 512 l) ∧
    (x.putPlane true p l).validB = x.validB ||| BitVec.ofNat 8 (2 ^ p) ∧ (x.putPlane true p l).bankA = x.bankA ∧
    (x.clearValid false).validA = 0 ∧ (x.clearValid true).validB = 0) ∧
  (s.issues c 0x21 = true → ∀ (ts td : TileDesc) (die : Bool) (n : Nat) (x : Source) (src : TileSrc), ts = (s.seqAt c).treg (bitsOf w 55 52) →
    td = (s.seqAt c).treg (bitsOf w 51 48) → die = bitOf w.toNat 47 → n = s.moveLen c (bitsOf w 46 42) 1 ts → s.source c ts = x → x.tile = some src →
    (ts.ring = false → s.moveReach c die false ts.addr = .ok) → (td.ring = false → s.moveReach c die true td.addr = .ok) →
    (td.ring = true → (s.ringAt (s.ringOwner c td) td.q).en = true) →
    (s.moveRoom c die = false → exec (.dma c) s = .next (s.modSeq c (fun x => { x with state := 5 }))) ∧
    (s.moveRoom c die = true → ∀ wr rd, wr = (if td.ring then [] else s.sbRange td.addr n) → rd = s.sourceRange x n →
      ((s.coreAt c).sbFree wr rd [] = false → exec (.dma c) s = .next (s.modSeq c (fun x => { x with state := 4 }))) ∧
      ((s.coreAt c).sbFree wr rd [] = true → ∀ (u : State) (l : List Byte), (s.sbEnter c wr rd).fetchMove c x n = (true, l, u) →
        (u.issued c).tickLive = true → ∃ (t : State) (o : DmaOp), exec (.dma c) s = .next t ∧ o.code = 0x21 ∧ o.blocked = false ∧
          o.prod = (if die then .dieDma c.die.val else .core c.num) ∧ o.epoch = (s.seqAt c).epoch ∧
          (td.ring = true → o.ring = some ((s.ringOwner c td).num, td.q) ∧ o.bytes = l ∧ t = (u.issued c).queueMove c die o) ∧
          (td.ring = false → o.ring = none ∧ o.bytes = [] ∧ o.window = (u.issued c).windowOf td.addr ∧
            t = (if l.isEmpty then u.issued c else (u.issued c).deliver c td.addr l).queueMove c die o)))) ∧
  (∀ (o : DmaOp) (die : Bool) (u : State), o.ring = none → o.blocked = false → u.queueMove c die o = u.modCore c (fun k =>
    if die then { k with dieQ := k.dieQ ++ [o] } else { k with dmaQ := k.dmaQ ++ [o] })) ∧
  (∀ (die : Bool) (o : DmaOp) (rest : List DmaOp), (if die then (s.coreAt c).dieQ else (s.coreAt c).dmaQ) = o :: rest →
    (o.bytes = [] ∧ (o.window = none ∨ o.acked = true) → exec (.dmaDone c die) s = .next (s.modCore c (fun k =>
      if die then { k with dieQ := rest } else { k with dmaQ := rest }))) ∧
    (o.bytes ≠ [] ∨ (o.window ≠ none ∧ o.acked = false) → exec (.dmaDone c die) s = .next s)) ∧
  (∀ die : Bool, (if die then (s.coreAt c).dieQ else (s.coreAt c).dmaQ) = [] → exec (.dmaDone c die) s = .next s) ∧
  (∀ (write : Bool) (i : Instr), (write, i) = (false, .nrd c) ∨ (write, i) = (true, .nwr c) → s.issues c (if write then 0x23 else 0x22) = true →
    ∀ (nb base : Nat) (far near : List Nat), nb = bitsOf w 41 30 → base = clusterAddr c ((s.seqAt c).sreg (bitsOf w 29 25)) 128 →
    far = (List.range nb).flatMap (fun k => blockWords (bitsOf w 51 50) (bitsOf w 49 47) ((s.seqAt c).sreg (bitsOf w 46 42))
      ((s.seqAt c).treg (bitsOf w 55 52)).addr k) → near = (List.range nb).flatMap (fun k => blockWords 0 0 0 base k) →
    ((far ++ near).all (fun a => s.coreReach c a) = false → exec i s = .next (s.reachFault c)) ∧
    ((far ++ near).all (fun a => s.coreReach c a) = true →
      (s.moveRoom c false = false → exec i s = .next (s.modSeq c (fun x => { x with state := 5 }))) ∧
      (s.moveRoom c false = true → ∀ rf rn, rf = s.sbRange (far.foldl min (far.headD 0)) (far.foldl max 0 + 4 - far.foldl min (far.headD 0)) →
        rn = s.sbRange base (128 * nb) → ∀ wr rd ck, wr = (if write then rf else rn) → rd = (if write then rn else []) → ck = (if write then [] else rf) →
        ((s.coreAt c).sbFree wr rd ck = false → exec i s = .next (s.modSeq c (fun x => { x with state := 4 }))) ∧
        ((s.coreAt c).sbFree wr rd ck = true → ∀ (u : State), (s.sbEnter c wr rd).readWords (if write then near else far) = (true, u) →
          (u.issued c).tickLive = true → ∃ (o : DmaOp), o.ring = none ∧ o.blocked = false ∧ o.bytes = [] ∧ o.window = none ∧
            exec i s = .next (((if write then (u.issued c).copyWords near far else (u.issued c).copyWords far near)).queueMove c false o)))))

/-- R366 to R370, R374 to R377, R384 to R386, R433, R434, R798, R800. A push whose producer has its turn, which needs no mark that must wait and for
whose bytes there is room writes them at TAIL and moves TAIL on, leaving HEAD; without its turn it waits with its reservation queued, without a
mark with PWAIT, without room with FULL. A release moves HEAD on by readable bytes, or waits. PUSH makes a push of its source's bytes, with its
KIND and the current epoch, and enters the core DMA queue; it waits for that queue, the scoreboard and its source, and faults on a disabled ring or
beyond reach. POP releases the entries it names once no issued work reads the ring; until then it waits with WAIT_RING. A push that
a core holds back is tried again in queue order; a consumer that waited for a ring goes on once its instruction can; a scoreboard
entry leaves when its range is done. -/
def Obligations.RingInstructions : Prop :=
  (∀ (s : State) (c : CoreId) (q : Nat) (p : Producer) (e : BitVec 16) (l : List Byte) (r : RingSt) (m : MarkStep), r = s.ringAt c q →
    m = r.markStep (s.coreAt c).conf e (s.tick.count.getLsbD 0) →
    (s.hasTurn c q p = true → m ≠ .wait → r.fullFor l.length = false → ∃ (t : State) (x : RingSt), s.pushBytes c q p e l = .done t ∧
      t.ringAt c q = x ∧ x.tail = r.adv r.tail l.length ∧ x.head = r.head ∧ x.full = false ∧ x.pwait = false ∧
      (r.nprodM1 ≠ 0 → x.turn = BitVec.ofNat 4 ((r.turn.toNat + 1) % (r.nprodM1.toNat + 1))) ∧
      (∀ k, m = .mark k → x.marks = r.marks ++ [k] ∧ k = ⟨e, s.tick.count.getLsbD 0, r.head, r.tail, r.turn⟩) ∧
      (m = .plain → x.marks = r.marks) ∧ t.mem = (s.ringPut c q r.tail l).mem) ∧
    (s.hasTurn c q p = false → s.pushBytes c q p e l = .wait (s.modRing c q (fun x => x.queueResv (s.producerIndex c q p)))) ∧
    (s.hasTurn c q p = true → m = .wait → s.pushBytes c q p e l = .wait (s.modRing c q (fun x => { x with pwait := true }))) ∧
    (s.hasTurn c q p = true → m ≠ .wait → r.fullFor l.length = true →
      s.pushBytes c q p e l = .wait (s.modRing c q (fun x => { x with full := true }))) ∧
    (∀ n : Nat, (r.readable < n → s.releaseBytes c q e n = .wait s) ∧
      (n ≤ r.readable → m = .wait → s.releaseBytes c q e n = .wait (s.modRing c q (fun x => { x with cwait := true }))) ∧
      (n ≤ r.readable → m ≠ .wait → ∃ (t : State) (x : RingSt), s.releaseBytes c q e n = .done t ∧ t.ringAt c q = x ∧
        x.head = r.adv r.head n ∧ x.tail = r.tail ∧ t = { s with core := t.core }))) ∧
  (∀ (c : CoreId) (s : State) (w : DWord), (s.seqAt c).word = w →
    (s.issues c 0x24 = true → ∀ (td ts : TileDesc) (d : CoreId) (n : Nat) (x : Source) (src : TileSrc), td = (s.seqAt c).treg (bitsOf w 55 52) →
      ts = (s.seqAt c).treg (bitsOf w 51 48) → d = s.ringOwner c td → s.source c ts = x → x.tile = some src →
      n = (if (s.ringAt d td.q).esize = 0 then s.moveLen c (bitsOf w 43 39) 8 ts else (s.ringAt d td.q).esize.toNat * 8) →
      ((s.ringAt d td.q).en = false → exec (.push c) s = .next (s.ringFault d td.q)) ∧
      ((s.ringAt d td.q).en = true → ts.ring = false → s.coreReach c ts.addr = false → exec (.push c) s = .next (s.reachFault c)) ∧
      ((s.ringAt d td.q).en = true → (ts.ring = false → s.coreReach c ts.addr = true) →
        (s.moveRoom c false = false → exec (.push c) s = .next (s.modSeq c (fun x => { x with state := 5 }))) ∧
        (s.moveRoom c false = true → ∀ rd, rd = s.sourceRange x n →
          ((s.coreAt c).sbFree [] [] rd = false → exec (.push c) s = .next (s.modSeq c (fun x => { x with state := 4 }))) ∧
          ((s.coreAt c).sbFree [] [] rd = true → ∀ u v : State, v = s.sbEnter c [] [] → v.readSource x n = (true, u) →
            (u.issued c).tickLive = true → exec (.push c) s = .next ((u.issued c).queueMove c false
              ⟨0x24, .core c.num, (s.seqAt c).lastOrd, 0, (s.seqAt c).epoch, some (d.num, td.q), BitVec.ofNat 4 (bitsOf w 47 44),
                v.sourceBytes x n, false, none, false, false⟩))))) ∧
    (s.issues c 0x25 = true → ∀ (q n : Nat) (r : RingSt), q = bitsOf w 55 52 → r = s.ringAt c q →
      n = ((s.seqAt c).sreg (bitsOf w 51 47) + fIMM w) % 2 ^ 32 →
      (r.en = false → exec (.pop c) s = .next (s.ringFault c q)) ∧
      (r.en = true → ((s.coreAt c).readsRing q = true ∨ r.stopped = true ∨ (r.readable < n * 8 ∧ n ≠ 0)) →
        exec (.pop c) s = .next (s.modSeq c (fun x => { x with state := 6 }))) ∧
      (r.en = true → (s.coreAt c).readsRing q = false → r.stopped = false → (n = 0 ∨ n * 8 ≤ r.readable) →
        (s.entriesBytes c q r.head r.readable n = none → exec (.pop c) s = .next (s.ringFault c q)) ∧
        (s.entriesBytes c q r.head r.readable n = some none → exec (.pop c) s = .next (s.modSeq c (fun x => { x with state := 6 }))) ∧
        (∀ (k : Nat) (t : State), s.entriesBytes c q r.head r.readable n = some (some k) →
          (s.releaseBytes c q (s.seqAt c).epoch k = .done t → exec (.pop c) s = .next (t.issued c)) ∧
          (s.releaseBytes c q (s.seqAt c).epoch k = .wait t → exec (.pop c) s = .next (t.modSeq c (fun x => { x with state := 6 })))))) ∧
    (s.pushHeld c = false → exec (.pushResume c) s = .next s) ∧
    (s.pushHeld c = true → ∀ (l : List DmaOp) (u : State), s.retryMoves (s.coreAt c).dmaQ = (l, u) → (u.coreAt c).dieQ = [] → (u.coreAt c).convOut = [] →
      (u.coreAt c).convQ = [] → (u.cluAt c.cluster.num).waiting = [] → (∀ p, (u.lnkAt p).stalled = []) →
      ∃ t : State, exec (.pushResume c) s = .next t ∧ (t.coreAt c).dmaQ = l ∧ ∀ d q, t.ringAt d q = u.ringAt d q) ∧
    (∀ (o : DmaOp) (l : List DmaOp), s.retryMoves [] = ([], s) ∧
      (o.blocked = false → s.retryMoves (o :: l) = (o :: (s.retryMoves l).1, (s.retryMoves l).2)) ∧
      (o.blocked = true → ∀ r, r = s.pushMove { o with blocked := false } (o.bytes.length + 1) →
        (r.1.blocked = true → s.retryMoves (o :: l) = (r.1 :: l, r.2)) ∧
        (r.1.blocked = false → s.retryMoves (o :: l) = (r.1 :: (r.2.retryMoves l).1, (r.2.retryMoves l).2)))) ∧
    ((s.seqAt c).state = 6 → ((s.reissue c).seqAt c).state ≠ 6 → ∃ t : State, exec (.consumerResume c) s = .next t ∧ (t.seqAt c).state = 1 ∧
      (t.seqAt c).pc = (s.seqAt c).pc) ∧
    ((s.seqAt c).state ≠ 6 ∨ ((s.reissue c).seqAt c).state = 6 → exec (.consumerResume c) s = .next s) ∧
    (∀ i : Fin 16, exec (.sbRetire c i) s = .next (s.modCore c (fun k => { k with sb := k.sb.eraseIdx i.val }))))

/-- R77 to R85, R92 to R95, R109 to R118, R122, R125, R203. PLANE_FILL puts the engine's next vector into its free plane buffer and moves on to
the next vector. ROWSUM_STEP stores the 128 per-engine row sums of the oldest buffer. PASS_START fills the registers with the sums of the first slice pair;
it waits without planes (3), for supply (6) or for the bank (4) and faults on a bad form (0x2121), a missing plane (0x2120) or bad parity
(0x4130). GROUP_SUM_HANDOFF goes on to the next slice pair, or ends the pass, frees the buffer and gives the contributions to the link; with the skid full
it waits (5). CHAIN_LINK_ADD adds the engine's contribution to the running sum and hands it to the next link, link 15 to the ACB; a gated engine
passes the sum on; an absent contribution or a full link makes it wait. -/
def Obligations.EnginePassesAndChain : Prop :=
  ∀ (s : State) (c : CoreId) (e : Fin 16) (x : EngineSt), x = s.engAt c e.val →
    ((x.buf0 ≠ none ∧ x.buf1 ≠ none) ∨ s.tickLive = false ∨ x.nextFill e.val (s.coreAt c).chainQ = none → exec (.planeFill c e) s = .next s) ∧
    ((x.buf0 = none ∨ x.buf1 = none) → s.tickLive = true → ∀ (o : ChainOp) (u : Nat) (t : TileData) (b : PlaneBuf),
      x.nextFill e.val (s.coreAt c).chainQ = some (o, u) → o.started = true → s.opTile o = some t →
      b = (if o.sparse then sparseBuf o t e.val u else denseBuf o t e.val u) →
      ∃ (r : State) (y : EngineSt), exec (.planeFill c e) s = .next r ∧ r.engAt c e.val = y ∧ y.nextOp = o.id ∧ y.nextVec = u + 1 ∧
        (x.buf0 = none → y.buf0 = some b ∧ y.buf1 = x.buf1) ∧ (x.buf0 ≠ none → y.buf0 = x.buf0 ∧ y.buf1 = some b) ∧
        (o.bound.pmode ≠ 1 → y.skipped = bump x.skipped (o.aw - (b.active.length + b.activeLo.length))) ∧ y.gsum = x.gsum ∧ y.pass = x.pass) ∧
    (∀ (b : PlaneBuf) (o : ChainOp), x.front = some (b, false) → (s.coreAt c).chainOp b.op = some o →
      (b.rowsum = false ∨ x.pass ≠ none → exec (.rowsumStep c e) s = .next s) ∧
      (b.rowsum = true → x.pass = none → (s.cluAt c.cluster.num).vsup = 0 → o.bound.pmode ≠ 4 →
        ∃ (r : State) (y : EngineSt), exec (.rowsumStep c e) s = .next r ∧ r.engAt c e.val = y ∧ y.state = 2 ∧ y.rowsums = bump x.rowsums ∧
          y.buf0 = some { b with rowsum := false } ∧ y.buf1 = x.buf1 ∧ (r.coreAt c).rowsums = Tab.setRange 0 (s.coreAt c).rowsums (b.vec * 128 + e.val * 8)
            ((List.range (o.form e.val).regs).map (fun g => rowSum (o.form e.val) (x.weights o) b g 0))) ∧
      (b.rowsum = false → x.pass = none → s.tickLive = true → ∀ (k : CoreSt) (f : PassForm) (late : Bool), k = s.coreAt c → f = o.form e.val →
        late = (k.loadsBefore e.val o.bank o.id || ((f.wpl == 16 || o.sparse) && k.loadsBefore e.val (!o.bank) o.id)) →
        (f.bad (LayerDesc.gsz o.bound.desc) (LayerDesc.rows o.bound.desc) = true → exec (.passStart c e) s = .next (s.engFault c e.val 0x2121 2)) ∧
        (f.bad (LayerDesc.gsz o.bound.desc) (LayerDesc.rows o.bound.desc) = false →
          ((s.cluAt c.cluster.num).vsup ≠ 0 → f.fast = false →
            exec (.passStart c e) s = .next (s.modEng c e.val (fun y => { y with state := 6 }))) ∧
          ((s.cluAt c.cluster.num).vsup = 0 → late = true →
            ∃ (r : State) (y : EngineSt), exec (.passStart c e) s = .next r ∧ r.engAt c e.val = y ∧ y.state = 4 ∧ y.pass = none) ∧
          ((s.cluAt c.cluster.num).vsup = 0 → late = false → o.sparse = false →
            (x.planesOk o f = false → exec (.passStart c e) s = .next (s.engFault c e.val 0x2120 0)) ∧
            (x.planesOk o f = true → x.parityOk o f = false → exec (.passStart c e) s = .next (s.engFault c e.val 0x4130 1)) ∧
            (x.planesOk o f = true → x.parityOk o f = true → ∀ u, s.readAll (o.tables e.val) = (true, u) → u.core = s.core →
              ∃ (r : State) (y : EngineSt), exec (.passStart c e) s = .next r ∧ r.engAt c e.val = y ∧ y.state = 1 ∧ y.pass = some ⟨b, false, 0, []⟩ ∧
                y.gsum = (x.setSums f (x.weights o) b (f.pairs.headD (false, false))).gsum ∧
                y.govf = (x.setSums f (x.weights o) b (f.pairs.headD (false, false))).govf ∧ y.vec = BitVec.ofNat 5 b.vec ∧
                y.pmode = BitVec.ofNat 3 f.mode ∧ y.aw = BitVec.ofNat 5 f.aw ∧ y.activeBank = (o.bank != o.sparse)))))) ∧
    (x.pass = none → s.tickLive = true → x.front = none → x.nextFill e.val (s.coreAt c).chainQ ≠ none →
      exec (.passStart c e) s = .next (s.modEng c e.val (fun y => { y with state := 3 }))) ∧
    (x.pass = none → exec (.groupSumHandoff c e) s = .next s) ∧
    (∀ (p : PassSt) (o : ChainOp) (f : PassForm), x.pass = some p → (s.coreAt c).chainOp p.buf.op = some o → f = o.form e.val → o.sparse = false →
      (f.pairs.length ≤ p.pair + 1 → 8 ≤ x.contribs.length → ∃ (r : State) (y : EngineSt), exec (.groupSumHandoff c e) s = .next r ∧
        r.engAt c e.val = y ∧ y.state = 5 ∧ y.pass = some p) ∧
      (f.pairs.length ≤ p.pair + 1 → x.contribs.length < 8 → ∃ (r : State) (y : EngineSt), exec (.groupSumHandoff c e) s = .next r ∧
        r.engAt c e.val = y ∧ y.pass = none ∧ y.state = 0 ∧ y.gsum = [] ∧ y.govf = [] ∧ y.passes = bump x.passes ∧
        y.gsumOvf = bump x.gsumOvf x.govf.length ∧
        y.contribs = x.contribs ++ [⟨o.id, p.buf.vec, (s.pairContrib c o p e.val p.buf.vec (p.sofar p.buf.vec)).1⟩] ∧
        (p.second = false → y.buf0 = none ∧ y.buf1 = x.buf1) ∧ (p.second = true → y.buf0 = x.buf0 ∧ y.buf1 = none)) ∧
      (p.pair + 1 < f.pairs.length → ∃ (r : State) (y : EngineSt), exec (.groupSumHandoff c e) s = .next r ∧ r.engAt c e.val = y ∧
        y.contribs = x.contribs ∧ y.pass = some ⟨p.buf, p.second, p.pair + 1,
          [⟨o.id, p.buf.vec, (s.pairContrib c o p e.val p.buf.vec (p.sofar p.buf.vec)).1⟩]⟩)) ∧
    (e.val ≠ 0 → e.val < 15 → x.sums = [] → exec (.chainLinkAdd c e) s = .next s) ∧
    (∀ (h : Tagged) (l : List Tagged) (o : ChainOp), e.val ≠ 0 → e.val < 15 → x.sums = h :: l → (s.coreAt c).chainOp h.op = some o →
      (8 ≤ (s.engAt c (e.val + 1)).sums.length → exec (.chainLinkAdd c e) s = .next s) ∧
      ((s.engAt c (e.val + 1)).sums.length < 8 → o.engines ≤ e.val → ∃ (r : State) (y : EngineSt), exec (.chainLinkAdd c e) s = .next r ∧
        r.engAt c e.val = y ∧ y.sums = l ∧ y.contribs = x.contribs ∧ (r.engAt c (e.val + 1)).sums = (s.engAt c (e.val + 1)).sums ++
          [⟨h.op, h.vec, (accAddRow o.bound.fast h.vals accZeros).1⟩]) ∧
      (e.val < o.engines → x.contribs = [] → exec (.chainLinkAdd c e) s = .next s) ∧
      ((s.engAt c (e.val + 1)).sums.length < 8 → e.val < o.engines → ∀ (m : Tagged) (n : List Tagged), x.contribs = m :: n → m.op = h.op → m.vec = h.vec →
        ∃ (r : State) (y : EngineSt), exec (.chainLinkAdd c e) s = .next r ∧ r.engAt c e.val = y ∧ y.sums = l ∧ y.contribs = n ∧
          (r.engAt c (e.val + 1)).sums = (s.engAt c (e.val + 1)).sums ++ [⟨h.op, h.vec, (accAddRow o.bound.fast h.vals m.vals).1⟩])) ∧
    (∀ (h m : Tagged) (l n : List Tagged) (o : ChainOp), e.val = 15 → x.sums = h :: l → x.contribs = m :: n → (s.coreAt c).chainOp h.op = some o →
      15 < o.engines → m.op = h.op → m.vec = h.vec → ∀ (v : List Acc) (k : CoreSt), v = (accAddRow o.bound.fast h.vals m.vals).1 → k = s.coreAt c →
      ∃ (r : State) (y : EngineSt), exec (.chainLinkAdd c e) s = .next r ∧ r.engAt c e.val = y ∧ y.sums = l ∧ y.contribs = n ∧
        (r.coreAt c).acb = (if o.acc then k.acbAdd o.bound.fast o.half (o.acbase + m.vec) v else k.acbOver o.bound.fast o.half (o.acbase + m.vec) v).acb)

/-- R282 to R286, R290 to R293, R336, R338 to R342, R442. PROBE does nothing but issue where no VERIFY prompter is in force; it faults on a tile beyond
reach or a record that fails its CHECK (0x2141), waits for the scoreboard, and otherwise leaves one result per vector. MAKE_UP waits for the probe sums
and for the landed pass; it drops a candidate that needs none, adds the recomputed row to the accumulator entry and counts it, and past the
descriptor's limit it drops every candidate of the invocation and raises 0x3163. US_SAMPLE counts the sample, and on a mismatch
also counts that, marks the invocation and raises 0x2206; it waits behind make-ups. DELTA_CHECK counts the check, and a
failure with 0x2207; it waits behind both. -/
def Obligations.EuWork : Prop := ∀ (c : CoreId) (s : State),
  (s.issues c 0x36 = true → ∀ (w : DWord) (b : Bound), (s.seqAt c).word = w → (s.seqAt c).bound.getLast? = some b →
    (b.prm ≠ 2 → exec (.probe c) s = .next (s.issued c)) ∧
    (b.prm = 2 → ∀ (td : TileDesc) (x : Source) (src : TileSrc), td = (s.seqAt c).treg (bitsOf w 42 39) → s.source c td = x → x.tile = some src →
      (td.ring = false → (s.coreReach c td.addr = false ∨ s.coreReach c (td.addr - 32) = false) → exec (.probe c) s = .next (s.reachFault c)) ∧
      ((td.ring = false → s.coreReach c td.addr = true ∧ s.coreReach c (td.addr - 32) = true) → ∀ r : TRec, s.recordOf c td = some r →
        (r.ok = false → exec (.probe c) s = .next (s.inputFault c 0x2141)) ∧
        (r.ok = true → ∀ ck, ck = (if td.ring then [] else s.sbRange (td.addr - 32) (32 + s.tileLen src)) →
          ((s.coreAt c).sbFree [] [] ck = false → exec (.probe c) s = .next (s.modSeq c (fun x => { x with state := 4 }))) ∧
          ((s.coreAt c).sbFree [] [] ck = true → ∀ (v u z : State) (d : TileData) (tm ct : Nat), v = s.sbEnter c [] [] → v.tileRead src (v.tileLen src) = (true, u) →
            z = u.issued c → tm = bitsOf w 48 43 → ct = (s.seqAt c).sreg (bitsOf w 37 33) →
            z.tileOf src tm (LayerDesc.rows b.desc) r.width r.sign = some d →
            ∃ t : State, exec (.probe c) s = .next t ∧ (t.coreAt c).probes = (z.coreAt c).probes ++ (List.range tm).map (fun m =>
              let k := ((z.coreAt c).probes.filter (fun p => p.ord == b.ord && p.ct == ct)).length + m
              ⟨b.ord, ct, k, if z.predicted c.cluster b ct k = 0 then [] else z.probeRow c b r d ct m⟩)))))) ∧
  ((s.coreAt c).euQ.find? (fun e => e.kind == 1) = none → exec (.makeUp c) s = .next s) ∧
  (∀ (e : EuOp) (o : ChainOp) (k : CoreSt), k = s.coreAt c → k.euQ.find? (fun e => e.kind == 1) = some e → e.ops.head? = some o →
    (s.needsMakeUp c e = none → exec (.makeUp c) s = .next s) ∧
    ((s.needsMakeUp c e = some false ∨ (s.needsMakeUp c e = some true ∧ (s.invAt e.ord.toNat).muOver = true)) →
      exec (.makeUp c) s = .next (s.modCore c (fun k => { k with euQ := k.euQ.erase e }))) ∧
    (s.needsMakeUp c e = some true → (s.invAt e.ord.toNat).muOver = false → ∀ n : Nat, n = Tab.get 0 k.madeUp e.ord.toNat +
        ((k.euQ.filter (fun x => x.kind == 1 && x.ord == e.ord)).filter (fun x => s.needsMakeUp c x == some true)).length →
      (LayerDesc.pmu e.bound.desc < n → exec (.makeUp c) s = .next (((s.modCore c (fun k => { k with
          euQ := k.euQ.filter (fun x => !(x.kind == 1 && x.ord == e.ord)) })).modInv e.ord.toNat (fun x => { x with muOver := true })).raise
            0x3163 none none (posOf c 16))) ∧
      (n ≤ LayerDesc.pmu e.bound.desc → ∀ q, k.chainOp o.id = some q → q.landed.contains e.vec = false → exec (.makeUp c) s = .next s) ∧
      (n ≤ LayerDesc.pmu e.bound.desc → k.chainOp o.id = none → ∀ d, s.opTile o = some d → ∃ t : State, exec (.makeUp c) s = .next t ∧
        (t.coreAt c).acb = (k.acbAdd e.bound.fast o.half e.acbase (s.euRow o d e.vec true false)).acb ∧ (t.coreAt c).euQ = k.euQ.erase e ∧
        (t.coreAt c).madeUp = Tab.set 0 k.madeUp e.ord.toNat (Tab.get 0 k.madeUp e.ord.toNat + 1) ∧
        (t.coreAt c).sparse.prmMakeup = bump k.sparse.prmMakeup ∧ t.mem = s.mem))) ∧
  ((s.coreAt c).euQ.find? (fun e => e.kind == 2 && !e.vals.isEmpty) = none → exec (.usSample c) s = .next s) ∧
  (∀ (e : EuOp), (s.coreAt c).euQ.find? (fun e => e.kind == 2 && !e.vals.isEmpty) = some e →
    ((s.coreAt c).euQ.any (fun x => x.kind == 1) = true → exec (.usSample c) s = .next s) ∧
    ((s.coreAt c).euQ.any (fun x => x.kind == 1) = false → e.bound.prm = 0 → ∀ (n : Nat) (rows : List (BitVec 128 × List Acc × List Acc)),
      n = realCols e.bound.desc e.ct → rows = (List.range e.tm).map (fun m => (s.heldOff c e m,
        (e.ops.foldl (fun a o => s.euApply o (e.acbase + m) a) accZeros).take n, (e.vals.getD m []).take n)) →
      ∃ (t : State) (k : CoreSt), exec (.usSample c) s = .next t ∧ t.coreAt c = k ∧ k.euQ = (s.coreAt c).euQ.erase e ∧
        k.sparse.usSamples = bump (s.coreAt c).sparse.usSamples ∧ k.acb = (s.coreAt c).acb ∧
        ((rows.any (fun r => (r.2.1.zip r.2.2).zipIdx.any (fun x =>
            !r.1.getLsbD x.2 && mismatch e.bound.desc e.bound.fast (accExact e.bound.fast x.1.2) x.1.1)) = false →
          k.sparse.usMismatch = (s.coreAt c).sparse.usMismatch ∧ t.mem = s.mem ∧ t.err = s.err ∧ (t.invAt e.ord.toNat) = s.invAt e.ord.toNat)) ∧
        ((rows.any (fun r => (r.2.1.zip r.2.2).zipIdx.any (fun x =>
            !r.1.getLsbD x.2 && mismatch e.bound.desc e.bound.fast (accExact e.bound.fast x.1.2) x.1.1)) = true →
          k.sparse.usMismatch = bump (s.coreAt c).sparse.usMismatch ∧
          ∃ u : State, t = u.raise 0x2206 none none (posOf c 16) ∧ (u.invAt e.ord.toNat).understudy = true)))) ∧
  ((s.coreAt c).euQ.find? (fun e => e.kind == 3 && !e.vals.isEmpty) = none → exec (.deltaCheck c) s = .next s) ∧
  (∀ (e : EuOp), (s.coreAt c).euQ.find? (fun e => e.kind == 3 && !e.vals.isEmpty) = some e →
    ∀ (n : Nat) (rows : List (Option (List Acc) × List Acc)), n = realCols e.bound.desc e.ct →
      rows = ((List.range e.tm).filter (fun m => s.refreshes e.bound.desc e.ord.toNat (placeOf e.bound e.half e.acbase m))).map (fun m =>
        (s.checkRow c e (e.acbase + m), (e.vals.getD m []).take n)) →
      (((s.coreAt c).euQ.any (fun x => x.kind == 1 || x.kind == 2) = true ∨ rows.any (fun r => r.1.isNone) = true) → exec (.deltaCheck c) s = .next s) ∧
      ((s.coreAt c).euQ.any (fun x => x.kind == 1 || x.kind == 2) = false → rows.any (fun r => r.1.isNone) = false → ∀ (bad : Bool) (u : State),
        bad = rows.any (fun r => ((r.1.getD []).zip r.2).any (fun x => mismatch e.bound.desc e.bound.fast (accExact e.bound.fast x.2) x.1)) →
        u = (s.modCore c (fun k => { k with euQ := k.euQ.erase e })).modSparse c (fun x => { x with
          deltaChk := bump x.deltaChk, deltaChkFail := if bad then bump x.deltaChkFail else x.deltaChkFail }) →
        (bad = true → exec (.deltaCheck c) s = .next (u.raise 0x2207 none none (posOf c 16))) ∧ (bad = false → exec (.deltaCheck c) s = .next u)))

/-- R164 to R171, R202 to R205, R208, R209, R212, R213, R216 to R224, R436, R439, R440, R459. DRAIN of the other half is passed over; without a consumed record
(0x2141), beyond entry 31 (0x2151) or at a bad destination it faults; it waits for queue room; otherwise the drain joins the converter
queue. The first pass keeps the masked values and block maxima of the first drain whose inputs and probes are complete. The second pass
of one with its scale writes each memory destination: record and coded tile, or the wide rows, and leaves the queue. XPORT writes
the raw images of the entries to memory, IMPORT loads them back, adding or overwriting; both keep their format checks. -/
def Obligations.DrainExportImport : Prop := ∀ (c : CoreId) (s : State) (w : DWord), (s.seqAt c).word = w →
  (∀ (b : Bound) (tm base ct : Nat) (half last : Bool) (ds : List TileDesc), (s.seqAt c).bound.getLast? = some b → tm = bitsOf w 48 43 →
    base = bitsOf w 53 49 → half = bitOf w.toNat 54 → s.issues c 0x37 = true → last = bitOf w.toNat 31 → ct = (s.seqAt c).sreg (bitsOf w 36 32) →
    ds = (List.range (bitsOf w 38 37 + 1)).map (fun i => (s.seqAt c).treg (bitsOf w 42 39 + i)) →
    (b.split = true → half ≠ (b.part == 1) → last = false → exec (.drain c) s = .next (s.modSeq c (fun x => { x with state := 1, pc := x.pc + 1 }))) ∧
    (b.split = false ∨ half = (b.part == 1) →
      (b.sIn = none → exec (.drain c) s = .next (s.inputFault c 0x2141)) ∧
      (b.sIn ≠ none → 32 < base + tm → exec (.drain c) s = .next (s.ocvFault c 0x2151 1)) ∧
      (b.sIn ≠ none → base + tm ≤ 32 →
        (∀ u, ds.findSome? (fun t => s.destFault c t) = some u → exec (.drain c) s = .next u) ∧
        (ds.findSome? (fun t => s.destFault c t) = none →
          (64 ≤ (s.coreAt c).convQ.length → exec (.drain c) s = .next (s.modSeq c (fun x => { x with state := 5 }))) ∧
          ((s.coreAt c).convQ.length < 64 → (s.coreAt c).convQ.any (fun o => o.stage == 0 && !(o.ord == b.ord && o.bound.part == b.part)) = false →
            (last = false ∨ b.split = false) → ∃ (t : State) (o : ConvOp) (b' : Bound), exec (.drain c) s = .next t ∧
              (t.coreAt c).convQ = (s.coreAt c).convQ ++ [o] ∧ o.ord = b.ord ∧ o.half = (half && b.fast) ∧ o.acbase = base ∧ o.tm = tm ∧
              o.dests = ds ∧ o.ct = ct ∧ o.last = last ∧ o.stage = 0 ∧ (t.seqAt c).bound.getLast? = some b' ∧ b'.nOut = b.nOut + 1 ∧
              b'.reported = (b.reported || last) ∧ (t.seqAt c).pc = (s.seqAt c).pc + 1 ∧ (t.seqAt c).state = 1 ∧ t.mem = s.mem))))) ∧
  ((s.coreAt c).convQ.find? (fun o => o.stage == 0) = none → exec (.drainPass1 c) s = .next s) ∧
  (∀ o : ConvOp, (s.coreAt c).convQ.find? (fun o => o.stage == 0) = some o →
    ((s.coreAt c).drainReady o = false ∨ s.probesIn c o = false → exec (.drainPass1 c) s = .next (s.modSparse c (fun x => { x with prmWait := o.bound.prm == 2 }))) ∧
    ((s.coreAt c).drainReady o = true → s.probesIn c o = true → s.rotReady o = false → exec (.drainPass1 c) s = .next s) ∧
    ((s.coreAt c).drainReady o = true → s.probesIn c o = true → s.rotReady o = true → ∀ u, s.readAll (outRanges o.bound.desc o.ct) = (true, u) →
      (LayerDesc.act o.bound.desc = true → actOk (u.peek (LayerDesc.atp o.bound.desc) 528) = false → exec (.drainPass1 c) s = .next (u.ocvFault c 0x2152 2)) ∧
      ((LayerDesc.act o.bound.desc = true → actOk (u.peek (LayerDesc.atp o.bound.desc) 528) = true) → ∀ raw ys : List (List (Option Word)),
        raw = (List.range o.tm).map (fun m => u.yRow c o m) → ys = raw.zipIdx.map (fun r => u.maskedRow c o r.2 r.1) →
        ∃ t : State, exec (.drainPass1 c) s = .next t ∧ (t.coreAt c).convQ = (u.coreAt c).convQ.map (fun x => if x.id = o.id then
          { x with stage := 1, raw := raw, ys := ys, bmax := ys.map (blockMax (realCols o.bound.desc o.ct)) } else x) ∧ t.mem = u.mem))) ∧
  ((s.coreAt c).convQ.find? (fun o => o.stage == 1) = none → exec (.drainPass2 c) s = .next s) ∧
  (∀ o : ConvOp, (s.coreAt c).convQ.find? (fun o => o.stage == 1) = some o →
    ((s.invAt o.ord.toNat).reds[o.bound.part]? = none → exec (.drainPass2 c) s = .next s) ∧
    (∀ (r : Red) (td : TileDesc) (exps : List (List Nat)) (f : OutForm) (d : LayerDesc), (s.invAt o.ord.toNat).reds[o.bound.part]? = some r →
      s.tickLive = true → d = o.bound.desc → o.dests = [td] → td.ring = false → d.pmk = false → d.dout = false →
      exps = o.bmax.map (vecExps r.width.toNat d.bxg r.amax) → f = outForm d r r.width.toNat → ∃ t : State, exec (.drainPass2 c) s = .next t ∧
        (d.ofmt ≠ 0 → t.mem = o.ys.zipIdx.foldl (fun m y => Tab.setRange memDefault m (unsigned 44 ((td.addr : Int) + (y.2 : Int) * td.stride))
          (wideRow (d.ofmt == 1) 128 (y.1.take (realCols d o.ct)))) s.mem) ∧
        (d.ofmt = 0 → s.destCore c td = none → ∀ codes : List (List Nat), codes = (o.ys.zip exps).zipIdx.map (fun y =>
            (s.convertRow f o.bound (s.slotAt o.ord.toNat (o.place y.2)) o.ct (realCols d o.ct) y.1.2 y.1.1).map (fun q => codeOf f q.1)) →
          t.mem = Tab.setRange memDefault (Tab.setRange memDefault s.mem (td.addr - 32)
            (recordBytes f.sT f.recip r.amax d.lid f.a f.sign d.bxg f.z s.tick.count d.rotOut)) td.addr
              (tileEncode d.oenc s.bitmapForced 128 f.a f.sign codes exps).2) ∧
        ((d.ofmt ≠ 0 ∨ s.destCore c td = none) → (s.coreAt c).convOut.any (fun x => x.conv == o.id) = false → ∀ x ∈ (t.coreAt c).convQ, x.id ≠ o.id))) ∧
  (∀ (b : Bound) (td : TileDesc) (tm base : Nat) (half : Bool), (s.seqAt c).bound.getLast? = some b → tm = bitsOf w 48 43 → base = bitsOf w 53 49 →
    half = bitOf w.toNat 54 → td = (s.seqAt c).treg (bitsOf w 42 39) →
    (s.issues c 0x38 = true → (b.split = true → half ≠ (b.part == 1) → exec (.xport c) s = .next (s.modSeq c (fun x => { x with state := 1, pc := x.pc + 1 }))) ∧
      (b.split = false ∨ half = (b.part == 1) →
        (32 < base + tm → exec (.xport c) s = .next (s.ocvFault c 0x2151 1)) ∧
        (base + tm ≤ 32 → (s.coreAt c).formatsFit b.fast base tm = false → exec (.xport c) s = .next (s.ocvFault c 0x2150 0)) ∧
        (base + tm ≤ 32 → (s.coreAt c).formatsFit b.fast base tm = true → s.destFault c td = none →
          (((s.coreAt c).chainOn b.fast (half && b.fast) base tm = true ∨ (s.coreAt c).makeUpOn b.fast (half && b.fast) base tm = true ∨
            64 ≤ (s.coreAt c).convQ.length) → exec (.xport c) s = .next (s.modSeq c (fun x => { x with state := 5 }))) ∧
          ((s.coreAt c).chainOn b.fast (half && b.fast) base tm = false → (s.coreAt c).makeUpOn b.fast (half && b.fast) base tm = false →
            (s.coreAt c).convQ.length < 64 → LayerDesc.dlt b.desc = false → td.ring = false → s.coreReach c td.addr = true → ∀ l : List Byte,
            l = ((s.coreAt c).capture b.fast (half && b.fast) base tm).flatMap (rawImage b.fast) →
            ((s.coreAt c).sbFree (s.sbRange td.addr l.length) [] [] = false → exec (.xport c) s = .next (s.modSeq c (fun x => { x with state := 4 }))) ∧
            ((s.coreAt c).sbFree (s.sbRange td.addr l.length) [] [] = true → ∃ t : State, exec (.xport c) s = .next t ∧
              t.mem = Tab.setRange memDefault s.mem td.addr l ∧ (t.seqAt c).pc = (s.seqAt c).pc + 1 ∧ (t.coreAt c).acb = (s.coreAt c).acb))))) ∧
    (s.issues c 0x39 = true → ∀ (acc : Bool) (k : Bound), acc = bitOf w.toNat 55 → k = (if acc then b else b.openImage td.addr half base tm) →
      (32 < base + tm → exec (.imprt c) s = .next (s.ocvFault c 0x2151 1)) ∧
      (base + tm ≤ 32 → acc = true → (s.coreAt c).formatsFit k.fast base tm = false → exec (.imprt c) s = .next (s.ocvFault c 0x2150 0)) ∧
      (base + tm ≤ 32 → (acc = true → (s.coreAt c).formatsFit k.fast base tm = true) → ∀ (x : Source) (src : TileSrc), s.source c td = x → x.tile = some src →
        td.ring = false → (s.importRanges k td.addr base tm half).all (fun r => s.coreReach c r.1) = true → bitOf w.toNat 38 = false →
        ((s.coreAt c).heldBy k.fast (half && k.fast) base tm = true → exec (.imprt c) s = .next (s.holdWait c)) ∧
        ((s.coreAt c).heldBy k.fast (half && k.fast) base tm = false →
          ((s.coreAt c).chainOn k.fast (half && k.fast) base tm = true → exec (.imprt c) s = .next (s.modSeq c (fun x => { x with state := 5 }))) ∧
          ((s.coreAt c).chainOn k.fast (half && k.fast) base tm = false → ∀ rs, rs = (s.importRanges k td.addr base tm half).flatMap (fun r => s.sbRange r.1 r.2) →
            ((s.coreAt c).sbFree [] [] rs = false → exec (.imprt c) s = .next (s.modSeq c (fun x => { x with state := 4 }))) ∧
            ((s.coreAt c).sbFree [] [] rs = true → ∀ (v u : State), v = s.sbEnter c [] [] → v.readAll (s.importRanges k td.addr base tm half) = (true, u) →
              u.core = v.core → ∃ t : State, exec (.imprt c) s = .next t ∧ (t.seqAt c).pc = (s.seqAt c).pc + 1 ∧
                (t.coreAt c).acb = ((s.coreAt c).importRows k.fast (half && k.fast) acc base ((List.range tm).map (fun m =>
                  v.importRow k src td.addr (placeOf k half base m) m))).acb))))))

/-- R226 to R234, R269 to R273, R443 to R445, R801, R804. Each of STAT, SVQ, TOPKV and SCAT waits for its ring, faults on a bad ring or
beyond reach, waits for the queue (not STAT) and for the scoreboard. Then STAT writes the largest magnitude or the norm to S[RD], or the 64 bins to
memory; SVQ appends the 64 descriptor bytes to the cluster's queue; TOPKV adds its finite values with their positions to
the vector's list and closes it with LAST; SCAT adds its records. A round of TOPK_MERGE replaces its lists by the K first records in order, a round of
SCATTER_MERGE by the sums by position below SPAN, counting what it drops (0x3160 once); the last round pushes the vector into the SVU's ring. -/
def Obligations.StatisticsAndMerges : Prop :=
  (∀ (c : CoreId) (s : State) (w : DWord) (q : SeqSt), s.seqAt c = q → q.word = w →
    (∀ (e : Instr × Nat × Nat) (ts : TileDesc), e ∈ [(Instr.stat c, 0x40, 44), (.svq c, 0x48, 52), (.topkv c, 0x4C, 45)] ∨ (e = (.scat c, 0x4D, 52) ∧ q.bound ≠ []) →
      s.issues c e.2.1 = true → ts = q.treg (bitsOf w (e.2.2 + 3) e.2.2) →
      (s.source c ts = .wait → exec e.1 s = .next (s.modSeq c (fun x => { x with state := 6 }))) ∧
      (∀ d r, s.source c ts = .bad d r → exec e.1 s = .next (s.ringFault d r)) ∧
      (∀ a, s.source c ts = .mem a → ts.ring = false → s.coreReach c ts.addr = false → exec e.1 s = .next (s.reachFault c)) ∧
      (∀ a, s.source c ts = .mem a → (ts.ring = false → s.coreReach c ts.addr = true) → e.2.1 ≠ 0x40 → 16 ≤ (s.cluAt c.cluster.num).svuQ.length →
        exec e.1 s = .next (s.modSeq c (fun x => { x with state := 5 })))) ∧
    (∀ (ts td : TileDesc) (n : Nat) (x : Source) (a : Nat), s.issues c 0x40 = true → ts = q.treg (bitsOf w 47 44) → td = q.treg (bitsOf w 43 40) →
      n = s.moveLen c (bitsOf w 39 35) 4 ts / 4 → s.source c ts = x → x = .mem a → (ts.ring = false → s.coreReach c ts.addr = true) →
      (bitsOf w 55 54 = 1 → td.ring = false ∧ s.coreReach c td.addr = true) → ∀ sb, sb = (if bitsOf w 55 54 = 1 then s.sbRange td.addr 256 else []) →
      ((s.coreAt c).sbFree sb (s.sourceRange x (4 * n)) [] = false → exec (.stat c) s = .next (s.modSeq c (fun x => { x with state := 4 }))) ∧
      ((s.coreAt c).sbFree sb (s.sourceRange x (4 * n)) [] = true → bitOf w.toNat 53 = false → ∀ (v u z : State) (vals : List Word) (h : Share),
        v = s.sbEnter c sb (s.sourceRange x (4 * n)) → v.readSource x (4 * n) = (true, u) → z = u.issued c → z.tickLive = true →
        vals = leWords n (z.sourceBytes x (4 * n)) → h = (Share.new 0 0).tap (finiteOf vals) →
        (bitsOf w 55 54 = 0 → exec (.stat c) s = .next (z.modSeq c (fun y => y.setS (bitsOf w 52 48) h.amax.toNat))) ∧
        (bitsOf w 55 54 = 2 → exec (.stat c) s = .next (z.modSeq c (fun y => y.setS (bitsOf w 52 48) h.norm.toNat))) ∧
        (bitsOf w 55 54 = 1 → exec (.stat c) s = .next (z.writeDev td.addr ((binsOf vals).flatMap (fun b => leBytes 4 b)))))) ∧
    (∀ (ts : TileDesc) (x : Source) (a : Nat) (l : List Byte) (d : SvuDesc), s.issues c 0x48 = true → ts = q.treg (bitsOf w 55 52) → s.source c ts = x →
      x = .mem a → (ts.ring = false → s.coreReach c ts.addr = true) → (s.cluAt c.cluster.num).svuQ.length < 16 → l = s.sourceBytes x 64 → d = SvuDesc.ofBytes l →
      ∀ wr rd, wr = d.rangeD.flatMap (fun e => s.sbRange e.1 e.2) → rd = (d.rangeA ++ d.rangeB ++ d.rangeP).flatMap (fun e => s.sbRange e.1 e.2) →
      ((s.coreAt c).sbFree wr rd (s.sourceRange x 64) = false → exec (.svq c) s = .next (s.modSeq c (fun x => { x with state := 4 }))) ∧
      ((s.coreAt c).sbFree wr rd (s.sourceRange x 64) = true → ∀ v u, v = s.sbEnter c wr rd → v.readSource x 64 = (true, u) → (u.issued c).tickLive = true →
        exec (.svq c) s = .next ((u.issued c).modClu c.cluster.num (fun k => { k with svuQ := k.svuQ ++ [⟨c.core.val, q.epoch, l, q.last⟩] })))) ∧
    (∀ (ts : TileDesc) (x : Source) (a n dst pos k : Nat), s.issues c 0x4C = true → ts = q.treg (bitsOf w 48 45) → s.source c ts = x →
      x = .mem a → (ts.ring = false → s.coreReach c ts.addr = true) → (s.cluAt c.cluster.num).svuQ.length < 16 → n = s.moveLen c (bitsOf w 29 25) 4 ts / 4 →
      dst = bitsOf w 40 35 → pos = q.sreg (bitsOf w 34 30) → k = bitsOf w 55 49 →
      ((s.coreAt c).sbFree [] (s.sourceRange x (4 * n)) [] = false → exec (.topkv c) s = .next (s.modSeq c (fun x => { x with state := 4 }))) ∧
      ((s.coreAt c).sbFree [] (s.sourceRange x (4 * n)) [] = true → ∀ (v u z : State) (recs : List Rec) (key m : Nat), v = s.sbEnter c [] (s.sourceRange x (4 * n)) →
        v.readSource x (4 * n) = (true, u) → z = u.issued c → z.tickLive = true → key = topKey q.mergeOrd.toNat dst → m = Tab.get 0 (z.coreAt c).merged key →
        recs = (leWords n (z.sourceBytes x (4 * n))).zipIdx.filterMap (fun e => if fpFinite e.1 then some (⟨e.1, word (pos + e.2)⟩ : Rec) else none) →
        ∃ t : State, exec (.topkv c) s = .next t ∧ (t.cluAt c.cluster.num).topIn = ((z.addTop c ⟨q.mergeOrd, q.mergeOrd, m, 0, c.num, dst, k, recs, bitOf w.toNat 24⟩).cluAt c.cluster.num).topIn ∧
          (t.cluAt c.cluster.num).mrgInf = bump (z.cluAt c.cluster.num).mrgInf (n - recs.length) ∧
          (t.coreAt c).merged = (if bitOf w.toNat 24 then Tab.set 0 (z.coreAt c).merged key (m + 1) else (z.coreAt c).merged))) ∧
    (∀ (b : Bound) (ts : TileDesc) (x : Source) (a n : Nat), s.issues c 0x4D = true → q.bound.getLast? = some b → ts = q.treg (bitsOf w 55 52) → s.source c ts = x →
      x = .mem a → (ts.ring = false → s.coreReach c ts.addr = true) → (s.cluAt c.cluster.num).svuQ.length < 16 → n = s.moveLen c (bitsOf w 51 47) 8 ts / 8 →
      ((s.coreAt c).sbFree [] (s.sourceRange x (8 * n)) [] = false → exec (.scat c) s = .next (s.modSeq c (fun x => { x with state := 4 }))) ∧
      ((s.coreAt c).sbFree [] (s.sourceRange x (8 * n)) [] = true → ∀ (v u z : State) (key m : Nat), v = s.sbEnter c [] (s.sourceRange x (8 * n)) →
        v.readSource x (8 * n) = (true, u) → z = u.issued c → z.tickLive = true → key = scatKey b.ord.toNat → m = Tab.get 0 (z.coreAt c).merged key →
        ∃ t : State, exec (.scat c) s = .next t ∧ (t.cluAt c.cluster.num).scatIn = ((z.addScat c ⟨b.ord, b.ord, m, 0, c.num, LayerDesc.sg b.desc, 0,
          recsOf n (z.sourceBytes x (8 * n)), bitOf w.toNat 46⟩).cluAt c.cluster.num).scatIn ∧
          (t.coreAt c).merged = (if bitOf w.toNat 46 then Tab.set 0 (z.coreAt c).merged key (m + 1) else (z.coreAt c).merged)))) ∧
  (∀ (c : ClusterId) (s : State),
    (s.nextMerge c.num (s.cluAt c.num).topIn (s.allLists CluSt.topIn) s.topOpen = none → exec (.topkMerge c) s = .next s) ∧
    (s.nextMerge c.num (s.cluAt c.num).scatIn (s.allLists CluSt.scatIn) s.scatOpen = none → exec (.scatterMerge c) s = .next s) ∧
    (∀ (x : NextMerge) (r : MergeIn) (u : State), s.nextMerge c.num (s.cluAt c.num).topIn (s.allLists CluSt.topIn) s.topOpen = some x →
      r = x.result c.num (topK x.key.k (x.lists.flatMap (fun m => m.recs))) → u = s.modClu c.num (fun k => { k with
        topIn := k.topIn.filter (fun m => !x.lists.contains m), mrgK := BitVec.ofNat 7 x.key.k, mrgTkg := BitVec.ofNat 6 x.key.dst,
        mrgRounds := if x.gather && x.lists.length == 1 then k.mrgRounds else bump k.mrgRounds }) →
      ((u.allLists CluSt.topIn).any (fun m => m.sameKey r) = true ∨ (x.gather = false ∧ x.key.dst ≠ c.num) →
        exec (.topkMerge c) s = .next (u.modClu x.key.dst (fun k => { k with topIn := k.topIn ++ [r] }))) ∧
      ((u.allLists CluSt.topIn).any (fun m => m.sameKey r) = false → x.gather = true →
        exec (.topkMerge c) s = .next (u.pushMerged c.num r.ord r.epoch (recBytes (padRecs x.key.k r.recs))))) ∧
    (∀ (x : NextMerge) (d : LayerDesc) (all ok : List Rec) (lost : Nat) (r : MergeIn) (u z : State),
      s.nextMerge c.num (s.cluAt c.num).scatIn (s.allLists CluSt.scatIn) s.scatOpen = some x → d = (s.invAt x.key.ord.toNat).desc →
      all = x.lists.flatMap (fun m => m.recs) → ok = all.filter (fun p => decide (p.pos.toNat < d.span)) →
      lost = all.length - ok.length + ((scatSum ok).length - 16384) → r = x.result c.num ((scatSum ok).take 16384) → u = s.modClu c.num (fun k => { k with
        scatIn := k.scatIn.filter (fun m => !x.lists.contains m), mrgTkg := BitVec.ofNat 6 x.key.dst, scatRecs := bump k.scatRecs all.length,
        scatOor := bump k.scatOor lost, oorRaised := if lost = 0 then k.oorRaised else addKey k.oorRaised x.key.ord.toNat }) →
      z = (if lost = 0 ∨ (s.cluAt c.num).oorRaised.contains x.key.ord.toNat = true then u else u.raise 0x3160 none none (posOfCluster c)) →
      ((z.allLists CluSt.scatIn).any (fun m => m.sameKey r) = true ∨ (x.gather = false ∧ x.key.dst ≠ c.num) →
        exec (.scatterMerge c) s = .next (z.modClu x.key.dst (fun k => { k with scatIn := k.scatIn ++ [r] }))) ∧
      ((z.allLists CluSt.scatIn).any (fun m => m.sameKey r) = false → x.gather = true →
        exec (.scatterMerge c) s = .next (z.pushMerged c.num r.ord r.epoch (if d.sform then denseRecs d.span r.recs else recBytes r.recs)))))

/-- R173, R219, R362, R447 to R450. An SVU operation runs for the head of the cluster's queue when that has its OP, the tick is live and no earlier result
waits; otherwise nothing happens. A range beyond the cluster's reach, or a disabled destination ring, faults. When its operands are delivered the head
leaves the queue and the operation writes one row a vector to DST (a memory range, or one entry of a ring): GATE act(A) × B, or event 0x2152 for a bad
table; ADD A + P0 × B; MUL A × B; RMSN; LNRM; SMAX over the first elements; PROT rotating pairs by the row of the position; CVT;
CONV the record and tiles of the output format, once its reduction has come; SAMP one token a vector. -/
def Obligations.SvuOperations : Prop := ∀ (c : ClusterId) (s : State),
  (∀ e ∈ [(Instr.svuGate c, 1), (.svuAdd c, 2), (.svuMul c, 3), (.rmsn c, 4), (.lnrm c, 5), (.smax c, 6), (.prot c, 7), (.cvt c, 8), (.conv c, 9), (.samp c, 10)],
    ((s.cluAt c.num).svuQ = [] → exec e.1 s = .next s) ∧
    (∀ (o : SvuOp) (l : List SvuOp), (s.cluAt c.num).svuQ = o :: l → (SvuDesc.ofBytes o.desc).op ≠ e.2 → exec e.1 s = .next s)) ∧
  (∀ (o : SvuOp) (rest : List SvuOp) (d : SvuDesc) (src : List (Nat × Nat)), (s.cluAt c.num).svuQ = o :: rest → d = SvuDesc.ofBytes o.desc →
    s.tickLive = true → (s.cluAt c.num).waiting.any (fun x => x.code == 0x48) = false → src = d.rangeA ++ d.rangeB ++ d.rangeP ++
      (if d.op = 7 then (List.range d.vec).map (fun v => (s.protRow d v, d.n / 2 * 8)) else []) →
    (∀ e ∈ [(Instr.svuGate c, 1), (.svuAdd c, 2), (.svuMul c, 3), (.rmsn c, 4), (.lnrm c, 5), (.smax c, 6), (.prot c, 7), (.cvt c, 8), (.samp c, 10)], d.op = e.2 →
      ((src ++ d.rangeD).all (fun r => s.clusterReach c r.1) = false → exec e.1 s = .next (s.reachFault (svuCore c o))) ∧
      ((src ++ d.rangeD).all (fun r => s.clusterReach c r.1) = true → d.ring = true → (s.ringAt (s.svuOwner c o d) d.q).en = false →
        exec e.1 s = .next (s.ringFault (s.svuOwner c o d) d.q))) ∧
    ((src ++ d.rangeD).all (fun r => s.clusterReach c r.1) = true → (d.ring = true → (s.ringAt (s.svuOwner c o d) d.q).en = true) →
      ∀ u z : State, s.readAll src = (true, u) → z = u.modClu c.num (fun k => { k with svuQ := rest }) → z.tickLive = true →
      (d.ring = false → ∀ k l, z.svuWrite c o d k l = z.writeDev d.dst l) ∧
      (d.op = 1 → actOk (z.peek d.param 528) = false → exec (.svuGate c) s = .next ((z.raise 0x2152 none none (posOfCluster c)).sharedFault)) ∧
      (d.op = 1 → actOk (z.peek d.param 528) = true → exec (.svuGate c) s = .next (z.svuWrite c o d 0 ((List.range d.vec).flatMap (fun v =>
        wideOut d.bfOut (((z.svuA d v).zip (z.svuB d v)).map (fun e => fpMul (actApply (z.peek d.param 528) e.1) e.2)))))) ∧
      (d.op = 2 → exec (.svuAdd c) s = .next (z.svuWrite c o d 0 ((List.range d.vec).flatMap (fun v =>
        wideOut d.bfOut (((z.svuA d v).zip (z.svuB d v)).map (fun e => fpAdd e.1 (fpMul d.p0 e.2))))))) ∧
      (d.op = 3 → exec (.svuMul c) s = .next (z.svuWrite c o d 0 ((List.range d.vec).flatMap (fun v =>
        wideOut d.bfOut (((z.svuA d v).zip (z.svuB d v)).map (fun e => fpMul e.1 e.2)))))) ∧
      (d.op = 4 → exec (.rmsn c) s = .next (z.svuWrite c o d 0 ((List.range d.vec).flatMap (fun v =>
        wideOut d.bfOut (((z.svuA d v).zip (z.svuB d 0)).map (fun e => fpDiv (fpMul e.1 e.2)
          (fpSqrt (fpAdd (fpMean ((z.svuA d v).map (fun x => fpMul x x))) d.p0)))))))) ∧
      (d.op = 5 → exec (.lnrm c) s = .next (z.svuWrite c o d 0 ((List.range d.vec).flatMap (fun v =>
        wideOut d.bfOut (lnRow d.p0 (z.svuA d v) (z.svuB d 0) (leWords d.n (z.peek d.param (4 * d.n)))))))) ∧
      (d.op = 6 → ∀ k : Nat, k = (match fpOf d.p1 with | .inf neg => if neg then 0 else d.n | .nan => 0 | .fin _ _ _ => min d.n (fpFloor d.p1).toNat) → exec (.smax c) s = .next (z.svuWrite c o d 0 ((List.range d.vec).flatMap (fun v =>
        wideOut d.bfOut (softRow d.p0 k (z.svuA d v)))))) ∧
      (d.op = 7 → exec (.prot c) s = .next ({ z with free := z.free + 1 }.svuWrite c o d 0 ((List.range d.vec).flatMap (fun v =>
        wideOut d.bfOut (protPairs (Config.freeWord z.free) (z.svuA d v) (leWords (d.n / 2 * 2) (z.peek (z.protRow d v) (d.n / 2 * 8)))))))) ∧
      (d.op = 8 → exec (.cvt c) s = .next (z.svuWrite c o d 0 ((List.range d.vec).flatMap (fun v => wideOut d.bfOut (z.svuA d v))))) ∧
      (d.op = 10 → exec (.samp c) s = .next (z.svuWrite c o d 0 ((List.range d.vec).flatMap (fun v =>
        leBytes 4 (sampleToken d.p0 d.p1 (z.sampleDraw (z.svuWord d v)) (recsOf d.n (z.peek (d.srcA + v * d.n * 8) (d.n * 8)))).toNat)))) ∧
      (d.op = 9 → ∀ b, o.bound = some b → ((s.invAt b.ord.toNat).reds[b.part]? = none → exec (.conv c) s = .next s) ∧
        (∀ (r : Red) (f : OutForm) (l : LayerDesc), (s.invAt b.ord.toNat).reds[b.part]? = some r → l = b.desc → f = outForm l r r.width.toNat → d.ring = false →
          (z.consumerDescs l.lix (z.svuOwner c o d)).filter (fun x => x.rr && !x.dlt) = [] → ∃ t : State, exec (.conv c) s = .next t ∧
            t.mem = Tab.setRange memDefault (Tab.setRange memDefault z.mem (d.dst - 32)
              (recordBytes f.sT f.recip r.amax l.lid f.a f.sign l.bxg f.z z.tick.count l.rotOut)) d.dst ((z.convTiles d b f
                (((List.range d.vec).map (fun v => finiteOf (z.svuA d v))).map (convExps r.width.toNat l.bxg r.amax (ceilDiv d.n 128)))
                ((List.range d.vec).map (fun v => finiteOf (z.svuA d v)))).flatMap (fun x => x)) ∧ (t.cluAt c.num).svuQ = rest))))

/-- R402 whole, with R395, R396, R398 and R400 in part. Written by the owner port, RING_BASE, RING_SIZE and RING_CFG take effect in READY only, and the ring's
pointers and marks become 0; in any other state the write is discarded with event 0x4143. SPM_SCRUB is accepted in READY and SAFE,
else discarded with 0x4143. At the end of a region's scrub every byte of it reads 0, every other byte as before, no word of it has an
error, and rings in it are cleared. A patrol step reads one row, corrects it, and moves on; it does nothing where the patrol is off. -/
def Obligations.RingRegistersAndScrubs : Prop :=
  (∀ (s : State) (p : Port) (c : CoreId) (q : Fin 16) (v : Word), s.owns p →
    (∀ e ∈ [(Instr.ringBase p c q v, fun r : RingSt => { r with base := BitVec.ofNat 15 v.toNat, loc := v.getLsbD 15 }),
        (.ringSize p c q v, fun r => { r with sizeM1 := BitVec.ofNat 15 v.toNat }),
        (.ringCfg p c q v, fun r => { r with
          esize := BitVec.ofNat 12 v.toNat, nprodM1 := BitVec.ofNat 4 (field v.toNat 15 12), cons := BitVec.ofNat 2 (field v.toNat 17 16),
          spec := v.getLsbD 18, wings := v.getLsbD 19, discard := v.getLsbD 20, en := v.getLsbD 21 })],
      (s.glb.st = .ready → ∃ (t : State) (r : RingSt), exec e.1 s = .next t ∧ t.ringAt c q.val = r ∧ r.base = (e.2 (s.ringAt c q.val)).base ∧
        r.loc = (e.2 (s.ringAt c q.val)).loc ∧ r.sizeM1 = (e.2 (s.ringAt c q.val)).sizeM1 ∧ r.esize = (e.2 (s.ringAt c q.val)).esize ∧
        r.nprodM1 = (e.2 (s.ringAt c q.val)).nprodM1 ∧ r.cons = (e.2 (s.ringAt c q.val)).cons ∧ r.spec = (e.2 (s.ringAt c q.val)).spec ∧
        r.wings = (e.2 (s.ringAt c q.val)).wings ∧ r.discard = (e.2 (s.ringAt c q.val)).discard ∧ r.en = (e.2 (s.ringAt c q.val)).en ∧
        r.head = 0 ∧ r.free = 0 ∧ r.tail = 0 ∧ r.ctail = 0 ∧ r.turn = 0 ∧ r.marks = [] ∧ (∀ d k, d ≠ c ∨ k ≠ q.val → t.ringAt d k = s.ringAt d k) ∧ t.mem = s.mem) ∧
      (s.glb.st ≠ .ready → exec e.1 s = .next (s.raise 0x4143 none none (posOf c 0))))) ∧
  (∀ (s : State) (p : Port) (c : ClusterId) (v : Word), s.owns p →
    (s.glb.st = .ready ∨ s.glb.st = .safe → exec (.spmScrub p c v) s = .next (s.modClu c.num (fun k => { k with
      scrub := BitVec.ofNat 17 v.toNat, scrubBusy := k.scrubBusy ||| BitVec.ofNat 17 v.toNat }))) ∧
    (s.glb.st ≠ .ready → s.glb.st ≠ .safe → exec (.spmScrub p c v) s = .next (s.raise 0x4143 none none (posOfCluster c)))) ∧
  (∀ (s : State) (r : Region),
    ((s.cluAt (regionClu r).num).scrubBusy.getLsbD (regionBit r) = false → exec (.scrubDone r) s = .next s) ∧
    ((s.cluAt (regionClu r).num).scrubBusy.getLsbD (regionBit r) = true → ∃ t : State, exec (.scrubDone r) s = .next t ∧
      (∀ a, regionBase r ≤ a → a < regionBase r + regionBytes r → Tab.get memDefault t.mem a = 0) ∧
      (∀ a, a < regionBase r ∨ regionBase r + regionBytes r ≤ a → Tab.get memDefault t.mem a = Tab.get memDefault s.mem a) ∧
      (∀ w, regionBase r / 4 ≤ w → w < (regionBase r + regionBytes r) / 4 → w ∉ t.badOne ∧ w ∉ t.badTwo) ∧
      (t.cluAt (regionClu r).num).scrubBusy = (s.cluAt (regionClu r).num).scrubBusy &&& ~~~(BitVec.ofNat 17 (2 ^ regionBit r)) ∧
      (∀ c : CoreId, r = .core c → ∀ q, (t.ringAt c q).loc = false → (t.ringAt c q).head = 0 ∧ (t.ringAt c q).tail = 0 ∧ (t.ringAt c q).marks = [])) ∧
    ((s.glb.st = .off ∨ (s.cluAt (regionClu r).num).patrolEn = false) → exec (.spmPatrolRead r) s = .next s) ∧
    (s.glb.st ≠ .off → (s.cluAt (regionClu r).num).patrolEn = true → ∀ row : Nat, row = Tab.get 0 (s.cluAt (regionClu r).num).patrolAt (regionBit r) →
      ∃ t : State, exec (.spmPatrolRead r) s = .next t ∧
        (∀ w, (regionBase r + row * 128) / 4 ≤ w → w ≤ (regionBase r + row * 128 + 127) / 4 → w ∉ t.badOne) ∧
        (t.cluAt (regionClu r).num).patrolAt = Tab.set 0 (s.cluAt (regionClu r).num).patrolAt (regionBit r) ((row + 1) % (regionBytes r / 128))))

/-- After R128 to R130, R403, R467, R555 and R684: a write of ENG_RB_ADDR, SEQ_RB_ADDR, SPM_IDX, STK_LIDX, SLOT_PIDX or TWIN_MIDX through a
port that decodes latches the addressed word and the tick and phase of that moment into that port's copies; the other port and
memory stay as they were. A word that is not there, such as one of TARGET 7 of an engine, latches 0 with VALID 0. A latch of a stack that is not populated is
not taken. Where the port does not decode, nothing changes. -/
def Obligations.LatchingReadBacks : Prop :=
  ∀ (s : State) (p : Port),
    (s.decodes p = false → ∀ i ∈ [(fun c e v => Instr.engRbAddr p c e v), fun c _ v => .seqRbAddr p c v,
        fun c _ v => .spmIdx p (c : CoreId).cluster v, fun _ _ v => .slotPidx p v, fun _ _ v => .twinMidx p v,
        fun c _ v => .stkLidx p c.cl v], ∀ c e v, exec (i c e v) s = .next s) ∧
    (s.decodes p = true →
      (∀ c e v, ∃ (t : State) (l : Latch), exec (.engRbAddr p c e v) s = .next t ∧ (t.port p).engRb = Tab.set .reset (s.port p).engRb (engKey c e.val) l ∧
        l.addr = v &&& 0x70003FFF ∧
        (∀ f, f = ((s.coreAt c).engineWord (s.engAt c e.val) (field v.toNat 30 28) (field v.toNat 13 0)).1 → l.data = f.getD 0 ∧ l.stamp = s.stamp f.isSome) ∧
        (field v.toNat 30 28 = 7 → l.data = 0 ∧ l.stamp = s.stamp false) ∧ (∀ r, r ≠ p → t.port r = s.port r)) ∧
      (∀ c v, ∃ (t : State) (l : Latch), exec (.seqRbAddr p c v) s = .next t ∧ (t.port p).seqRb = Tab.set .reset (s.port p).seqRb c.num l ∧
        l.addr = v &&& 0xFFFFF ∧
        (∀ f, f = (s.coreAt c).seqWord (field v.toNat 19 16) (field v.toNat 15 0) → l.data = f.getD 0 ∧ l.stamp = s.stamp f.isSome) ∧
        (8 < field v.toNat 19 16 → l.data = 0 ∧ l.stamp = s.stamp false) ∧
        t = { s with portA := t.portA, portB := t.portB } ∧ (∀ r, r ≠ p → t.port r = s.port r)) ∧
      (∀ c v, ∃ (t : State) (l : SpmLatch), exec (.spmIdx p c v) s = .next t ∧ (t.port p).spmIdx = Tab.set .reset (s.port p).spmIdx c.num l ∧
        l.idx = v &&& 0xFFF ∧ (l.d0, l.d1, l.d2) = (s.coreAt (ClusterId.core c (field v.toNat 3 0))).idxWords v.toNat ∧
        t = { s with portA := t.portA, portB := t.portB } ∧ (∀ r, r ≠ p → t.port r = s.port r)) ∧
      (∀ (k : Fin 16) v, (s.stkPopulated k.val = false → exec (.stkLidx p k v) s = .next s) ∧
        (s.stkPopulated k.val = true → ∃ (t : State) (l : Latch), exec (.stkLidx p k v) s = .next t ∧ (t.port p).stkL = Tab.set .reset (s.port p).stkL k.val l ∧
          l.addr = word (v.toNat % 256) ∧ (v.toNat % 256 < 160 → l.data = word ((Tab.get 0 (s.stkAt k.val).laneMap (v.toNat % 256)).toNat + 512)) ∧
          t = { s with portA := t.portA, portB := t.portB } ∧ (∀ r, r ≠ p → t.port r = s.port r))) ∧
      (∀ v, ∃ t : State, exec (.slotPidx p v) s = .next t ∧
        (t.port p).slotP = ⟨BitVec.ofNat 8 (v.toNat % 256), s.pendingWords (v.toNat % 256), s.stamp⟩ ∧
        t = { s with portA := t.portA, portB := t.portB } ∧ (∀ r, r ≠ p → t.port r = s.port r)) ∧
      (∀ v, ∃ t : State, exec (.twinMidx p v) s = .next t ∧
        (t.port p).twinM = ⟨BitVec.ofNat 8 (v.toNat % 256), s.mirrorWords (v.toNat % 256), Tab.get 0 s.twin.mirrorTicks (v.toNat % 256)⟩ ∧
        t = { s with portA := t.portA, portB := t.portB } ∧ (∀ r, r ≠ p → t.port r = s.port r)))

/-- After R536, R538, R547, R549 and R679. A refresh samples the stack's temperature and keeps its peak. A patrol read reads the next granule of
the round where the patrol runs, fails no tick, and goes on to the next place, from the last one to a new round. The end of a sparing copy
clears REPAIR. A spill copy that can be read lands in its deep page byte for byte; one that cannot gives its deep page back (the model's
choice, log 37). Up to 1,024 queued entries are freed: each then reads 0 and leaves the queue. The timeout of an open re-fetch lets the cue go. -/
def Obligations.StackUpkeep : Prop :=
  (∀ (s : State) (k : Fin 16) (x : BitVec 8),
    (s.glb.st = .off ∨ s.stkPopulated k.val = false → exec (.stkRefresh k x) s = .next s) ∧
    (s.glb.st ≠ .off → s.stkPopulated k.val = true → exec (.stkRefresh k x) s = .next (s.modStk k.val (fun t => { t with
      tempNow := x, tempPeak := if t.tempPeak < x then x else t.tempPeak, hot := decide (85 < x.toNat) }))) ∧
    exec (.spareCopyDone k) s = .next (s.modStk k.val (fun t => { t with repair := false })) ∧
    (s.stkPopulated k.val = false ∨ (s.stkAt k.val).patrolEn = false ∨ ((s.stkAt k.val).state ≠ 2 ∧ (s.stkAt k.val).state ≠ 4) →
      exec (.stkPatrolRead k) s = .next s) ∧
    (s.stkPopulated k.val = true → (s.stkAt k.val).patrolEn = true → (s.stkAt k.val).state = 2 ∨ (s.stkAt k.val).state = 4 →
      ∃ t : State, exec (.stkPatrolRead k) s = .next t ∧ t.tick = s.tick ∧ t.slots = s.slots ∧ t.kv = s.kv ∧ t.core = s.core ∧
        ((s.stkAt k.val).patrolAt + 1 < stackGranules → (t.stkAt k.val).patrolOn = true) ∧
        (stackGranules ≤ (s.stkAt k.val).patrolAt + 1 → (t.stkAt k.val).patrolAt = 0 ∧ (t.stkAt k.val).patrolOn = false) ∧
        ((s.stkAt k.val).errs = [] → t.mem = s.mem ∧ (t.stkAt k.val).patrolAt =
          if (s.stkAt k.val).patrolAt + 1 < stackGranules then (s.stkAt k.val).patrolAt + 1 else 0))) ∧
  (∀ (s : State) (d : Fin 4),
    ((s.kvAt d.val).spilling = [] → exec (.spillCopyDone d) s = .next s) ∧
    (∀ n p rest x, (s.kvAt d.val).spilling = (n, p) :: rest → x = ptePage (s.pte d.val n) * 65536 →
      ((s.readDev x 65536).1 = true → ∃ t : State, exec (.spillCopyDone d) s = .next t ∧
        t.mem = Tab.setRange memDefault (s.readDev x 65536).2.mem (p * 65536) (s.peek x 65536) ∧
        (t.kvAt d.val).spilling = rest ∧ (t.kvAt d.val).landed = (s.kvAt d.val).landed ++ [(n, p)] ∧ t.tick = s.tick ∧ t.slots = s.slots) ∧
      ((s.readDev x 65536).1 = false → ∃ t : State, exec (.spillCopyDone d) s = .next t ∧ t.mem = (s.readDev x 65536).2.mem ∧
        (t.kvAt d.val).spilling = rest ∧ (t.kvAt d.val).landed = (s.kvAt d.val).landed ∧ p ∉ (t.kvAt d.val).used)) ∧
    (∃ t : State, exec (.kvFree d) s = .next t ∧
      (t.kvAt d.val).freeq = (s.kvAt d.val).freeq.filter (fun n => !((s.kvAt d.val).freeq.take 1024).contains n) ∧
      (Memory.wf s.mem = true → ∀ n ∈ (s.kvAt d.val).freeq.take 1024, t.pte d.val n = 0 ∧
        n ∉ (t.kvAt d.val).tlb) ∧
      t.tick = s.tick ∧ t.slots = s.slots ∧ t.core = s.core)) ∧
  (∀ (s : State) (n : Nat),
    (s.twin.refetch = none → exec (.refetchTimeout n) s = .next s) ∧
    (∀ b, s.twin.refetch = some b → exec (.refetchTimeout n) s = .next { s with twin := { s.twin with refetchAt := some n } }))

/-- After R565 to R571, R575 and R581. A silent port goes DOWN with event 0x5001, and fails the tick whose outbound entry it held. An enabled DOWN port
starts training; training that hears the right peer brings it UP with new counts, at its lanes' width; no answer leaves it DOWN, the wrong
peer raises 0x5003. A failed lane leaves half the width with event 0x5002, or none and DOWN. A replay request is counted and answered, the ninth in a row for one SEQ
takes the port DOWN (log 28). An IDLE flit moves the expected SEQ; one that is bad or out of order asks for a replay. In READY and RUN a port sends
the next ready entry whole. -/
def Obligations.LinkPortEvents : Prop :=
  (∀ (s u : State) (p : Fin 8), u = (s.modLnk p.val (fun l => { l with
      state := 0, width := 0, replay := false, downs := bump l.downs,
      err := l.err ||| BitVec.ofNat 5 (4 + if s.holdsTickEntry p.val then 8 else 0) })).raise 0x5001 →
    ((s.lnkAt p.val).isUp = false → exec (.linkSilent p) s = .next s) ∧
    ((s.lnkAt p.val).isUp = true → exec (.linkSilent p) s =
      .next (if s.holdsTickEntry p.val then (u.raise 0x5001).sharedFault else u))) ∧
  (∀ (s : State) (p : Fin 8),
    ((s.lnkAt p.val).en = true → (s.lnkAt p.val).state = 0 → s.glb.st ≠ .off → exec (.linkRetrain p) s = .next (s.modLnk p.val (fun l => { l with state := 1 }))) ∧
    ((s.lnkAt p.val).en = false ∨ (s.lnkAt p.val).state ≠ 0 ∨ s.glb.st = .off → exec (.linkRetrain p) s = .next s)) ∧
  (∀ (s : State) (t : LinkTrain) (l : LnkSt) (w : Nat), l = s.lnkAt t.port.val → w = lanesLeft l.lanes.toNat t.lanesBad.toNat →
    (l.state ≠ 1 → exec (.linkUp t) s = .next s) ∧
    (l.state = 1 → t.answered = false ∨ w = 0 → exec (.linkUp t) s = .next (s.modLnk t.port.val (fun l => { l with state := 0, width := 0 }))) ∧
    (l.state = 1 → t.answered = true → w ≠ 0 → t.peerSeen ≠ l.peerId ∨ t.peerRole.toNat ≠ peerRoleOf l.role.toNat → exec (.linkUp t) s =
      .next ((s.modLnk t.port.val (fun l => { l with state := 0, width := 0, peerSeen := t.peerSeen, err := l.err ||| 1 })).raise 0x5003)) ∧
    (l.state = 1 → t.answered = true → w ≠ 0 → t.peerSeen = l.peerId → t.peerRole.toNat = peerRoleOf l.role.toNat →
      ∃ (v : State) (m : LnkSt), exec (.linkUp t) s = .next v ∧ v.lnkAt t.port.val = m ∧ m.state = (if w < l.lanes.toNat then 3 else 2) ∧
        m.width = BitVec.ofNat 4 w ∧ m.peerSeen = t.peerSeen ∧ m.txSeq = 0 ∧ m.rxSeq = 0 ∧ m.buffer = [] ∧ m.credits = [64, 64, 64, 64] ∧ m.replay = false)) ∧
  (∀ (s : State) (p lane : Fin 8) (l : LnkSt) (bad : BitVec 8) (w : Nat), l = s.lnkAt p.val → bad = l.lanesFailed ||| BitVec.ofNat 8 (2 ^ lane.val) →
    w = lanesLeft l.lanes.toNat bad.toNat →
    (l.isUp = false ∨ l.lanes.toNat ≤ lane.val ∨ l.lanesFailed.getLsbD lane.val = true → exec (.laneDegrade p lane) s = .next s) ∧
    (l.isUp = true → lane.val < l.lanes.toNat → l.lanesFailed.getLsbD lane.val = false →
      ∀ v, v = s.modLnk p.val (fun l => { l with lanesFailed := bad }) →
        (w = 0 → exec (.laneDegrade p lane) s = .next (v.portDown p.val 2)) ∧
        (w ≠ 0 → w = l.width.toNat → exec (.laneDegrade p lane) s = .next v) ∧
        (w ≠ 0 → w ≠ l.width.toNat → exec (.laneDegrade p lane) s =
          .next ((v.modLnk p.val (fun l => { l with state := 3, width := BitVec.ofNat 4 w })).raise 0x5002)))) ∧
  (∀ (s : State) (p : Fin 8) (q : BitVec 12),
    ((s.lnkAt p.val).isUp = false → exec (.replay p q) s = .next s) ∧
    ((s.lnkAt p.val).isUp = true → ∀ run : Nat, run = (if (s.lnkAt p.val).replayRun > 0 ∧ (s.lnkAt p.val).replaySeq = q then (s.lnkAt p.val).replayRun + 1 else 1) →
      (run ≤ 8 → ∃ (t : State) (m : LnkSt), exec (.replay p q) s = .next t ∧ t.lnkAt p.val = m ∧ t.sent = .resend p.val q :: s.sent ∧
        m.replays = bump (s.lnkAt p.val).replays ∧ m.replay = true ∧ m.replaySeq = q ∧ m.replayRun = run ∧
        m.buffer = (s.lnkAt p.val).buffer.filter (fun f => !seqCovered f.seq (q - 1))) ∧
      (8 < run → ∃ (t v : State), exec (.replay p q) s = .next t ∧ t = v.portDown p.val 1 ∧ v.sent = s.sent ∧ (v.lnkAt p.val).replays = bump (s.lnkAt p.val).replays))) ∧
  (∀ (s : State) (p : Fin 8) (h : FlitHdr) (l : LnkSt), l = s.lnkAt p.val → ∃ (t : State) (m : LnkSt), exec (.idleFlit p h) s = .next t ∧ t.lnkAt p.val = m ∧
    (l.isUp = false → t = s) ∧
    (l.isUp = true → h.checkOk = false ∨ h.seq ≠ l.rxSeq → m.rxSeq = l.rxSeq ∧ m.crcErr = bump l.crcErr h.flits ∧ t.sent = .replay p.val l.rxSeq :: s.sent) ∧
    (l.isUp = true → h.checkOk = true → h.seq = l.rxSeq → m.rxSeq = l.rxSeq + BitVec.ofNat 12 h.flits ∧ m.rxFlits = l.rxFlits ∧ t.sent = s.sent)) ∧
  (∀ (s u : State) (p : Fin 8), u = s.releaseOuts →
    (u.glb.st ≠ .ready → u.glb.st ≠ .run → exec (.outboundSend p) s = .next u) ∧
    (u.glb.st = .ready ∨ u.glb.st = .run → ∀ (r n kind : Nat) (body : List Byte), r = (u.lnkAt p.val).rr % 256 → u.outEn r = true → u.outPort r = some p.val →
      u.outReady r ≠ 0 → u.outPath1 r = false → u.outEntry r = some (n, kind, body) → (u.lnkAt p.val).canSend (flitsFor n) 1 = true →
      ∃ t : State, exec (.outboundSend p) s = .next t ∧
        t.sent = .ring p.val ⟨BitVec.ofNat 16 (field (u.outW1 r) 15 0), Fin.ofNat 16 (field (u.outW1 r) 19 16), BitVec.ofNat 4 kind, body⟩ :: u.sent ∧
        (t.lnkAt p.val).rr = (r + 1) % 256 ∧ Tab.get 0 (t.win.sentOut) r = Tab.get 0 (Tab.set 0 u.win.sentOut r (Tab.get 0 u.win.sentOut r + n)) r))

/-- After R572, R577 to R580 and R592 to R594. In PARK nothing is taken. Flits that the link layer loses do nothing more. An entry that comes in on a port
with a NORTH neighbour for an enabled ring that admits that port is pushed, or stalls behind those already stalled; in SAFE it is dropped; otherwise it is dropped
with event 0x5004 and the running tick fails. A window write for another device goes on along its route; in SAFE it is dropped; one that a check refuses is
dropped and counted and changes no memory; one that passes every check of a memory window lands whole at BASE + OFFSET; for a ring gate it is delivered as an entry. -/
def Obligations.EntriesAndWindowWrites : Prop :=
  (∀ (s u : State) (p : Fin 8) (h : FlitHdr) (e : LinkEntry) (m : WinWrite),
    (s.glb.st = .park → exec (.ringEntry p h e) s = .next s ∧ exec (.wwrite p h m) s = .next s) ∧
    (s.glb.st ≠ .park → s.takeFlits p.val h false = .lost u → exec (.ringEntry p h e) s = .next u ∧ exec (.wwrite p h m) s = .next u) ∧
    (s.glb.st ≠ .park → s.takeFlits p.val h false = .here u →
      (∀ l, l = u.lnkAt p.val →
        (u.glb.st = .safe → exec (.ringEntry p h e) s = .next (u.modLnk p.val (fun l => { l with ringDrop := bump l.ringDrop }))) ∧
        (u.glb.st ≠ .safe → l.role = 0 → u.linkRingOk (.linkPort p.val) e = true →
          (l.stalled ≠ [] → exec (.ringEntry p h e) s = .next (u.modLnk p.val (fun l => { l with stalled := l.stalled ++ [(.linkPort p.val, e)] }))) ∧
          (∀ v, l.stalled = [] → u.pushLink (.linkPort p.val) e = .done v → exec (.ringEntry p h e) s = .next v) ∧
          (∀ v, l.stalled = [] → u.pushLink (.linkPort p.val) e = .wait v →
            exec (.ringEntry p h e) s = .next (v.modLnk p.val (fun l => { l with stalled := l.stalled ++ [(.linkPort p.val, e)] })))) ∧
        (u.glb.st ≠ .safe → l.role ≠ 0 ∨ u.linkRingOk (.linkPort p.val) e = false → exec (.ringEntry p h e) s =
          .next ((u.modLnk p.val (fun l => { l with ringDrop := bump l.ringDrop, err := l.err ||| 16 })).raise 0x5004).sharedFault)) ∧
      (h.dst ≠ u.win.linkId → exec (.wwrite p h m) s = .next (u.forward p.val h)) ∧
      (h.dst = u.win.linkId → u.glb.st = .safe → exec (.wwrite p h m) s = .next { u with win := { u.win with drop := bump u.win.drop h.flits } }) ∧
      (h.dst = u.win.linkId → u.glb.st ≠ .safe →
        (∀ r, u.wwriteReason h m = some r → ∃ t : State, exec (.wwrite p h m) s = .next t ∧ t.win.drop = bump u.win.drop h.flits ∧
          (t.windowAt m.window.val).refused = true ∧ (t.windowAt m.window.val).acc = (u.windowAt m.window.val).acc ∧ t.core = u.core ∧ t.slots = u.slots) ∧
        (u.wwriteReason h m = none → m.ringForm = false → ∃ t : State, exec (.wwrite p h m) s = .next t ∧
          t.mem = Tab.setRange memDefault u.mem ((u.windowAt m.window.val).base.toNat + m.offset.toNat) m.data ∧
          (t.windowAt m.window.val).acc = bump (u.windowAt m.window.val).acc h.flits ∧
          (t.windowAt m.window.val).sinceAck = bump (u.windowAt m.window.val).sinceAck h.flits ∧ t.core = u.core ∧ t.slots = u.slots) ∧
        (u.wwriteReason h m = none → m.ringForm = true → exec (.wwrite p h m) s = .next ((u.modWindow m.window.val (fun x => { x with
          acc := bump x.acc h.flits, landing := x.landing + h.flits, sinceAck := bump x.sinceAck h.flits })).deliverLink p.val (.gate m.window.val) m.entry))))) ∧
  (∀ (s : State) (h : FlitHdr) (m : WinWrite),
    ((s.windowAt m.window.val).state ≠ 1 → s.wwriteReason h m = some 0) ∧
    ((s.windowAt m.window.val).state = 1 → m.epoch ≠ (s.windowAt m.window.val).epoch → s.wwriteReason h m = some 1) ∧
    ((s.windowAt m.window.val).state = 1 → m.epoch = (s.windowAt m.window.val).epoch →
      (s.windowAt m.window.val).sources.contains h.src.toNat = false → s.wwriteReason h m = some 2))

/-- After R583 to R587, R590, R591 and R595. The driver's commands reach windows 0 to 47 only, and a change of MODE only a closed window; else 0x5012. OPEN of a CLOSED
window opens it with the next epoch; of a CLOSING one sets PENDING; of an OPEN one raises 0x5012. CLOSE of an OPEN window makes it CLOSING; of a CLOSING one clears
PENDING; of a CLOSED one raises 0x5012. The end of a close leaves the window CLOSED, or opens it again where PENDING stands. For a message that
reached this device: WOPEN sets the handle that names its source and window VALID with its epoch, or raises 0x5013; WCLOSED and WNAK make it STALE; a WFENCE
is answered with the flits accepted since the last one; a WACK of the handle's epoch completes the DMA that waits for it. -/
def Obligations.WindowsAndHandles : Prop :=
  (∀ (s : State) (p : Port) (w : Fin 64) (g : Bool) (v : State), s.owns p → v = s.modWindow w.val (fun x => { x with cmd := BitVec.ofNat 3 (bitAt g 0 + 2) }) →
    (48 ≤ w.val → exec (.winOpen p w g) s = .next (s.raise 0x5012) ∧ exec (.winClose p w g) s = .next (s.raise 0x5012)) ∧
    (w.val < 48 → g ≠ (s.windowAt w.val).gate → (s.windowAt w.val).state ≠ 0 ∨ (s.windowAt w.val).pending = true →
      exec (.winOpen p w g) s = .next (s.raise 0x5012) ∧ exec (.winClose p w g) s = .next (s.raise 0x5012)) ∧
    (w.val < 48 → g = (s.windowAt w.val).gate ∨ ((s.windowAt w.val).state = 0 ∧ (s.windowAt w.val).pending = false) →
      ((s.windowAt w.val).state = 0 → ∃ (t : State) (x : WindowSt), exec (.winOpen p w g) s = .next t ∧ t.windowAt w.val = x ∧ x.state = 1 ∧ x.pending = false ∧
        x.epoch = nextEpoch (s.windowAt w.val).epoch ∧ x.gate = g ∧ x.base = (s.windowAt w.val).base ∧ x.sizeM1 = (s.windowAt w.val).sizeM1 ∧ t.core = s.core) ∧
      ((s.windowAt w.val).state = 1 → exec (.winOpen p w g) s = .next (v.raise 0x5012)) ∧
      ((s.windowAt w.val).state = 2 → exec (.winOpen p w g) s = .next (v.modWindow w.val (fun x => { x with pending := true }))) ∧
      ∀ v, v = s.modWindow w.val (fun x => { x with cmd := BitVec.ofNat 3 (bitAt g 0 + 4) }) →
      ((s.windowAt w.val).state = 0 → exec (.winClose p w g) s = .next (v.raise 0x5012)) ∧
      ((s.windowAt w.val).state = 1 → ∃ t : State, exec (.winClose p w g) s = .next t ∧ (t.windowAt w.val).state = 2 ∧ t.core = s.core) ∧
      ((s.windowAt w.val).state = 2 → exec (.winClose p w g) s = .next (v.modWindow w.val (fun x => { x with pending := false }))))) ∧
  (∀ (s : State) (w : Fin 64),
    ((s.windowAt w.val).state ≠ 2 → exec (.winCloseDone w) s = .next s) ∧
    ((s.windowAt w.val).state = 2 → w ≠ 49 ∨ s.twin.refetchQ = [] → ∃ (t : State) (x : WindowSt), exec (.winCloseDone w) s = .next t ∧ t.windowAt w.val = x ∧ x.pending = false ∧ x.refusedTick = none ∧
      x.drain.toNat ≤ (s.windowAt w.val).landing ∧ x.state = (if (s.windowAt w.val).pending then 1 else 0) ∧
      x.epoch = (if (s.windowAt w.val).pending then nextEpoch (s.windowAt w.val).epoch else (s.windowAt w.val).epoch) ∧ t.core = s.core)) ∧
  (∀ (s u : State) (lp : Fin 8) (h : FlitHdr) (w : Fin 64) (e : BitVec 16), s.takeFlits lp.val h false = .here u → h.dst = u.win.linkId →
    (u.handleOf h.src w.val = none → (∀ g z, exec (.wopen lp h w g e z) s = .next (u.raise 0x5013)) ∧ exec (.wclosed lp h w e) s = .next u ∧
      (∀ r, exec (.wnak lp h w r e) s = .next (u.modLnk lp.val (fun l => { l with nakRx := bump l.nakRx }))) ∧ (∀ n, exec (.wack lp h w e n) s = .next u)) ∧
    (∀ k, u.handleOf h.src w.val = some k →
      (∀ g z, exec (.wopen lp h w g e z) s = .next (u.modHandle k (fun x => { x with
        state := 1, epoch := e, size := if g then x.size else BitVec.ofNat 29 (z.toNat / 32 - 1) }))) ∧
      exec (.wclosed lp h w e) s = .next (u.modHandle k (fun x => { x with state := 2 })) ∧
      (∀ r, k < 61 → u.hasWinDma k = false → ∃ v : State, v = ((u.modLnk lp.val (fun l => { l with nakRx := bump l.nakRx })).modHandle k (fun x => { x with
        state := 2, nakReason := r, nakEpoch := e })).modWinDma k (fun d => { d with acked := true, failed := true }) ∧
        exec (.wnak lp h w r e) s = .next (if (u.handleAt k).state = 1 then v.raise 0x5010 else v)) ∧
      (∀ n, e ≠ (u.handleAt k).epoch → exec (.wack lp h w e n) s = .next u) ∧
      (∀ n, e = (u.handleAt k).epoch → k < 62 → exec (.wack lp h w e n) s = .next (u.modWinDma k (fun d => { d with acked := true })))) ∧
    exec (.wfence lp h w e) s = .next ((u.modWindow w.val (fun x => { x with sinceAck := 0 })).sendRouted h.src.toNat 8
      (.wack h.src w.val e (u.windowAt w.val).sinceAck)))

/-- After R660 to R662, R664 to R669 and R673, for messages that reached this device. In WAIT a TWIN port sends HELLO; the partner's HELLO leads
to PAIRED with event 0x7001 where it agrees, else to MISMATCH with 0x7002. A HEARTBEAT resets the run of missed intervals; from a partner
that has adopted this device unadopted by it, it sets the device's own admitted slots to FAULT with 0x7007; where both have adopted, SIDE 1 faults every slot it serves and SIDE 0 none. MIRROR_COMMIT hands the mirror to the
unpacking of a PAIRED or LOST device; at its end the mirror's slots stand in the mirror table, freed ones do not, and MIRROR_APPLIED goes out.
MIRROR_APPLIED for the outstanding mirror lets the results up to its tick go. ADOPT asks for an adoption in PAIRED and LOST only. -/
def Obligations.PairingMessages : Prop :=
  (∀ (s : State) (p : Fin 8),
    (s.twin.state = 1 → (s.lnkAt p.val).role = 2 → (s.lnkAt p.val).isUp = true → ∃ t : State, exec (.helloSend p) s = .next t ∧
      t.sent = .hello p.val s.helloMsg :: s.sent ∧ t.twin = s.twin) ∧
    (s.twin.state ≠ 1 ∨ (s.lnkAt p.val).role ≠ 2 ∨ (s.lnkAt p.val).isUp = false → exec (.helloSend p) s = .next s)) ∧
  (∀ (s u v : State) (lp : Fin 8) (h : FlitHdr), s.takeFlits lp.val h false = .here u → h.dst = u.win.linkId →
    (∀ m : HelloMsg, v = { u with twin := { u.twin with helloTick := some m.tick } } →
      (u.twin.state ≠ 1 → exec (.hello lp h m) s = .next v) ∧
      (u.twin.state = 1 → v.helloOk m = false → exec (.hello lp h m) s = .next (({ v with twin := { v.twin with state := 5 } } : State).raise 0x7002)) ∧
      (u.twin.state = 1 → v.helloOk m = true → exec (.hello lp h m) s = .next (({ v with twin := { v.twin with state := 2 } } : State).raise 0x7001).openPaired)) ∧
    (∀ a b, v = { u with twin := { u.twin with beat := true, missed := 0, partAdopted := false } } → exec (.heartbeat lp h false a b) s = .next v) ∧
    (∀ a b, u.twin.state ≠ 4 → ∃ t w : State, exec (.heartbeat lp h true a b) s = .next t ∧ t = w.raise 0x7007 ∧ w.twin.missed = 0 ∧ w.core = u.core ∧
      ∀ i, w.slot i = if (u.slot i).state ≠ 0 ∧ (u.slot i).adopted = false then { (u.slot i) with state := 6 } else u.slot i) ∧
    (∀ a b, v = { u with twin := { u.twin with beat := true, missed := 0, partAdopted := true } } → u.twin.state = 4 →
      (u.cfg.side = false → exec (.heartbeat lp h true a b) s = .next v) ∧
      (u.cfg.side = true → exec (.heartbeat lp h true a b) s = .next ((v.faultSlots true).raise 0x7007))) ∧
    (∀ tick n l f, (u.twin.state = 2 ∨ u.twin.state = 3 → exec (.mirrorCommit lp h tick n l f) s =
        .next { u with twin := { u.twin with unpacking := some ⟨tick, l, f, n.toNat⟩ } }) ∧
      (u.twin.state ≠ 2 → u.twin.state ≠ 3 → exec (.mirrorCommit lp h tick n l f) s = .next u)) ∧
    (∀ tick, (u.twin.awaiting = none → exec (.mirrorApplied lp h tick) s = .next u) ∧
      (∀ m, u.twin.awaiting = some m → m.tick ≠ tick → exec (.mirrorApplied lp h tick) s = .next u) ∧
      (∀ m, u.twin.awaiting = some m → m.tick = tick → ∃ w : State, exec (.mirrorApplied lp h tick) s = .next w.stageMirror ∧ w.twin.awaiting = none ∧
        w.twin.mirrors = bump u.twin.mirrors ∧ w.slots = u.slots ∧ w.core = u.core ∧
        w.host.resq = u.host.resq.map (fun r => if decide (r.tick ≤ tick) then { r with wait := false } else r)))) ∧
  (∀ s : State, (s.twin.unpacking = none → exec .mirrorApplyDone s = .next s) ∧
    (∀ m, s.twin.unpacking = some m → ∃ t : State, exec .mirrorApplyDone s = .next t ∧ t.twin.unpacking = none ∧ t.twin.mirrorTick = m.tick ∧
      t.twin.mirror = (m.slots.foldl (fun t x => Tab.put t x.slot.val (keepEntry x t)) s.twin.mirror).filter
        (fun e => !((maskList m.freed).filter (fun i => decide (i < 128))).contains e.1) ∧
      t.twin.mirrorTicks = m.slots.foldl (fun t x => Tab.set 0 t x.slot.val (word m.tick.toNat)) s.twin.mirrorTicks ∧
      ((s.lnkAt 2).isUp = true → t.sent = .mirrorApplied m.tick :: s.sent))) ∧
  (∀ (s : State) (p : Port) (v : Word), s.owns p →
    (v.getLsbD 0 = true → s.twin.state = 2 ∨ s.twin.state = 3 → exec (.adopt p v) s = .next { s with twin := { s.twin with adoptCmd := true, adoptReq := true } }) ∧
    (v.getLsbD 0 = false ∨ (s.twin.state ≠ 2 ∧ s.twin.state ≠ 3) → exec (.adopt p v) s = .next { s with twin := { s.twin with adoptCmd := v.getLsbD 0 } }))

/-- After R677 and R678, for messages that reached this device. A REQUEST outside READY and RUN, for an address outside the weight ranges, or of a block that
cannot be read, is answered with FAIL. Otherwise the block's own bytes go out through handle 63 with its epoch, then the WFENCE, and DONE waits for the
WACK. A device whose handle 63 is not VALID sends FAIL (log 42). DONE and FAIL for the open re-fetch end it, count it and close window 49, a FAIL with event
0x7006; for any other address they change nothing more. -/
def Obligations.RefetchMessages : Prop :=
  (∀ (s u : State) (lp : Fin 8) (h : FlitHdr) (e : BitVec 16) (addr : BitVec 44) (n : Word), s.takeFlits lp.val h false = .here u → h.dst = u.win.linkId →
    (u.lnkAt 2).isUp = true →
    (u.readyOrRun = false ∨ (u.handleAt 63).state ≠ 1 → ∃ t : State, exec (.refetchRequest lp h e addr n) s = .next t ∧ t.sent = .refetchFail 3 addr :: u.sent ∧ t.twin = u.twin) ∧
    (u.readyOrRun = true → (u.handleAt 63).state = 1 →
      (u.isWeight addr.toNat = false → ∃ t : State, exec (.refetchRequest lp h e addr n) s = .next t ∧ t.sent = .refetchFail 2 addr :: u.sent ∧ t.twin = u.twin) ∧
      (u.isWeight addr.toNat = true → (u.readDev addr.toNat n.toNat).1 = false → ∃ t : State, exec (.refetchRequest lp h e addr n) s = .next t ∧
        t.sent = .refetchFail 1 addr :: u.sent ∧ t.twin = u.twin) ∧
      (u.isWeight addr.toNat = true → (u.readDev addr.toNat n.toNat).1 = true → ∃ t : State, exec (.refetchRequest lp h e addr n) s = .next t ∧
        t.sent = .wfence 63 (u.handleAt 63).epoch :: .winWrite 63 (u.handleAt 63).epoch 0 ((u.readDev addr.toNat n.toNat).2.peek addr.toNat n.toNat) :: u.sent ∧
        t.twin = { u.twin with serve := some addr }))) ∧
  (∀ (s u : State) (lp : Fin 8) (h : FlitHdr) (r : BitVec 8) (addr : BitVec 44), s.takeFlits lp.val h false = .here u → h.dst = u.win.linkId →
    (u.twin.refetch ≠ some addr → exec (.refetchDone lp h addr) s = .next u ∧ exec (.refetchFail lp h r addr) s = .next u) ∧
    (u.twin.refetch = some addr → (u.windowAt 49).state = 1 → 
      (∃ t : State, exec (.refetchDone lp h addr) s = .next t ∧ t.twin = { u.twin with refetch := none, refetchAt := none, refetchN := bump u.twin.refetchN } ∧
        (t.windowAt 49).state = 2 ∧ t.core = u.core ∧ t.slots = u.slots) ∧
      (∃ t : State, exec (.refetchFail lp h r addr) s = .next t ∧ t.twin = { u.twin with refetch := none, refetchAt := none, refetchFailN := bump u.twin.refetchFailN } ∧
        (t.windowAt 49).state = 2 ∧ t.core = u.core ∧ t.slots = u.slots)) ∧
    (u.twin.refetch = some addr → (u.windowAt 49).state ≠ 1 → u.twin.refetchQ = [] →
      exec (.refetchDone lp h addr) s = .next { u with twin := { u.twin with refetch := none, refetchAt := none, refetchN := bump u.twin.refetchN } } ∧
      (∃ t : State, exec (.refetchFail lp h r addr) s = .next t ∧ t.twin = { u.twin with refetch := none, refetchAt := none, refetchFailN := bump u.twin.refetchFailN })))

/-- After R745 to R750, R752, R753, R756 and R757. Written by the owner port, a REH_CMD while a readout or replay runs is refused with 0x5. TRIGGER freezes the records up to the tick
REH_POST cues later; one more during a spill is counted as lost with event 0xA003. When those ticks have passed the spill begins and
erases the area; at its end the area holds the header and the frozen records, oldest first. READOUT in READY, RUN or SAFE with die 0's stacks READY copies the
area to REH_RDBASE, else it is refused with 0x1. REPLAY is refused with 0x1 outside READY or with a slot admitted, 0x3 for a bad record,
0x2 for another configuration, 0x4 for a history that starts too late; else it starts, and it ends in READY with event 0xA006. -/
def Obligations.RehearsalCommands : Prop :=
  (∀ (s w : State) (p : Port) (b : Bool), s.owns p →
    (w = { s with reh := { s.reh with cmd := word (1 + bitAt b 4) } } →
      (s.reh.busy = true → exec (.trigger p b) s = .next (({ w with reh := { w.reh with refusal := 5 } } : State).raise 0xA004 (some 5))) ∧
      (s.reh.busy = false → s.cfg.rehEn = false → exec (.trigger p b) s = .next w) ∧
      (s.reh.busy = false → s.cfg.rehEn = true → s.reh.frozen = true ∨ s.reh.spilling = true →
        exec (.trigger p b) s = .next (({ w with reh := { w.reh with trigLost := bump w.reh.trigLost } } : State).raiseRaw 0xA003)) ∧
      (s.reh.busy = false → s.cfg.rehEn = true → s.reh.frozen = false → s.reh.spilling = false → ∃ t : State, exec (.trigger p b) s = .next t ∧
        t.reh.frozen = true ∧ t.reh.trigTick = s.tick.count ∧ t.reh.trigLeft = some (s.reh.post.toNat + if s.tick.running.isSome then 1 else 0) ∧
        t.tick = s.tick ∧ t.slots = s.slots ∧ t.core = s.core)) ∧
    (w = { s with reh := { s.reh with cmd := word (2 + bitAt b 4) } } →
      (s.reh.busy = true → exec (.readout p b) s = .next (({ w with reh := { w.reh with refusal := 5 } } : State).raise 0xA004 (some 5))) ∧
      (s.reh.busy = false → s.glb.st = .ready ∨ s.glb.st = .run ∨ s.glb.st = .safe → s.die0Ready = true →
        exec (.readout p b) s = .next { w with reh := { w.reh with reading := true } }) ∧
      (s.reh.busy = false → (s.glb.st ≠ .ready ∧ s.glb.st ≠ .run ∧ s.glb.st ≠ .safe) ∨ s.die0Ready = false →
        exec (.readout p b) s = .next (({ w with reh := { w.reh with refusal := 1 } } : State).raise 0xA004 (some 1)))) ∧
    (w = { s with reh := { s.reh with cmd := word (3 + bitAt b 4) } } →
      (s.reh.busy = true → exec (.rehReplay p b) s = .next (({ w with reh := { w.reh with refusal := 5 } } : State).raise 0xA004 (some 5))) ∧
      (s.reh.busy = false → s.glb.st ≠ .ready ∨ s.admittedCount ≠ 0 →
        exec (.rehReplay p b) s = .next (({ w with reh := { w.reh with refusal := 1 } } : State).raise 0xA004 (some 1))) ∧
      (s.reh.busy = false → s.glb.st = .ready → s.admittedCount = 0 → ∀ x u, (x, u) = w.walkRecords (w.reh.rbase.toNat * 4096) ⟨[], [], false⟩ (4 * w.reh.rcount.toNat + 64) →
        (x.bad = true ∨ x.recs.length < u.reh.rcount.toNat → exec (.rehReplay p b) s = .next (u.rehRefuse 3)) ∧
        (x.bad = false → u.reh.rcount.toNat ≤ x.recs.length → 
          (u.recordsOfCfg x.recs = false → exec (.rehReplay p b) s = .next (u.rehRefuse 2)) ∧
          (u.recordsOfCfg x.recs = true → u.historyOk x.recs = false → exec (.rehReplay p b) s = .next (u.rehRefuse 4)) ∧
          (u.recordsOfCfg x.recs = true → u.historyOk x.recs = true → exec (.rehReplay p b) s = .next { u with reh := { u.reh with
            replay := some ⟨x.recs, x.confs, none, u.prec.ctrl, b, false, 0⟩ } }))))) ∧
  (∀ s : State,
    (s.reh.frozen = true → s.reh.trigLeft = some 0 → s.reh.spilling = false → ∃ t : State, exec .rehSpill s = .next t ∧ t.reh.spilling = true ∧ t.upd.flash.spill = none ∧
      t.tick = s.tick ∧ t.mem = s.mem) ∧
    (s.reh.frozen = false ∨ s.reh.trigLeft ≠ some 0 ∨ s.reh.spilling = true → exec .rehSpill s = .next s) ∧
    (s.reh.spilling = false → exec .rehSpilled s = .next s) ∧
    (s.reh.spilling = true → ∀ l u, (l, u) = s.readEntries ((s.reh.ring.drop s.reh.frozenSkip).take s.reh.frozenLen).reverse →
      ∃ t v : State, exec .rehSpilled s = .next t ∧ t = v.raise 0xA002 (some l.length) ∧ v.upd.flash.spill = some (u.spillHeader l ++ l.flatMap id) ∧
        v.reh.spilling = false ∧ v.reh.frozen = false ∧ v.reh.trigLeft = none ∧ v.reh.spills = bump u.reh.spills) ∧
    (s.reh.reading = false → exec .readoutDone s = .next s) ∧
    (s.reh.reading = true → (s.place (s.reh.rdbase.toNat * 4096)).isStack = true → ∃ t v : State, exec .readoutDone s = .next t ∧ t = v.raise 0xA002 (some 0) ∧
      v.mem = Tab.setRange memDefault s.mem (s.reh.rdbase.toNat * 4096) s.upd.flash.spillArea ∧ v.reh.reading = false ∧ v.tick = s.tick) ∧
    (s.reh.reading = true → (s.place (s.reh.rdbase.toNat * 4096)).isStack = false →
      exec .readoutDone s = .next (({ s with reh := { s.reh with reading := false } } : State).raise 0xA002 (some 0))) ∧
    (s.reh.replay = none → exec .replayDone s = .next s) ∧
    (∀ x, s.reh.replay = some x → x.recs ≠ [] ∨ s.tick.running ≠ none ∨ s.tick.held ≠ [] → exec .replayDone s = .next s) ∧
    (∀ x, s.reh.replay = some x → x.recs = [] → s.tick.running = none → s.tick.held = [] → ∃ t v : State, exec .replayDone s = .next t ∧
      t = v.raise 0xA006 (some x.mismatches.toNat) ∧ v.glb.st = .ready ∧ v.reh.replay = none))

/-- After R735, R739, R740, R759 and R760. Either port that decodes clears ERR_FIRST with bit 31. ARM of the owner port in READY or RUN, with a target of the named tier, arms one
injection at ERR_INJ_ADDR as it then stands; elsewhere it changes nothing and raises 0xA031. ARM = 0 disarms. ST_RUN of the owner in READY with no slot admitted
starts the self-test; elsewhere it runs none and raises 0xA013. Its end leaves the result: on a pass event 0xA012, on a failure
event 0xA011, the row and the position, and the device goes to SAFE at once. -/
def Obligations.ErrorsAndSelfTest : Prop :=
  (∀ (s : State) (p : Port) (v : Word),
    (s.decodes p = true → v.getLsbD 31 = true → exec (.errFirstClr p v) s = .next { s with err := { s.err with first := none } }) ∧
    (s.decodes p = false ∨ v.getLsbD 31 = false → exec (.errFirstClr p v) s = .next s) ∧
    (v.getLsbD 0 = false → exec (.injArm p v) s = .next s) ∧ (v.getLsbD 0 = true → exec (.injDisarm p v) s = .next s) ∧
    (s.owns p →
      (v.getLsbD 0 = true → s.glb.st = .ready ∨ s.glb.st = .run →
        (if v.getLsbD 1 then s.place s.err.injAddr.toNat = .fast ∨ s.place s.err.injAddr.toNat = .deep else ∃ r o, s.place s.err.injAddr.toNat = .spm r o) →
        exec (.injArm p v) s = .next { s with err := { s.err with
          injArm := true, injTier := v.getLsbD 1, injFired := false, injLatchTier := v.getLsbD 1, injLatch := s.err.injAddr } }) ∧
      (v.getLsbD 0 = true → (s.glb.st ≠ .ready ∧ s.glb.st ≠ .run) ∨ s.injTarget (v.getLsbD 1) = false → exec (.injArm p v) s = .next (s.raise 0xA031)) ∧
      (v.getLsbD 0 = false → exec (.injDisarm p v) s = .next { s with err := { s.err with injArm := false, injTier := v.getLsbD 1 } }) ∧
      (v.getLsbD 0 = true → s.glb.st = .ready → s.admittedCount = 0 → s.reh.replay = none →
        exec (.stRun p v) s = .next { s with err := { s.err with stCmd := true, stBusy := true } }) ∧
      (v.getLsbD 0 = true → s.glb.st ≠ .ready ∨ s.admittedCount ≠ 0 → exec (.stRun p v) s = .next (s.raise 0xA013)) ∧
      (v.getLsbD 0 = false → exec (.stRun p v) s = .next { s with err := { s.err with stCmd := false } }))) ∧
  (∀ s : State, (∀ f, s.err.stBusy = false → exec (.stDone f) s = .next s) ∧
    (s.err.stBusy = true → ∃ t v : State, exec (.stDone none) s = .next t ∧ t = v.raise 0xA012 ∧ v.err.stBusy = false ∧ v.err.stPass = true ∧ v.err.stRan = true ∧ v.err.stRow = 0) ∧
    (∀ row pos, s.err.stBusy = true → ∃ t : State, exec (.stDone (some (row, pos))) s = .next t ∧ t.glb.st = .safe ∧ t.err.stBusy = false ∧ t.err.stPass = false ∧
      t.err.stRan = true ∧ t.err.stRow = row ∧ t.err.stPos = pos ∧ t.tick.running = none))

/-- After R793, R794 and R796: at reset, a read of the offset of GLB_CLK, SLOT_SUMMARY, HOST_HB_CFG, PWR_CAP, ERR_MODE, LNK_STATUS, WIN_SRC, STK_ID, STK_PATROL,
STK_SPARES, PREC_CTRL, PREC_BUDGET, SPM_PATROL, RING_STAT, ENG_STATUS and SEQ_STATUS gives the index's value, in each place listed of a
repeated unit, through either port; the counters and status registers listed after them read 0. -/
def Obligations.ResetRegisterValues : Prop :=
  ∀ p : Port, (∀ e ∈ ([(0x18, 3), (0x22000, 0x20000), (0x30008, 0x3E8), (0x40004, 0x258), (0x70000, 0x800), (0xA0004, 0x3FC0), (0xAC004, 0x3FC0),
      (0xB000C, 0xFFFFFFFF), (0xB07EC, 0xFFFFFFFF), (0x100000, 0x100), (0x1F0000, 0x10F), (0x100010, 0xC01), (0x1F0010, 0xC01), (0x10001C, 0x200010),
      (0x1040000, 7), (0x1040004, 0x96), (0x2005104, 1), (0x200601C, 2), (0x8D076BC, 2), (0x2008000, 7), (0x200C000, 7), (0x200C400, 2), (0x8D64030, 0)] : List (Nat × Word)),
    State.reset.readReg p e.1 = e.2) ∧
  (∀ o ∈ [0x1000C, 0x10018, 0x10024, 0x20000, 0x30004, 0x3000C, 0x30200, 0x30240, 0x40000, 0x40008, 0x40080, 0x50024, 0x60048, 0x70004, 0x70040, 0x80024, 0x90004,
      0xA0008, 0xB0010, 0xB0800, 0xC0010, 0x100004, 0x1040020, 0x1050010, 0x1050020, 0x2001000, 0x2002000, 0x2003000, 0x2004000, 0x2005000, 0x2005120, 0x2006000, 0x2008004],
    State.reset.readReg p o = 0)

/-- After R6, R479, R585 and R776, for State.reset: the device is OFF; the queue of commands is empty (the model's choice, log 1); every slot is FREE; no tick runs and no cue is held; every
window is CLOSED with EPOCH 0; the device memory lists nothing and so has its canonical form, in which every byte reads as the default
(the model's choice, log 13), as MemoryFormKept asks. -/
def Obligations.ResetState : Prop :=
  State.reset.glb.st = .off ∧ State.reset.pending = [] ∧ (∀ i, (State.reset.slot i).state = 0) ∧ State.reset.tick.running = none ∧ State.reset.tick.held = [] ∧
  (∀ w, (State.reset.windowAt w).state = 0 ∧ (State.reset.windowAt w).epoch = 0 ∧ (State.reset.windowAt w).pending = false) ∧
  (∀ a, Tab.get memDefault State.reset.mem a = memDefault) ∧ Memory.wf State.reset.mem = true
end

