-- ==== Sys2Proof/Laws/State.lean ====
section
/-! SUPPORT. What each update of the state changes and what it leaves: one lemma per field and update, and the values that the
tables of units read after an update. -/

namespace Sys2Proof.Machine

/-! ## modSlot -/

@[simp] theorem State.modSlot_pending (s : State) (i : Nat) (f : SlotSt → SlotSt) : (s.modSlot i f).pending = s.pending := rfl
@[simp] theorem State.modSlot_free (s : State) (i : Nat) (f : SlotSt → SlotSt) : (s.modSlot i f).free = s.free := rfl
@[simp] theorem State.modSlot_reply (s : State) (i : Nat) (f : SlotSt → SlotSt) : (s.modSlot i f).reply = s.reply := rfl
@[simp] theorem State.modSlot_sent (s : State) (i : Nat) (f : SlotSt → SlotSt) : (s.modSlot i f).sent = s.sent := rfl
@[simp] theorem State.modSlot_cfg (s : State) (i : Nat) (f : SlotSt → SlotSt) : (s.modSlot i f).cfg = s.cfg := rfl
@[simp] theorem State.modSlot_glb (s : State) (i : Nat) (f : SlotSt → SlotSt) : (s.modSlot i f).glb = s.glb := rfl
@[simp] theorem State.modSlot_portA (s : State) (i : Nat) (f : SlotSt → SlotSt) : (s.modSlot i f).portA = s.portA := rfl
@[simp] theorem State.modSlot_portB (s : State) (i : Nat) (f : SlotSt → SlotSt) : (s.modSlot i f).portB = s.portB := rfl
@[simp] theorem State.modSlot_tick (s : State) (i : Nat) (f : SlotSt → SlotSt) : (s.modSlot i f).tick = s.tick := rfl
@[simp] theorem State.modSlot_slots (s : State) (i : Nat) (f : SlotSt → SlotSt) : (s.modSlot i f).slots = Tab.upd .reset s.slots i f := rfl
@[simp] theorem State.modSlot_host (s : State) (i : Nat) (f : SlotSt → SlotSt) : (s.modSlot i f).host = s.host := rfl
@[simp] theorem State.modSlot_pwr (s : State) (i : Nat) (f : SlotSt → SlotSt) : (s.modSlot i f).pwr = s.pwr := rfl
@[simp] theorem State.modSlot_pin (s : State) (i : Nat) (f : SlotSt → SlotSt) : (s.modSlot i f).pin = s.pin := rfl
@[simp] theorem State.modSlot_upd (s : State) (i : Nat) (f : SlotSt → SlotSt) : (s.modSlot i f).upd = s.upd := rfl
@[simp] theorem State.modSlot_sec (s : State) (i : Nat) (f : SlotSt → SlotSt) : (s.modSlot i f).sec = s.sec := rfl
@[simp] theorem State.modSlot_err (s : State) (i : Nat) (f : SlotSt → SlotSt) : (s.modSlot i f).err = s.err := rfl
@[simp] theorem State.modSlot_reh (s : State) (i : Nat) (f : SlotSt → SlotSt) : (s.modSlot i f).reh = s.reh := rfl
@[simp] theorem State.modSlot_tap (s : State) (i : Nat) (f : SlotSt → SlotSt) : (s.modSlot i f).tap = s.tap := rfl
@[simp] theorem State.modSlot_twin (s : State) (i : Nat) (f : SlotSt → SlotSt) : (s.modSlot i f).twin = s.twin := rfl
@[simp] theorem State.modSlot_lnk (s : State) (i : Nat) (f : SlotSt → SlotSt) : (s.modSlot i f).lnk = s.lnk := rfl
@[simp] theorem State.modSlot_win (s : State) (i : Nat) (f : SlotSt → SlotSt) : (s.modSlot i f).win = s.win := rfl
@[simp] theorem State.modSlot_stk (s : State) (i : Nat) (f : SlotSt → SlotSt) : (s.modSlot i f).stk = s.stk := rfl
@[simp] theorem State.modSlot_kv (s : State) (i : Nat) (f : SlotSt → SlotSt) : (s.modSlot i f).kv = s.kv := rfl
@[simp] theorem State.modSlot_prec (s : State) (i : Nat) (f : SlotSt → SlotSt) : (s.modSlot i f).prec = s.prec := rfl
@[simp] theorem State.modSlot_clu (s : State) (i : Nat) (f : SlotSt → SlotSt) : (s.modSlot i f).clu = s.clu := rfl
@[simp] theorem State.modSlot_core (s : State) (i : Nat) (f : SlotSt → SlotSt) : (s.modSlot i f).core = s.core := rfl
@[simp] theorem State.modSlot_mem (s : State) (i : Nat) (f : SlotSt → SlotSt) : (s.modSlot i f).mem = s.mem := rfl
@[simp] theorem State.modSlot_badOne (s : State) (i : Nat) (f : SlotSt → SlotSt) : (s.modSlot i f).badOne = s.badOne := rfl
@[simp] theorem State.modSlot_badTwo (s : State) (i : Nat) (f : SlotSt → SlotSt) : (s.modSlot i f).badTwo = s.badTwo := rfl

/-! ## modCore -/

@[simp] theorem State.modCore_pending (s : State) (c : CoreId) (f : CoreSt → CoreSt) : (s.modCore c f).pending = s.pending := rfl
@[simp] theorem State.modCore_free (s : State) (c : CoreId) (f : CoreSt → CoreSt) : (s.modCore c f).free = s.free := rfl
@[simp] theorem State.modCore_reply (s : State) (c : CoreId) (f : CoreSt → CoreSt) : (s.modCore c f).reply = s.reply := rfl
@[simp] theorem State.modCore_sent (s : State) (c : CoreId) (f : CoreSt → CoreSt) : (s.modCore c f).sent = s.sent := rfl
@[simp] theorem State.modCore_cfg (s : State) (c : CoreId) (f : CoreSt → CoreSt) : (s.modCore c f).cfg = s.cfg := rfl
@[simp] theorem State.modCore_glb (s : State) (c : CoreId) (f : CoreSt → CoreSt) : (s.modCore c f).glb = s.glb := rfl
@[simp] theorem State.modCore_portA (s : State) (c : CoreId) (f : CoreSt → CoreSt) : (s.modCore c f).portA = s.portA := rfl
@[simp] theorem State.modCore_portB (s : State) (c : CoreId) (f : CoreSt → CoreSt) : (s.modCore c f).portB = s.portB := rfl
@[simp] theorem State.modCore_tick (s : State) (c : CoreId) (f : CoreSt → CoreSt) : (s.modCore c f).tick = s.tick := rfl
@[simp] theorem State.modCore_slots (s : State) (c : CoreId) (f : CoreSt → CoreSt) : (s.modCore c f).slots = s.slots := rfl
@[simp] theorem State.modCore_host (s : State) (c : CoreId) (f : CoreSt → CoreSt) : (s.modCore c f).host = s.host := rfl
@[simp] theorem State.modCore_pwr (s : State) (c : CoreId) (f : CoreSt → CoreSt) : (s.modCore c f).pwr = s.pwr := rfl
@[simp] theorem State.modCore_pin (s : State) (c : CoreId) (f : CoreSt → CoreSt) : (s.modCore c f).pin = s.pin := rfl
@[simp] theorem State.modCore_upd (s : State) (c : CoreId) (f : CoreSt → CoreSt) : (s.modCore c f).upd = s.upd := rfl
@[simp] theorem State.modCore_sec (s : State) (c : CoreId) (f : CoreSt → CoreSt) : (s.modCore c f).sec = s.sec := rfl
@[simp] theorem State.modCore_err (s : State) (c : CoreId) (f : CoreSt → CoreSt) : (s.modCore c f).err = s.err := rfl
@[simp] theorem State.modCore_reh (s : State) (c : CoreId) (f : CoreSt → CoreSt) : (s.modCore c f).reh = s.reh := rfl
@[simp] theorem State.modCore_tap (s : State) (c : CoreId) (f : CoreSt → CoreSt) : (s.modCore c f).tap = s.tap := rfl
@[simp] theorem State.modCore_twin (s : State) (c : CoreId) (f : CoreSt → CoreSt) : (s.modCore c f).twin = s.twin := rfl
@[simp] theorem State.modCore_lnk (s : State) (c : CoreId) (f : CoreSt → CoreSt) : (s.modCore c f).lnk = s.lnk := rfl
@[simp] theorem State.modCore_win (s : State) (c : CoreId) (f : CoreSt → CoreSt) : (s.modCore c f).win = s.win := rfl
@[simp] theorem State.modCore_stk (s : State) (c : CoreId) (f : CoreSt → CoreSt) : (s.modCore c f).stk = s.stk := rfl
@[simp] theorem State.modCore_kv (s : State) (c : CoreId) (f : CoreSt → CoreSt) : (s.modCore c f).kv = s.kv := rfl
@[simp] theorem State.modCore_prec (s : State) (c : CoreId) (f : CoreSt → CoreSt) : (s.modCore c f).prec = s.prec := rfl
@[simp] theorem State.modCore_clu (s : State) (c : CoreId) (f : CoreSt → CoreSt) : (s.modCore c f).clu = s.clu := rfl
@[simp] theorem State.modCore_core (s : State) (c : CoreId) (f : CoreSt → CoreSt) : (s.modCore c f).core = Tab.upd .reset s.core c.num f := rfl
@[simp] theorem State.modCore_mem (s : State) (c : CoreId) (f : CoreSt → CoreSt) : (s.modCore c f).mem = s.mem := rfl
@[simp] theorem State.modCore_badOne (s : State) (c : CoreId) (f : CoreSt → CoreSt) : (s.modCore c f).badOne = s.badOne := rfl
@[simp] theorem State.modCore_badTwo (s : State) (c : CoreId) (f : CoreSt → CoreSt) : (s.modCore c f).badTwo = s.badTwo := rfl

/-! ## modClu -/

@[simp] theorem State.modClu_pending (s : State) (n : Nat) (f : CluSt → CluSt) : (s.modClu n f).pending = s.pending := rfl
@[simp] theorem State.modClu_free (s : State) (n : Nat) (f : CluSt → CluSt) : (s.modClu n f).free = s.free := rfl
@[simp] theorem State.modClu_reply (s : State) (n : Nat) (f : CluSt → CluSt) : (s.modClu n f).reply = s.reply := rfl
@[simp] theorem State.modClu_sent (s : State) (n : Nat) (f : CluSt → CluSt) : (s.modClu n f).sent = s.sent := rfl
@[simp] theorem State.modClu_cfg (s : State) (n : Nat) (f : CluSt → CluSt) : (s.modClu n f).cfg = s.cfg := rfl
@[simp] theorem State.modClu_glb (s : State) (n : Nat) (f : CluSt → CluSt) : (s.modClu n f).glb = s.glb := rfl
@[simp] theorem State.modClu_portA (s : State) (n : Nat) (f : CluSt → CluSt) : (s.modClu n f).portA = s.portA := rfl
@[simp] theorem State.modClu_portB (s : State) (n : Nat) (f : CluSt → CluSt) : (s.modClu n f).portB = s.portB := rfl
@[simp] theorem State.modClu_tick (s : State) (n : Nat) (f : CluSt → CluSt) : (s.modClu n f).tick = s.tick := rfl
@[simp] theorem State.modClu_slots (s : State) (n : Nat) (f : CluSt → CluSt) : (s.modClu n f).slots = s.slots := rfl
@[simp] theorem State.modClu_host (s : State) (n : Nat) (f : CluSt → CluSt) : (s.modClu n f).host = s.host := rfl
@[simp] theorem State.modClu_pwr (s : State) (n : Nat) (f : CluSt → CluSt) : (s.modClu n f).pwr = s.pwr := rfl
@[simp] theorem State.modClu_pin (s : State) (n : Nat) (f : CluSt → CluSt) : (s.modClu n f).pin = s.pin := rfl
@[simp] theorem State.modClu_upd (s : State) (n : Nat) (f : CluSt → CluSt) : (s.modClu n f).upd = s.upd := rfl
@[simp] theorem State.modClu_sec (s : State) (n : Nat) (f : CluSt → CluSt) : (s.modClu n f).sec = s.sec := rfl
@[simp] theorem State.modClu_err (s : State) (n : Nat) (f : CluSt → CluSt) : (s.modClu n f).err = s.err := rfl
@[simp] theorem State.modClu_reh (s : State) (n : Nat) (f : CluSt → CluSt) : (s.modClu n f).reh = s.reh := rfl
@[simp] theorem State.modClu_tap (s : State) (n : Nat) (f : CluSt → CluSt) : (s.modClu n f).tap = s.tap := rfl
@[simp] theorem State.modClu_twin (s : State) (n : Nat) (f : CluSt → CluSt) : (s.modClu n f).twin = s.twin := rfl
@[simp] theorem State.modClu_lnk (s : State) (n : Nat) (f : CluSt → CluSt) : (s.modClu n f).lnk = s.lnk := rfl
@[simp] theorem State.modClu_win (s : State) (n : Nat) (f : CluSt → CluSt) : (s.modClu n f).win = s.win := rfl
@[simp] theorem State.modClu_stk (s : State) (n : Nat) (f : CluSt → CluSt) : (s.modClu n f).stk = s.stk := rfl
@[simp] theorem State.modClu_kv (s : State) (n : Nat) (f : CluSt → CluSt) : (s.modClu n f).kv = s.kv := rfl
@[simp] theorem State.modClu_prec (s : State) (n : Nat) (f : CluSt → CluSt) : (s.modClu n f).prec = s.prec := rfl
@[simp] theorem State.modClu_clu (s : State) (n : Nat) (f : CluSt → CluSt) : (s.modClu n f).clu = Tab.upd .reset s.clu n f := rfl
@[simp] theorem State.modClu_core (s : State) (n : Nat) (f : CluSt → CluSt) : (s.modClu n f).core = s.core := rfl
@[simp] theorem State.modClu_mem (s : State) (n : Nat) (f : CluSt → CluSt) : (s.modClu n f).mem = s.mem := rfl
@[simp] theorem State.modClu_badOne (s : State) (n : Nat) (f : CluSt → CluSt) : (s.modClu n f).badOne = s.badOne := rfl
@[simp] theorem State.modClu_badTwo (s : State) (n : Nat) (f : CluSt → CluSt) : (s.modClu n f).badTwo = s.badTwo := rfl

/-! ## modStk -/

@[simp] theorem State.modStk_pending (s : State) (k : Nat) (f : StkSt → StkSt) : (s.modStk k f).pending = s.pending := rfl
@[simp] theorem State.modStk_free (s : State) (k : Nat) (f : StkSt → StkSt) : (s.modStk k f).free = s.free := rfl
@[simp] theorem State.modStk_reply (s : State) (k : Nat) (f : StkSt → StkSt) : (s.modStk k f).reply = s.reply := rfl
@[simp] theorem State.modStk_sent (s : State) (k : Nat) (f : StkSt → StkSt) : (s.modStk k f).sent = s.sent := rfl
@[simp] theorem State.modStk_cfg (s : State) (k : Nat) (f : StkSt → StkSt) : (s.modStk k f).cfg = s.cfg := rfl
@[simp] theorem State.modStk_glb (s : State) (k : Nat) (f : StkSt → StkSt) : (s.modStk k f).glb = s.glb := rfl
@[simp] theorem State.modStk_portA (s : State) (k : Nat) (f : StkSt → StkSt) : (s.modStk k f).portA = s.portA := rfl
@[simp] theorem State.modStk_portB (s : State) (k : Nat) (f : StkSt → StkSt) : (s.modStk k f).portB = s.portB := rfl
@[simp] theorem State.modStk_tick (s : State) (k : Nat) (f : StkSt → StkSt) : (s.modStk k f).tick = s.tick := rfl
@[simp] theorem State.modStk_slots (s : State) (k : Nat) (f : StkSt → StkSt) : (s.modStk k f).slots = s.slots := rfl
@[simp] theorem State.modStk_host (s : State) (k : Nat) (f : StkSt → StkSt) : (s.modStk k f).host = s.host := rfl
@[simp] theorem State.modStk_pwr (s : State) (k : Nat) (f : StkSt → StkSt) : (s.modStk k f).pwr = s.pwr := rfl
@[simp] theorem State.modStk_pin (s : State) (k : Nat) (f : StkSt → StkSt) : (s.modStk k f).pin = s.pin := rfl
@[simp] theorem State.modStk_upd (s : State) (k : Nat) (f : StkSt → StkSt) : (s.modStk k f).upd = s.upd := rfl
@[simp] theorem State.modStk_sec (s : State) (k : Nat) (f : StkSt → StkSt) : (s.modStk k f).sec = s.sec := rfl
@[simp] theorem State.modStk_err (s : State) (k : Nat) (f : StkSt → StkSt) : (s.modStk k f).err = s.err := rfl
@[simp] theorem State.modStk_reh (s : State) (k : Nat) (f : StkSt → StkSt) : (s.modStk k f).reh = s.reh := rfl
@[simp] theorem State.modStk_tap (s : State) (k : Nat) (f : StkSt → StkSt) : (s.modStk k f).tap = s.tap := rfl
@[simp] theorem State.modStk_twin (s : State) (k : Nat) (f : StkSt → StkSt) : (s.modStk k f).twin = s.twin := rfl
@[simp] theorem State.modStk_lnk (s : State) (k : Nat) (f : StkSt → StkSt) : (s.modStk k f).lnk = s.lnk := rfl
@[simp] theorem State.modStk_win (s : State) (k : Nat) (f : StkSt → StkSt) : (s.modStk k f).win = s.win := rfl
@[simp] theorem State.modStk_stk (s : State) (k : Nat) (f : StkSt → StkSt) : (s.modStk k f).stk = Tab.upd .reset s.stk k f := rfl
@[simp] theorem State.modStk_kv (s : State) (k : Nat) (f : StkSt → StkSt) : (s.modStk k f).kv = s.kv := rfl
@[simp] theorem State.modStk_prec (s : State) (k : Nat) (f : StkSt → StkSt) : (s.modStk k f).prec = s.prec := rfl
@[simp] theorem State.modStk_clu (s : State) (k : Nat) (f : StkSt → StkSt) : (s.modStk k f).clu = s.clu := rfl
@[simp] theorem State.modStk_core (s : State) (k : Nat) (f : StkSt → StkSt) : (s.modStk k f).core = s.core := rfl
@[simp] theorem State.modStk_mem (s : State) (k : Nat) (f : StkSt → StkSt) : (s.modStk k f).mem = s.mem := rfl
@[simp] theorem State.modStk_badOne (s : State) (k : Nat) (f : StkSt → StkSt) : (s.modStk k f).badOne = s.badOne := rfl
@[simp] theorem State.modStk_badTwo (s : State) (k : Nat) (f : StkSt → StkSt) : (s.modStk k f).badTwo = s.badTwo := rfl

/-! ## modKv -/

@[simp] theorem State.modKv_pending (s : State) (d : Nat) (f : KvSt → KvSt) : (s.modKv d f).pending = s.pending := rfl
@[simp] theorem State.modKv_free (s : State) (d : Nat) (f : KvSt → KvSt) : (s.modKv d f).free = s.free := rfl
@[simp] theorem State.modKv_reply (s : State) (d : Nat) (f : KvSt → KvSt) : (s.modKv d f).reply = s.reply := rfl
@[simp] theorem State.modKv_sent (s : State) (d : Nat) (f : KvSt → KvSt) : (s.modKv d f).sent = s.sent := rfl
@[simp] theorem State.modKv_cfg (s : State) (d : Nat) (f : KvSt → KvSt) : (s.modKv d f).cfg = s.cfg := rfl
@[simp] theorem State.modKv_glb (s : State) (d : Nat) (f : KvSt → KvSt) : (s.modKv d f).glb = s.glb := rfl
@[simp] theorem State.modKv_portA (s : State) (d : Nat) (f : KvSt → KvSt) : (s.modKv d f).portA = s.portA := rfl
@[simp] theorem State.modKv_portB (s : State) (d : Nat) (f : KvSt → KvSt) : (s.modKv d f).portB = s.portB := rfl
@[simp] theorem State.modKv_tick (s : State) (d : Nat) (f : KvSt → KvSt) : (s.modKv d f).tick = s.tick := rfl
@[simp] theorem State.modKv_slots (s : State) (d : Nat) (f : KvSt → KvSt) : (s.modKv d f).slots = s.slots := rfl
@[simp] theorem State.modKv_host (s : State) (d : Nat) (f : KvSt → KvSt) : (s.modKv d f).host = s.host := rfl
@[simp] theorem State.modKv_pwr (s : State) (d : Nat) (f : KvSt → KvSt) : (s.modKv d f).pwr = s.pwr := rfl
@[simp] theorem State.modKv_pin (s : State) (d : Nat) (f : KvSt → KvSt) : (s.modKv d f).pin = s.pin := rfl
@[simp] theorem State.modKv_upd (s : State) (d : Nat) (f : KvSt → KvSt) : (s.modKv d f).upd = s.upd := rfl
@[simp] theorem State.modKv_sec (s : State) (d : Nat) (f : KvSt → KvSt) : (s.modKv d f).sec = s.sec := rfl
@[simp] theorem State.modKv_err (s : State) (d : Nat) (f : KvSt → KvSt) : (s.modKv d f).err = s.err := rfl
@[simp] theorem State.modKv_reh (s : State) (d : Nat) (f : KvSt → KvSt) : (s.modKv d f).reh = s.reh := rfl
@[simp] theorem State.modKv_tap (s : State) (d : Nat) (f : KvSt → KvSt) : (s.modKv d f).tap = s.tap := rfl
@[simp] theorem State.modKv_twin (s : State) (d : Nat) (f : KvSt → KvSt) : (s.modKv d f).twin = s.twin := rfl
@[simp] theorem State.modKv_lnk (s : State) (d : Nat) (f : KvSt → KvSt) : (s.modKv d f).lnk = s.lnk := rfl
@[simp] theorem State.modKv_win (s : State) (d : Nat) (f : KvSt → KvSt) : (s.modKv d f).win = s.win := rfl
@[simp] theorem State.modKv_stk (s : State) (d : Nat) (f : KvSt → KvSt) : (s.modKv d f).stk = s.stk := rfl
@[simp] theorem State.modKv_kv (s : State) (d : Nat) (f : KvSt → KvSt) : (s.modKv d f).kv = Tab.upd .reset s.kv d f := rfl
@[simp] theorem State.modKv_prec (s : State) (d : Nat) (f : KvSt → KvSt) : (s.modKv d f).prec = s.prec := rfl
@[simp] theorem State.modKv_clu (s : State) (d : Nat) (f : KvSt → KvSt) : (s.modKv d f).clu = s.clu := rfl
@[simp] theorem State.modKv_core (s : State) (d : Nat) (f : KvSt → KvSt) : (s.modKv d f).core = s.core := rfl
@[simp] theorem State.modKv_mem (s : State) (d : Nat) (f : KvSt → KvSt) : (s.modKv d f).mem = s.mem := rfl
@[simp] theorem State.modKv_badOne (s : State) (d : Nat) (f : KvSt → KvSt) : (s.modKv d f).badOne = s.badOne := rfl
@[simp] theorem State.modKv_badTwo (s : State) (d : Nat) (f : KvSt → KvSt) : (s.modKv d f).badTwo = s.badTwo := rfl

/-! ## modLnk -/

@[simp] theorem State.modLnk_pending (s : State) (p : Nat) (f : LnkSt → LnkSt) : (s.modLnk p f).pending = s.pending := rfl
@[simp] theorem State.modLnk_free (s : State) (p : Nat) (f : LnkSt → LnkSt) : (s.modLnk p f).free = s.free := rfl
@[simp] theorem State.modLnk_reply (s : State) (p : Nat) (f : LnkSt → LnkSt) : (s.modLnk p f).reply = s.reply := rfl
@[simp] theorem State.modLnk_sent (s : State) (p : Nat) (f : LnkSt → LnkSt) : (s.modLnk p f).sent = s.sent := rfl
@[simp] theorem State.modLnk_cfg (s : State) (p : Nat) (f : LnkSt → LnkSt) : (s.modLnk p f).cfg = s.cfg := rfl
@[simp] theorem State.modLnk_glb (s : State) (p : Nat) (f : LnkSt → LnkSt) : (s.modLnk p f).glb = s.glb := rfl
@[simp] theorem State.modLnk_portA (s : State) (p : Nat) (f : LnkSt → LnkSt) : (s.modLnk p f).portA = s.portA := rfl
@[simp] theorem State.modLnk_portB (s : State) (p : Nat) (f : LnkSt → LnkSt) : (s.modLnk p f).portB = s.portB := rfl
@[simp] theorem State.modLnk_tick (s : State) (p : Nat) (f : LnkSt → LnkSt) : (s.modLnk p f).tick = s.tick := rfl
@[simp] theorem State.modLnk_slots (s : State) (p : Nat) (f : LnkSt → LnkSt) : (s.modLnk p f).slots = s.slots := rfl
@[simp] theorem State.modLnk_host (s : State) (p : Nat) (f : LnkSt → LnkSt) : (s.modLnk p f).host = s.host := rfl
@[simp] theorem State.modLnk_pwr (s : State) (p : Nat) (f : LnkSt → LnkSt) : (s.modLnk p f).pwr = s.pwr := rfl
@[simp] theorem State.modLnk_pin (s : State) (p : Nat) (f : LnkSt → LnkSt) : (s.modLnk p f).pin = s.pin := rfl
@[simp] theorem State.modLnk_upd (s : State) (p : Nat) (f : LnkSt → LnkSt) : (s.modLnk p f).upd = s.upd := rfl
@[simp] theorem State.modLnk_sec (s : State) (p : Nat) (f : LnkSt → LnkSt) : (s.modLnk p f).sec = s.sec := rfl
@[simp] theorem State.modLnk_err (s : State) (p : Nat) (f : LnkSt → LnkSt) : (s.modLnk p f).err = s.err := rfl
@[simp] theorem State.modLnk_reh (s : State) (p : Nat) (f : LnkSt → LnkSt) : (s.modLnk p f).reh = s.reh := rfl
@[simp] theorem State.modLnk_tap (s : State) (p : Nat) (f : LnkSt → LnkSt) : (s.modLnk p f).tap = s.tap := rfl
@[simp] theorem State.modLnk_twin (s : State) (p : Nat) (f : LnkSt → LnkSt) : (s.modLnk p f).twin = s.twin := rfl
@[simp] theorem State.modLnk_lnk (s : State) (p : Nat) (f : LnkSt → LnkSt) : (s.modLnk p f).lnk = Tab.upd .reset s.lnk p f := rfl
@[simp] theorem State.modLnk_win (s : State) (p : Nat) (f : LnkSt → LnkSt) : (s.modLnk p f).win = s.win := rfl
@[simp] theorem State.modLnk_stk (s : State) (p : Nat) (f : LnkSt → LnkSt) : (s.modLnk p f).stk = s.stk := rfl
@[simp] theorem State.modLnk_kv (s : State) (p : Nat) (f : LnkSt → LnkSt) : (s.modLnk p f).kv = s.kv := rfl
@[simp] theorem State.modLnk_prec (s : State) (p : Nat) (f : LnkSt → LnkSt) : (s.modLnk p f).prec = s.prec := rfl
@[simp] theorem State.modLnk_clu (s : State) (p : Nat) (f : LnkSt → LnkSt) : (s.modLnk p f).clu = s.clu := rfl
@[simp] theorem State.modLnk_core (s : State) (p : Nat) (f : LnkSt → LnkSt) : (s.modLnk p f).core = s.core := rfl
@[simp] theorem State.modLnk_mem (s : State) (p : Nat) (f : LnkSt → LnkSt) : (s.modLnk p f).mem = s.mem := rfl
@[simp] theorem State.modLnk_badOne (s : State) (p : Nat) (f : LnkSt → LnkSt) : (s.modLnk p f).badOne = s.badOne := rfl
@[simp] theorem State.modLnk_badTwo (s : State) (p : Nat) (f : LnkSt → LnkSt) : (s.modLnk p f).badTwo = s.badTwo := rfl

/-! ## modWindow -/

@[simp] theorem State.modWindow_pending (s : State) (w : Nat) (f : WindowSt → WindowSt) : (s.modWindow w f).pending = s.pending := rfl
@[simp] theorem State.modWindow_free (s : State) (w : Nat) (f : WindowSt → WindowSt) : (s.modWindow w f).free = s.free := rfl
@[simp] theorem State.modWindow_reply (s : State) (w : Nat) (f : WindowSt → WindowSt) : (s.modWindow w f).reply = s.reply := rfl
@[simp] theorem State.modWindow_sent (s : State) (w : Nat) (f : WindowSt → WindowSt) : (s.modWindow w f).sent = s.sent := rfl
@[simp] theorem State.modWindow_cfg (s : State) (w : Nat) (f : WindowSt → WindowSt) : (s.modWindow w f).cfg = s.cfg := rfl
@[simp] theorem State.modWindow_glb (s : State) (w : Nat) (f : WindowSt → WindowSt) : (s.modWindow w f).glb = s.glb := rfl
@[simp] theorem State.modWindow_portA (s : State) (w : Nat) (f : WindowSt → WindowSt) : (s.modWindow w f).portA = s.portA := rfl
@[simp] theorem State.modWindow_portB (s : State) (w : Nat) (f : WindowSt → WindowSt) : (s.modWindow w f).portB = s.portB := rfl
@[simp] theorem State.modWindow_tick (s : State) (w : Nat) (f : WindowSt → WindowSt) : (s.modWindow w f).tick = s.tick := rfl
@[simp] theorem State.modWindow_slots (s : State) (w : Nat) (f : WindowSt → WindowSt) : (s.modWindow w f).slots = s.slots := rfl
@[simp] theorem State.modWindow_host (s : State) (w : Nat) (f : WindowSt → WindowSt) : (s.modWindow w f).host = s.host := rfl
@[simp] theorem State.modWindow_pwr (s : State) (w : Nat) (f : WindowSt → WindowSt) : (s.modWindow w f).pwr = s.pwr := rfl
@[simp] theorem State.modWindow_pin (s : State) (w : Nat) (f : WindowSt → WindowSt) : (s.modWindow w f).pin = s.pin := rfl
@[simp] theorem State.modWindow_upd (s : State) (w : Nat) (f : WindowSt → WindowSt) : (s.modWindow w f).upd = s.upd := rfl
@[simp] theorem State.modWindow_sec (s : State) (w : Nat) (f : WindowSt → WindowSt) : (s.modWindow w f).sec = s.sec := rfl
@[simp] theorem State.modWindow_err (s : State) (w : Nat) (f : WindowSt → WindowSt) : (s.modWindow w f).err = s.err := rfl
@[simp] theorem State.modWindow_reh (s : State) (w : Nat) (f : WindowSt → WindowSt) : (s.modWindow w f).reh = s.reh := rfl
@[simp] theorem State.modWindow_tap (s : State) (w : Nat) (f : WindowSt → WindowSt) : (s.modWindow w f).tap = s.tap := rfl
@[simp] theorem State.modWindow_twin (s : State) (w : Nat) (f : WindowSt → WindowSt) : (s.modWindow w f).twin = s.twin := rfl
@[simp] theorem State.modWindow_lnk (s : State) (w : Nat) (f : WindowSt → WindowSt) : (s.modWindow w f).lnk = s.lnk := rfl
@[simp] theorem State.modWindow_win (s : State) (w : Nat) (f : WindowSt → WindowSt) : (s.modWindow w f).win = { s.win with windows := Tab.upd .reset s.win.windows w f } := rfl
@[simp] theorem State.modWindow_stk (s : State) (w : Nat) (f : WindowSt → WindowSt) : (s.modWindow w f).stk = s.stk := rfl
@[simp] theorem State.modWindow_kv (s : State) (w : Nat) (f : WindowSt → WindowSt) : (s.modWindow w f).kv = s.kv := rfl
@[simp] theorem State.modWindow_prec (s : State) (w : Nat) (f : WindowSt → WindowSt) : (s.modWindow w f).prec = s.prec := rfl
@[simp] theorem State.modWindow_clu (s : State) (w : Nat) (f : WindowSt → WindowSt) : (s.modWindow w f).clu = s.clu := rfl
@[simp] theorem State.modWindow_core (s : State) (w : Nat) (f : WindowSt → WindowSt) : (s.modWindow w f).core = s.core := rfl
@[simp] theorem State.modWindow_mem (s : State) (w : Nat) (f : WindowSt → WindowSt) : (s.modWindow w f).mem = s.mem := rfl
@[simp] theorem State.modWindow_badOne (s : State) (w : Nat) (f : WindowSt → WindowSt) : (s.modWindow w f).badOne = s.badOne := rfl
@[simp] theorem State.modWindow_badTwo (s : State) (w : Nat) (f : WindowSt → WindowSt) : (s.modWindow w f).badTwo = s.badTwo := rfl

/-! ## modHandle -/

@[simp] theorem State.modHandle_pending (s : State) (h : Nat) (f : HandleSt → HandleSt) : (s.modHandle h f).pending = s.pending := rfl
@[simp] theorem State.modHandle_free (s : State) (h : Nat) (f : HandleSt → HandleSt) : (s.modHandle h f).free = s.free := rfl
@[simp] theorem State.modHandle_reply (s : State) (h : Nat) (f : HandleSt → HandleSt) : (s.modHandle h f).reply = s.reply := rfl
@[simp] theorem State.modHandle_sent (s : State) (h : Nat) (f : HandleSt → HandleSt) : (s.modHandle h f).sent = s.sent := rfl
@[simp] theorem State.modHandle_cfg (s : State) (h : Nat) (f : HandleSt → HandleSt) : (s.modHandle h f).cfg = s.cfg := rfl
@[simp] theorem State.modHandle_glb (s : State) (h : Nat) (f : HandleSt → HandleSt) : (s.modHandle h f).glb = s.glb := rfl
@[simp] theorem State.modHandle_portA (s : State) (h : Nat) (f : HandleSt → HandleSt) : (s.modHandle h f).portA = s.portA := rfl
@[simp] theorem State.modHandle_portB (s : State) (h : Nat) (f : HandleSt → HandleSt) : (s.modHandle h f).portB = s.portB := rfl
@[simp] theorem State.modHandle_tick (s : State) (h : Nat) (f : HandleSt → HandleSt) : (s.modHandle h f).tick = s.tick := rfl
@[simp] theorem State.modHandle_slots (s : State) (h : Nat) (f : HandleSt → HandleSt) : (s.modHandle h f).slots = s.slots := rfl
@[simp] theorem State.modHandle_host (s : State) (h : Nat) (f : HandleSt → HandleSt) : (s.modHandle h f).host = s.host := rfl
@[simp] theorem State.modHandle_pwr (s : State) (h : Nat) (f : HandleSt → HandleSt) : (s.modHandle h f).pwr = s.pwr := rfl
@[simp] theorem State.modHandle_pin (s : State) (h : Nat) (f : HandleSt → HandleSt) : (s.modHandle h f).pin = s.pin := rfl
@[simp] theorem State.modHandle_upd (s : State) (h : Nat) (f : HandleSt → HandleSt) : (s.modHandle h f).upd = s.upd := rfl
@[simp] theorem State.modHandle_sec (s : State) (h : Nat) (f : HandleSt → HandleSt) : (s.modHandle h f).sec = s.sec := rfl
@[simp] theorem State.modHandle_err (s : State) (h : Nat) (f : HandleSt → HandleSt) : (s.modHandle h f).err = s.err := rfl
@[simp] theorem State.modHandle_reh (s : State) (h : Nat) (f : HandleSt → HandleSt) : (s.modHandle h f).reh = s.reh := rfl
@[simp] theorem State.modHandle_tap (s : State) (h : Nat) (f : HandleSt → HandleSt) : (s.modHandle h f).tap = s.tap := rfl
@[simp] theorem State.modHandle_twin (s : State) (h : Nat) (f : HandleSt → HandleSt) : (s.modHandle h f).twin = s.twin := rfl
@[simp] theorem State.modHandle_lnk (s : State) (h : Nat) (f : HandleSt → HandleSt) : (s.modHandle h f).lnk = s.lnk := rfl
@[simp] theorem State.modHandle_win (s : State) (h : Nat) (f : HandleSt → HandleSt) : (s.modHandle h f).win = { s.win with handles := Tab.upd .reset s.win.handles h f } := rfl
@[simp] theorem State.modHandle_stk (s : State) (h : Nat) (f : HandleSt → HandleSt) : (s.modHandle h f).stk = s.stk := rfl
@[simp] theorem State.modHandle_kv (s : State) (h : Nat) (f : HandleSt → HandleSt) : (s.modHandle h f).kv = s.kv := rfl
@[simp] theorem State.modHandle_prec (s : State) (h : Nat) (f : HandleSt → HandleSt) : (s.modHandle h f).prec = s.prec := rfl
@[simp] theorem State.modHandle_clu (s : State) (h : Nat) (f : HandleSt → HandleSt) : (s.modHandle h f).clu = s.clu := rfl
@[simp] theorem State.modHandle_core (s : State) (h : Nat) (f : HandleSt → HandleSt) : (s.modHandle h f).core = s.core := rfl
@[simp] theorem State.modHandle_mem (s : State) (h : Nat) (f : HandleSt → HandleSt) : (s.modHandle h f).mem = s.mem := rfl
@[simp] theorem State.modHandle_badOne (s : State) (h : Nat) (f : HandleSt → HandleSt) : (s.modHandle h f).badOne = s.badOne := rfl
@[simp] theorem State.modHandle_badTwo (s : State) (h : Nat) (f : HandleSt → HandleSt) : (s.modHandle h f).badTwo = s.badTwo := rfl

/-! ## modLayer -/

@[simp] theorem State.modLayer_pending (s : State) (l : Nat) (f : LayerSt → LayerSt) : (s.modLayer l f).pending = s.pending := rfl
@[simp] theorem State.modLayer_free (s : State) (l : Nat) (f : LayerSt → LayerSt) : (s.modLayer l f).free = s.free := rfl
@[simp] theorem State.modLayer_reply (s : State) (l : Nat) (f : LayerSt → LayerSt) : (s.modLayer l f).reply = s.reply := rfl
@[simp] theorem State.modLayer_sent (s : State) (l : Nat) (f : LayerSt → LayerSt) : (s.modLayer l f).sent = s.sent := rfl
@[simp] theorem State.modLayer_cfg (s : State) (l : Nat) (f : LayerSt → LayerSt) : (s.modLayer l f).cfg = s.cfg := rfl
@[simp] theorem State.modLayer_glb (s : State) (l : Nat) (f : LayerSt → LayerSt) : (s.modLayer l f).glb = s.glb := rfl
@[simp] theorem State.modLayer_portA (s : State) (l : Nat) (f : LayerSt → LayerSt) : (s.modLayer l f).portA = s.portA := rfl
@[simp] theorem State.modLayer_portB (s : State) (l : Nat) (f : LayerSt → LayerSt) : (s.modLayer l f).portB = s.portB := rfl
@[simp] theorem State.modLayer_tick (s : State) (l : Nat) (f : LayerSt → LayerSt) : (s.modLayer l f).tick = s.tick := rfl
@[simp] theorem State.modLayer_slots (s : State) (l : Nat) (f : LayerSt → LayerSt) : (s.modLayer l f).slots = s.slots := rfl
@[simp] theorem State.modLayer_host (s : State) (l : Nat) (f : LayerSt → LayerSt) : (s.modLayer l f).host = s.host := rfl
@[simp] theorem State.modLayer_pwr (s : State) (l : Nat) (f : LayerSt → LayerSt) : (s.modLayer l f).pwr = s.pwr := rfl
@[simp] theorem State.modLayer_pin (s : State) (l : Nat) (f : LayerSt → LayerSt) : (s.modLayer l f).pin = s.pin := rfl
@[simp] theorem State.modLayer_upd (s : State) (l : Nat) (f : LayerSt → LayerSt) : (s.modLayer l f).upd = s.upd := rfl
@[simp] theorem State.modLayer_sec (s : State) (l : Nat) (f : LayerSt → LayerSt) : (s.modLayer l f).sec = s.sec := rfl
@[simp] theorem State.modLayer_err (s : State) (l : Nat) (f : LayerSt → LayerSt) : (s.modLayer l f).err = s.err := rfl
@[simp] theorem State.modLayer_reh (s : State) (l : Nat) (f : LayerSt → LayerSt) : (s.modLayer l f).reh = s.reh := rfl
@[simp] theorem State.modLayer_tap (s : State) (l : Nat) (f : LayerSt → LayerSt) : (s.modLayer l f).tap = s.tap := rfl
@[simp] theorem State.modLayer_twin (s : State) (l : Nat) (f : LayerSt → LayerSt) : (s.modLayer l f).twin = s.twin := rfl
@[simp] theorem State.modLayer_lnk (s : State) (l : Nat) (f : LayerSt → LayerSt) : (s.modLayer l f).lnk = s.lnk := rfl
@[simp] theorem State.modLayer_win (s : State) (l : Nat) (f : LayerSt → LayerSt) : (s.modLayer l f).win = s.win := rfl
@[simp] theorem State.modLayer_stk (s : State) (l : Nat) (f : LayerSt → LayerSt) : (s.modLayer l f).stk = s.stk := rfl
@[simp] theorem State.modLayer_kv (s : State) (l : Nat) (f : LayerSt → LayerSt) : (s.modLayer l f).kv = s.kv := rfl
@[simp] theorem State.modLayer_prec (s : State) (l : Nat) (f : LayerSt → LayerSt) : (s.modLayer l f).prec = { s.prec with layers := Tab.upd .reset s.prec.layers l f } := rfl
@[simp] theorem State.modLayer_clu (s : State) (l : Nat) (f : LayerSt → LayerSt) : (s.modLayer l f).clu = s.clu := rfl
@[simp] theorem State.modLayer_core (s : State) (l : Nat) (f : LayerSt → LayerSt) : (s.modLayer l f).core = s.core := rfl
@[simp] theorem State.modLayer_mem (s : State) (l : Nat) (f : LayerSt → LayerSt) : (s.modLayer l f).mem = s.mem := rfl
@[simp] theorem State.modLayer_badOne (s : State) (l : Nat) (f : LayerSt → LayerSt) : (s.modLayer l f).badOne = s.badOne := rfl
@[simp] theorem State.modLayer_badTwo (s : State) (l : Nat) (f : LayerSt → LayerSt) : (s.modLayer l f).badTwo = s.badTwo := rfl

/-! ## modInv -/

@[simp] theorem State.modInv_pending (s : State) (o : Nat) (f : InvSt → InvSt) : (s.modInv o f).pending = s.pending := rfl
@[simp] theorem State.modInv_free (s : State) (o : Nat) (f : InvSt → InvSt) : (s.modInv o f).free = s.free := rfl
@[simp] theorem State.modInv_reply (s : State) (o : Nat) (f : InvSt → InvSt) : (s.modInv o f).reply = s.reply := rfl
@[simp] theorem State.modInv_sent (s : State) (o : Nat) (f : InvSt → InvSt) : (s.modInv o f).sent = s.sent := rfl
@[simp] theorem State.modInv_cfg (s : State) (o : Nat) (f : InvSt → InvSt) : (s.modInv o f).cfg = s.cfg := rfl
@[simp] theorem State.modInv_glb (s : State) (o : Nat) (f : InvSt → InvSt) : (s.modInv o f).glb = s.glb := rfl
@[simp] theorem State.modInv_portA (s : State) (o : Nat) (f : InvSt → InvSt) : (s.modInv o f).portA = s.portA := rfl
@[simp] theorem State.modInv_portB (s : State) (o : Nat) (f : InvSt → InvSt) : (s.modInv o f).portB = s.portB := rfl
@[simp] theorem State.modInv_tick (s : State) (o : Nat) (f : InvSt → InvSt) : (s.modInv o f).tick = s.tick := rfl
@[simp] theorem State.modInv_slots (s : State) (o : Nat) (f : InvSt → InvSt) : (s.modInv o f).slots = s.slots := rfl
@[simp] theorem State.modInv_host (s : State) (o : Nat) (f : InvSt → InvSt) : (s.modInv o f).host = s.host := rfl
@[simp] theorem State.modInv_pwr (s : State) (o : Nat) (f : InvSt → InvSt) : (s.modInv o f).pwr = s.pwr := rfl
@[simp] theorem State.modInv_pin (s : State) (o : Nat) (f : InvSt → InvSt) : (s.modInv o f).pin = s.pin := rfl
@[simp] theorem State.modInv_upd (s : State) (o : Nat) (f : InvSt → InvSt) : (s.modInv o f).upd = s.upd := rfl
@[simp] theorem State.modInv_sec (s : State) (o : Nat) (f : InvSt → InvSt) : (s.modInv o f).sec = s.sec := rfl
@[simp] theorem State.modInv_err (s : State) (o : Nat) (f : InvSt → InvSt) : (s.modInv o f).err = s.err := rfl
@[simp] theorem State.modInv_reh (s : State) (o : Nat) (f : InvSt → InvSt) : (s.modInv o f).reh = s.reh := rfl
@[simp] theorem State.modInv_tap (s : State) (o : Nat) (f : InvSt → InvSt) : (s.modInv o f).tap = s.tap := rfl
@[simp] theorem State.modInv_twin (s : State) (o : Nat) (f : InvSt → InvSt) : (s.modInv o f).twin = s.twin := rfl
@[simp] theorem State.modInv_lnk (s : State) (o : Nat) (f : InvSt → InvSt) : (s.modInv o f).lnk = s.lnk := rfl
@[simp] theorem State.modInv_win (s : State) (o : Nat) (f : InvSt → InvSt) : (s.modInv o f).win = s.win := rfl
@[simp] theorem State.modInv_stk (s : State) (o : Nat) (f : InvSt → InvSt) : (s.modInv o f).stk = s.stk := rfl
@[simp] theorem State.modInv_kv (s : State) (o : Nat) (f : InvSt → InvSt) : (s.modInv o f).kv = s.kv := rfl
@[simp] theorem State.modInv_prec (s : State) (o : Nat) (f : InvSt → InvSt) : (s.modInv o f).prec = { s.prec with invs := Tab.upd .reset s.prec.invs o f } := rfl
@[simp] theorem State.modInv_clu (s : State) (o : Nat) (f : InvSt → InvSt) : (s.modInv o f).clu = s.clu := rfl
@[simp] theorem State.modInv_core (s : State) (o : Nat) (f : InvSt → InvSt) : (s.modInv o f).core = s.core := rfl
@[simp] theorem State.modInv_mem (s : State) (o : Nat) (f : InvSt → InvSt) : (s.modInv o f).mem = s.mem := rfl
@[simp] theorem State.modInv_badOne (s : State) (o : Nat) (f : InvSt → InvSt) : (s.modInv o f).badOne = s.badOne := rfl
@[simp] theorem State.modInv_badTwo (s : State) (o : Nat) (f : InvSt → InvSt) : (s.modInv o f).badTwo = s.badTwo := rfl

/-! ## modPrec -/

@[simp] theorem State.modPrec_pending (s : State) (f : PrecSt → PrecSt) : (s.modPrec f).pending = s.pending := rfl
@[simp] theorem State.modPrec_free (s : State) (f : PrecSt → PrecSt) : (s.modPrec f).free = s.free := rfl
@[simp] theorem State.modPrec_reply (s : State) (f : PrecSt → PrecSt) : (s.modPrec f).reply = s.reply := rfl
@[simp] theorem State.modPrec_sent (s : State) (f : PrecSt → PrecSt) : (s.modPrec f).sent = s.sent := rfl
@[simp] theorem State.modPrec_cfg (s : State) (f : PrecSt → PrecSt) : (s.modPrec f).cfg = s.cfg := rfl
@[simp] theorem State.modPrec_glb (s : State) (f : PrecSt → PrecSt) : (s.modPrec f).glb = s.glb := rfl
@[simp] theorem State.modPrec_portA (s : State) (f : PrecSt → PrecSt) : (s.modPrec f).portA = s.portA := rfl
@[simp] theorem State.modPrec_portB (s : State) (f : PrecSt → PrecSt) : (s.modPrec f).portB = s.portB := rfl
@[simp] theorem State.modPrec_tick (s : State) (f : PrecSt → PrecSt) : (s.modPrec f).tick = s.tick := rfl
@[simp] theorem State.modPrec_slots (s : State) (f : PrecSt → PrecSt) : (s.modPrec f).slots = s.slots := rfl
@[simp] theorem State.modPrec_host (s : State) (f : PrecSt → PrecSt) : (s.modPrec f).host = s.host := rfl
@[simp] theorem State.modPrec_pwr (s : State) (f : PrecSt → PrecSt) : (s.modPrec f).pwr = s.pwr := rfl
@[simp] theorem State.modPrec_pin (s : State) (f : PrecSt → PrecSt) : (s.modPrec f).pin = s.pin := rfl
@[simp] theorem State.modPrec_upd (s : State) (f : PrecSt → PrecSt) : (s.modPrec f).upd = s.upd := rfl
@[simp] theorem State.modPrec_sec (s : State) (f : PrecSt → PrecSt) : (s.modPrec f).sec = s.sec := rfl
@[simp] theorem State.modPrec_err (s : State) (f : PrecSt → PrecSt) : (s.modPrec f).err = s.err := rfl
@[simp] theorem State.modPrec_reh (s : State) (f : PrecSt → PrecSt) : (s.modPrec f).reh = s.reh := rfl
@[simp] theorem State.modPrec_tap (s : State) (f : PrecSt → PrecSt) : (s.modPrec f).tap = s.tap := rfl
@[simp] theorem State.modPrec_twin (s : State) (f : PrecSt → PrecSt) : (s.modPrec f).twin = s.twin := rfl
@[simp] theorem State.modPrec_lnk (s : State) (f : PrecSt → PrecSt) : (s.modPrec f).lnk = s.lnk := rfl
@[simp] theorem State.modPrec_win (s : State) (f : PrecSt → PrecSt) : (s.modPrec f).win = s.win := rfl
@[simp] theorem State.modPrec_stk (s : State) (f : PrecSt → PrecSt) : (s.modPrec f).stk = s.stk := rfl
@[simp] theorem State.modPrec_kv (s : State) (f : PrecSt → PrecSt) : (s.modPrec f).kv = s.kv := rfl
@[simp] theorem State.modPrec_prec (s : State) (f : PrecSt → PrecSt) : (s.modPrec f).prec = f s.prec := rfl
@[simp] theorem State.modPrec_clu (s : State) (f : PrecSt → PrecSt) : (s.modPrec f).clu = s.clu := rfl
@[simp] theorem State.modPrec_core (s : State) (f : PrecSt → PrecSt) : (s.modPrec f).core = s.core := rfl
@[simp] theorem State.modPrec_mem (s : State) (f : PrecSt → PrecSt) : (s.modPrec f).mem = s.mem := rfl
@[simp] theorem State.modPrec_badOne (s : State) (f : PrecSt → PrecSt) : (s.modPrec f).badOne = s.badOne := rfl
@[simp] theorem State.modPrec_badTwo (s : State) (f : PrecSt → PrecSt) : (s.modPrec f).badTwo = s.badTwo := rfl

/-! ## modTick -/

@[simp] theorem State.modTick_pending (s : State) (f : TickSt → TickSt) : (s.modTick f).pending = s.pending := rfl
@[simp] theorem State.modTick_free (s : State) (f : TickSt → TickSt) : (s.modTick f).free = s.free := rfl
@[simp] theorem State.modTick_reply (s : State) (f : TickSt → TickSt) : (s.modTick f).reply = s.reply := rfl
@[simp] theorem State.modTick_sent (s : State) (f : TickSt → TickSt) : (s.modTick f).sent = s.sent := rfl
@[simp] theorem State.modTick_cfg (s : State) (f : TickSt → TickSt) : (s.modTick f).cfg = s.cfg := rfl
@[simp] theorem State.modTick_glb (s : State) (f : TickSt → TickSt) : (s.modTick f).glb = s.glb := rfl
@[simp] theorem State.modTick_portA (s : State) (f : TickSt → TickSt) : (s.modTick f).portA = s.portA := rfl
@[simp] theorem State.modTick_portB (s : State) (f : TickSt → TickSt) : (s.modTick f).portB = s.portB := rfl
@[simp] theorem State.modTick_tick (s : State) (f : TickSt → TickSt) : (s.modTick f).tick = f s.tick := rfl
@[simp] theorem State.modTick_slots (s : State) (f : TickSt → TickSt) : (s.modTick f).slots = s.slots := rfl
@[simp] theorem State.modTick_host (s : State) (f : TickSt → TickSt) : (s.modTick f).host = s.host := rfl
@[simp] theorem State.modTick_pwr (s : State) (f : TickSt → TickSt) : (s.modTick f).pwr = s.pwr := rfl
@[simp] theorem State.modTick_pin (s : State) (f : TickSt → TickSt) : (s.modTick f).pin = s.pin := rfl
@[simp] theorem State.modTick_upd (s : State) (f : TickSt → TickSt) : (s.modTick f).upd = s.upd := rfl
@[simp] theorem State.modTick_sec (s : State) (f : TickSt → TickSt) : (s.modTick f).sec = s.sec := rfl
@[simp] theorem State.modTick_err (s : State) (f : TickSt → TickSt) : (s.modTick f).err = s.err := rfl
@[simp] theorem State.modTick_reh (s : State) (f : TickSt → TickSt) : (s.modTick f).reh = s.reh := rfl
@[simp] theorem State.modTick_tap (s : State) (f : TickSt → TickSt) : (s.modTick f).tap = s.tap := rfl
@[simp] theorem State.modTick_twin (s : State) (f : TickSt → TickSt) : (s.modTick f).twin = s.twin := rfl
@[simp] theorem State.modTick_lnk (s : State) (f : TickSt → TickSt) : (s.modTick f).lnk = s.lnk := rfl
@[simp] theorem State.modTick_win (s : State) (f : TickSt → TickSt) : (s.modTick f).win = s.win := rfl
@[simp] theorem State.modTick_stk (s : State) (f : TickSt → TickSt) : (s.modTick f).stk = s.stk := rfl
@[simp] theorem State.modTick_kv (s : State) (f : TickSt → TickSt) : (s.modTick f).kv = s.kv := rfl
@[simp] theorem State.modTick_prec (s : State) (f : TickSt → TickSt) : (s.modTick f).prec = s.prec := rfl
@[simp] theorem State.modTick_clu (s : State) (f : TickSt → TickSt) : (s.modTick f).clu = s.clu := rfl
@[simp] theorem State.modTick_core (s : State) (f : TickSt → TickSt) : (s.modTick f).core = s.core := rfl
@[simp] theorem State.modTick_mem (s : State) (f : TickSt → TickSt) : (s.modTick f).mem = s.mem := rfl
@[simp] theorem State.modTick_badOne (s : State) (f : TickSt → TickSt) : (s.modTick f).badOne = s.badOne := rfl
@[simp] theorem State.modTick_badTwo (s : State) (f : TickSt → TickSt) : (s.modTick f).badTwo = s.badTwo := rfl

/-! ## modHost -/

@[simp] theorem State.modHost_pending (s : State) (f : HostSt → HostSt) : (s.modHost f).pending = s.pending := rfl
@[simp] theorem State.modHost_free (s : State) (f : HostSt → HostSt) : (s.modHost f).free = s.free := rfl
@[simp] theorem State.modHost_reply (s : State) (f : HostSt → HostSt) : (s.modHost f).reply = s.reply := rfl
@[simp] theorem State.modHost_sent (s : State) (f : HostSt → HostSt) : (s.modHost f).sent = s.sent := rfl
@[simp] theorem State.modHost_cfg (s : State) (f : HostSt → HostSt) : (s.modHost f).cfg = s.cfg := rfl
@[simp] theorem State.modHost_glb (s : State) (f : HostSt → HostSt) : (s.modHost f).glb = s.glb := rfl
@[simp] theorem State.modHost_portA (s : State) (f : HostSt → HostSt) : (s.modHost f).portA = s.portA := rfl
@[simp] theorem State.modHost_portB (s : State) (f : HostSt → HostSt) : (s.modHost f).portB = s.portB := rfl
@[simp] theorem State.modHost_tick (s : State) (f : HostSt → HostSt) : (s.modHost f).tick = s.tick := rfl
@[simp] theorem State.modHost_slots (s : State) (f : HostSt → HostSt) : (s.modHost f).slots = s.slots := rfl
@[simp] theorem State.modHost_host (s : State) (f : HostSt → HostSt) : (s.modHost f).host = f s.host := rfl
@[simp] theorem State.modHost_pwr (s : State) (f : HostSt → HostSt) : (s.modHost f).pwr = s.pwr := rfl
@[simp] theorem State.modHost_pin (s : State) (f : HostSt → HostSt) : (s.modHost f).pin = s.pin := rfl
@[simp] theorem State.modHost_upd (s : State) (f : HostSt → HostSt) : (s.modHost f).upd = s.upd := rfl
@[simp] theorem State.modHost_sec (s : State) (f : HostSt → HostSt) : (s.modHost f).sec = s.sec := rfl
@[simp] theorem State.modHost_err (s : State) (f : HostSt → HostSt) : (s.modHost f).err = s.err := rfl
@[simp] theorem State.modHost_reh (s : State) (f : HostSt → HostSt) : (s.modHost f).reh = s.reh := rfl
@[simp] theorem State.modHost_tap (s : State) (f : HostSt → HostSt) : (s.modHost f).tap = s.tap := rfl
@[simp] theorem State.modHost_twin (s : State) (f : HostSt → HostSt) : (s.modHost f).twin = s.twin := rfl
@[simp] theorem State.modHost_lnk (s : State) (f : HostSt → HostSt) : (s.modHost f).lnk = s.lnk := rfl
@[simp] theorem State.modHost_win (s : State) (f : HostSt → HostSt) : (s.modHost f).win = s.win := rfl
@[simp] theorem State.modHost_stk (s : State) (f : HostSt → HostSt) : (s.modHost f).stk = s.stk := rfl
@[simp] theorem State.modHost_kv (s : State) (f : HostSt → HostSt) : (s.modHost f).kv = s.kv := rfl
@[simp] theorem State.modHost_prec (s : State) (f : HostSt → HostSt) : (s.modHost f).prec = s.prec := rfl
@[simp] theorem State.modHost_clu (s : State) (f : HostSt → HostSt) : (s.modHost f).clu = s.clu := rfl
@[simp] theorem State.modHost_core (s : State) (f : HostSt → HostSt) : (s.modHost f).core = s.core := rfl
@[simp] theorem State.modHost_mem (s : State) (f : HostSt → HostSt) : (s.modHost f).mem = s.mem := rfl
@[simp] theorem State.modHost_badOne (s : State) (f : HostSt → HostSt) : (s.modHost f).badOne = s.badOne := rfl
@[simp] theorem State.modHost_badTwo (s : State) (f : HostSt → HostSt) : (s.modHost f).badTwo = s.badTwo := rfl

/-! ## modPwr -/

@[simp] theorem State.modPwr_pending (s : State) (f : PwrSt → PwrSt) : (s.modPwr f).pending = s.pending := rfl
@[simp] theorem State.modPwr_free (s : State) (f : PwrSt → PwrSt) : (s.modPwr f).free = s.free := rfl
@[simp] theorem State.modPwr_reply (s : State) (f : PwrSt → PwrSt) : (s.modPwr f).reply = s.reply := rfl
@[simp] theorem State.modPwr_sent (s : State) (f : PwrSt → PwrSt) : (s.modPwr f).sent = s.sent := rfl
@[simp] theorem State.modPwr_cfg (s : State) (f : PwrSt → PwrSt) : (s.modPwr f).cfg = s.cfg := rfl
@[simp] theorem State.modPwr_glb (s : State) (f : PwrSt → PwrSt) : (s.modPwr f).glb = s.glb := rfl
@[simp] theorem State.modPwr_portA (s : State) (f : PwrSt → PwrSt) : (s.modPwr f).portA = s.portA := rfl
@[simp] theorem State.modPwr_portB (s : State) (f : PwrSt → PwrSt) : (s.modPwr f).portB = s.portB := rfl
@[simp] theorem State.modPwr_tick (s : State) (f : PwrSt → PwrSt) : (s.modPwr f).tick = s.tick := rfl
@[simp] theorem State.modPwr_slots (s : State) (f : PwrSt → PwrSt) : (s.modPwr f).slots = s.slots := rfl
@[simp] theorem State.modPwr_host (s : State) (f : PwrSt → PwrSt) : (s.modPwr f).host = s.host := rfl
@[simp] theorem State.modPwr_pwr (s : State) (f : PwrSt → PwrSt) : (s.modPwr f).pwr = f s.pwr := rfl
@[simp] theorem State.modPwr_pin (s : State) (f : PwrSt → PwrSt) : (s.modPwr f).pin = s.pin := rfl
@[simp] theorem State.modPwr_upd (s : State) (f : PwrSt → PwrSt) : (s.modPwr f).upd = s.upd := rfl
@[simp] theorem State.modPwr_sec (s : State) (f : PwrSt → PwrSt) : (s.modPwr f).sec = s.sec := rfl
@[simp] theorem State.modPwr_err (s : State) (f : PwrSt → PwrSt) : (s.modPwr f).err = s.err := rfl
@[simp] theorem State.modPwr_reh (s : State) (f : PwrSt → PwrSt) : (s.modPwr f).reh = s.reh := rfl
@[simp] theorem State.modPwr_tap (s : State) (f : PwrSt → PwrSt) : (s.modPwr f).tap = s.tap := rfl
@[simp] theorem State.modPwr_twin (s : State) (f : PwrSt → PwrSt) : (s.modPwr f).twin = s.twin := rfl
@[simp] theorem State.modPwr_lnk (s : State) (f : PwrSt → PwrSt) : (s.modPwr f).lnk = s.lnk := rfl
@[simp] theorem State.modPwr_win (s : State) (f : PwrSt → PwrSt) : (s.modPwr f).win = s.win := rfl
@[simp] theorem State.modPwr_stk (s : State) (f : PwrSt → PwrSt) : (s.modPwr f).stk = s.stk := rfl
@[simp] theorem State.modPwr_kv (s : State) (f : PwrSt → PwrSt) : (s.modPwr f).kv = s.kv := rfl
@[simp] theorem State.modPwr_prec (s : State) (f : PwrSt → PwrSt) : (s.modPwr f).prec = s.prec := rfl
@[simp] theorem State.modPwr_clu (s : State) (f : PwrSt → PwrSt) : (s.modPwr f).clu = s.clu := rfl
@[simp] theorem State.modPwr_core (s : State) (f : PwrSt → PwrSt) : (s.modPwr f).core = s.core := rfl
@[simp] theorem State.modPwr_mem (s : State) (f : PwrSt → PwrSt) : (s.modPwr f).mem = s.mem := rfl
@[simp] theorem State.modPwr_badOne (s : State) (f : PwrSt → PwrSt) : (s.modPwr f).badOne = s.badOne := rfl
@[simp] theorem State.modPwr_badTwo (s : State) (f : PwrSt → PwrSt) : (s.modPwr f).badTwo = s.badTwo := rfl

/-! ## modPin -/

@[simp] theorem State.modPin_pending (s : State) (f : PinSt → PinSt) : (s.modPin f).pending = s.pending := rfl
@[simp] theorem State.modPin_free (s : State) (f : PinSt → PinSt) : (s.modPin f).free = s.free := rfl
@[simp] theorem State.modPin_reply (s : State) (f : PinSt → PinSt) : (s.modPin f).reply = s.reply := rfl
@[simp] theorem State.modPin_sent (s : State) (f : PinSt → PinSt) : (s.modPin f).sent = s.sent := rfl
@[simp] theorem State.modPin_cfg (s : State) (f : PinSt → PinSt) : (s.modPin f).cfg = s.cfg := rfl
@[simp] theorem State.modPin_glb (s : State) (f : PinSt → PinSt) : (s.modPin f).glb = s.glb := rfl
@[simp] theorem State.modPin_portA (s : State) (f : PinSt → PinSt) : (s.modPin f).portA = s.portA := rfl
@[simp] theorem State.modPin_portB (s : State) (f : PinSt → PinSt) : (s.modPin f).portB = s.portB := rfl
@[simp] theorem State.modPin_tick (s : State) (f : PinSt → PinSt) : (s.modPin f).tick = s.tick := rfl
@[simp] theorem State.modPin_slots (s : State) (f : PinSt → PinSt) : (s.modPin f).slots = s.slots := rfl
@[simp] theorem State.modPin_host (s : State) (f : PinSt → PinSt) : (s.modPin f).host = s.host := rfl
@[simp] theorem State.modPin_pwr (s : State) (f : PinSt → PinSt) : (s.modPin f).pwr = s.pwr := rfl
@[simp] theorem State.modPin_pin (s : State) (f : PinSt → PinSt) : (s.modPin f).pin = f s.pin := rfl
@[simp] theorem State.modPin_upd (s : State) (f : PinSt → PinSt) : (s.modPin f).upd = s.upd := rfl
@[simp] theorem State.modPin_sec (s : State) (f : PinSt → PinSt) : (s.modPin f).sec = s.sec := rfl
@[simp] theorem State.modPin_err (s : State) (f : PinSt → PinSt) : (s.modPin f).err = s.err := rfl
@[simp] theorem State.modPin_reh (s : State) (f : PinSt → PinSt) : (s.modPin f).reh = s.reh := rfl
@[simp] theorem State.modPin_tap (s : State) (f : PinSt → PinSt) : (s.modPin f).tap = s.tap := rfl
@[simp] theorem State.modPin_twin (s : State) (f : PinSt → PinSt) : (s.modPin f).twin = s.twin := rfl
@[simp] theorem State.modPin_lnk (s : State) (f : PinSt → PinSt) : (s.modPin f).lnk = s.lnk := rfl
@[simp] theorem State.modPin_win (s : State) (f : PinSt → PinSt) : (s.modPin f).win = s.win := rfl
@[simp] theorem State.modPin_stk (s : State) (f : PinSt → PinSt) : (s.modPin f).stk = s.stk := rfl
@[simp] theorem State.modPin_kv (s : State) (f : PinSt → PinSt) : (s.modPin f).kv = s.kv := rfl
@[simp] theorem State.modPin_prec (s : State) (f : PinSt → PinSt) : (s.modPin f).prec = s.prec := rfl
@[simp] theorem State.modPin_clu (s : State) (f : PinSt → PinSt) : (s.modPin f).clu = s.clu := rfl
@[simp] theorem State.modPin_core (s : State) (f : PinSt → PinSt) : (s.modPin f).core = s.core := rfl
@[simp] theorem State.modPin_mem (s : State) (f : PinSt → PinSt) : (s.modPin f).mem = s.mem := rfl
@[simp] theorem State.modPin_badOne (s : State) (f : PinSt → PinSt) : (s.modPin f).badOne = s.badOne := rfl
@[simp] theorem State.modPin_badTwo (s : State) (f : PinSt → PinSt) : (s.modPin f).badTwo = s.badTwo := rfl

/-! ## modUpd -/

@[simp] theorem State.modUpd_pending (s : State) (f : UpdSt → UpdSt) : (s.modUpd f).pending = s.pending := rfl
@[simp] theorem State.modUpd_free (s : State) (f : UpdSt → UpdSt) : (s.modUpd f).free = s.free := rfl
@[simp] theorem State.modUpd_reply (s : State) (f : UpdSt → UpdSt) : (s.modUpd f).reply = s.reply := rfl
@[simp] theorem State.modUpd_sent (s : State) (f : UpdSt → UpdSt) : (s.modUpd f).sent = s.sent := rfl
@[simp] theorem State.modUpd_cfg (s : State) (f : UpdSt → UpdSt) : (s.modUpd f).cfg = s.cfg := rfl
@[simp] theorem State.modUpd_glb (s : State) (f : UpdSt → UpdSt) : (s.modUpd f).glb = s.glb := rfl
@[simp] theorem State.modUpd_portA (s : State) (f : UpdSt → UpdSt) : (s.modUpd f).portA = s.portA := rfl
@[simp] theorem State.modUpd_portB (s : State) (f : UpdSt → UpdSt) : (s.modUpd f).portB = s.portB := rfl
@[simp] theorem State.modUpd_tick (s : State) (f : UpdSt → UpdSt) : (s.modUpd f).tick = s.tick := rfl
@[simp] theorem State.modUpd_slots (s : State) (f : UpdSt → UpdSt) : (s.modUpd f).slots = s.slots := rfl
@[simp] theorem State.modUpd_host (s : State) (f : UpdSt → UpdSt) : (s.modUpd f).host = s.host := rfl
@[simp] theorem State.modUpd_pwr (s : State) (f : UpdSt → UpdSt) : (s.modUpd f).pwr = s.pwr := rfl
@[simp] theorem State.modUpd_pin (s : State) (f : UpdSt → UpdSt) : (s.modUpd f).pin = s.pin := rfl
@[simp] theorem State.modUpd_upd (s : State) (f : UpdSt → UpdSt) : (s.modUpd f).upd = f s.upd := rfl
@[simp] theorem State.modUpd_sec (s : State) (f : UpdSt → UpdSt) : (s.modUpd f).sec = s.sec := rfl
@[simp] theorem State.modUpd_err (s : State) (f : UpdSt → UpdSt) : (s.modUpd f).err = s.err := rfl
@[simp] theorem State.modUpd_reh (s : State) (f : UpdSt → UpdSt) : (s.modUpd f).reh = s.reh := rfl
@[simp] theorem State.modUpd_tap (s : State) (f : UpdSt → UpdSt) : (s.modUpd f).tap = s.tap := rfl
@[simp] theorem State.modUpd_twin (s : State) (f : UpdSt → UpdSt) : (s.modUpd f).twin = s.twin := rfl
@[simp] theorem State.modUpd_lnk (s : State) (f : UpdSt → UpdSt) : (s.modUpd f).lnk = s.lnk := rfl
@[simp] theorem State.modUpd_win (s : State) (f : UpdSt → UpdSt) : (s.modUpd f).win = s.win := rfl
@[simp] theorem State.modUpd_stk (s : State) (f : UpdSt → UpdSt) : (s.modUpd f).stk = s.stk := rfl
@[simp] theorem State.modUpd_kv (s : State) (f : UpdSt → UpdSt) : (s.modUpd f).kv = s.kv := rfl
@[simp] theorem State.modUpd_prec (s : State) (f : UpdSt → UpdSt) : (s.modUpd f).prec = s.prec := rfl
@[simp] theorem State.modUpd_clu (s : State) (f : UpdSt → UpdSt) : (s.modUpd f).clu = s.clu := rfl
@[simp] theorem State.modUpd_core (s : State) (f : UpdSt → UpdSt) : (s.modUpd f).core = s.core := rfl
@[simp] theorem State.modUpd_mem (s : State) (f : UpdSt → UpdSt) : (s.modUpd f).mem = s.mem := rfl
@[simp] theorem State.modUpd_badOne (s : State) (f : UpdSt → UpdSt) : (s.modUpd f).badOne = s.badOne := rfl
@[simp] theorem State.modUpd_badTwo (s : State) (f : UpdSt → UpdSt) : (s.modUpd f).badTwo = s.badTwo := rfl

/-! ## modFlash -/

@[simp] theorem State.modFlash_pending (s : State) (f : Flash → Flash) : (s.modFlash f).pending = s.pending := rfl
@[simp] theorem State.modFlash_free (s : State) (f : Flash → Flash) : (s.modFlash f).free = s.free := rfl
@[simp] theorem State.modFlash_reply (s : State) (f : Flash → Flash) : (s.modFlash f).reply = s.reply := rfl
@[simp] theorem State.modFlash_sent (s : State) (f : Flash → Flash) : (s.modFlash f).sent = s.sent := rfl
@[simp] theorem State.modFlash_cfg (s : State) (f : Flash → Flash) : (s.modFlash f).cfg = s.cfg := rfl
@[simp] theorem State.modFlash_glb (s : State) (f : Flash → Flash) : (s.modFlash f).glb = s.glb := rfl
@[simp] theorem State.modFlash_portA (s : State) (f : Flash → Flash) : (s.modFlash f).portA = s.portA := rfl
@[simp] theorem State.modFlash_portB (s : State) (f : Flash → Flash) : (s.modFlash f).portB = s.portB := rfl
@[simp] theorem State.modFlash_tick (s : State) (f : Flash → Flash) : (s.modFlash f).tick = s.tick := rfl
@[simp] theorem State.modFlash_slots (s : State) (f : Flash → Flash) : (s.modFlash f).slots = s.slots := rfl
@[simp] theorem State.modFlash_host (s : State) (f : Flash → Flash) : (s.modFlash f).host = s.host := rfl
@[simp] theorem State.modFlash_pwr (s : State) (f : Flash → Flash) : (s.modFlash f).pwr = s.pwr := rfl
@[simp] theorem State.modFlash_pin (s : State) (f : Flash → Flash) : (s.modFlash f).pin = s.pin := rfl
@[simp] theorem State.modFlash_upd (s : State) (f : Flash → Flash) : (s.modFlash f).upd = { s.upd with flash := f s.upd.flash } := rfl
@[simp] theorem State.modFlash_sec (s : State) (f : Flash → Flash) : (s.modFlash f).sec = s.sec := rfl
@[simp] theorem State.modFlash_err (s : State) (f : Flash → Flash) : (s.modFlash f).err = s.err := rfl
@[simp] theorem State.modFlash_reh (s : State) (f : Flash → Flash) : (s.modFlash f).reh = s.reh := rfl
@[simp] theorem State.modFlash_tap (s : State) (f : Flash → Flash) : (s.modFlash f).tap = s.tap := rfl
@[simp] theorem State.modFlash_twin (s : State) (f : Flash → Flash) : (s.modFlash f).twin = s.twin := rfl
@[simp] theorem State.modFlash_lnk (s : State) (f : Flash → Flash) : (s.modFlash f).lnk = s.lnk := rfl
@[simp] theorem State.modFlash_win (s : State) (f : Flash → Flash) : (s.modFlash f).win = s.win := rfl
@[simp] theorem State.modFlash_stk (s : State) (f : Flash → Flash) : (s.modFlash f).stk = s.stk := rfl
@[simp] theorem State.modFlash_kv (s : State) (f : Flash → Flash) : (s.modFlash f).kv = s.kv := rfl
@[simp] theorem State.modFlash_prec (s : State) (f : Flash → Flash) : (s.modFlash f).prec = s.prec := rfl
@[simp] theorem State.modFlash_clu (s : State) (f : Flash → Flash) : (s.modFlash f).clu = s.clu := rfl
@[simp] theorem State.modFlash_core (s : State) (f : Flash → Flash) : (s.modFlash f).core = s.core := rfl
@[simp] theorem State.modFlash_mem (s : State) (f : Flash → Flash) : (s.modFlash f).mem = s.mem := rfl
@[simp] theorem State.modFlash_badOne (s : State) (f : Flash → Flash) : (s.modFlash f).badOne = s.badOne := rfl
@[simp] theorem State.modFlash_badTwo (s : State) (f : Flash → Flash) : (s.modFlash f).badTwo = s.badTwo := rfl

/-! ## modTwin -/

@[simp] theorem State.modTwin_pending (s : State) (f : TwinSt → TwinSt) : (s.modTwin f).pending = s.pending := rfl
@[simp] theorem State.modTwin_free (s : State) (f : TwinSt → TwinSt) : (s.modTwin f).free = s.free := rfl
@[simp] theorem State.modTwin_reply (s : State) (f : TwinSt → TwinSt) : (s.modTwin f).reply = s.reply := rfl
@[simp] theorem State.modTwin_sent (s : State) (f : TwinSt → TwinSt) : (s.modTwin f).sent = s.sent := rfl
@[simp] theorem State.modTwin_cfg (s : State) (f : TwinSt → TwinSt) : (s.modTwin f).cfg = s.cfg := rfl
@[simp] theorem State.modTwin_glb (s : State) (f : TwinSt → TwinSt) : (s.modTwin f).glb = s.glb := rfl
@[simp] theorem State.modTwin_portA (s : State) (f : TwinSt → TwinSt) : (s.modTwin f).portA = s.portA := rfl
@[simp] theorem State.modTwin_portB (s : State) (f : TwinSt → TwinSt) : (s.modTwin f).portB = s.portB := rfl
@[simp] theorem State.modTwin_tick (s : State) (f : TwinSt → TwinSt) : (s.modTwin f).tick = s.tick := rfl
@[simp] theorem State.modTwin_slots (s : State) (f : TwinSt → TwinSt) : (s.modTwin f).slots = s.slots := rfl
@[simp] theorem State.modTwin_host (s : State) (f : TwinSt → TwinSt) : (s.modTwin f).host = s.host := rfl
@[simp] theorem State.modTwin_pwr (s : State) (f : TwinSt → TwinSt) : (s.modTwin f).pwr = s.pwr := rfl
@[simp] theorem State.modTwin_pin (s : State) (f : TwinSt → TwinSt) : (s.modTwin f).pin = s.pin := rfl
@[simp] theorem State.modTwin_upd (s : State) (f : TwinSt → TwinSt) : (s.modTwin f).upd = s.upd := rfl
@[simp] theorem State.modTwin_sec (s : State) (f : TwinSt → TwinSt) : (s.modTwin f).sec = s.sec := rfl
@[simp] theorem State.modTwin_err (s : State) (f : TwinSt → TwinSt) : (s.modTwin f).err = s.err := rfl
@[simp] theorem State.modTwin_reh (s : State) (f : TwinSt → TwinSt) : (s.modTwin f).reh = s.reh := rfl
@[simp] theorem State.modTwin_tap (s : State) (f : TwinSt → TwinSt) : (s.modTwin f).tap = s.tap := rfl
@[simp] theorem State.modTwin_twin (s : State) (f : TwinSt → TwinSt) : (s.modTwin f).twin = f s.twin := rfl
@[simp] theorem State.modTwin_lnk (s : State) (f : TwinSt → TwinSt) : (s.modTwin f).lnk = s.lnk := rfl
@[simp] theorem State.modTwin_win (s : State) (f : TwinSt → TwinSt) : (s.modTwin f).win = s.win := rfl
@[simp] theorem State.modTwin_stk (s : State) (f : TwinSt → TwinSt) : (s.modTwin f).stk = s.stk := rfl
@[simp] theorem State.modTwin_kv (s : State) (f : TwinSt → TwinSt) : (s.modTwin f).kv = s.kv := rfl
@[simp] theorem State.modTwin_prec (s : State) (f : TwinSt → TwinSt) : (s.modTwin f).prec = s.prec := rfl
@[simp] theorem State.modTwin_clu (s : State) (f : TwinSt → TwinSt) : (s.modTwin f).clu = s.clu := rfl
@[simp] theorem State.modTwin_core (s : State) (f : TwinSt → TwinSt) : (s.modTwin f).core = s.core := rfl
@[simp] theorem State.modTwin_mem (s : State) (f : TwinSt → TwinSt) : (s.modTwin f).mem = s.mem := rfl
@[simp] theorem State.modTwin_badOne (s : State) (f : TwinSt → TwinSt) : (s.modTwin f).badOne = s.badOne := rfl
@[simp] theorem State.modTwin_badTwo (s : State) (f : TwinSt → TwinSt) : (s.modTwin f).badTwo = s.badTwo := rfl

/-! ## modReh -/

@[simp] theorem State.modReh_pending (s : State) (f : RehSt → RehSt) : (s.modReh f).pending = s.pending := rfl
@[simp] theorem State.modReh_free (s : State) (f : RehSt → RehSt) : (s.modReh f).free = s.free := rfl
@[simp] theorem State.modReh_reply (s : State) (f : RehSt → RehSt) : (s.modReh f).reply = s.reply := rfl
@[simp] theorem State.modReh_sent (s : State) (f : RehSt → RehSt) : (s.modReh f).sent = s.sent := rfl
@[simp] theorem State.modReh_cfg (s : State) (f : RehSt → RehSt) : (s.modReh f).cfg = s.cfg := rfl
@[simp] theorem State.modReh_glb (s : State) (f : RehSt → RehSt) : (s.modReh f).glb = s.glb := rfl
@[simp] theorem State.modReh_portA (s : State) (f : RehSt → RehSt) : (s.modReh f).portA = s.portA := rfl
@[simp] theorem State.modReh_portB (s : State) (f : RehSt → RehSt) : (s.modReh f).portB = s.portB := rfl
@[simp] theorem State.modReh_tick (s : State) (f : RehSt → RehSt) : (s.modReh f).tick = s.tick := rfl
@[simp] theorem State.modReh_slots (s : State) (f : RehSt → RehSt) : (s.modReh f).slots = s.slots := rfl
@[simp] theorem State.modReh_host (s : State) (f : RehSt → RehSt) : (s.modReh f).host = s.host := rfl
@[simp] theorem State.modReh_pwr (s : State) (f : RehSt → RehSt) : (s.modReh f).pwr = s.pwr := rfl
@[simp] theorem State.modReh_pin (s : State) (f : RehSt → RehSt) : (s.modReh f).pin = s.pin := rfl
@[simp] theorem State.modReh_upd (s : State) (f : RehSt → RehSt) : (s.modReh f).upd = s.upd := rfl
@[simp] theorem State.modReh_sec (s : State) (f : RehSt → RehSt) : (s.modReh f).sec = s.sec := rfl
@[simp] theorem State.modReh_err (s : State) (f : RehSt → RehSt) : (s.modReh f).err = s.err := rfl
@[simp] theorem State.modReh_reh (s : State) (f : RehSt → RehSt) : (s.modReh f).reh = f s.reh := rfl
@[simp] theorem State.modReh_tap (s : State) (f : RehSt → RehSt) : (s.modReh f).tap = s.tap := rfl
@[simp] theorem State.modReh_twin (s : State) (f : RehSt → RehSt) : (s.modReh f).twin = s.twin := rfl
@[simp] theorem State.modReh_lnk (s : State) (f : RehSt → RehSt) : (s.modReh f).lnk = s.lnk := rfl
@[simp] theorem State.modReh_win (s : State) (f : RehSt → RehSt) : (s.modReh f).win = s.win := rfl
@[simp] theorem State.modReh_stk (s : State) (f : RehSt → RehSt) : (s.modReh f).stk = s.stk := rfl
@[simp] theorem State.modReh_kv (s : State) (f : RehSt → RehSt) : (s.modReh f).kv = s.kv := rfl
@[simp] theorem State.modReh_prec (s : State) (f : RehSt → RehSt) : (s.modReh f).prec = s.prec := rfl
@[simp] theorem State.modReh_clu (s : State) (f : RehSt → RehSt) : (s.modReh f).clu = s.clu := rfl
@[simp] theorem State.modReh_core (s : State) (f : RehSt → RehSt) : (s.modReh f).core = s.core := rfl
@[simp] theorem State.modReh_mem (s : State) (f : RehSt → RehSt) : (s.modReh f).mem = s.mem := rfl
@[simp] theorem State.modReh_badOne (s : State) (f : RehSt → RehSt) : (s.modReh f).badOne = s.badOne := rfl
@[simp] theorem State.modReh_badTwo (s : State) (f : RehSt → RehSt) : (s.modReh f).badTwo = s.badTwo := rfl

/-! ## modErr -/

@[simp] theorem State.modErr_pending (s : State) (f : ErrSt → ErrSt) : (s.modErr f).pending = s.pending := rfl
@[simp] theorem State.modErr_free (s : State) (f : ErrSt → ErrSt) : (s.modErr f).free = s.free := rfl
@[simp] theorem State.modErr_reply (s : State) (f : ErrSt → ErrSt) : (s.modErr f).reply = s.reply := rfl
@[simp] theorem State.modErr_sent (s : State) (f : ErrSt → ErrSt) : (s.modErr f).sent = s.sent := rfl
@[simp] theorem State.modErr_cfg (s : State) (f : ErrSt → ErrSt) : (s.modErr f).cfg = s.cfg := rfl
@[simp] theorem State.modErr_glb (s : State) (f : ErrSt → ErrSt) : (s.modErr f).glb = s.glb := rfl
@[simp] theorem State.modErr_portA (s : State) (f : ErrSt → ErrSt) : (s.modErr f).portA = s.portA := rfl
@[simp] theorem State.modErr_portB (s : State) (f : ErrSt → ErrSt) : (s.modErr f).portB = s.portB := rfl
@[simp] theorem State.modErr_tick (s : State) (f : ErrSt → ErrSt) : (s.modErr f).tick = s.tick := rfl
@[simp] theorem State.modErr_slots (s : State) (f : ErrSt → ErrSt) : (s.modErr f).slots = s.slots := rfl
@[simp] theorem State.modErr_host (s : State) (f : ErrSt → ErrSt) : (s.modErr f).host = s.host := rfl
@[simp] theorem State.modErr_pwr (s : State) (f : ErrSt → ErrSt) : (s.modErr f).pwr = s.pwr := rfl
@[simp] theorem State.modErr_pin (s : State) (f : ErrSt → ErrSt) : (s.modErr f).pin = s.pin := rfl
@[simp] theorem State.modErr_upd (s : State) (f : ErrSt → ErrSt) : (s.modErr f).upd = s.upd := rfl
@[simp] theorem State.modErr_sec (s : State) (f : ErrSt → ErrSt) : (s.modErr f).sec = s.sec := rfl
@[simp] theorem State.modErr_err (s : State) (f : ErrSt → ErrSt) : (s.modErr f).err = f s.err := rfl
@[simp] theorem State.modErr_reh (s : State) (f : ErrSt → ErrSt) : (s.modErr f).reh = s.reh := rfl
@[simp] theorem State.modErr_tap (s : State) (f : ErrSt → ErrSt) : (s.modErr f).tap = s.tap := rfl
@[simp] theorem State.modErr_twin (s : State) (f : ErrSt → ErrSt) : (s.modErr f).twin = s.twin := rfl
@[simp] theorem State.modErr_lnk (s : State) (f : ErrSt → ErrSt) : (s.modErr f).lnk = s.lnk := rfl
@[simp] theorem State.modErr_win (s : State) (f : ErrSt → ErrSt) : (s.modErr f).win = s.win := rfl
@[simp] theorem State.modErr_stk (s : State) (f : ErrSt → ErrSt) : (s.modErr f).stk = s.stk := rfl
@[simp] theorem State.modErr_kv (s : State) (f : ErrSt → ErrSt) : (s.modErr f).kv = s.kv := rfl
@[simp] theorem State.modErr_prec (s : State) (f : ErrSt → ErrSt) : (s.modErr f).prec = s.prec := rfl
@[simp] theorem State.modErr_clu (s : State) (f : ErrSt → ErrSt) : (s.modErr f).clu = s.clu := rfl
@[simp] theorem State.modErr_core (s : State) (f : ErrSt → ErrSt) : (s.modErr f).core = s.core := rfl
@[simp] theorem State.modErr_mem (s : State) (f : ErrSt → ErrSt) : (s.modErr f).mem = s.mem := rfl
@[simp] theorem State.modErr_badOne (s : State) (f : ErrSt → ErrSt) : (s.modErr f).badOne = s.badOne := rfl
@[simp] theorem State.modErr_badTwo (s : State) (f : ErrSt → ErrSt) : (s.modErr f).badTwo = s.badTwo := rfl

/-! ## modWin -/

@[simp] theorem State.modWin_pending (s : State) (f : WinSt → WinSt) : (s.modWin f).pending = s.pending := rfl
@[simp] theorem State.modWin_free (s : State) (f : WinSt → WinSt) : (s.modWin f).free = s.free := rfl
@[simp] theorem State.modWin_reply (s : State) (f : WinSt → WinSt) : (s.modWin f).reply = s.reply := rfl
@[simp] theorem State.modWin_sent (s : State) (f : WinSt → WinSt) : (s.modWin f).sent = s.sent := rfl
@[simp] theorem State.modWin_cfg (s : State) (f : WinSt → WinSt) : (s.modWin f).cfg = s.cfg := rfl
@[simp] theorem State.modWin_glb (s : State) (f : WinSt → WinSt) : (s.modWin f).glb = s.glb := rfl
@[simp] theorem State.modWin_portA (s : State) (f : WinSt → WinSt) : (s.modWin f).portA = s.portA := rfl
@[simp] theorem State.modWin_portB (s : State) (f : WinSt → WinSt) : (s.modWin f).portB = s.portB := rfl
@[simp] theorem State.modWin_tick (s : State) (f : WinSt → WinSt) : (s.modWin f).tick = s.tick := rfl
@[simp] theorem State.modWin_slots (s : State) (f : WinSt → WinSt) : (s.modWin f).slots = s.slots := rfl
@[simp] theorem State.modWin_host (s : State) (f : WinSt → WinSt) : (s.modWin f).host = s.host := rfl
@[simp] theorem State.modWin_pwr (s : State) (f : WinSt → WinSt) : (s.modWin f).pwr = s.pwr := rfl
@[simp] theorem State.modWin_pin (s : State) (f : WinSt → WinSt) : (s.modWin f).pin = s.pin := rfl
@[simp] theorem State.modWin_upd (s : State) (f : WinSt → WinSt) : (s.modWin f).upd = s.upd := rfl
@[simp] theorem State.modWin_sec (s : State) (f : WinSt → WinSt) : (s.modWin f).sec = s.sec := rfl
@[simp] theorem State.modWin_err (s : State) (f : WinSt → WinSt) : (s.modWin f).err = s.err := rfl
@[simp] theorem State.modWin_reh (s : State) (f : WinSt → WinSt) : (s.modWin f).reh = s.reh := rfl
@[simp] theorem State.modWin_tap (s : State) (f : WinSt → WinSt) : (s.modWin f).tap = s.tap := rfl
@[simp] theorem State.modWin_twin (s : State) (f : WinSt → WinSt) : (s.modWin f).twin = s.twin := rfl
@[simp] theorem State.modWin_lnk (s : State) (f : WinSt → WinSt) : (s.modWin f).lnk = s.lnk := rfl
@[simp] theorem State.modWin_win (s : State) (f : WinSt → WinSt) : (s.modWin f).win = f s.win := rfl
@[simp] theorem State.modWin_stk (s : State) (f : WinSt → WinSt) : (s.modWin f).stk = s.stk := rfl
@[simp] theorem State.modWin_kv (s : State) (f : WinSt → WinSt) : (s.modWin f).kv = s.kv := rfl
@[simp] theorem State.modWin_prec (s : State) (f : WinSt → WinSt) : (s.modWin f).prec = s.prec := rfl
@[simp] theorem State.modWin_clu (s : State) (f : WinSt → WinSt) : (s.modWin f).clu = s.clu := rfl
@[simp] theorem State.modWin_core (s : State) (f : WinSt → WinSt) : (s.modWin f).core = s.core := rfl
@[simp] theorem State.modWin_mem (s : State) (f : WinSt → WinSt) : (s.modWin f).mem = s.mem := rfl
@[simp] theorem State.modWin_badOne (s : State) (f : WinSt → WinSt) : (s.modWin f).badOne = s.badOne := rfl
@[simp] theorem State.modWin_badTwo (s : State) (f : WinSt → WinSt) : (s.modWin f).badTwo = s.badTwo := rfl

/-! ## send -/

@[simp] theorem State.send_pending (s : State) (x : Sent) : (s.send x).pending = s.pending := rfl
@[simp] theorem State.send_free (s : State) (x : Sent) : (s.send x).free = s.free := rfl
@[simp] theorem State.send_reply (s : State) (x : Sent) : (s.send x).reply = s.reply := rfl
@[simp] theorem State.send_sent (s : State) (x : Sent) : (s.send x).sent = x :: s.sent := rfl
@[simp] theorem State.send_cfg (s : State) (x : Sent) : (s.send x).cfg = s.cfg := rfl
@[simp] theorem State.send_glb (s : State) (x : Sent) : (s.send x).glb = s.glb := rfl
@[simp] theorem State.send_portA (s : State) (x : Sent) : (s.send x).portA = s.portA := rfl
@[simp] theorem State.send_portB (s : State) (x : Sent) : (s.send x).portB = s.portB := rfl
@[simp] theorem State.send_tick (s : State) (x : Sent) : (s.send x).tick = s.tick := rfl
@[simp] theorem State.send_slots (s : State) (x : Sent) : (s.send x).slots = s.slots := rfl
@[simp] theorem State.send_host (s : State) (x : Sent) : (s.send x).host = s.host := rfl
@[simp] theorem State.send_pwr (s : State) (x : Sent) : (s.send x).pwr = s.pwr := rfl
@[simp] theorem State.send_pin (s : State) (x : Sent) : (s.send x).pin = s.pin := rfl
@[simp] theorem State.send_upd (s : State) (x : Sent) : (s.send x).upd = s.upd := rfl
@[simp] theorem State.send_sec (s : State) (x : Sent) : (s.send x).sec = s.sec := rfl
@[simp] theorem State.send_err (s : State) (x : Sent) : (s.send x).err = s.err := rfl
@[simp] theorem State.send_reh (s : State) (x : Sent) : (s.send x).reh = s.reh := rfl
@[simp] theorem State.send_tap (s : State) (x : Sent) : (s.send x).tap = s.tap := rfl
@[simp] theorem State.send_twin (s : State) (x : Sent) : (s.send x).twin = s.twin := rfl
@[simp] theorem State.send_lnk (s : State) (x : Sent) : (s.send x).lnk = s.lnk := rfl
@[simp] theorem State.send_win (s : State) (x : Sent) : (s.send x).win = s.win := rfl
@[simp] theorem State.send_stk (s : State) (x : Sent) : (s.send x).stk = s.stk := rfl
@[simp] theorem State.send_kv (s : State) (x : Sent) : (s.send x).kv = s.kv := rfl
@[simp] theorem State.send_prec (s : State) (x : Sent) : (s.send x).prec = s.prec := rfl
@[simp] theorem State.send_clu (s : State) (x : Sent) : (s.send x).clu = s.clu := rfl
@[simp] theorem State.send_core (s : State) (x : Sent) : (s.send x).core = s.core := rfl
@[simp] theorem State.send_mem (s : State) (x : Sent) : (s.send x).mem = s.mem := rfl
@[simp] theorem State.send_badOne (s : State) (x : Sent) : (s.send x).badOne = s.badOne := rfl
@[simp] theorem State.send_badTwo (s : State) (x : Sent) : (s.send x).badTwo = s.badTwo := rfl

/-! ## answer -/

@[simp] theorem State.answer_pending (s : State) (r : Reply) : (s.answer r).pending = s.pending := rfl
@[simp] theorem State.answer_free (s : State) (r : Reply) : (s.answer r).free = s.free := rfl
@[simp] theorem State.answer_reply (s : State) (r : Reply) : (s.answer r).reply = r := rfl
@[simp] theorem State.answer_sent (s : State) (r : Reply) : (s.answer r).sent = s.sent := rfl
@[simp] theorem State.answer_cfg (s : State) (r : Reply) : (s.answer r).cfg = s.cfg := rfl
@[simp] theorem State.answer_glb (s : State) (r : Reply) : (s.answer r).glb = s.glb := rfl
@[simp] theorem State.answer_portA (s : State) (r : Reply) : (s.answer r).portA = s.portA := rfl
@[simp] theorem State.answer_portB (s : State) (r : Reply) : (s.answer r).portB = s.portB := rfl
@[simp] theorem State.answer_tick (s : State) (r : Reply) : (s.answer r).tick = s.tick := rfl
@[simp] theorem State.answer_slots (s : State) (r : Reply) : (s.answer r).slots = s.slots := rfl
@[simp] theorem State.answer_host (s : State) (r : Reply) : (s.answer r).host = s.host := rfl
@[simp] theorem State.answer_pwr (s : State) (r : Reply) : (s.answer r).pwr = s.pwr := rfl
@[simp] theorem State.answer_pin (s : State) (r : Reply) : (s.answer r).pin = s.pin := rfl
@[simp] theorem State.answer_upd (s : State) (r : Reply) : (s.answer r).upd = s.upd := rfl
@[simp] theorem State.answer_sec (s : State) (r : Reply) : (s.answer r).sec = s.sec := rfl
@[simp] theorem State.answer_err (s : State) (r : Reply) : (s.answer r).err = s.err := rfl
@[simp] theorem State.answer_reh (s : State) (r : Reply) : (s.answer r).reh = s.reh := rfl
@[simp] theorem State.answer_tap (s : State) (r : Reply) : (s.answer r).tap = s.tap := rfl
@[simp] theorem State.answer_twin (s : State) (r : Reply) : (s.answer r).twin = s.twin := rfl
@[simp] theorem State.answer_lnk (s : State) (r : Reply) : (s.answer r).lnk = s.lnk := rfl
@[simp] theorem State.answer_win (s : State) (r : Reply) : (s.answer r).win = s.win := rfl
@[simp] theorem State.answer_stk (s : State) (r : Reply) : (s.answer r).stk = s.stk := rfl
@[simp] theorem State.answer_kv (s : State) (r : Reply) : (s.answer r).kv = s.kv := rfl
@[simp] theorem State.answer_prec (s : State) (r : Reply) : (s.answer r).prec = s.prec := rfl
@[simp] theorem State.answer_clu (s : State) (r : Reply) : (s.answer r).clu = s.clu := rfl
@[simp] theorem State.answer_core (s : State) (r : Reply) : (s.answer r).core = s.core := rfl
@[simp] theorem State.answer_mem (s : State) (r : Reply) : (s.answer r).mem = s.mem := rfl
@[simp] theorem State.answer_badOne (s : State) (r : Reply) : (s.answer r).badOne = s.badOne := rfl
@[simp] theorem State.answer_badTwo (s : State) (r : Reply) : (s.answer r).badTwo = s.badTwo := rfl

/-! ## goto -/

@[simp] theorem State.goto_pending (s : State) (d : DevState) : (s.goto d).pending = s.pending := rfl
@[simp] theorem State.goto_free (s : State) (d : DevState) : (s.goto d).free = s.free := rfl
@[simp] theorem State.goto_reply (s : State) (d : DevState) : (s.goto d).reply = s.reply := rfl
@[simp] theorem State.goto_sent (s : State) (d : DevState) : (s.goto d).sent = s.sent := rfl
@[simp] theorem State.goto_cfg (s : State) (d : DevState) : (s.goto d).cfg = s.cfg := rfl
@[simp] theorem State.goto_glb (s : State) (d : DevState) : (s.goto d).glb = { s.glb with st := d } := rfl
@[simp] theorem State.goto_portA (s : State) (d : DevState) : (s.goto d).portA = s.portA := rfl
@[simp] theorem State.goto_portB (s : State) (d : DevState) : (s.goto d).portB = s.portB := rfl
@[simp] theorem State.goto_tick (s : State) (d : DevState) : (s.goto d).tick = s.tick := rfl
@[simp] theorem State.goto_slots (s : State) (d : DevState) : (s.goto d).slots = s.slots := rfl
@[simp] theorem State.goto_host (s : State) (d : DevState) : (s.goto d).host = s.host := rfl
@[simp] theorem State.goto_pwr (s : State) (d : DevState) : (s.goto d).pwr = s.pwr := rfl
@[simp] theorem State.goto_pin (s : State) (d : DevState) : (s.goto d).pin = s.pin := rfl
@[simp] theorem State.goto_upd (s : State) (d : DevState) : (s.goto d).upd = s.upd := rfl
@[simp] theorem State.goto_sec (s : State) (d : DevState) : (s.goto d).sec = s.sec := rfl
@[simp] theorem State.goto_err (s : State) (d : DevState) : (s.goto d).err = s.err := rfl
@[simp] theorem State.goto_reh (s : State) (d : DevState) : (s.goto d).reh = s.reh := rfl
@[simp] theorem State.goto_tap (s : State) (d : DevState) : (s.goto d).tap = s.tap := rfl
@[simp] theorem State.goto_twin (s : State) (d : DevState) : (s.goto d).twin = s.twin := rfl
@[simp] theorem State.goto_lnk (s : State) (d : DevState) : (s.goto d).lnk = s.lnk := rfl
@[simp] theorem State.goto_win (s : State) (d : DevState) : (s.goto d).win = s.win := rfl
@[simp] theorem State.goto_stk (s : State) (d : DevState) : (s.goto d).stk = s.stk := rfl
@[simp] theorem State.goto_kv (s : State) (d : DevState) : (s.goto d).kv = s.kv := rfl
@[simp] theorem State.goto_prec (s : State) (d : DevState) : (s.goto d).prec = s.prec := rfl
@[simp] theorem State.goto_clu (s : State) (d : DevState) : (s.goto d).clu = s.clu := rfl
@[simp] theorem State.goto_core (s : State) (d : DevState) : (s.goto d).core = s.core := rfl
@[simp] theorem State.goto_mem (s : State) (d : DevState) : (s.goto d).mem = s.mem := rfl
@[simp] theorem State.goto_badOne (s : State) (d : DevState) : (s.goto d).badOne = s.badOne := rfl
@[simp] theorem State.goto_badTwo (s : State) (d : DevState) : (s.goto d).badTwo = s.badTwo := rfl

/-! ## poke -/

@[simp] theorem State.poke_pending (s : State) (a : Nat) (l : List Byte) : (s.poke a l).pending = s.pending := rfl
@[simp] theorem State.poke_free (s : State) (a : Nat) (l : List Byte) : (s.poke a l).free = s.free := rfl
@[simp] theorem State.poke_reply (s : State) (a : Nat) (l : List Byte) : (s.poke a l).reply = s.reply := rfl
@[simp] theorem State.poke_sent (s : State) (a : Nat) (l : List Byte) : (s.poke a l).sent = s.sent := rfl
@[simp] theorem State.poke_cfg (s : State) (a : Nat) (l : List Byte) : (s.poke a l).cfg = s.cfg := rfl
@[simp] theorem State.poke_glb (s : State) (a : Nat) (l : List Byte) : (s.poke a l).glb = s.glb := rfl
@[simp] theorem State.poke_portA (s : State) (a : Nat) (l : List Byte) : (s.poke a l).portA = s.portA := rfl
@[simp] theorem State.poke_portB (s : State) (a : Nat) (l : List Byte) : (s.poke a l).portB = s.portB := rfl
@[simp] theorem State.poke_tick (s : State) (a : Nat) (l : List Byte) : (s.poke a l).tick = s.tick := rfl
@[simp] theorem State.poke_slots (s : State) (a : Nat) (l : List Byte) : (s.poke a l).slots = s.slots := rfl
@[simp] theorem State.poke_host (s : State) (a : Nat) (l : List Byte) : (s.poke a l).host = s.host := rfl
@[simp] theorem State.poke_pwr (s : State) (a : Nat) (l : List Byte) : (s.poke a l).pwr = s.pwr := rfl
@[simp] theorem State.poke_pin (s : State) (a : Nat) (l : List Byte) : (s.poke a l).pin = s.pin := rfl
@[simp] theorem State.poke_upd (s : State) (a : Nat) (l : List Byte) : (s.poke a l).upd = s.upd := rfl
@[simp] theorem State.poke_sec (s : State) (a : Nat) (l : List Byte) : (s.poke a l).sec = s.sec := rfl
@[simp] theorem State.poke_err (s : State) (a : Nat) (l : List Byte) : (s.poke a l).err = s.err := rfl
@[simp] theorem State.poke_reh (s : State) (a : Nat) (l : List Byte) : (s.poke a l).reh = s.reh := rfl
@[simp] theorem State.poke_tap (s : State) (a : Nat) (l : List Byte) : (s.poke a l).tap = s.tap := rfl
@[simp] theorem State.poke_twin (s : State) (a : Nat) (l : List Byte) : (s.poke a l).twin = s.twin := rfl
@[simp] theorem State.poke_lnk (s : State) (a : Nat) (l : List Byte) : (s.poke a l).lnk = s.lnk := rfl
@[simp] theorem State.poke_win (s : State) (a : Nat) (l : List Byte) : (s.poke a l).win = s.win := rfl
@[simp] theorem State.poke_stk (s : State) (a : Nat) (l : List Byte) : (s.poke a l).stk = s.stk := rfl
@[simp] theorem State.poke_kv (s : State) (a : Nat) (l : List Byte) : (s.poke a l).kv = s.kv := rfl
@[simp] theorem State.poke_prec (s : State) (a : Nat) (l : List Byte) : (s.poke a l).prec = s.prec := rfl
@[simp] theorem State.poke_clu (s : State) (a : Nat) (l : List Byte) : (s.poke a l).clu = s.clu := rfl
@[simp] theorem State.poke_core (s : State) (a : Nat) (l : List Byte) : (s.poke a l).core = s.core := rfl
@[simp] theorem State.poke_mem (s : State) (a : Nat) (l : List Byte) : (s.poke a l).mem = Tab.setRange memDefault s.mem a l := rfl
@[simp] theorem State.poke_badOne (s : State) (a : Nat) (l : List Byte) : (s.poke a l).badOne = s.badOne := rfl
@[simp] theorem State.poke_badTwo (s : State) (a : Nat) (l : List Byte) : (s.poke a l).badTwo = s.badTwo := rfl

/-! ## modSeq -/

@[simp] theorem State.modSeq_pending (s : State) (c : CoreId) (f : SeqSt → SeqSt) : (s.modSeq c f).pending = s.pending := rfl
@[simp] theorem State.modSeq_free (s : State) (c : CoreId) (f : SeqSt → SeqSt) : (s.modSeq c f).free = s.free := rfl
@[simp] theorem State.modSeq_reply (s : State) (c : CoreId) (f : SeqSt → SeqSt) : (s.modSeq c f).reply = s.reply := rfl
@[simp] theorem State.modSeq_sent (s : State) (c : CoreId) (f : SeqSt → SeqSt) : (s.modSeq c f).sent = s.sent := rfl
@[simp] theorem State.modSeq_cfg (s : State) (c : CoreId) (f : SeqSt → SeqSt) : (s.modSeq c f).cfg = s.cfg := rfl
@[simp] theorem State.modSeq_glb (s : State) (c : CoreId) (f : SeqSt → SeqSt) : (s.modSeq c f).glb = s.glb := rfl
@[simp] theorem State.modSeq_portA (s : State) (c : CoreId) (f : SeqSt → SeqSt) : (s.modSeq c f).portA = s.portA := rfl
@[simp] theorem State.modSeq_portB (s : State) (c : CoreId) (f : SeqSt → SeqSt) : (s.modSeq c f).portB = s.portB := rfl
@[simp] theorem State.modSeq_tick (s : State) (c : CoreId) (f : SeqSt → SeqSt) : (s.modSeq c f).tick = s.tick := rfl
@[simp] theorem State.modSeq_slots (s : State) (c : CoreId) (f : SeqSt → SeqSt) : (s.modSeq c f).slots = s.slots := rfl
@[simp] theorem State.modSeq_host (s : State) (c : CoreId) (f : SeqSt → SeqSt) : (s.modSeq c f).host = s.host := rfl
@[simp] theorem State.modSeq_pwr (s : State) (c : CoreId) (f : SeqSt → SeqSt) : (s.modSeq c f).pwr = s.pwr := rfl
@[simp] theorem State.modSeq_pin (s : State) (c : CoreId) (f : SeqSt → SeqSt) : (s.modSeq c f).pin = s.pin := rfl
@[simp] theorem State.modSeq_upd (s : State) (c : CoreId) (f : SeqSt → SeqSt) : (s.modSeq c f).upd = s.upd := rfl
@[simp] theorem State.modSeq_sec (s : State) (c : CoreId) (f : SeqSt → SeqSt) : (s.modSeq c f).sec = s.sec := rfl
@[simp] theorem State.modSeq_err (s : State) (c : CoreId) (f : SeqSt → SeqSt) : (s.modSeq c f).err = s.err := rfl
@[simp] theorem State.modSeq_reh (s : State) (c : CoreId) (f : SeqSt → SeqSt) : (s.modSeq c f).reh = s.reh := rfl
@[simp] theorem State.modSeq_tap (s : State) (c : CoreId) (f : SeqSt → SeqSt) : (s.modSeq c f).tap = s.tap := rfl
@[simp] theorem State.modSeq_twin (s : State) (c : CoreId) (f : SeqSt → SeqSt) : (s.modSeq c f).twin = s.twin := rfl
@[simp] theorem State.modSeq_lnk (s : State) (c : CoreId) (f : SeqSt → SeqSt) : (s.modSeq c f).lnk = s.lnk := rfl
@[simp] theorem State.modSeq_win (s : State) (c : CoreId) (f : SeqSt → SeqSt) : (s.modSeq c f).win = s.win := rfl
@[simp] theorem State.modSeq_stk (s : State) (c : CoreId) (f : SeqSt → SeqSt) : (s.modSeq c f).stk = s.stk := rfl
@[simp] theorem State.modSeq_kv (s : State) (c : CoreId) (f : SeqSt → SeqSt) : (s.modSeq c f).kv = s.kv := rfl
@[simp] theorem State.modSeq_prec (s : State) (c : CoreId) (f : SeqSt → SeqSt) : (s.modSeq c f).prec = s.prec := rfl
@[simp] theorem State.modSeq_clu (s : State) (c : CoreId) (f : SeqSt → SeqSt) : (s.modSeq c f).clu = s.clu := rfl
@[simp] theorem State.modSeq_core (s : State) (c : CoreId) (f : SeqSt → SeqSt) : (s.modSeq c f).core = Tab.upd .reset s.core c.num (fun k => { k with seq := f k.seq }) := rfl
@[simp] theorem State.modSeq_mem (s : State) (c : CoreId) (f : SeqSt → SeqSt) : (s.modSeq c f).mem = s.mem := rfl
@[simp] theorem State.modSeq_badOne (s : State) (c : CoreId) (f : SeqSt → SeqSt) : (s.modSeq c f).badOne = s.badOne := rfl
@[simp] theorem State.modSeq_badTwo (s : State) (c : CoreId) (f : SeqSt → SeqSt) : (s.modSeq c f).badTwo = s.badTwo := rfl

/-! ## modEng -/

@[simp] theorem State.modEng_pending (s : State) (c : CoreId) (e : Nat) (f : EngineSt → EngineSt) : (s.modEng c e f).pending = s.pending := rfl
@[simp] theorem State.modEng_free (s : State) (c : CoreId) (e : Nat) (f : EngineSt → EngineSt) : (s.modEng c e f).free = s.free := rfl
@[simp] theorem State.modEng_reply (s : State) (c : CoreId) (e : Nat) (f : EngineSt → EngineSt) : (s.modEng c e f).reply = s.reply := rfl
@[simp] theorem State.modEng_sent (s : State) (c : CoreId) (e : Nat) (f : EngineSt → EngineSt) : (s.modEng c e f).sent = s.sent := rfl
@[simp] theorem State.modEng_cfg (s : State) (c : CoreId) (e : Nat) (f : EngineSt → EngineSt) : (s.modEng c e f).cfg = s.cfg := rfl
@[simp] theorem State.modEng_glb (s : State) (c : CoreId) (e : Nat) (f : EngineSt → EngineSt) : (s.modEng c e f).glb = s.glb := rfl
@[simp] theorem State.modEng_portA (s : State) (c : CoreId) (e : Nat) (f : EngineSt → EngineSt) : (s.modEng c e f).portA = s.portA := rfl
@[simp] theorem State.modEng_portB (s : State) (c : CoreId) (e : Nat) (f : EngineSt → EngineSt) : (s.modEng c e f).portB = s.portB := rfl
@[simp] theorem State.modEng_tick (s : State) (c : CoreId) (e : Nat) (f : EngineSt → EngineSt) : (s.modEng c e f).tick = s.tick := rfl
@[simp] theorem State.modEng_slots (s : State) (c : CoreId) (e : Nat) (f : EngineSt → EngineSt) : (s.modEng c e f).slots = s.slots := rfl
@[simp] theorem State.modEng_host (s : State) (c : CoreId) (e : Nat) (f : EngineSt → EngineSt) : (s.modEng c e f).host = s.host := rfl
@[simp] theorem State.modEng_pwr (s : State) (c : CoreId) (e : Nat) (f : EngineSt → EngineSt) : (s.modEng c e f).pwr = s.pwr := rfl
@[simp] theorem State.modEng_pin (s : State) (c : CoreId) (e : Nat) (f : EngineSt → EngineSt) : (s.modEng c e f).pin = s.pin := rfl
@[simp] theorem State.modEng_upd (s : State) (c : CoreId) (e : Nat) (f : EngineSt → EngineSt) : (s.modEng c e f).upd = s.upd := rfl
@[simp] theorem State.modEng_sec (s : State) (c : CoreId) (e : Nat) (f : EngineSt → EngineSt) : (s.modEng c e f).sec = s.sec := rfl
@[simp] theorem State.modEng_err (s : State) (c : CoreId) (e : Nat) (f : EngineSt → EngineSt) : (s.modEng c e f).err = s.err := rfl
@[simp] theorem State.modEng_reh (s : State) (c : CoreId) (e : Nat) (f : EngineSt → EngineSt) : (s.modEng c e f).reh = s.reh := rfl
@[simp] theorem State.modEng_tap (s : State) (c : CoreId) (e : Nat) (f : EngineSt → EngineSt) : (s.modEng c e f).tap = s.tap := rfl
@[simp] theorem State.modEng_twin (s : State) (c : CoreId) (e : Nat) (f : EngineSt → EngineSt) : (s.modEng c e f).twin = s.twin := rfl
@[simp] theorem State.modEng_lnk (s : State) (c : CoreId) (e : Nat) (f : EngineSt → EngineSt) : (s.modEng c e f).lnk = s.lnk := rfl
@[simp] theorem State.modEng_win (s : State) (c : CoreId) (e : Nat) (f : EngineSt → EngineSt) : (s.modEng c e f).win = s.win := rfl
@[simp] theorem State.modEng_stk (s : State) (c : CoreId) (e : Nat) (f : EngineSt → EngineSt) : (s.modEng c e f).stk = s.stk := rfl
@[simp] theorem State.modEng_kv (s : State) (c : CoreId) (e : Nat) (f : EngineSt → EngineSt) : (s.modEng c e f).kv = s.kv := rfl
@[simp] theorem State.modEng_prec (s : State) (c : CoreId) (e : Nat) (f : EngineSt → EngineSt) : (s.modEng c e f).prec = s.prec := rfl
@[simp] theorem State.modEng_clu (s : State) (c : CoreId) (e : Nat) (f : EngineSt → EngineSt) : (s.modEng c e f).clu = s.clu := rfl
@[simp] theorem State.modEng_core (s : State) (c : CoreId) (e : Nat) (f : EngineSt → EngineSt) : (s.modEng c e f).core = Tab.upd .reset s.core c.num (fun k => { k with engines := Tab.upd .reset k.engines e f }) := rfl
@[simp] theorem State.modEng_mem (s : State) (c : CoreId) (e : Nat) (f : EngineSt → EngineSt) : (s.modEng c e f).mem = s.mem := rfl
@[simp] theorem State.modEng_badOne (s : State) (c : CoreId) (e : Nat) (f : EngineSt → EngineSt) : (s.modEng c e f).badOne = s.badOne := rfl
@[simp] theorem State.modEng_badTwo (s : State) (c : CoreId) (e : Nat) (f : EngineSt → EngineSt) : (s.modEng c e f).badTwo = s.badTwo := rfl

/-! ## modOcv -/

@[simp] theorem State.modOcv_pending (s : State) (c : CoreId) (f : OcvSt → OcvSt) : (s.modOcv c f).pending = s.pending := rfl
@[simp] theorem State.modOcv_free (s : State) (c : CoreId) (f : OcvSt → OcvSt) : (s.modOcv c f).free = s.free := rfl
@[simp] theorem State.modOcv_reply (s : State) (c : CoreId) (f : OcvSt → OcvSt) : (s.modOcv c f).reply = s.reply := rfl
@[simp] theorem State.modOcv_sent (s : State) (c : CoreId) (f : OcvSt → OcvSt) : (s.modOcv c f).sent = s.sent := rfl
@[simp] theorem State.modOcv_cfg (s : State) (c : CoreId) (f : OcvSt → OcvSt) : (s.modOcv c f).cfg = s.cfg := rfl
@[simp] theorem State.modOcv_glb (s : State) (c : CoreId) (f : OcvSt → OcvSt) : (s.modOcv c f).glb = s.glb := rfl
@[simp] theorem State.modOcv_portA (s : State) (c : CoreId) (f : OcvSt → OcvSt) : (s.modOcv c f).portA = s.portA := rfl
@[simp] theorem State.modOcv_portB (s : State) (c : CoreId) (f : OcvSt → OcvSt) : (s.modOcv c f).portB = s.portB := rfl
@[simp] theorem State.modOcv_tick (s : State) (c : CoreId) (f : OcvSt → OcvSt) : (s.modOcv c f).tick = s.tick := rfl
@[simp] theorem State.modOcv_slots (s : State) (c : CoreId) (f : OcvSt → OcvSt) : (s.modOcv c f).slots = s.slots := rfl
@[simp] theorem State.modOcv_host (s : State) (c : CoreId) (f : OcvSt → OcvSt) : (s.modOcv c f).host = s.host := rfl
@[simp] theorem State.modOcv_pwr (s : State) (c : CoreId) (f : OcvSt → OcvSt) : (s.modOcv c f).pwr = s.pwr := rfl
@[simp] theorem State.modOcv_pin (s : State) (c : CoreId) (f : OcvSt → OcvSt) : (s.modOcv c f).pin = s.pin := rfl
@[simp] theorem State.modOcv_upd (s : State) (c : CoreId) (f : OcvSt → OcvSt) : (s.modOcv c f).upd = s.upd := rfl
@[simp] theorem State.modOcv_sec (s : State) (c : CoreId) (f : OcvSt → OcvSt) : (s.modOcv c f).sec = s.sec := rfl
@[simp] theorem State.modOcv_err (s : State) (c : CoreId) (f : OcvSt → OcvSt) : (s.modOcv c f).err = s.err := rfl
@[simp] theorem State.modOcv_reh (s : State) (c : CoreId) (f : OcvSt → OcvSt) : (s.modOcv c f).reh = s.reh := rfl
@[simp] theorem State.modOcv_tap (s : State) (c : CoreId) (f : OcvSt → OcvSt) : (s.modOcv c f).tap = s.tap := rfl
@[simp] theorem State.modOcv_twin (s : State) (c : CoreId) (f : OcvSt → OcvSt) : (s.modOcv c f).twin = s.twin := rfl
@[simp] theorem State.modOcv_lnk (s : State) (c : CoreId) (f : OcvSt → OcvSt) : (s.modOcv c f).lnk = s.lnk := rfl
@[simp] theorem State.modOcv_win (s : State) (c : CoreId) (f : OcvSt → OcvSt) : (s.modOcv c f).win = s.win := rfl
@[simp] theorem State.modOcv_stk (s : State) (c : CoreId) (f : OcvSt → OcvSt) : (s.modOcv c f).stk = s.stk := rfl
@[simp] theorem State.modOcv_kv (s : State) (c : CoreId) (f : OcvSt → OcvSt) : (s.modOcv c f).kv = s.kv := rfl
@[simp] theorem State.modOcv_prec (s : State) (c : CoreId) (f : OcvSt → OcvSt) : (s.modOcv c f).prec = s.prec := rfl
@[simp] theorem State.modOcv_clu (s : State) (c : CoreId) (f : OcvSt → OcvSt) : (s.modOcv c f).clu = s.clu := rfl
@[simp] theorem State.modOcv_core (s : State) (c : CoreId) (f : OcvSt → OcvSt) : (s.modOcv c f).core = Tab.upd .reset s.core c.num (fun k => { k with ocv := f k.ocv }) := rfl
@[simp] theorem State.modOcv_mem (s : State) (c : CoreId) (f : OcvSt → OcvSt) : (s.modOcv c f).mem = s.mem := rfl
@[simp] theorem State.modOcv_badOne (s : State) (c : CoreId) (f : OcvSt → OcvSt) : (s.modOcv c f).badOne = s.badOne := rfl
@[simp] theorem State.modOcv_badTwo (s : State) (c : CoreId) (f : OcvSt → OcvSt) : (s.modOcv c f).badTwo = s.badTwo := rfl

/-! ## modSparse -/

@[simp] theorem State.modSparse_pending (s : State) (c : CoreId) (f : SparseSt → SparseSt) : (s.modSparse c f).pending = s.pending := rfl
@[simp] theorem State.modSparse_free (s : State) (c : CoreId) (f : SparseSt → SparseSt) : (s.modSparse c f).free = s.free := rfl
@[simp] theorem State.modSparse_reply (s : State) (c : CoreId) (f : SparseSt → SparseSt) : (s.modSparse c f).reply = s.reply := rfl
@[simp] theorem State.modSparse_sent (s : State) (c : CoreId) (f : SparseSt → SparseSt) : (s.modSparse c f).sent = s.sent := rfl
@[simp] theorem State.modSparse_cfg (s : State) (c : CoreId) (f : SparseSt → SparseSt) : (s.modSparse c f).cfg = s.cfg := rfl
@[simp] theorem State.modSparse_glb (s : State) (c : CoreId) (f : SparseSt → SparseSt) : (s.modSparse c f).glb = s.glb := rfl
@[simp] theorem State.modSparse_portA (s : State) (c : CoreId) (f : SparseSt → SparseSt) : (s.modSparse c f).portA = s.portA := rfl
@[simp] theorem State.modSparse_portB (s : State) (c : CoreId) (f : SparseSt → SparseSt) : (s.modSparse c f).portB = s.portB := rfl
@[simp] theorem State.modSparse_tick (s : State) (c : CoreId) (f : SparseSt → SparseSt) : (s.modSparse c f).tick = s.tick := rfl
@[simp] theorem State.modSparse_slots (s : State) (c : CoreId) (f : SparseSt → SparseSt) : (s.modSparse c f).slots = s.slots := rfl
@[simp] theorem State.modSparse_host (s : State) (c : CoreId) (f : SparseSt → SparseSt) : (s.modSparse c f).host = s.host := rfl
@[simp] theorem State.modSparse_pwr (s : State) (c : CoreId) (f : SparseSt → SparseSt) : (s.modSparse c f).pwr = s.pwr := rfl
@[simp] theorem State.modSparse_pin (s : State) (c : CoreId) (f : SparseSt → SparseSt) : (s.modSparse c f).pin = s.pin := rfl
@[simp] theorem State.modSparse_upd (s : State) (c : CoreId) (f : SparseSt → SparseSt) : (s.modSparse c f).upd = s.upd := rfl
@[simp] theorem State.modSparse_sec (s : State) (c : CoreId) (f : SparseSt → SparseSt) : (s.modSparse c f).sec = s.sec := rfl
@[simp] theorem State.modSparse_err (s : State) (c : CoreId) (f : SparseSt → SparseSt) : (s.modSparse c f).err = s.err := rfl
@[simp] theorem State.modSparse_reh (s : State) (c : CoreId) (f : SparseSt → SparseSt) : (s.modSparse c f).reh = s.reh := rfl
@[simp] theorem State.modSparse_tap (s : State) (c : CoreId) (f : SparseSt → SparseSt) : (s.modSparse c f).tap = s.tap := rfl
@[simp] theorem State.modSparse_twin (s : State) (c : CoreId) (f : SparseSt → SparseSt) : (s.modSparse c f).twin = s.twin := rfl
@[simp] theorem State.modSparse_lnk (s : State) (c : CoreId) (f : SparseSt → SparseSt) : (s.modSparse c f).lnk = s.lnk := rfl
@[simp] theorem State.modSparse_win (s : State) (c : CoreId) (f : SparseSt → SparseSt) : (s.modSparse c f).win = s.win := rfl
@[simp] theorem State.modSparse_stk (s : State) (c : CoreId) (f : SparseSt → SparseSt) : (s.modSparse c f).stk = s.stk := rfl
@[simp] theorem State.modSparse_kv (s : State) (c : CoreId) (f : SparseSt → SparseSt) : (s.modSparse c f).kv = s.kv := rfl
@[simp] theorem State.modSparse_prec (s : State) (c : CoreId) (f : SparseSt → SparseSt) : (s.modSparse c f).prec = s.prec := rfl
@[simp] theorem State.modSparse_clu (s : State) (c : CoreId) (f : SparseSt → SparseSt) : (s.modSparse c f).clu = s.clu := rfl
@[simp] theorem State.modSparse_core (s : State) (c : CoreId) (f : SparseSt → SparseSt) : (s.modSparse c f).core = Tab.upd .reset s.core c.num (fun k => { k with sparse := f k.sparse }) := rfl
@[simp] theorem State.modSparse_mem (s : State) (c : CoreId) (f : SparseSt → SparseSt) : (s.modSparse c f).mem = s.mem := rfl
@[simp] theorem State.modSparse_badOne (s : State) (c : CoreId) (f : SparseSt → SparseSt) : (s.modSparse c f).badOne = s.badOne := rfl
@[simp] theorem State.modSparse_badTwo (s : State) (c : CoreId) (f : SparseSt → SparseSt) : (s.modSparse c f).badTwo = s.badTwo := rfl

/-! ## modRing -/

@[simp] theorem State.modRing_pending (s : State) (c : CoreId) (q : Nat) (f : RingSt → RingSt) : (s.modRing c q f).pending = s.pending := rfl
@[simp] theorem State.modRing_free (s : State) (c : CoreId) (q : Nat) (f : RingSt → RingSt) : (s.modRing c q f).free = s.free := rfl
@[simp] theorem State.modRing_reply (s : State) (c : CoreId) (q : Nat) (f : RingSt → RingSt) : (s.modRing c q f).reply = s.reply := rfl
@[simp] theorem State.modRing_sent (s : State) (c : CoreId) (q : Nat) (f : RingSt → RingSt) : (s.modRing c q f).sent = s.sent := rfl
@[simp] theorem State.modRing_cfg (s : State) (c : CoreId) (q : Nat) (f : RingSt → RingSt) : (s.modRing c q f).cfg = s.cfg := rfl
@[simp] theorem State.modRing_glb (s : State) (c : CoreId) (q : Nat) (f : RingSt → RingSt) : (s.modRing c q f).glb = s.glb := rfl
@[simp] theorem State.modRing_portA (s : State) (c : CoreId) (q : Nat) (f : RingSt → RingSt) : (s.modRing c q f).portA = s.portA := rfl
@[simp] theorem State.modRing_portB (s : State) (c : CoreId) (q : Nat) (f : RingSt → RingSt) : (s.modRing c q f).portB = s.portB := rfl
@[simp] theorem State.modRing_tick (s : State) (c : CoreId) (q : Nat) (f : RingSt → RingSt) : (s.modRing c q f).tick = s.tick := rfl
@[simp] theorem State.modRing_slots (s : State) (c : CoreId) (q : Nat) (f : RingSt → RingSt) : (s.modRing c q f).slots = s.slots := rfl
@[simp] theorem State.modRing_host (s : State) (c : CoreId) (q : Nat) (f : RingSt → RingSt) : (s.modRing c q f).host = s.host := rfl
@[simp] theorem State.modRing_pwr (s : State) (c : CoreId) (q : Nat) (f : RingSt → RingSt) : (s.modRing c q f).pwr = s.pwr := rfl
@[simp] theorem State.modRing_pin (s : State) (c : CoreId) (q : Nat) (f : RingSt → RingSt) : (s.modRing c q f).pin = s.pin := rfl
@[simp] theorem State.modRing_upd (s : State) (c : CoreId) (q : Nat) (f : RingSt → RingSt) : (s.modRing c q f).upd = s.upd := rfl
@[simp] theorem State.modRing_sec (s : State) (c : CoreId) (q : Nat) (f : RingSt → RingSt) : (s.modRing c q f).sec = s.sec := rfl
@[simp] theorem State.modRing_err (s : State) (c : CoreId) (q : Nat) (f : RingSt → RingSt) : (s.modRing c q f).err = s.err := rfl
@[simp] theorem State.modRing_reh (s : State) (c : CoreId) (q : Nat) (f : RingSt → RingSt) : (s.modRing c q f).reh = s.reh := rfl
@[simp] theorem State.modRing_tap (s : State) (c : CoreId) (q : Nat) (f : RingSt → RingSt) : (s.modRing c q f).tap = s.tap := rfl
@[simp] theorem State.modRing_twin (s : State) (c : CoreId) (q : Nat) (f : RingSt → RingSt) : (s.modRing c q f).twin = s.twin := rfl
@[simp] theorem State.modRing_lnk (s : State) (c : CoreId) (q : Nat) (f : RingSt → RingSt) : (s.modRing c q f).lnk = s.lnk := rfl
@[simp] theorem State.modRing_win (s : State) (c : CoreId) (q : Nat) (f : RingSt → RingSt) : (s.modRing c q f).win = s.win := rfl
@[simp] theorem State.modRing_stk (s : State) (c : CoreId) (q : Nat) (f : RingSt → RingSt) : (s.modRing c q f).stk = s.stk := rfl
@[simp] theorem State.modRing_kv (s : State) (c : CoreId) (q : Nat) (f : RingSt → RingSt) : (s.modRing c q f).kv = s.kv := rfl
@[simp] theorem State.modRing_prec (s : State) (c : CoreId) (q : Nat) (f : RingSt → RingSt) : (s.modRing c q f).prec = s.prec := rfl
@[simp] theorem State.modRing_clu (s : State) (c : CoreId) (q : Nat) (f : RingSt → RingSt) : (s.modRing c q f).clu = s.clu := rfl
@[simp] theorem State.modRing_core (s : State) (c : CoreId) (q : Nat) (f : RingSt → RingSt) : (s.modRing c q f).core = Tab.upd .reset s.core c.num (fun k => { k with rings := Tab.upd .reset k.rings q f }) := rfl
@[simp] theorem State.modRing_mem (s : State) (c : CoreId) (q : Nat) (f : RingSt → RingSt) : (s.modRing c q f).mem = s.mem := rfl
@[simp] theorem State.modRing_badOne (s : State) (c : CoreId) (q : Nat) (f : RingSt → RingSt) : (s.modRing c q f).badOne = s.badOne := rfl
@[simp] theorem State.modRing_badTwo (s : State) (c : CoreId) (q : Nat) (f : RingSt → RingSt) : (s.modRing c q f).badTwo = s.badTwo := rfl

/-! ## setPort -/

@[simp] theorem State.setPort_pending (s : State) (p : Port) (x : PortSt) : (s.setPort p x).pending = s.pending := by cases p <;> rfl
@[simp] theorem State.setPort_free (s : State) (p : Port) (x : PortSt) : (s.setPort p x).free = s.free := by cases p <;> rfl
@[simp] theorem State.setPort_reply (s : State) (p : Port) (x : PortSt) : (s.setPort p x).reply = s.reply := by cases p <;> rfl
@[simp] theorem State.setPort_sent (s : State) (p : Port) (x : PortSt) : (s.setPort p x).sent = s.sent := by cases p <;> rfl
@[simp] theorem State.setPort_cfg (s : State) (p : Port) (x : PortSt) : (s.setPort p x).cfg = s.cfg := by cases p <;> rfl
@[simp] theorem State.setPort_glb (s : State) (p : Port) (x : PortSt) : (s.setPort p x).glb = s.glb := by cases p <;> rfl
@[simp] theorem State.setPort_tick (s : State) (p : Port) (x : PortSt) : (s.setPort p x).tick = s.tick := by cases p <;> rfl
@[simp] theorem State.setPort_slots (s : State) (p : Port) (x : PortSt) : (s.setPort p x).slots = s.slots := by cases p <;> rfl
@[simp] theorem State.setPort_host (s : State) (p : Port) (x : PortSt) : (s.setPort p x).host = s.host := by cases p <;> rfl
@[simp] theorem State.setPort_pwr (s : State) (p : Port) (x : PortSt) : (s.setPort p x).pwr = s.pwr := by cases p <;> rfl
@[simp] theorem State.setPort_pin (s : State) (p : Port) (x : PortSt) : (s.setPort p x).pin = s.pin := by cases p <;> rfl
@[simp] theorem State.setPort_upd (s : State) (p : Port) (x : PortSt) : (s.setPort p x).upd = s.upd := by cases p <;> rfl
@[simp] theorem State.setPort_sec (s : State) (p : Port) (x : PortSt) : (s.setPort p x).sec = s.sec := by cases p <;> rfl
@[simp] theorem State.setPort_err (s : State) (p : Port) (x : PortSt) : (s.setPort p x).err = s.err := by cases p <;> rfl
@[simp] theorem State.setPort_reh (s : State) (p : Port) (x : PortSt) : (s.setPort p x).reh = s.reh := by cases p <;> rfl
@[simp] theorem State.setPort_tap (s : State) (p : Port) (x : PortSt) : (s.setPort p x).tap = s.tap := by cases p <;> rfl
@[simp] theorem State.setPort_twin (s : State) (p : Port) (x : PortSt) : (s.setPort p x).twin = s.twin := by cases p <;> rfl
@[simp] theorem State.setPort_lnk (s : State) (p : Port) (x : PortSt) : (s.setPort p x).lnk = s.lnk := by cases p <;> rfl
@[simp] theorem State.setPort_win (s : State) (p : Port) (x : PortSt) : (s.setPort p x).win = s.win := by cases p <;> rfl
@[simp] theorem State.setPort_stk (s : State) (p : Port) (x : PortSt) : (s.setPort p x).stk = s.stk := by cases p <;> rfl
@[simp] theorem State.setPort_kv (s : State) (p : Port) (x : PortSt) : (s.setPort p x).kv = s.kv := by cases p <;> rfl
@[simp] theorem State.setPort_prec (s : State) (p : Port) (x : PortSt) : (s.setPort p x).prec = s.prec := by cases p <;> rfl
@[simp] theorem State.setPort_clu (s : State) (p : Port) (x : PortSt) : (s.setPort p x).clu = s.clu := by cases p <;> rfl
@[simp] theorem State.setPort_core (s : State) (p : Port) (x : PortSt) : (s.setPort p x).core = s.core := by cases p <;> rfl
@[simp] theorem State.setPort_mem (s : State) (p : Port) (x : PortSt) : (s.setPort p x).mem = s.mem := by cases p <;> rfl
@[simp] theorem State.setPort_badOne (s : State) (p : Port) (x : PortSt) : (s.setPort p x).badOne = s.badOne := by cases p <;> rfl
@[simp] theorem State.setPort_badTwo (s : State) (p : Port) (x : PortSt) : (s.setPort p x).badTwo = s.badTwo := by cases p <;> rfl

/-! ## modPort -/

@[simp] theorem State.modPort_pending (s : State) (p : Port) (f : PortSt → PortSt) : (s.modPort p f).pending = s.pending := by cases p <;> rfl
@[simp] theorem State.modPort_free (s : State) (p : Port) (f : PortSt → PortSt) : (s.modPort p f).free = s.free := by cases p <;> rfl
@[simp] theorem State.modPort_reply (s : State) (p : Port) (f : PortSt → PortSt) : (s.modPort p f).reply = s.reply := by cases p <;> rfl
@[simp] theorem State.modPort_sent (s : State) (p : Port) (f : PortSt → PortSt) : (s.modPort p f).sent = s.sent := by cases p <;> rfl
@[simp] theorem State.modPort_cfg (s : State) (p : Port) (f : PortSt → PortSt) : (s.modPort p f).cfg = s.cfg := by cases p <;> rfl
@[simp] theorem State.modPort_glb (s : State) (p : Port) (f : PortSt → PortSt) : (s.modPort p f).glb = s.glb := by cases p <;> rfl
@[simp] theorem State.modPort_tick (s : State) (p : Port) (f : PortSt → PortSt) : (s.modPort p f).tick = s.tick := by cases p <;> rfl
@[simp] theorem State.modPort_slots (s : State) (p : Port) (f : PortSt → PortSt) : (s.modPort p f).slots = s.slots := by cases p <;> rfl
@[simp] theorem State.modPort_host (s : State) (p : Port) (f : PortSt → PortSt) : (s.modPort p f).host = s.host := by cases p <;> rfl
@[simp] theorem State.modPort_pwr (s : State) (p : Port) (f : PortSt → PortSt) : (s.modPort p f).pwr = s.pwr := by cases p <;> rfl
@[simp] theorem State.modPort_pin (s : State) (p : Port) (f : PortSt → PortSt) : (s.modPort p f).pin = s.pin := by cases p <;> rfl
@[simp] theorem State.modPort_upd (s : State) (p : Port) (f : PortSt → PortSt) : (s.modPort p f).upd = s.upd := by cases p <;> rfl
@[simp] theorem State.modPort_sec (s : State) (p : Port) (f : PortSt → PortSt) : (s.modPort p f).sec = s.sec := by cases p <;> rfl
@[simp] theorem State.modPort_err (s : State) (p : Port) (f : PortSt → PortSt) : (s.modPort p f).err = s.err := by cases p <;> rfl
@[simp] theorem State.modPort_reh (s : State) (p : Port) (f : PortSt → PortSt) : (s.modPort p f).reh = s.reh := by cases p <;> rfl
@[simp] theorem State.modPort_tap (s : State) (p : Port) (f : PortSt → PortSt) : (s.modPort p f).tap = s.tap := by cases p <;> rfl
@[simp] theorem State.modPort_twin (s : State) (p : Port) (f : PortSt → PortSt) : (s.modPort p f).twin = s.twin := by cases p <;> rfl
@[simp] theorem State.modPort_lnk (s : State) (p : Port) (f : PortSt → PortSt) : (s.modPort p f).lnk = s.lnk := by cases p <;> rfl
@[simp] theorem State.modPort_win (s : State) (p : Port) (f : PortSt → PortSt) : (s.modPort p f).win = s.win := by cases p <;> rfl
@[simp] theorem State.modPort_stk (s : State) (p : Port) (f : PortSt → PortSt) : (s.modPort p f).stk = s.stk := by cases p <;> rfl
@[simp] theorem State.modPort_kv (s : State) (p : Port) (f : PortSt → PortSt) : (s.modPort p f).kv = s.kv := by cases p <;> rfl
@[simp] theorem State.modPort_prec (s : State) (p : Port) (f : PortSt → PortSt) : (s.modPort p f).prec = s.prec := by cases p <;> rfl
@[simp] theorem State.modPort_clu (s : State) (p : Port) (f : PortSt → PortSt) : (s.modPort p f).clu = s.clu := by cases p <;> rfl
@[simp] theorem State.modPort_core (s : State) (p : Port) (f : PortSt → PortSt) : (s.modPort p f).core = s.core := by cases p <;> rfl
@[simp] theorem State.modPort_mem (s : State) (p : Port) (f : PortSt → PortSt) : (s.modPort p f).mem = s.mem := by cases p <;> rfl
@[simp] theorem State.modPort_badOne (s : State) (p : Port) (f : PortSt → PortSt) : (s.modPort p f).badOne = s.badOne := by cases p <;> rfl
@[simp] theorem State.modPort_badTwo (s : State) (p : Port) (f : PortSt → PortSt) : (s.modPort p f).badTwo = s.badTwo := by cases p <;> rfl

/-! ## Draws of free values -/

@[simp] theorem State.draw_pending (s : State) : (s.draw).2.pending = s.pending := rfl
@[simp] theorem State.draw_free (s : State) : (s.draw).2.free = s.free + 1 := rfl
@[simp] theorem State.draw_reply (s : State) : (s.draw).2.reply = s.reply := rfl
@[simp] theorem State.draw_sent (s : State) : (s.draw).2.sent = s.sent := rfl
@[simp] theorem State.draw_cfg (s : State) : (s.draw).2.cfg = s.cfg := rfl
@[simp] theorem State.draw_glb (s : State) : (s.draw).2.glb = s.glb := rfl
@[simp] theorem State.draw_portA (s : State) : (s.draw).2.portA = s.portA := rfl
@[simp] theorem State.draw_portB (s : State) : (s.draw).2.portB = s.portB := rfl
@[simp] theorem State.draw_tick (s : State) : (s.draw).2.tick = s.tick := rfl
@[simp] theorem State.draw_slots (s : State) : (s.draw).2.slots = s.slots := rfl
@[simp] theorem State.draw_host (s : State) : (s.draw).2.host = s.host := rfl
@[simp] theorem State.draw_pwr (s : State) : (s.draw).2.pwr = s.pwr := rfl
@[simp] theorem State.draw_pin (s : State) : (s.draw).2.pin = s.pin := rfl
@[simp] theorem State.draw_upd (s : State) : (s.draw).2.upd = s.upd := rfl
@[simp] theorem State.draw_sec (s : State) : (s.draw).2.sec = s.sec := rfl
@[simp] theorem State.draw_err (s : State) : (s.draw).2.err = s.err := rfl
@[simp] theorem State.draw_reh (s : State) : (s.draw).2.reh = s.reh := rfl
@[simp] theorem State.draw_tap (s : State) : (s.draw).2.tap = s.tap := rfl
@[simp] theorem State.draw_twin (s : State) : (s.draw).2.twin = s.twin := rfl
@[simp] theorem State.draw_lnk (s : State) : (s.draw).2.lnk = s.lnk := rfl
@[simp] theorem State.draw_win (s : State) : (s.draw).2.win = s.win := rfl
@[simp] theorem State.draw_stk (s : State) : (s.draw).2.stk = s.stk := rfl
@[simp] theorem State.draw_kv (s : State) : (s.draw).2.kv = s.kv := rfl
@[simp] theorem State.draw_prec (s : State) : (s.draw).2.prec = s.prec := rfl
@[simp] theorem State.draw_clu (s : State) : (s.draw).2.clu = s.clu := rfl
@[simp] theorem State.draw_core (s : State) : (s.draw).2.core = s.core := rfl
@[simp] theorem State.draw_mem (s : State) : (s.draw).2.mem = s.mem := rfl
@[simp] theorem State.draw_badOne (s : State) : (s.draw).2.badOne = s.badOne := rfl
@[simp] theorem State.draw_badTwo (s : State) : (s.draw).2.badTwo = s.badTwo := rfl

@[simp] theorem State.drawWord_pending (s : State) : (s.drawWord).2.pending = s.pending := rfl
@[simp] theorem State.drawWord_free (s : State) : (s.drawWord).2.free = s.free + 1 := rfl
@[simp] theorem State.drawWord_reply (s : State) : (s.drawWord).2.reply = s.reply := rfl
@[simp] theorem State.drawWord_sent (s : State) : (s.drawWord).2.sent = s.sent := rfl
@[simp] theorem State.drawWord_cfg (s : State) : (s.drawWord).2.cfg = s.cfg := rfl
@[simp] theorem State.drawWord_glb (s : State) : (s.drawWord).2.glb = s.glb := rfl
@[simp] theorem State.drawWord_portA (s : State) : (s.drawWord).2.portA = s.portA := rfl
@[simp] theorem State.drawWord_portB (s : State) : (s.drawWord).2.portB = s.portB := rfl
@[simp] theorem State.drawWord_tick (s : State) : (s.drawWord).2.tick = s.tick := rfl
@[simp] theorem State.drawWord_slots (s : State) : (s.drawWord).2.slots = s.slots := rfl
@[simp] theorem State.drawWord_host (s : State) : (s.drawWord).2.host = s.host := rfl
@[simp] theorem State.drawWord_pwr (s : State) : (s.drawWord).2.pwr = s.pwr := rfl
@[simp] theorem State.drawWord_pin (s : State) : (s.drawWord).2.pin = s.pin := rfl
@[simp] theorem State.drawWord_upd (s : State) : (s.drawWord).2.upd = s.upd := rfl
@[simp] theorem State.drawWord_sec (s : State) : (s.drawWord).2.sec = s.sec := rfl
@[simp] theorem State.drawWord_err (s : State) : (s.drawWord).2.err = s.err := rfl
@[simp] theorem State.drawWord_reh (s : State) : (s.drawWord).2.reh = s.reh := rfl
@[simp] theorem State.drawWord_tap (s : State) : (s.drawWord).2.tap = s.tap := rfl
@[simp] theorem State.drawWord_twin (s : State) : (s.drawWord).2.twin = s.twin := rfl
@[simp] theorem State.drawWord_lnk (s : State) : (s.drawWord).2.lnk = s.lnk := rfl
@[simp] theorem State.drawWord_win (s : State) : (s.drawWord).2.win = s.win := rfl
@[simp] theorem State.drawWord_stk (s : State) : (s.drawWord).2.stk = s.stk := rfl
@[simp] theorem State.drawWord_kv (s : State) : (s.drawWord).2.kv = s.kv := rfl
@[simp] theorem State.drawWord_prec (s : State) : (s.drawWord).2.prec = s.prec := rfl
@[simp] theorem State.drawWord_clu (s : State) : (s.drawWord).2.clu = s.clu := rfl
@[simp] theorem State.drawWord_core (s : State) : (s.drawWord).2.core = s.core := rfl
@[simp] theorem State.drawWord_mem (s : State) : (s.drawWord).2.mem = s.mem := rfl
@[simp] theorem State.drawWord_badOne (s : State) : (s.drawWord).2.badOne = s.badOne := rfl
@[simp] theorem State.drawWord_badTwo (s : State) : (s.drawWord).2.badTwo = s.badTwo := rfl

@[simp] theorem State.drawBytes_pending (s : State) (n : Nat) : (s.drawBytes n).2.pending = s.pending := rfl
@[simp] theorem State.drawBytes_free (s : State) (n : Nat) : (s.drawBytes n).2.free = s.free + n := rfl
@[simp] theorem State.drawBytes_reply (s : State) (n : Nat) : (s.drawBytes n).2.reply = s.reply := rfl
@[simp] theorem State.drawBytes_sent (s : State) (n : Nat) : (s.drawBytes n).2.sent = s.sent := rfl
@[simp] theorem State.drawBytes_cfg (s : State) (n : Nat) : (s.drawBytes n).2.cfg = s.cfg := rfl
@[simp] theorem State.drawBytes_glb (s : State) (n : Nat) : (s.drawBytes n).2.glb = s.glb := rfl
@[simp] theorem State.drawBytes_portA (s : State) (n : Nat) : (s.drawBytes n).2.portA = s.portA := rfl
@[simp] theorem State.drawBytes_portB (s : State) (n : Nat) : (s.drawBytes n).2.portB = s.portB := rfl
@[simp] theorem State.drawBytes_tick (s : State) (n : Nat) : (s.drawBytes n).2.tick = s.tick := rfl
@[simp] theorem State.drawBytes_slots (s : State) (n : Nat) : (s.drawBytes n).2.slots = s.slots := rfl
@[simp] theorem State.drawBytes_host (s : State) (n : Nat) : (s.drawBytes n).2.host = s.host := rfl
@[simp] theorem State.drawBytes_pwr (s : State) (n : Nat) : (s.drawBytes n).2.pwr = s.pwr := rfl
@[simp] theorem State.drawBytes_pin (s : State) (n : Nat) : (s.drawBytes n).2.pin = s.pin := rfl
@[simp] theorem State.drawBytes_upd (s : State) (n : Nat) : (s.drawBytes n).2.upd = s.upd := rfl
@[simp] theorem State.drawBytes_sec (s : State) (n : Nat) : (s.drawBytes n).2.sec = s.sec := rfl
@[simp] theorem State.drawBytes_err (s : State) (n : Nat) : (s.drawBytes n).2.err = s.err := rfl
@[simp] theorem State.drawBytes_reh (s : State) (n : Nat) : (s.drawBytes n).2.reh = s.reh := rfl
@[simp] theorem State.drawBytes_tap (s : State) (n : Nat) : (s.drawBytes n).2.tap = s.tap := rfl
@[simp] theorem State.drawBytes_twin (s : State) (n : Nat) : (s.drawBytes n).2.twin = s.twin := rfl
@[simp] theorem State.drawBytes_lnk (s : State) (n : Nat) : (s.drawBytes n).2.lnk = s.lnk := rfl
@[simp] theorem State.drawBytes_win (s : State) (n : Nat) : (s.drawBytes n).2.win = s.win := rfl
@[simp] theorem State.drawBytes_stk (s : State) (n : Nat) : (s.drawBytes n).2.stk = s.stk := rfl
@[simp] theorem State.drawBytes_kv (s : State) (n : Nat) : (s.drawBytes n).2.kv = s.kv := rfl
@[simp] theorem State.drawBytes_prec (s : State) (n : Nat) : (s.drawBytes n).2.prec = s.prec := rfl
@[simp] theorem State.drawBytes_clu (s : State) (n : Nat) : (s.drawBytes n).2.clu = s.clu := rfl
@[simp] theorem State.drawBytes_core (s : State) (n : Nat) : (s.drawBytes n).2.core = s.core := rfl
@[simp] theorem State.drawBytes_mem (s : State) (n : Nat) : (s.drawBytes n).2.mem = s.mem := rfl
@[simp] theorem State.drawBytes_badOne (s : State) (n : Nat) : (s.drawBytes n).2.badOne = s.badOne := rfl
@[simp] theorem State.drawBytes_badTwo (s : State) (n : Nat) : (s.drawBytes n).2.badTwo = s.badTwo := rfl

/-! ## Reading a table after an update -/

@[simp] theorem Tab.get_put_same {β : Type} (d : β) (t : Tab β) (i : Nat) (x : β) : Tab.get d (Tab.put t i x) i = x := by
  induction t with
  | nil => simp [Tab.put, Tab.get]
  | cons e t ih =>
    obtain ⟨k, v⟩ := e
    unfold Tab.put
    split
    · simp [Tab.get]
    · split
      · simp [Tab.get]
      · simp [Tab.get, *]

theorem Tab.get_put_other {β : Type} (d : β) (t : Tab β) {i j : Nat} (x : β) (h : j ≠ i) :
    Tab.get d (Tab.put t i x) j = Tab.get d t j := by
  induction t with
  | nil => simp [Tab.put, Tab.get, Ne.symm h]
  | cons e t ih =>
    obtain ⟨k, v⟩ := e
    unfold Tab.put
    split
    · subst k; simp [Tab.get, Ne.symm h]
    · split
      · simp [Tab.get, Ne.symm h]
      · simp [Tab.get, ih]

@[simp] theorem Tab.get_upd_same {β : Type} (d : β) (t : Tab β) (i : Nat) (f : β → β) :
    Tab.get d (Tab.upd d t i f) i = f (Tab.get d t i) := Tab.get_put_same d t i _

theorem Tab.get_upd_other {β : Type} (d : β) (t : Tab β) {i j : Nat} (f : β → β) (h : j ≠ i) :
    Tab.get d (Tab.upd d t i f) j = Tab.get d t j := Tab.get_put_other d t _ h

@[simp] theorem State.coreAt_modCore (s : State) (c : CoreId) (f : CoreSt → CoreSt) : (s.modCore c f).coreAt c = f (s.coreAt c) :=
  Tab.get_upd_same _ _ _ _

@[simp] theorem State.seqAt_modSeq (s : State) (c : CoreId) (f : SeqSt → SeqSt) : (s.modSeq c f).seqAt c = f (s.seqAt c) := by
  simp [State.seqAt, State.modSeq]

theorem State.coreAt_modCore_other (s : State) {c d : CoreId} (f : CoreSt → CoreSt) (h : d.num ≠ c.num) :
    (s.modCore c f).coreAt d = s.coreAt d := Tab.get_upd_other _ _ _ h

@[simp] theorem State.slot_modSlot (s : State) (i : Nat) (f : SlotSt → SlotSt) : (s.modSlot i f).slot i = f (s.slot i) :=
  Tab.get_upd_same _ _ _ _

@[simp] theorem State.cluAt_modClu (s : State) (n : Nat) (f : CluSt → CluSt) : (s.modClu n f).cluAt n = f (s.cluAt n) :=
  Tab.get_upd_same _ _ _ _

@[simp] theorem State.stkAt_modStk (s : State) (k : Nat) (f : StkSt → StkSt) : (s.modStk k f).stkAt k = f (s.stkAt k) :=
  Tab.get_upd_same _ _ _ _

@[simp] theorem State.kvAt_modKv (s : State) (d : Nat) (f : KvSt → KvSt) : (s.modKv d f).kvAt d = f (s.kvAt d) :=
  Tab.get_upd_same _ _ _ _

@[simp] theorem State.lnkAt_modLnk (s : State) (p : Nat) (f : LnkSt → LnkSt) : (s.modLnk p f).lnkAt p = f (s.lnkAt p) :=
  Tab.get_upd_same _ _ _ _

@[simp] theorem State.windowAt_modWindow (s : State) (w : Nat) (f : WindowSt → WindowSt) :
    (s.modWindow w f).windowAt w = f (s.windowAt w) := Tab.get_upd_same _ _ _ _

@[simp] theorem State.handleAt_modHandle (s : State) (h : Nat) (f : HandleSt → HandleSt) :
    (s.modHandle h f).handleAt h = f (s.handleAt h) := Tab.get_upd_same _ _ _ _

@[simp] theorem State.layerAt_modLayer (s : State) (l : Nat) (f : LayerSt → LayerSt) : (s.modLayer l f).layerAt l = f (s.layerAt l) :=
  Tab.get_upd_same _ _ _ _

@[simp] theorem State.invAt_modInv (s : State) (o : Nat) (f : InvSt → InvSt) : (s.modInv o f).invAt o = f (s.invAt o) :=
  Tab.get_upd_same _ _ _ _

@[simp] theorem State.engAt_modEng (s : State) (c : CoreId) (e : Nat) (f : EngineSt → EngineSt) :
    (s.modEng c e f).engAt c e = f (s.engAt c e) := by
  simp [State.engAt, State.modEng]

@[simp] theorem State.ringAt_modRing (s : State) (c : CoreId) (q : Nat) (f : RingSt → RingSt) :
    (s.modRing c q f).ringAt c q = f (s.ringAt c q) := by
  simp [State.ringAt, State.modRing]

@[simp] theorem State.port_modPort (s : State) (p : Port) (f : PortSt → PortSt) : (s.modPort p f).port p = f (s.port p) := by
  cases p <;> rfl

end Sys2Proof.Machine
end

