-- ==== Sys2Proof/Laws/Events.lean ====
section
/-! SUPPORT. What an event leaves as it is: an event counts in ERR, queues in HOST, and for class 0x9 sets the SMBus code and
ALERT_N; as a trigger it writes the rehearsal ring. Every other field stays. -/

namespace Sys2Proof.Machine

/-- t agrees with s in all that an event never changes. -/
structure EventOnly (s t : State) : Prop where
  pending : t.pending = s.pending
  reply : t.reply = s.reply
  sent : t.sent = s.sent
  cfg : t.cfg = s.cfg
  glb : t.glb = s.glb
  portA : t.portA = s.portA
  portB : t.portB = s.portB
  tick : t.tick = s.tick
  slots : t.slots = s.slots
  pin : t.pin = s.pin
  upd : t.upd = s.upd
  sec : t.sec = s.sec
  tap : t.tap = s.tap
  twin : t.twin = s.twin
  lnk : t.lnk = s.lnk
  win : t.win = s.win
  stk : t.stk = s.stk
  kv : t.kv = s.kv
  prec : t.prec = s.prec
  clu : t.clu = s.clu
  core : t.core = s.core
  badOne : t.badOne = s.badOne
  badTwo : t.badTwo = s.badTwo
  pwr_mv10 : t.pwr.mv10 = s.pwr.mv10
  pwr_auxMv : t.pwr.auxMv = s.pwr.auxMv
  pwr_excursion : t.pwr.excursion = s.pwr.excursion
  pwr_trip : t.pwr.trip = s.pwr.trip
  pwr_therm : t.pwr.therm = s.pwr.therm
  pwr_cap : t.pwr.cap = s.pwr.cap
  pwr_capInForce : t.pwr.capInForce = s.pwr.capInForce
  pwr_cmd : t.pwr.cmd = s.pwr.cmd
  pwr_stepMin : t.pwr.stepMin = s.pwr.stepMin
  pwr_thermStep : t.pwr.thermStep = s.pwr.thermStep
  pwr_coolCues : t.pwr.coolCues = s.pwr.coolCues
  pwr_brake : t.pwr.brake = s.pwr.brake
  pwr_samples : t.pwr.samples = s.pwr.samples
  pwr_inputAvg : t.pwr.inputAvg = s.pwr.inputAvg
  pwr_lastInterval : t.pwr.lastInterval = s.pwr.lastInterval
  pwr_energy : t.pwr.energy = s.pwr.energy
  pwr_sampleCount : t.pwr.sampleCount = s.pwr.sampleCount
  pwr_exempt : t.pwr.exempt = s.pwr.exempt
  pwr_holdFrom : t.pwr.holdFrom = s.pwr.holdFrom
  pwr_cut : t.pwr.cut = s.pwr.cut
  pwr_cutRun : t.pwr.cutRun = s.pwr.cutRun
  pwr_tj : t.pwr.tj = s.pwr.tj
  pwr_tjIo : t.pwr.tjIo = s.pwr.tjIo
  pwr_gateClu : t.pwr.gateClu = s.pwr.gateClu
  pwr_gateLnk : t.pwr.gateLnk = s.pwr.gateLnk
  pwr_gCluster : t.pwr.gCluster = s.pwr.gCluster
  pwr_gLink : t.pwr.gLink = s.pwr.gLink
  pwr_holds : t.pwr.holds = s.pwr.holds
  pwr_holdUs : t.pwr.holdUs = s.pwr.holdUs
  pwr_holdCut : t.pwr.holdCut = s.pwr.holdCut
  pwr_steps : t.pwr.steps = s.pwr.steps
  pwr_thermMs : t.pwr.thermMs = s.pwr.thermMs
  pwr_thermSamples : t.pwr.thermSamples = s.pwr.thermSamples
  host_owner : t.host.owner = s.host.owner
  host_offer : t.host.offer = s.host.offer
  host_lapsed : t.host.lapsed = s.host.lapsed
  host_claimed : t.host.claimed = s.host.claimed
  host_switchDue : t.host.switchDue = s.host.switchDue
  host_defOwner : t.host.defOwner = s.host.defOwner
  host_heartbeat : t.host.heartbeat = s.host.heartbeat
  host_limit : t.host.limit = s.host.limit
  host_age : t.host.age = s.host.age
  host_adm : t.host.adm = s.host.adm
  host_res : t.host.res = s.host.res
  host_evt : t.host.evt = s.host.evt
  host_cmd : t.host.cmd = s.host.cmd
  host_admRead : t.host.admRead = s.host.admRead
  host_admReleased : t.host.admReleased = s.host.admReleased
  host_resq : t.host.resq = s.host.resq
  host_vec0Limit : t.host.vec0Limit = s.host.vec0Limit
  host_vec0Due : t.host.vec0Due = s.host.vec0Due
  host_err : t.host.err = s.host.err
  host_run : t.host.run = s.host.run
  host_admits : t.host.admits = s.host.admits
  host_rejects : t.host.rejects = s.host.rejects
  host_results : t.host.results = s.host.results
  host_backlogRb : t.host.backlogRb = s.host.backlogRb
  host_unboundN : t.host.unboundN = s.host.unboundN
  host_switches : t.host.switches = s.host.switches
  host_resets : t.host.resets = s.host.resets
  host_discards : t.host.discards = s.host.discards
  host_admSeq : t.host.admSeq = s.host.admSeq
  err_safemode : t.err.safemode = s.err.safemode
  err_active : t.err.active = s.err.active
  err_storm : t.err.storm = s.err.storm
  err_runLen : t.err.runLen = s.err.runLen
  err_injArm : t.err.injArm = s.err.injArm
  err_injTier : t.err.injTier = s.err.injTier
  err_injFired : t.err.injFired = s.err.injFired
  err_injAddr : t.err.injAddr = s.err.injAddr
  err_injLatchTier : t.err.injLatchTier = s.err.injLatchTier
  err_injLatch : t.err.injLatch = s.err.injLatch
  err_stCmd : t.err.stCmd = s.err.stCmd
  err_stBusy : t.err.stBusy = s.err.stBusy
  err_stPass : t.err.stPass = s.err.stPass
  err_stRan : t.err.stRan = s.err.stRan
  err_stRow : t.err.stRow = s.err.stRow
  err_stPos : t.err.stPos = s.err.stPos
  err_entries : t.err.entries = s.err.entries
  err_injected : t.err.injected = s.err.injected
  reh_reading : t.reh.reading = s.reh.reading
  reh_replay : t.reh.replay = s.reh.replay
  reh_triggerMask : t.reh.triggerMask = s.reh.triggerMask
  reh_post : t.reh.post = s.reh.post
  reh_codes : t.reh.codes = s.reh.codes
  reh_cmd : t.reh.cmd = s.reh.cmd
  reh_refusal : t.reh.refusal = s.reh.refusal
  reh_rfirst : t.reh.rfirst = s.reh.rfirst
  reh_rcount : t.reh.rcount = s.reh.rcount
  reh_rbase : t.reh.rbase = s.reh.rbase
  reh_rdbase : t.reh.rdbase = s.reh.rdbase

theorem EventOnly.refl (s : State) : EventOnly s s := by constructor <;> rfl

theorem EventOnly.trans {s t u : State} (h : EventOnly s t) (k : EventOnly t u) : EventOnly s u :=
  ⟨k.pending.trans h.pending,
   k.reply.trans h.reply,
   k.sent.trans h.sent,
   k.cfg.trans h.cfg,
   k.glb.trans h.glb,
   k.portA.trans h.portA,
   k.portB.trans h.portB,
   k.tick.trans h.tick,
   k.slots.trans h.slots,
   k.pin.trans h.pin,
   k.upd.trans h.upd,
   k.sec.trans h.sec,
   k.tap.trans h.tap,
   k.twin.trans h.twin,
   k.lnk.trans h.lnk,
   k.win.trans h.win,
   k.stk.trans h.stk,
   k.kv.trans h.kv,
   k.prec.trans h.prec,
   k.clu.trans h.clu,
   k.core.trans h.core,
   k.badOne.trans h.badOne,
   k.badTwo.trans h.badTwo,
   k.pwr_mv10.trans h.pwr_mv10,
   k.pwr_auxMv.trans h.pwr_auxMv,
   k.pwr_excursion.trans h.pwr_excursion,
   k.pwr_trip.trans h.pwr_trip,
   k.pwr_therm.trans h.pwr_therm,
   k.pwr_cap.trans h.pwr_cap,
   k.pwr_capInForce.trans h.pwr_capInForce,
   k.pwr_cmd.trans h.pwr_cmd,
   k.pwr_stepMin.trans h.pwr_stepMin,
   k.pwr_thermStep.trans h.pwr_thermStep,
   k.pwr_coolCues.trans h.pwr_coolCues,
   k.pwr_brake.trans h.pwr_brake,
   k.pwr_samples.trans h.pwr_samples,
   k.pwr_inputAvg.trans h.pwr_inputAvg,
   k.pwr_lastInterval.trans h.pwr_lastInterval,
   k.pwr_energy.trans h.pwr_energy,
   k.pwr_sampleCount.trans h.pwr_sampleCount,
   k.pwr_exempt.trans h.pwr_exempt,
   k.pwr_holdFrom.trans h.pwr_holdFrom,
   k.pwr_cut.trans h.pwr_cut,
   k.pwr_cutRun.trans h.pwr_cutRun,
   k.pwr_tj.trans h.pwr_tj,
   k.pwr_tjIo.trans h.pwr_tjIo,
   k.pwr_gateClu.trans h.pwr_gateClu,
   k.pwr_gateLnk.trans h.pwr_gateLnk,
   k.pwr_gCluster.trans h.pwr_gCluster,
   k.pwr_gLink.trans h.pwr_gLink,
   k.pwr_holds.trans h.pwr_holds,
   k.pwr_holdUs.trans h.pwr_holdUs,
   k.pwr_holdCut.trans h.pwr_holdCut,
   k.pwr_steps.trans h.pwr_steps,
   k.pwr_thermMs.trans h.pwr_thermMs,
   k.pwr_thermSamples.trans h.pwr_thermSamples,
   k.host_owner.trans h.host_owner,
   k.host_offer.trans h.host_offer,
   k.host_lapsed.trans h.host_lapsed,
   k.host_claimed.trans h.host_claimed,
   k.host_switchDue.trans h.host_switchDue,
   k.host_defOwner.trans h.host_defOwner,
   k.host_heartbeat.trans h.host_heartbeat,
   k.host_limit.trans h.host_limit,
   k.host_age.trans h.host_age,
   k.host_adm.trans h.host_adm,
   k.host_res.trans h.host_res,
   k.host_evt.trans h.host_evt,
   k.host_cmd.trans h.host_cmd,
   k.host_admRead.trans h.host_admRead,
   k.host_admReleased.trans h.host_admReleased,
   k.host_resq.trans h.host_resq,
   k.host_vec0Limit.trans h.host_vec0Limit,
   k.host_vec0Due.trans h.host_vec0Due,
   k.host_err.trans h.host_err,
   k.host_run.trans h.host_run,
   k.host_admits.trans h.host_admits,
   k.host_rejects.trans h.host_rejects,
   k.host_results.trans h.host_results,
   k.host_backlogRb.trans h.host_backlogRb,
   k.host_unboundN.trans h.host_unboundN,
   k.host_switches.trans h.host_switches,
   k.host_resets.trans h.host_resets,
   k.host_discards.trans h.host_discards,
   k.host_admSeq.trans h.host_admSeq,
   k.err_safemode.trans h.err_safemode,
   k.err_active.trans h.err_active,
   k.err_storm.trans h.err_storm,
   k.err_runLen.trans h.err_runLen,
   k.err_injArm.trans h.err_injArm,
   k.err_injTier.trans h.err_injTier,
   k.err_injFired.trans h.err_injFired,
   k.err_injAddr.trans h.err_injAddr,
   k.err_injLatchTier.trans h.err_injLatchTier,
   k.err_injLatch.trans h.err_injLatch,
   k.err_stCmd.trans h.err_stCmd,
   k.err_stBusy.trans h.err_stBusy,
   k.err_stPass.trans h.err_stPass,
   k.err_stRan.trans h.err_stRan,
   k.err_stRow.trans h.err_stRow,
   k.err_stPos.trans h.err_stPos,
   k.err_entries.trans h.err_entries,
   k.err_injected.trans h.err_injected,
   k.reh_reading.trans h.reh_reading,
   k.reh_replay.trans h.reh_replay,
   k.reh_triggerMask.trans h.reh_triggerMask,
   k.reh_post.trans h.reh_post,
   k.reh_codes.trans h.reh_codes,
   k.reh_cmd.trans h.reh_cmd,
   k.reh_refusal.trans h.reh_refusal,
   k.reh_rfirst.trans h.reh_rfirst,
   k.reh_rcount.trans h.reh_rcount,
   k.reh_rbase.trans h.reh_rbase,
   k.reh_rdbase.trans h.reh_rdbase⟩

theorem raiseRaw_eventOnly (s : State) (c : Nat) (a b : Option Nat) (p : Nat) : EventOnly s (s.raiseRaw c a b p) := by
  unfold State.raiseRaw State.modHost State.modErr State.modPwr
  dsimp only
  (repeat' split) <;> (constructor <;> rfl)

theorem rehWrite_eventOnly (s : State) (r : List Byte) (k : Bool) : EventOnly s (s.rehWrite r k) := by
  unfold State.rehWrite
  dsimp only
  split
  · split
    · constructor <;> rfl
    · exact EventOnly.trans (by constructor <;> rfl) (raiseRaw_eventOnly _ _ _ _ _)
  · constructor <;> rfl

theorem rehTrigger_eventOnly (s : State) (c : Word) : EventOnly s (s.rehTrigger c) := by
  unfold State.rehTrigger
  split
  · exact .refl s
  · split
    · exact EventOnly.trans (by constructor <;> rfl) (raiseRaw_eventOnly _ _ _ _ _)
    · dsimp only
      refine EventOnly.trans (EventOnly.trans (rehWrite_eventOnly s (triggerMarker s.tick.count.toNat) false)
        (raiseRaw_eventOnly _ 0xA001 none none 0xFFFF)) ?_
      constructor <;> rfl

/-- An event changes nothing else. -/
theorem raise_eventOnly (s : State) (c : Nat) (a b : Option Nat) (p : Nat) : EventOnly s (s.raise c a b p) := by
  unfold State.raise
  dsimp only
  split
  · exact (raiseRaw_eventOnly _ _ _ _ _).trans (rehTrigger_eventOnly _ _)
  · exact raiseRaw_eventOnly _ _ _ _ _

@[simp] theorem raise_pending (s : State) (c : Nat) (a b : Option Nat) (p : Nat) :
    (s.raise c a b p).pending = s.pending := (raise_eventOnly s c a b p).pending
@[simp] theorem raise_reply (s : State) (c : Nat) (a b : Option Nat) (p : Nat) :
    (s.raise c a b p).reply = s.reply := (raise_eventOnly s c a b p).reply
@[simp] theorem raise_sent (s : State) (c : Nat) (a b : Option Nat) (p : Nat) :
    (s.raise c a b p).sent = s.sent := (raise_eventOnly s c a b p).sent
@[simp] theorem raise_cfg (s : State) (c : Nat) (a b : Option Nat) (p : Nat) :
    (s.raise c a b p).cfg = s.cfg := (raise_eventOnly s c a b p).cfg
@[simp] theorem raise_glb (s : State) (c : Nat) (a b : Option Nat) (p : Nat) :
    (s.raise c a b p).glb = s.glb := (raise_eventOnly s c a b p).glb
@[simp] theorem raise_portA (s : State) (c : Nat) (a b : Option Nat) (p : Nat) :
    (s.raise c a b p).portA = s.portA := (raise_eventOnly s c a b p).portA
@[simp] theorem raise_portB (s : State) (c : Nat) (a b : Option Nat) (p : Nat) :
    (s.raise c a b p).portB = s.portB := (raise_eventOnly s c a b p).portB
@[simp] theorem raise_tick (s : State) (c : Nat) (a b : Option Nat) (p : Nat) :
    (s.raise c a b p).tick = s.tick := (raise_eventOnly s c a b p).tick
@[simp] theorem raise_slots (s : State) (c : Nat) (a b : Option Nat) (p : Nat) :
    (s.raise c a b p).slots = s.slots := (raise_eventOnly s c a b p).slots
@[simp] theorem raise_pin (s : State) (c : Nat) (a b : Option Nat) (p : Nat) :
    (s.raise c a b p).pin = s.pin := (raise_eventOnly s c a b p).pin
@[simp] theorem raise_upd (s : State) (c : Nat) (a b : Option Nat) (p : Nat) :
    (s.raise c a b p).upd = s.upd := (raise_eventOnly s c a b p).upd
@[simp] theorem raise_sec (s : State) (c : Nat) (a b : Option Nat) (p : Nat) :
    (s.raise c a b p).sec = s.sec := (raise_eventOnly s c a b p).sec
@[simp] theorem raise_tap (s : State) (c : Nat) (a b : Option Nat) (p : Nat) :
    (s.raise c a b p).tap = s.tap := (raise_eventOnly s c a b p).tap
@[simp] theorem raise_twin (s : State) (c : Nat) (a b : Option Nat) (p : Nat) :
    (s.raise c a b p).twin = s.twin := (raise_eventOnly s c a b p).twin
@[simp] theorem raise_lnk (s : State) (c : Nat) (a b : Option Nat) (p : Nat) :
    (s.raise c a b p).lnk = s.lnk := (raise_eventOnly s c a b p).lnk
@[simp] theorem raise_win (s : State) (c : Nat) (a b : Option Nat) (p : Nat) :
    (s.raise c a b p).win = s.win := (raise_eventOnly s c a b p).win
@[simp] theorem raise_stk (s : State) (c : Nat) (a b : Option Nat) (p : Nat) :
    (s.raise c a b p).stk = s.stk := (raise_eventOnly s c a b p).stk
@[simp] theorem raise_kv (s : State) (c : Nat) (a b : Option Nat) (p : Nat) :
    (s.raise c a b p).kv = s.kv := (raise_eventOnly s c a b p).kv
@[simp] theorem raise_prec (s : State) (c : Nat) (a b : Option Nat) (p : Nat) :
    (s.raise c a b p).prec = s.prec := (raise_eventOnly s c a b p).prec
@[simp] theorem raise_clu (s : State) (c : Nat) (a b : Option Nat) (p : Nat) :
    (s.raise c a b p).clu = s.clu := (raise_eventOnly s c a b p).clu
@[simp] theorem raise_core (s : State) (c : Nat) (a b : Option Nat) (p : Nat) :
    (s.raise c a b p).core = s.core := (raise_eventOnly s c a b p).core
@[simp] theorem raise_badOne (s : State) (c : Nat) (a b : Option Nat) (p : Nat) :
    (s.raise c a b p).badOne = s.badOne := (raise_eventOnly s c a b p).badOne
@[simp] theorem raise_badTwo (s : State) (c : Nat) (a b : Option Nat) (p : Nat) :
    (s.raise c a b p).badTwo = s.badTwo := (raise_eventOnly s c a b p).badTwo
@[simp] theorem raise_pwr_mv10 (s : State) (c : Nat) (a b : Option Nat) (p : Nat) :
    (s.raise c a b p).pwr.mv10 = s.pwr.mv10 := (raise_eventOnly s c a b p).pwr_mv10
@[simp] theorem raise_pwr_auxMv (s : State) (c : Nat) (a b : Option Nat) (p : Nat) :
    (s.raise c a b p).pwr.auxMv = s.pwr.auxMv := (raise_eventOnly s c a b p).pwr_auxMv
@[simp] theorem raise_pwr_excursion (s : State) (c : Nat) (a b : Option Nat) (p : Nat) :
    (s.raise c a b p).pwr.excursion = s.pwr.excursion := (raise_eventOnly s c a b p).pwr_excursion
@[simp] theorem raise_pwr_trip (s : State) (c : Nat) (a b : Option Nat) (p : Nat) :
    (s.raise c a b p).pwr.trip = s.pwr.trip := (raise_eventOnly s c a b p).pwr_trip
@[simp] theorem raise_pwr_therm (s : State) (c : Nat) (a b : Option Nat) (p : Nat) :
    (s.raise c a b p).pwr.therm = s.pwr.therm := (raise_eventOnly s c a b p).pwr_therm
@[simp] theorem raise_pwr_cap (s : State) (c : Nat) (a b : Option Nat) (p : Nat) :
    (s.raise c a b p).pwr.cap = s.pwr.cap := (raise_eventOnly s c a b p).pwr_cap
@[simp] theorem raise_pwr_capInForce (s : State) (c : Nat) (a b : Option Nat) (p : Nat) :
    (s.raise c a b p).pwr.capInForce = s.pwr.capInForce := (raise_eventOnly s c a b p).pwr_capInForce
@[simp] theorem raise_pwr_cmd (s : State) (c : Nat) (a b : Option Nat) (p : Nat) :
    (s.raise c a b p).pwr.cmd = s.pwr.cmd := (raise_eventOnly s c a b p).pwr_cmd
@[simp] theorem raise_pwr_stepMin (s : State) (c : Nat) (a b : Option Nat) (p : Nat) :
    (s.raise c a b p).pwr.stepMin = s.pwr.stepMin := (raise_eventOnly s c a b p).pwr_stepMin
@[simp] theorem raise_pwr_thermStep (s : State) (c : Nat) (a b : Option Nat) (p : Nat) :
    (s.raise c a b p).pwr.thermStep = s.pwr.thermStep := (raise_eventOnly s c a b p).pwr_thermStep
@[simp] theorem raise_pwr_coolCues (s : State) (c : Nat) (a b : Option Nat) (p : Nat) :
    (s.raise c a b p).pwr.coolCues = s.pwr.coolCues := (raise_eventOnly s c a b p).pwr_coolCues
@[simp] theorem raise_pwr_brake (s : State) (c : Nat) (a b : Option Nat) (p : Nat) :
    (s.raise c a b p).pwr.brake = s.pwr.brake := (raise_eventOnly s c a b p).pwr_brake
@[simp] theorem raise_pwr_samples (s : State) (c : Nat) (a b : Option Nat) (p : Nat) :
    (s.raise c a b p).pwr.samples = s.pwr.samples := (raise_eventOnly s c a b p).pwr_samples
@[simp] theorem raise_pwr_inputAvg (s : State) (c : Nat) (a b : Option Nat) (p : Nat) :
    (s.raise c a b p).pwr.inputAvg = s.pwr.inputAvg := (raise_eventOnly s c a b p).pwr_inputAvg
@[simp] theorem raise_pwr_lastInterval (s : State) (c : Nat) (a b : Option Nat) (p : Nat) :
    (s.raise c a b p).pwr.lastInterval = s.pwr.lastInterval := (raise_eventOnly s c a b p).pwr_lastInterval
@[simp] theorem raise_pwr_energy (s : State) (c : Nat) (a b : Option Nat) (p : Nat) :
    (s.raise c a b p).pwr.energy = s.pwr.energy := (raise_eventOnly s c a b p).pwr_energy
@[simp] theorem raise_pwr_sampleCount (s : State) (c : Nat) (a b : Option Nat) (p : Nat) :
    (s.raise c a b p).pwr.sampleCount = s.pwr.sampleCount := (raise_eventOnly s c a b p).pwr_sampleCount
@[simp] theorem raise_pwr_exempt (s : State) (c : Nat) (a b : Option Nat) (p : Nat) :
    (s.raise c a b p).pwr.exempt = s.pwr.exempt := (raise_eventOnly s c a b p).pwr_exempt
@[simp] theorem raise_pwr_holdFrom (s : State) (c : Nat) (a b : Option Nat) (p : Nat) :
    (s.raise c a b p).pwr.holdFrom = s.pwr.holdFrom := (raise_eventOnly s c a b p).pwr_holdFrom
@[simp] theorem raise_pwr_cut (s : State) (c : Nat) (a b : Option Nat) (p : Nat) :
    (s.raise c a b p).pwr.cut = s.pwr.cut := (raise_eventOnly s c a b p).pwr_cut
@[simp] theorem raise_pwr_cutRun (s : State) (c : Nat) (a b : Option Nat) (p : Nat) :
    (s.raise c a b p).pwr.cutRun = s.pwr.cutRun := (raise_eventOnly s c a b p).pwr_cutRun
@[simp] theorem raise_pwr_tj (s : State) (c : Nat) (a b : Option Nat) (p : Nat) :
    (s.raise c a b p).pwr.tj = s.pwr.tj := (raise_eventOnly s c a b p).pwr_tj
@[simp] theorem raise_pwr_tjIo (s : State) (c : Nat) (a b : Option Nat) (p : Nat) :
    (s.raise c a b p).pwr.tjIo = s.pwr.tjIo := (raise_eventOnly s c a b p).pwr_tjIo
@[simp] theorem raise_pwr_gateClu (s : State) (c : Nat) (a b : Option Nat) (p : Nat) :
    (s.raise c a b p).pwr.gateClu = s.pwr.gateClu := (raise_eventOnly s c a b p).pwr_gateClu
@[simp] theorem raise_pwr_gateLnk (s : State) (c : Nat) (a b : Option Nat) (p : Nat) :
    (s.raise c a b p).pwr.gateLnk = s.pwr.gateLnk := (raise_eventOnly s c a b p).pwr_gateLnk
@[simp] theorem raise_pwr_gCluster (s : State) (c : Nat) (a b : Option Nat) (p : Nat) :
    (s.raise c a b p).pwr.gCluster = s.pwr.gCluster := (raise_eventOnly s c a b p).pwr_gCluster
@[simp] theorem raise_pwr_gLink (s : State) (c : Nat) (a b : Option Nat) (p : Nat) :
    (s.raise c a b p).pwr.gLink = s.pwr.gLink := (raise_eventOnly s c a b p).pwr_gLink
@[simp] theorem raise_pwr_holds (s : State) (c : Nat) (a b : Option Nat) (p : Nat) :
    (s.raise c a b p).pwr.holds = s.pwr.holds := (raise_eventOnly s c a b p).pwr_holds
@[simp] theorem raise_pwr_holdUs (s : State) (c : Nat) (a b : Option Nat) (p : Nat) :
    (s.raise c a b p).pwr.holdUs = s.pwr.holdUs := (raise_eventOnly s c a b p).pwr_holdUs
@[simp] theorem raise_pwr_holdCut (s : State) (c : Nat) (a b : Option Nat) (p : Nat) :
    (s.raise c a b p).pwr.holdCut = s.pwr.holdCut := (raise_eventOnly s c a b p).pwr_holdCut
@[simp] theorem raise_pwr_steps (s : State) (c : Nat) (a b : Option Nat) (p : Nat) :
    (s.raise c a b p).pwr.steps = s.pwr.steps := (raise_eventOnly s c a b p).pwr_steps
@[simp] theorem raise_pwr_thermMs (s : State) (c : Nat) (a b : Option Nat) (p : Nat) :
    (s.raise c a b p).pwr.thermMs = s.pwr.thermMs := (raise_eventOnly s c a b p).pwr_thermMs
@[simp] theorem raise_pwr_thermSamples (s : State) (c : Nat) (a b : Option Nat) (p : Nat) :
    (s.raise c a b p).pwr.thermSamples = s.pwr.thermSamples := (raise_eventOnly s c a b p).pwr_thermSamples
@[simp] theorem raise_host_owner (s : State) (c : Nat) (a b : Option Nat) (p : Nat) :
    (s.raise c a b p).host.owner = s.host.owner := (raise_eventOnly s c a b p).host_owner
@[simp] theorem raise_host_offer (s : State) (c : Nat) (a b : Option Nat) (p : Nat) :
    (s.raise c a b p).host.offer = s.host.offer := (raise_eventOnly s c a b p).host_offer
@[simp] theorem raise_host_lapsed (s : State) (c : Nat) (a b : Option Nat) (p : Nat) :
    (s.raise c a b p).host.lapsed = s.host.lapsed := (raise_eventOnly s c a b p).host_lapsed
@[simp] theorem raise_host_claimed (s : State) (c : Nat) (a b : Option Nat) (p : Nat) :
    (s.raise c a b p).host.claimed = s.host.claimed := (raise_eventOnly s c a b p).host_claimed
@[simp] theorem raise_host_switchDue (s : State) (c : Nat) (a b : Option Nat) (p : Nat) :
    (s.raise c a b p).host.switchDue = s.host.switchDue := (raise_eventOnly s c a b p).host_switchDue
@[simp] theorem raise_host_defOwner (s : State) (c : Nat) (a b : Option Nat) (p : Nat) :
    (s.raise c a b p).host.defOwner = s.host.defOwner := (raise_eventOnly s c a b p).host_defOwner
@[simp] theorem raise_host_heartbeat (s : State) (c : Nat) (a b : Option Nat) (p : Nat) :
    (s.raise c a b p).host.heartbeat = s.host.heartbeat := (raise_eventOnly s c a b p).host_heartbeat
@[simp] theorem raise_host_limit (s : State) (c : Nat) (a b : Option Nat) (p : Nat) :
    (s.raise c a b p).host.limit = s.host.limit := (raise_eventOnly s c a b p).host_limit
@[simp] theorem raise_host_age (s : State) (c : Nat) (a b : Option Nat) (p : Nat) :
    (s.raise c a b p).host.age = s.host.age := (raise_eventOnly s c a b p).host_age
@[simp] theorem raise_host_adm (s : State) (c : Nat) (a b : Option Nat) (p : Nat) :
    (s.raise c a b p).host.adm = s.host.adm := (raise_eventOnly s c a b p).host_adm
@[simp] theorem raise_host_res (s : State) (c : Nat) (a b : Option Nat) (p : Nat) :
    (s.raise c a b p).host.res = s.host.res := (raise_eventOnly s c a b p).host_res
@[simp] theorem raise_host_evt (s : State) (c : Nat) (a b : Option Nat) (p : Nat) :
    (s.raise c a b p).host.evt = s.host.evt := (raise_eventOnly s c a b p).host_evt
@[simp] theorem raise_host_cmd (s : State) (c : Nat) (a b : Option Nat) (p : Nat) :
    (s.raise c a b p).host.cmd = s.host.cmd := (raise_eventOnly s c a b p).host_cmd
@[simp] theorem raise_host_admRead (s : State) (c : Nat) (a b : Option Nat) (p : Nat) :
    (s.raise c a b p).host.admRead = s.host.admRead := (raise_eventOnly s c a b p).host_admRead
@[simp] theorem raise_host_admReleased (s : State) (c : Nat) (a b : Option Nat) (p : Nat) :
    (s.raise c a b p).host.admReleased = s.host.admReleased := (raise_eventOnly s c a b p).host_admReleased
@[simp] theorem raise_host_resq (s : State) (c : Nat) (a b : Option Nat) (p : Nat) :
    (s.raise c a b p).host.resq = s.host.resq := (raise_eventOnly s c a b p).host_resq
@[simp] theorem raise_host_vec0Limit (s : State) (c : Nat) (a b : Option Nat) (p : Nat) :
    (s.raise c a b p).host.vec0Limit = s.host.vec0Limit := (raise_eventOnly s c a b p).host_vec0Limit
@[simp] theorem raise_host_vec0Due (s : State) (c : Nat) (a b : Option Nat) (p : Nat) :
    (s.raise c a b p).host.vec0Due = s.host.vec0Due := (raise_eventOnly s c a b p).host_vec0Due
@[simp] theorem raise_host_err (s : State) (c : Nat) (a b : Option Nat) (p : Nat) :
    (s.raise c a b p).host.err = s.host.err := (raise_eventOnly s c a b p).host_err
@[simp] theorem raise_host_run (s : State) (c : Nat) (a b : Option Nat) (p : Nat) :
    (s.raise c a b p).host.run = s.host.run := (raise_eventOnly s c a b p).host_run
@[simp] theorem raise_host_admits (s : State) (c : Nat) (a b : Option Nat) (p : Nat) :
    (s.raise c a b p).host.admits = s.host.admits := (raise_eventOnly s c a b p).host_admits
@[simp] theorem raise_host_rejects (s : State) (c : Nat) (a b : Option Nat) (p : Nat) :
    (s.raise c a b p).host.rejects = s.host.rejects := (raise_eventOnly s c a b p).host_rejects
@[simp] theorem raise_host_results (s : State) (c : Nat) (a b : Option Nat) (p : Nat) :
    (s.raise c a b p).host.results = s.host.results := (raise_eventOnly s c a b p).host_results
@[simp] theorem raise_host_backlogRb (s : State) (c : Nat) (a b : Option Nat) (p : Nat) :
    (s.raise c a b p).host.backlogRb = s.host.backlogRb := (raise_eventOnly s c a b p).host_backlogRb
@[simp] theorem raise_host_unboundN (s : State) (c : Nat) (a b : Option Nat) (p : Nat) :
    (s.raise c a b p).host.unboundN = s.host.unboundN := (raise_eventOnly s c a b p).host_unboundN
@[simp] theorem raise_host_switches (s : State) (c : Nat) (a b : Option Nat) (p : Nat) :
    (s.raise c a b p).host.switches = s.host.switches := (raise_eventOnly s c a b p).host_switches
@[simp] theorem raise_host_resets (s : State) (c : Nat) (a b : Option Nat) (p : Nat) :
    (s.raise c a b p).host.resets = s.host.resets := (raise_eventOnly s c a b p).host_resets
@[simp] theorem raise_host_discards (s : State) (c : Nat) (a b : Option Nat) (p : Nat) :
    (s.raise c a b p).host.discards = s.host.discards := (raise_eventOnly s c a b p).host_discards
@[simp] theorem raise_host_admSeq (s : State) (c : Nat) (a b : Option Nat) (p : Nat) :
    (s.raise c a b p).host.admSeq = s.host.admSeq := (raise_eventOnly s c a b p).host_admSeq
@[simp] theorem raise_err_safemode (s : State) (c : Nat) (a b : Option Nat) (p : Nat) :
    (s.raise c a b p).err.safemode = s.err.safemode := (raise_eventOnly s c a b p).err_safemode
@[simp] theorem raise_err_active (s : State) (c : Nat) (a b : Option Nat) (p : Nat) :
    (s.raise c a b p).err.active = s.err.active := (raise_eventOnly s c a b p).err_active
@[simp] theorem raise_err_storm (s : State) (c : Nat) (a b : Option Nat) (p : Nat) :
    (s.raise c a b p).err.storm = s.err.storm := (raise_eventOnly s c a b p).err_storm
@[simp] theorem raise_err_runLen (s : State) (c : Nat) (a b : Option Nat) (p : Nat) :
    (s.raise c a b p).err.runLen = s.err.runLen := (raise_eventOnly s c a b p).err_runLen
@[simp] theorem raise_err_injArm (s : State) (c : Nat) (a b : Option Nat) (p : Nat) :
    (s.raise c a b p).err.injArm = s.err.injArm := (raise_eventOnly s c a b p).err_injArm
@[simp] theorem raise_err_injTier (s : State) (c : Nat) (a b : Option Nat) (p : Nat) :
    (s.raise c a b p).err.injTier = s.err.injTier := (raise_eventOnly s c a b p).err_injTier
@[simp] theorem raise_err_injFired (s : State) (c : Nat) (a b : Option Nat) (p : Nat) :
    (s.raise c a b p).err.injFired = s.err.injFired := (raise_eventOnly s c a b p).err_injFired
@[simp] theorem raise_err_injAddr (s : State) (c : Nat) (a b : Option Nat) (p : Nat) :
    (s.raise c a b p).err.injAddr = s.err.injAddr := (raise_eventOnly s c a b p).err_injAddr
@[simp] theorem raise_err_injLatchTier (s : State) (c : Nat) (a b : Option Nat) (p : Nat) :
    (s.raise c a b p).err.injLatchTier = s.err.injLatchTier := (raise_eventOnly s c a b p).err_injLatchTier
@[simp] theorem raise_err_injLatch (s : State) (c : Nat) (a b : Option Nat) (p : Nat) :
    (s.raise c a b p).err.injLatch = s.err.injLatch := (raise_eventOnly s c a b p).err_injLatch
@[simp] theorem raise_err_stCmd (s : State) (c : Nat) (a b : Option Nat) (p : Nat) :
    (s.raise c a b p).err.stCmd = s.err.stCmd := (raise_eventOnly s c a b p).err_stCmd
@[simp] theorem raise_err_stBusy (s : State) (c : Nat) (a b : Option Nat) (p : Nat) :
    (s.raise c a b p).err.stBusy = s.err.stBusy := (raise_eventOnly s c a b p).err_stBusy
@[simp] theorem raise_err_stPass (s : State) (c : Nat) (a b : Option Nat) (p : Nat) :
    (s.raise c a b p).err.stPass = s.err.stPass := (raise_eventOnly s c a b p).err_stPass
@[simp] theorem raise_err_stRan (s : State) (c : Nat) (a b : Option Nat) (p : Nat) :
    (s.raise c a b p).err.stRan = s.err.stRan := (raise_eventOnly s c a b p).err_stRan
@[simp] theorem raise_err_stRow (s : State) (c : Nat) (a b : Option Nat) (p : Nat) :
    (s.raise c a b p).err.stRow = s.err.stRow := (raise_eventOnly s c a b p).err_stRow
@[simp] theorem raise_err_stPos (s : State) (c : Nat) (a b : Option Nat) (p : Nat) :
    (s.raise c a b p).err.stPos = s.err.stPos := (raise_eventOnly s c a b p).err_stPos
@[simp] theorem raise_err_entries (s : State) (c : Nat) (a b : Option Nat) (p : Nat) :
    (s.raise c a b p).err.entries = s.err.entries := (raise_eventOnly s c a b p).err_entries
@[simp] theorem raise_err_injected (s : State) (c : Nat) (a b : Option Nat) (p : Nat) :
    (s.raise c a b p).err.injected = s.err.injected := (raise_eventOnly s c a b p).err_injected
@[simp] theorem raise_reh_reading (s : State) (c : Nat) (a b : Option Nat) (p : Nat) :
    (s.raise c a b p).reh.reading = s.reh.reading := (raise_eventOnly s c a b p).reh_reading
@[simp] theorem raise_reh_replay (s : State) (c : Nat) (a b : Option Nat) (p : Nat) :
    (s.raise c a b p).reh.replay = s.reh.replay := (raise_eventOnly s c a b p).reh_replay
@[simp] theorem raise_reh_triggerMask (s : State) (c : Nat) (a b : Option Nat) (p : Nat) :
    (s.raise c a b p).reh.triggerMask = s.reh.triggerMask := (raise_eventOnly s c a b p).reh_triggerMask
@[simp] theorem raise_reh_post (s : State) (c : Nat) (a b : Option Nat) (p : Nat) :
    (s.raise c a b p).reh.post = s.reh.post := (raise_eventOnly s c a b p).reh_post
@[simp] theorem raise_reh_codes (s : State) (c : Nat) (a b : Option Nat) (p : Nat) :
    (s.raise c a b p).reh.codes = s.reh.codes := (raise_eventOnly s c a b p).reh_codes
@[simp] theorem raise_reh_cmd (s : State) (c : Nat) (a b : Option Nat) (p : Nat) :
    (s.raise c a b p).reh.cmd = s.reh.cmd := (raise_eventOnly s c a b p).reh_cmd
@[simp] theorem raise_reh_refusal (s : State) (c : Nat) (a b : Option Nat) (p : Nat) :
    (s.raise c a b p).reh.refusal = s.reh.refusal := (raise_eventOnly s c a b p).reh_refusal
@[simp] theorem raise_reh_rfirst (s : State) (c : Nat) (a b : Option Nat) (p : Nat) :
    (s.raise c a b p).reh.rfirst = s.reh.rfirst := (raise_eventOnly s c a b p).reh_rfirst
@[simp] theorem raise_reh_rcount (s : State) (c : Nat) (a b : Option Nat) (p : Nat) :
    (s.raise c a b p).reh.rcount = s.reh.rcount := (raise_eventOnly s c a b p).reh_rcount
@[simp] theorem raise_reh_rbase (s : State) (c : Nat) (a b : Option Nat) (p : Nat) :
    (s.raise c a b p).reh.rbase = s.reh.rbase := (raise_eventOnly s c a b p).reh_rbase
@[simp] theorem raise_reh_rdbase (s : State) (c : Nat) (a b : Option Nat) (p : Nat) :
    (s.raise c a b p).reh.rdbase = s.reh.rdbase := (raise_eventOnly s c a b p).reh_rdbase

/-- An event of another class leaves the SMBus code and ALERT_N. -/
theorem raiseRaw_other (s : State) (c : Nat) (a b : Option Nat) (p : Nat) (h : c / 4096 ≠ 9) :
    (s.raiseRaw c a b p).pwr = s.pwr := by
  unfold State.raiseRaw State.modHost State.modErr State.modPwr
  dsimp only
  rw [if_neg h]

theorem rehTrigger_pwr (s : State) (c : Word) : (s.rehTrigger c).pwr = s.pwr := by
  have w : ∀ (s : State) (r : List Byte) (k : Bool), (s.rehWrite r k).pwr = s.pwr := by
    intro s r k
    unfold State.rehWrite
    dsimp only
    split
    · split
      · rfl
      · exact raiseRaw_other _ _ _ _ _ (by decide)
    · rfl
  unfold State.rehTrigger
  split
  · rfl
  · split
    · exact raiseRaw_other _ _ _ _ _ (by decide)
    · exact (raiseRaw_other _ 0xA001 none none 0xFFFF (by decide)).trans (w _ _ _)

/-- An event of class 0x9 leaves its code for SMBus and asserts ALERT_N (R770). -/
theorem raise_class_nine (s : State) (c : Nat) (a b : Option Nat) (p : Nat) (h : c / 4096 = 9) :
    (s.raise c a b p).pwr.last9 = BitVec.ofNat 16 c ∧ (s.raise c a b p).pwr.alert = true := by
  have r : (s.raiseRaw c a b p).pwr = { s.pwr with last9 := BitVec.ofNat 16 c, alert := true } := by
    unfold State.raiseRaw State.modHost State.modErr State.modPwr
    dsimp only
    rw [if_pos h]
  unfold State.raise
  dsimp only
  split
  · rw [rehTrigger_pwr, r]; exact ⟨rfl, rfl⟩
  · rw [r]; exact ⟨rfl, rfl⟩

/-- An event of another class leaves every power register. -/
theorem raise_other_pwr (s : State) (c : Nat) (a b : Option Nat) (p : Nat) (h : c / 4096 ≠ 9) :
    (s.raise c a b p).pwr = s.pwr := by
  unfold State.raise
  dsimp only
  split
  · rw [rehTrigger_pwr, raiseRaw_other _ _ _ _ _ h]
  · exact raiseRaw_other _ _ _ _ _ h

theorem raiseRaw_first (s : State) (c : Nat) (a b : Option Nat) (p : Nat) : (s.raiseRaw c a b p).err.first =
    (match s.err.first with | none => some (BitVec.ofNat 16 c, word s.tick.count.toNat) | some x => some x) := by
  unfold State.raiseRaw State.modHost State.modErr State.modPwr
  dsimp only
  split <;> rfl

/-- A latched first event stays latched (R735). -/
theorem rehTrigger_first (s : State) (c : Word) (x : BitVec 16 × Word) (h : s.err.first = some x) :
    (s.rehTrigger c).err.first = some x := by
  have w : ∀ (s : State) (r : List Byte) (k : Bool), s.err.first = some x → (s.rehWrite r k).err.first = some x := by
    intro s r k h
    unfold State.rehWrite
    dsimp only
    split
    · split
      · exact h
      · rw [raiseRaw_first, show (s.modReh _).err = s.err from rfl, h]
    · exact h
  unfold State.rehTrigger
  split
  · exact h
  · split
    · rw [raiseRaw_first, show (s.modReh _).err = s.err from rfl, h]
    · dsimp only [State.modReh]
      rw [raiseRaw_first, w s _ _ h]

/-- An event is latched as the first where none is, and leaves the latch else (R735). -/
theorem raise_first (s : State) (c : Nat) (a b : Option Nat) (p : Nat) : (s.raise c a b p).err.first =
    (match s.err.first with | none => some (BitVec.ofNat 16 c, word s.tick.count.toNat) | some x => some x) := by
  unfold State.raise
  dsimp only
  have h := raiseRaw_first s c a b p
  split
  · cases e : s.err.first <;> rw [e] at h <;> exact rehTrigger_first _ _ _ h
  · exact h

end Sys2Proof.Machine
end

