-- ==== Sys2Proof/Laws/Tables.lean ====
section
/-! SUPPORT. Every operation on a table keeps its canonical form: keys strictly rising, no value equal to the default. Device
memory is such a table (log 13). -/

namespace Sys2Proof.Machine

theorem tab_put_wf {β : Type} [DecidableEq β] (d : β) (i : Nat) (x : β) (hx : x ≠ d) : ∀ (t : Tab β) (lo : Nat),
    lo ≤ i → Tab.wfFrom d lo t = true → Tab.wfFrom d lo (Tab.put t i x) = true := by
  intro t
  induction t with
  | nil => intro lo h _; simp [Tab.put, Tab.wfFrom, h, hx]
  | cons e t ih =>
    obtain ⟨k, v⟩ := e
    intro lo h w
    simp only [Tab.wfFrom, Bool.and_eq_true, decide_eq_true_eq] at w
    unfold Tab.put
    split
    · subst k; simp [Tab.wfFrom, w, hx]
    · split
      · simp [Tab.wfFrom, h, hx, w]; omega
      · simp [Tab.wfFrom, w]; exact ih _ (by omega) w.2

theorem tab_wfFrom_le {β : Type} [DecidableEq β] (d : β) {a b : Nat} (h : a ≤ b) : ∀ (t : Tab β), Tab.wfFrom d b t = true → Tab.wfFrom d a t = true
  | [], _ => rfl
  | (k, v) :: t, w => by
    simp only [Tab.wfFrom, Bool.and_eq_true, decide_eq_true_eq] at w ⊢
    exact ⟨⟨by omega, w.1.2⟩, w.2⟩

theorem tab_erase_wf {β : Type} [DecidableEq β] (d : β) (i : Nat) : ∀ (t : Tab β) (lo : Nat),
    Tab.wfFrom d lo t = true → Tab.wfFrom d lo (Tab.erase t i) = true := by
  intro t
  induction t with
  | nil => intro lo _; rfl
  | cons e t ih =>
    obtain ⟨k, v⟩ := e
    intro lo w
    have w' := w
    simp only [Tab.wfFrom, Bool.and_eq_true, decide_eq_true_eq] at w
    unfold Tab.erase
    split
    · exact tab_wfFrom_le d (by omega) t w.2
    · split
      · exact w'
      · simp [Tab.wfFrom, w]; exact ih _ w.2

theorem tab_set_wf {β : Type} [DecidableEq β] (d : β) (t : Tab β) (i : Nat) (x : β) (w : Tab.wf d t = true) :
    Tab.wf d (Tab.set d t i x) = true := by
  unfold Tab.set; split
  · exact tab_erase_wf d i t 0 w
  · rename_i h; exact tab_put_wf d i x h t 0 (Nat.zero_le _) w

theorem tab_setRange_wf {β : Type} [DecidableEq β] (d : β) : ∀ (l : List β) (t : Tab β) (i : Nat), Tab.wf d t = true →
    Tab.wf d (Tab.setRange d t i l) = true
  | [], _, _, w => w
  | x :: l, t, i, w => tab_setRange_wf d l _ _ (tab_set_wf d t i x w)

theorem tab_filter_wf {β : Type} [DecidableEq β] (d : β) (p : Nat × β → Bool) : ∀ (t : Tab β) (lo : Nat),
    Tab.wfFrom d lo t = true → Tab.wfFrom d lo (t.filter p) = true := by
  intro t
  induction t with
  | nil => intro lo _; rfl
  | cons e t ih =>
    obtain ⟨k, v⟩ := e
    intro lo w
    simp only [Tab.wfFrom, Bool.and_eq_true, decide_eq_true_eq] at w
    rw [List.filter_cons]; split
    · simp [Tab.wfFrom, w]; exact ih _ w.2
    · exact tab_wfFrom_le d (by omega) _ (ih _ w.2)

theorem tab_clearRange_wf {β : Type} [DecidableEq β] (d : β) (t : Tab β) (a n : Nat) (w : Tab.wf d t = true) : Tab.wf d (Tab.clearRange t a n) = true :=
  tab_filter_wf d _ t 0 w

/-- Memory at reset has the canonical form. -/
theorem reset_mem_wf : Tab.wf memDefault State.reset.mem = true := rfl

/-! ## Reading after writing -/

theorem tab_get_put {β : Type} (d : β) (i : Nat) (x : β) : ∀ (t : Tab β) (j : Nat),
    Tab.get d (Tab.put t i x) j = if j = i then x else Tab.get d t j
  | [], j => by
    by_cases h : j = i
    · simp [Tab.put, Tab.get, h]
    · simp [Tab.put, Tab.get, h, Ne.symm h]
  | (k, v) :: t, j => by
    unfold Tab.put
    by_cases h : k = i
    · subst h; by_cases h2 : j = k
      · simp [Tab.get, h2]
      · simp [Tab.get, h2, Ne.symm h2]
    · by_cases h1 : i < k
      · by_cases h2 : j = i
        · simp [h, h1, Tab.get, h2]
        · simp [h, h1, Tab.get, h2, Ne.symm h2]
      · simp only [h, h1, if_false, Tab.get, tab_get_put d i x t j]
        by_cases h2 : k = j
        · subst h2; simp [h]
        · simp [h2]

theorem tab_get_low {β : Type} [DecidableEq β] (d : β) (j : Nat) : ∀ (t : Tab β) (lo : Nat), Tab.wfFrom d lo t = true → j < lo →
    Tab.get d t j = d
  | [], _, _, _ => rfl
  | (k, v) :: t, lo, w, h => by
    simp only [Tab.wfFrom, Bool.and_eq_true, decide_eq_true_eq] at w
    unfold Tab.get
    rw [if_neg (by omega)]; exact tab_get_low d j t (k + 1) w.2 (by omega)

theorem tab_get_erase {β : Type} [DecidableEq β] (d : β) (i : Nat) : ∀ (t : Tab β) (lo j : Nat), Tab.wfFrom d lo t = true →
    Tab.get d (Tab.erase t i) j = if j = i then d else Tab.get d t j
  | [], _, j, _ => by simp [Tab.erase, Tab.get]
  | (k, v) :: t, lo, j, w => by
    have w' := w
    simp only [Tab.wfFrom, Bool.and_eq_true, decide_eq_true_eq] at w
    unfold Tab.erase
    by_cases h : k = i
    · subst h
      by_cases h2 : j = k
      · subst h2; simp only [if_true]; exact tab_get_low d j t (j + 1) w.2 (by omega)
      · simp [Tab.get, h2, Ne.symm h2]
    · by_cases h1 : i < k
      · simp only [h, h1, if_false, if_true]
        by_cases h2 : j = i
        · subst h2; simp only [if_true, Tab.get, h, if_false]; exact tab_get_low d j t (k + 1) w.2 (by omega)
        · simp [h2]
      · simp only [h, h1, if_false, Tab.get, tab_get_erase d i t (k + 1) j w.2]
        by_cases h2 : k = j
        · subst h2; simp [h]
        · simp [h2]

/-- A read after a write: the written key gives the value, every other key what it gave before. -/
theorem tab_get_set {β : Type} [DecidableEq β] (d : β) (t : Tab β) (i j : Nat) (x : β) (w : Tab.wf d t = true) :
    Tab.get d (Tab.set d t i x) j = if j = i then x else Tab.get d t j := by
  unfold Tab.set; split
  · rename_i h; rw [tab_get_erase d i t 0 j w, h]
  · exact tab_get_put d i x t j

/-- A read after a write of consecutive keys. -/
theorem tab_get_setRange {β : Type} [DecidableEq β] (d : β) : ∀ (l : List β) (t : Tab β) (a j : Nat), Tab.wf d t = true →
    Tab.get d (Tab.setRange d t a l) j = if h : a ≤ j ∧ j < a + l.length then l[j - a] else Tab.get d t j
  | [], t, a, j, _ => by
    simp only [Tab.setRange, List.length_nil]
    rw [dif_neg (by omega)]
  | x :: l, t, a, j, w => by
    unfold Tab.setRange
    rw [tab_get_setRange d l _ (a + 1) j (tab_set_wf d t a x w), tab_get_set d t a j x w]
    by_cases h1 : a + 1 ≤ j ∧ j < a + 1 + l.length
    · rw [dif_pos h1, dif_pos (by simp; omega), List.getElem_cons, dif_neg (by omega)]
      congr 1
    · rw [dif_neg h1]
      by_cases h2 : j = a
      · subst h2; simp
      · rw [if_neg h2, dif_neg (by simp; omega)]

/-- Every key outside the written ones reads as before. -/
theorem tab_get_setRange_out {β : Type} [DecidableEq β] (d : β) (l : List β) (t : Tab β) (a j : Nat) (w : Tab.wf d t = true)
    (h : j < a ∨ a + l.length ≤ j) : Tab.get d (Tab.setRange d t a l) j = Tab.get d t j := by
  rw [tab_get_setRange d l t a j w, dif_neg (by omega)]

/-- The written range reads as written. -/
theorem tab_range_setRange {β : Type} [DecidableEq β] (d : β) (l : List β) (t : Tab β) (a : Nat) (w : Tab.wf d t = true) :
    Tab.range d (Tab.setRange d t a l) a l.length = l := by
  have len : ∀ (n : Nat) (t : Tab β) (a : Nat), (Tab.range d t a n).length = n := by
    intro n; induction n with
    | zero => intros; rfl
    | succ n ih => intros; simp [Tab.range, ih]
  have el : ∀ (n : Nat) (t : Tab β) (a i : Nat) (h : i < (Tab.range d t a n).length), (Tab.range d t a n)[i] = Tab.get d t (a + i) := by
    intro n; induction n with
    | zero => intro t a i h; simp [Tab.range] at h
    | succ n ih =>
      intro t a i h
      cases i with
      | zero => simp [Tab.range]
      | succ i => simp only [Tab.range, List.getElem_cons_succ]; rw [ih]; congr 1; omega
  apply List.ext_getElem (len _ _ _)
  intro i h1 h2
  rw [el, tab_get_setRange d l t a _ w, dif_pos (by omega)]
  congr 1; omega

/-- Consecutive writes are one. -/
theorem tab_setRange_append {β : Type} [DecidableEq β] (d : β) : ∀ (l m : List β) (t : Tab β) (a : Nat),
    Tab.setRange d t a (l ++ m) = Tab.setRange d (Tab.setRange d t a l) (a + l.length) m
  | [], _, _, _ => rfl
  | x :: l, m, t, a => by
    simp only [List.cons_append, Tab.setRange, tab_setRange_append d l m, List.length_cons]
    congr 1; omega

end Sys2Proof.Machine
end

