-- ==== Sys2Proof/Laws/Keeps.lean ====
section
/-! SUPPORT. What every command leaves as it is, and the shared operations that keep it, each in the order in which it is used. -/

namespace Sys2Proof.Machine

/-- What every command leaves as it is: memory in its canonical form, the queue, the variant, a counter of free values that
never goes back, and, with `own`, the owner's key and lock in flash. -/
structure Keeps (own : Bool) (s t : State) : Prop where
  mem : Tab.wf memDefault s.mem = true → Tab.wf memDefault t.mem = true
  queue : t.pending = s.pending
  variant : t.glb.variant = s.glb.variant
  free : s.free ≤ t.free
  owner : own = true → t.upd.flash.ownerKey = s.upd.flash.ownerKey ∧ t.upd.flash.ownerLock = s.upd.flash.ownerLock

/-- The same of an answer. -/
structure KeepsA (own : Bool) (s : State) (a : Answer) : Prop where
  out : ∀ t, a = .next t → Keeps own s t

/-- The same of a step of a ring push. -/
structure KeepsR (own : Bool) (s : State) (a : RingStep) : Prop where
  out : Keeps own s a.state

variable {own : Bool} {s0 : State}

theorem Keeps.refl (s : State) : Keeps own s s := ⟨id, rfl, rfl, Nat.le_refl _, fun _ => ⟨rfl, rfl⟩⟩

theorem keeps_mk {s : State} (hs : Keeps own s0 s) {free : Nat} {glb : Glb} {upd : UpdSt} {reply : Reply} {sent : List Sent} {cfg : CfgBody} {portA : PortSt} {portB : PortSt} {tick : TickSt} {slots : Tab SlotSt} {host : HostSt} {pwr : PwrSt} {pin : PinSt} {sec : SecSt} {err : ErrSt} {reh : RehSt} {tap : TapSt} {twin : TwinSt} {lnk : Tab LnkSt} {win : WinSt} {stk : Tab StkSt} {kv : Tab KvSt} {prec : PrecSt} {clu : Tab CluSt} {core : Tab CoreSt} {badOne : List Nat} {badTwo : List Nat}
    (hf : s.free ≤ free) (hv : glb.variant = s.glb.variant) (hk : upd.flash.ownerKey = s.upd.flash.ownerKey) (hl : upd.flash.ownerLock = s.upd.flash.ownerLock) :
    Keeps own s0 { s with free := free, glb := glb, upd := upd, reply := reply, sent := sent, cfg := cfg, portA := portA, portB := portB, tick := tick, slots := slots, host := host, pwr := pwr, pin := pin, sec := sec, err := err, reh := reh, tap := tap, twin := twin, lnk := lnk, win := win, stk := stk, kv := kv, prec := prec, clu := clu, core := core, badOne := badOne, badTwo := badTwo } :=
  ⟨hs.mem, hs.queue, hv.trans hs.variant, Nat.le_trans hs.free hf, fun o => ⟨hk.trans (hs.owner o).1, hl.trans (hs.owner o).2⟩⟩

theorem keeps_foldl {α : Type} {f : State → α → State} {l : List α} {s : State} (hs : Keeps own s0 s)
    (hf : ∀ t x, Keeps own s0 t → Keeps own s0 (f t x)) : Keeps own s0 (l.foldl f s) := by
  induction l generalizing s with
  | nil => exact hs
  | cons a l ih => exact ih (hf _ _ hs)

theorem keepsA_next {s : State} (h : Keeps own s0 s) : KeepsA own s0 (.next s) := ⟨by
  intro t e; cases e; exact h⟩

theorem keepsR_done {s : State} (h : Keeps own s0 s) : KeepsR own s0 (.done s) := ⟨h⟩

theorem keepsR_wait {s : State} (h : Keeps own s0 s) : KeepsR own s0 (.wait s) := ⟨h⟩

/-- The same of flits that arrived. -/
structure KeepsL (own : Bool) (s : State) (a : Arrival) : Prop where
  lost : ∀ t, a = .lost t → Keeps own s t
  here : ∀ t, a = .here t → Keeps own s t

/-- The same of a state that may be absent. -/
structure KeepsO (own : Bool) (s : State) (a : Option State) : Prop where
  out : ∀ t, a = some t → Keeps own s t

theorem keepsL_lost {s : State} (h : Keeps own s0 s) : KeepsL own s0 (.lost s) := ⟨fun t e => (by cases e; exact h), fun t e => (by cases e)⟩

theorem keepsL_here {s : State} (h : Keeps own s0 s) : KeepsL own s0 (.here s) := ⟨fun t e => (by cases e), fun t e => (by cases e; exact h)⟩

theorem keepsO_none : KeepsO own s0 none := ⟨fun t e => by cases e⟩

theorem keepsO_some {s : State} (h : Keeps own s0 s) : KeepsO own s0 (some s) := ⟨fun t e => by cases e; exact h⟩

theorem keeps_of_lost {a : Arrival} {t : State} (e : a = .lost t) (h : KeepsL own s0 a) : Keeps own s0 t := h.lost t e

theorem keeps_of_here {a : Arrival} {t : State} (e : a = .here t) (h : KeepsL own s0 a) : Keeps own s0 t := h.here t e

theorem keeps_of_some {a : Option State} {t : State} (e : a = some t) (h : KeepsO own s0 a) : Keeps own s0 t := h.out t e

theorem keeps_of_done {a : RingStep} {t : State} (e : a = .done t) (h : KeepsR own s0 a) : Keeps own s0 t := by subst e; exact h.out

theorem keeps_of_wait {a : RingStep} {t : State} (e : a = .wait t) (h : KeepsR own s0 a) : Keeps own s0 t := by subst e; exact h.out

theorem keeps_of_next {a : Answer} {t : State} (e : a = .next t) (h : KeepsA own s0 a) : Keeps own s0 t := h.out t e

theorem keeps_of_pair {α : Type} {a : α × State} {x : α} {t : State} (e : a = (x, t)) (h : Keeps own s0 a.2) : Keeps own s0 t := by subst e; exact h

theorem keeps_foldl2 {α β : Type} {f : β × State → α → β × State} {l : List α} {b : β × State} (hs : Keeps own s0 b.2)
    (hf : ∀ t x, Keeps own s0 t.2 → Keeps own s0 (f t x).2) : Keeps own s0 (l.foldl f b).2 := by
  induction l generalizing b with
  | nil => exact hs
  | cons a l ih => exact ih (hf _ _ hs)

theorem keepsO_findSome {α : Type} {f : α → Option State} {l : List α} (hf : ∀ x, KeepsO own s0 (f x)) : KeepsO own s0 (l.findSome? f) := by
  induction l with
  | nil => exact keepsO_none
  | cons a l ih =>
    rw [List.findSome?_cons]
    split
    · rename_i h; exact keepsO_some ((hf a).out _ h)
    · exact ih

theorem Flash.writePtr_ownerKey (f : Flash) (r : PtrRec) : (f.writePtr r).ownerKey = f.ownerKey := by unfold Flash.writePtr; split <;> rfl

theorem Flash.writePtr_ownerLock (f : Flash) (r : PtrRec) : (f.writePtr r).ownerLock = f.ownerLock := by unfold Flash.writePtr; split <;> rfl

theorem Flash.writeFloor_ownerKey (f : Flash) (r : Word) : (f.writeFloor r).ownerKey = f.ownerKey := by
  unfold Flash.writeFloor; extract_lets; split <;> rfl

theorem Flash.writeFloor_ownerLock (f : Flash) (r : Word) : (f.writeFloor r).ownerLock = f.ownerLock := by
  unfold Flash.writeFloor; extract_lets; split <;> rfl

theorem Flash.setSlotCode_ownerKey (f : Flash) (i c : Nat) : (f.setSlotCode i c).ownerKey = f.ownerKey := rfl

theorem Flash.setSlotCode_ownerLock (f : Flash) (i c : Nat) : (f.setSlotCode i c).ownerLock = f.ownerLock := rfl

theorem Flash.settle_ownerKey (f : Flash) (a b : Bool) : (f.settle a b).ownerKey = f.ownerKey := by
  unfold Flash.settle; dsimp only; simp only [Flash.setSlotCode_ownerKey]; repeat' split
  all_goals simp only [Flash.setSlotCode_ownerKey]

theorem Flash.settle_ownerLock (f : Flash) (a b : Bool) : (f.settle a b).ownerLock = f.ownerLock := by
  unfold Flash.settle; dsimp only; simp only [Flash.setSlotCode_ownerLock]; repeat' split
  all_goals simp only [Flash.setSlotCode_ownerLock]

theorem Flash.takeFormat_ownerKey (f : Flash) (m : BitVec 8) (t : Bool) : (f.takeFormat m t).ownerKey = f.ownerKey := by
  unfold Flash.takeFormat; repeat' (first | split | rfl | extract_lets)

theorem Flash.takeFormat_ownerLock (f : Flash) (m : BitVec 8) (t : Bool) : (f.takeFormat m t).ownerLock = f.ownerLock := by
  unfold Flash.takeFormat; repeat' (first | split | rfl | extract_lets)

theorem Flash.runSlots_ownerKey (f : Flash) (c : Chosen) : (f.runSlots c).ownerKey = f.ownerKey := by
  unfold Flash.runSlots; dsimp only; repeat' split
  all_goals simp only [Flash.setSlotCode_ownerKey, Flash.settle_ownerKey]

theorem Flash.runSlots_ownerLock (f : Flash) (c : Chosen) : (f.runSlots c).ownerLock = f.ownerLock := by
  unfold Flash.runSlots; dsimp only; repeat' split
  all_goals simp only [Flash.setSlotCode_ownerLock, Flash.settle_ownerLock]

theorem State.flashAfterLoss_ownerKey (s : State) : s.flashAfterLoss.ownerKey = s.upd.flash.ownerKey := by
  unfold State.flashAfterLoss; repeat' (first | split | rfl | extract_lets | simp only [Flash.setSlotCode_ownerKey])

theorem State.flashAfterLoss_ownerLock (s : State) : s.flashAfterLoss.ownerLock = s.upd.flash.ownerLock := by
  unfold State.flashAfterLoss; repeat' (first | split | rfl | extract_lets | simp only [Flash.setSlotCode_ownerLock])

theorem keeps_modFlash_any {s : State} (f : Flash → Flash) (hs : Keeps false s0 s) : Keeps false s0 (s.modFlash f) :=
  ⟨hs.mem, hs.queue, hs.variant, hs.free, fun o => (by cases o)⟩

theorem keeps_state {r : RingStep} (h : KeepsR own s0 r) : Keeps own s0 r.state := h.out


theorem keeps_poke {s : State} (a : Nat) (l : List Byte) (hs : Keeps own s0 s) : Keeps own s0 (State.poke s a l) := ⟨fun w => tab_setRange_wf memDefault _ _ _ (hs.mem w), hs.queue, hs.variant, hs.free, hs.owner⟩

theorem keeps_modReh {s : State} (f : RehSt → RehSt) (hs : Keeps own s0 s) : Keeps own s0 (State.modReh s f) := by
  unfold State.modReh
  repeat' (first
      | with_reducible assumption | with_reducible apply keeps_foldl | with_reducible apply keeps_foldl2
      | extract_lets | split | intro _ | (dsimp +zetaDelta -zeta only)
      | with_reducible refine keeps_mk ?_ (by first | exact Nat.le_refl _ | exact Nat.le_add_right _ _) rfl rfl rfl)

theorem keeps_modPwr {s : State} (f : PwrSt → PwrSt) (hs : Keeps own s0 s) : Keeps own s0 (State.modPwr s f) := by
  unfold State.modPwr
  repeat' (first
      | with_reducible assumption | with_reducible apply keeps_foldl | with_reducible apply keeps_foldl2
      | extract_lets | split | intro _ | (dsimp +zetaDelta -zeta only)
      | with_reducible refine keeps_mk ?_ (by first | exact Nat.le_refl _ | exact Nat.le_add_right _ _) rfl rfl rfl)

theorem keeps_modErr {s : State} (f : ErrSt → ErrSt) (hs : Keeps own s0 s) : Keeps own s0 (State.modErr s f) := by
  unfold State.modErr
  repeat' (first
      | with_reducible assumption | with_reducible apply keeps_foldl | with_reducible apply keeps_foldl2
      | extract_lets | split | intro _ | (dsimp +zetaDelta -zeta only)
      | with_reducible refine keeps_mk ?_ (by first | exact Nat.le_refl _ | exact Nat.le_add_right _ _) rfl rfl rfl)

theorem keeps_modHost {s : State} (f : HostSt → HostSt) (hs : Keeps own s0 s) : Keeps own s0 (State.modHost s f) := by
  unfold State.modHost
  repeat' (first
      | with_reducible assumption | with_reducible apply keeps_foldl | with_reducible apply keeps_foldl2
      | extract_lets | split | intro _ | (dsimp +zetaDelta -zeta only)
      | with_reducible refine keeps_mk ?_ (by first | exact Nat.le_refl _ | exact Nat.le_add_right _ _) rfl rfl rfl)

theorem keeps_raiseRaw {s : State} (code : Nat) (arg1 : Option Nat) (arg0 : Option Nat) (pos : Nat) (hs : Keeps own s0 s) : Keeps own s0 (State.raiseRaw s code arg1 arg0 pos) := by
  unfold State.raiseRaw
  repeat' (first
      | with_reducible assumption | with_reducible apply keeps_modErr | with_reducible apply keeps_modHost
      | with_reducible apply keeps_modPwr | with_reducible apply keeps_foldl | with_reducible apply keeps_foldl2
      | extract_lets | split | intro _ | (dsimp +zetaDelta -zeta only)
      | with_reducible refine keeps_mk ?_ (by first | exact Nat.le_refl _ | exact Nat.le_add_right _ _) rfl rfl rfl)

theorem keeps_rehWrite {s : State} (r : List Byte) (counts : Bool) (hs : Keeps own s0 s) : Keeps own s0 (State.rehWrite s r counts) := by
  unfold State.rehWrite
  repeat' (first
      | with_reducible assumption | with_reducible apply keeps_modReh | with_reducible apply keeps_poke
      | with_reducible apply keeps_raiseRaw | with_reducible apply keeps_foldl
      | with_reducible apply keeps_foldl2 | extract_lets | split | intro _ | (dsimp +zetaDelta -zeta only))

theorem keeps_rehTrigger {s : State} (code : Word) (hs : Keeps own s0 s) : Keeps own s0 (State.rehTrigger s code) := by
  unfold State.rehTrigger
  repeat' (first
      | with_reducible assumption | with_reducible apply keeps_modReh | with_reducible apply keeps_raiseRaw
      | with_reducible apply keeps_rehWrite | with_reducible apply keeps_foldl
      | with_reducible apply keeps_foldl2 | extract_lets | split | intro _ | (dsimp +zetaDelta -zeta only))

theorem keeps_raise {s : State} (code : Nat) (arg1 : Option Nat) (arg0 : Option Nat) (pos : Nat) (hs : Keeps own s0 s) : Keeps own s0 (State.raise s code arg1 arg0 pos) := by
  unfold State.raise
  repeat' (first
      | with_reducible assumption | with_reducible apply keeps_raiseRaw | with_reducible apply keeps_rehTrigger
      | with_reducible apply keeps_foldl | with_reducible apply keeps_foldl2 | extract_lets | split | intro _
      | (dsimp +zetaDelta -zeta only))

theorem keeps_abandonQueued {s : State} (hs : Keeps own s0 s) : Keeps own s0 (State.abandonQueued s) := by
  unfold State.abandonQueued
  repeat' (first
      | with_reducible assumption | with_reducible apply keeps_raise | with_reducible apply keeps_foldl
      | with_reducible apply keeps_foldl2 | extract_lets | split | intro _ | (dsimp +zetaDelta -zeta only))

theorem keeps_abandonTick {s : State} (hs : Keeps own s0 s) : Keeps own s0 (State.abandonTick s) := by
  unfold State.abandonTick
  repeat' (first
      | with_reducible assumption | with_reducible apply keeps_foldl | with_reducible apply keeps_foldl2
      | extract_lets | split | intro _ | (dsimp +zetaDelta -zeta only)
      | with_reducible refine keeps_mk ?_ (by first | exact Nat.le_refl _ | exact Nat.le_add_right _ _) rfl rfl rfl)

theorem keeps_modCore {s : State} (c : CoreId) (f : CoreSt → CoreSt) (hs : Keeps own s0 s) : Keeps own s0 (State.modCore s c f) := by
  unfold State.modCore
  repeat' (first
      | with_reducible assumption | with_reducible apply keeps_foldl | with_reducible apply keeps_foldl2
      | extract_lets | split | intro _ | (dsimp +zetaDelta -zeta only)
      | with_reducible refine keeps_mk ?_ (by first | exact Nat.le_refl _ | exact Nat.le_add_right _ _) rfl rfl rfl)

theorem keeps_modChain {s : State} (c : CoreId) (id : Nat) (f : ChainOp → ChainOp) (hs : Keeps own s0 s) : Keeps own s0 (State.modChain s c id f) := by
  unfold State.modChain
  repeat' (first
      | with_reducible assumption | with_reducible apply keeps_modCore | with_reducible apply keeps_foldl
      | with_reducible apply keeps_foldl2 | extract_lets | split | intro _ | (dsimp +zetaDelta -zeta only))

theorem keeps_acbLand {s : State} (c : CoreId) (o : ChainOp) (t : Tagged) (hs : Keeps own s0 s) : Keeps own s0 (State.acbLand s c o t) := by
  unfold State.acbLand
  repeat' (first
      | with_reducible assumption | with_reducible apply keeps_modChain | with_reducible apply keeps_modCore
      | with_reducible apply keeps_foldl | with_reducible apply keeps_foldl2 | extract_lets | split | intro _
      | (dsimp +zetaDelta -zeta only))

theorem keeps_modClu {s : State} (n : Nat) (f : CluSt → CluSt) (hs : Keeps own s0 s) : Keeps own s0 (State.modClu s n f) := by
  unfold State.modClu
  repeat' (first
      | with_reducible assumption | with_reducible apply keeps_foldl | with_reducible apply keeps_foldl2
      | extract_lets | split | intro _ | (dsimp +zetaDelta -zeta only)
      | with_reducible refine keeps_mk ?_ (by first | exact Nat.le_refl _ | exact Nat.le_add_right _ _) rfl rfl rfl)

theorem keeps_addScat {s : State} (c : CoreId) (m : MergeIn) (hs : Keeps own s0 s) : Keeps own s0 (State.addScat s c m) := by
  unfold State.addScat
  repeat' (first
      | with_reducible assumption | with_reducible apply keeps_modClu | with_reducible apply keeps_foldl
      | with_reducible apply keeps_foldl2 | extract_lets | split | intro _ | (dsimp +zetaDelta -zeta only))

theorem keeps_addTop {s : State} (c : CoreId) (m : MergeIn) (hs : Keeps own s0 s) : Keeps own s0 (State.addTop s c m) := by
  unfold State.addTop
  repeat' (first
      | with_reducible assumption | with_reducible apply keeps_modClu | with_reducible apply keeps_foldl
      | with_reducible apply keeps_foldl2 | extract_lets | split | intro _ | (dsimp +zetaDelta -zeta only))

theorem keeps_admRelease {s : State} (i : Word) (hs : Keeps own s0 s) : Keeps own s0 (State.admRelease s i) := by
  unfold State.admRelease
  repeat' (first
      | with_reducible assumption | with_reducible apply keeps_modHost | with_reducible apply keeps_foldl
      | with_reducible apply keeps_foldl2 | extract_lets | split | intro _ | (dsimp +zetaDelta -zeta only))

theorem keeps_admReject {s : State} (i : Word) (code : Nat) (hs : Keeps own s0 s) : Keeps own s0 (State.admReject s i code) := by
  unfold State.admReject
  repeat' (first
      | with_reducible assumption | with_reducible apply keeps_admRelease | with_reducible apply keeps_modHost
      | with_reducible apply keeps_raise | with_reducible apply keeps_foldl | with_reducible apply keeps_foldl2
      | extract_lets | split | intro _ | (dsimp +zetaDelta -zeta only))

theorem keeps_admTake {s : State} (hs : Keeps own s0 s) : Keeps own s0 (State.admTake s).2 := by
  unfold State.admTake
  repeat' (first
      | with_reducible assumption | with_reducible apply keeps_modHost | with_reducible apply keeps_foldl
      | with_reducible apply keeps_foldl2 | extract_lets | split | intro _ | (dsimp +zetaDelta -zeta only))

theorem keeps_modKv {s : State} (d : Nat) (f : KvSt → KvSt) (hs : Keeps own s0 s) : Keeps own s0 (State.modKv s d f) := by
  unfold State.modKv
  repeat' (first
      | with_reducible assumption | with_reducible apply keeps_foldl | with_reducible apply keeps_foldl2
      | extract_lets | split | intro _ | (dsimp +zetaDelta -zeta only)
      | with_reducible refine keeps_mk ?_ (by first | exact Nat.le_refl _ | exact Nat.le_add_right _ _) rfl rfl rfl)

theorem keeps_kvQueueFree {s : State} (slot : Nat) (hs : Keeps own s0 s) : Keeps own s0 (State.kvQueueFree s slot) := by
  unfold State.kvQueueFree
  repeat' (first
      | with_reducible assumption | with_reducible apply keeps_modKv | with_reducible apply keeps_foldl
      | with_reducible apply keeps_foldl2 | extract_lets | split | intro _ | (dsimp +zetaDelta -zeta only))

theorem keeps_slotFault {s : State} (m : BitVec 256) (hs : Keeps own s0 s) : Keeps own s0 (State.slotFault s m) := by
  unfold State.slotFault
  repeat' (first
      | with_reducible assumption | with_reducible apply keeps_foldl | with_reducible apply keeps_foldl2
      | extract_lets | split | intro _ | (dsimp +zetaDelta -zeta only)
      | with_reducible refine keeps_mk ?_ (by first | exact Nat.le_refl _ | exact Nat.le_add_right _ _) rfl rfl rfl)

theorem keeps_kvSlotFault {s : State} (d : Nat) (n : Nat) (hs : Keeps own s0 s) : Keeps own s0 (State.kvSlotFault s d n) := by
  unfold State.kvSlotFault
  repeat' (first
      | with_reducible assumption | with_reducible apply keeps_slotFault | with_reducible apply keeps_foldl
      | with_reducible apply keeps_foldl2 | extract_lets | split | intro _ | (dsimp +zetaDelta -zeta only))

theorem keeps_kvLookup {s : State} (d : Nat) (n : Nat) (hs : Keeps own s0 s) : Keeps own s0 (State.kvLookup s d n) := by
  unfold State.kvLookup
  repeat' (first
      | with_reducible assumption | with_reducible apply keeps_modKv | with_reducible apply keeps_foldl
      | with_reducible apply keeps_foldl2 | extract_lets | split | intro _ | (dsimp +zetaDelta -zeta only))

theorem keeps_writeDev {s : State} (a : Nat) (l : List Byte) (hs : Keeps own s0 s) : Keeps own s0 (State.writeDev s a l) := by
  unfold State.writeDev
  repeat' (first
      | with_reducible assumption | with_reducible apply keeps_poke | with_reducible apply keeps_foldl
      | with_reducible apply keeps_foldl2 | extract_lets | split | intro _ | (dsimp +zetaDelta -zeta only)
      | with_reducible refine keeps_mk ?_ (by first | exact Nat.le_refl _ | exact Nat.le_add_right _ _) rfl rfl rfl)

theorem keeps_setPte {s : State} (d : Nat) (n : Nat) (v : Nat) (hs : Keeps own s0 s) : Keeps own s0 (State.setPte s d n v) := by
  unfold State.setPte
  repeat' (first
      | with_reducible assumption | with_reducible apply keeps_writeDev | with_reducible apply keeps_foldl
      | with_reducible apply keeps_foldl2 | extract_lets | split | intro _ | (dsimp +zetaDelta -zeta only))

theorem keeps_kvFreePage {s : State} (d : Nat) (n : Nat) (hs : Keeps own s0 s) : Keeps own s0 (State.kvFreePage s d n) := by
  unfold State.kvFreePage
  repeat' (first
      | with_reducible assumption | with_reducible apply keeps_modKv | with_reducible apply keeps_setPte
      | with_reducible apply keeps_foldl | with_reducible apply keeps_foldl2 | extract_lets | split | intro _
      | (dsimp +zetaDelta -zeta only))

theorem keeps_kvMap {s : State} (d : Nat) (n : Nat) (hs : Keeps own s0 s) : KeepsO own s0 (State.kvMap s d n) := by
  unfold State.kvMap
  repeat' (first
      | with_reducible assumption | with_reducible apply keeps_kvFreePage | with_reducible apply keeps_kvLookup
      | with_reducible apply keeps_modKv | with_reducible apply keeps_setPte | with_reducible apply keeps_foldl
      | with_reducible apply keeps_foldl2 | with_reducible apply keepsO_none | with_reducible apply keepsO_some
      | extract_lets | split | intro _ | (dsimp +zetaDelta -zeta only))

theorem keeps_kvWrite {s : State} (d : Nat) (a : Nat) (l : List Byte) (x4 : Nat) (hs : Keeps own s0 s) : Keeps own s0 (State.kvWrite s d a l x4) := by
  induction x4 generalizing s d a l with
  | zero => unfold State.kvWrite; exact hs
  | succ k ih =>
  unfold State.kvWrite
  repeat' (first
      | with_reducible assumption | with_reducible apply ih | with_reducible apply keeps_kvMap
      | with_reducible apply keeps_kvSlotFault | with_reducible apply keeps_modKv
      | with_reducible apply keeps_raise | with_reducible apply keeps_writeDev | with_reducible apply keeps_foldl
      | with_reducible apply keeps_foldl2 | with_reducible refine keeps_of_some (by with_reducible assumption) ?_
      | with_reducible apply keepsO_none | with_reducible apply keepsO_findSome | extract_lets | split | intro _
      | (dsimp +zetaDelta -zeta only))

theorem keeps_unpackKv {s : State} (m : MirrorSlot) (hs : Keeps own s0 s) : Keeps own s0 (State.unpackKv s m) := by
  unfold State.unpackKv
  repeat' (first
      | with_reducible assumption | with_reducible apply keeps_kvWrite | with_reducible apply keeps_foldl
      | with_reducible apply keeps_foldl2 | extract_lets | split | intro _ | (dsimp +zetaDelta -zeta only))

theorem keeps_unpackBuffers {s : State} (m : MirrorSlot) (hs : Keeps own s0 s) : Keeps own s0 (State.unpackBuffers s m) := by
  unfold State.unpackBuffers
  repeat' (first
      | with_reducible assumption | with_reducible apply keeps_writeDev | with_reducible apply keeps_foldl
      | with_reducible apply keeps_foldl2 | extract_lets | split | intro _ | (dsimp +zetaDelta -zeta only))

theorem keeps_modLnk {s : State} (p : Nat) (f : LnkSt → LnkSt) (hs : Keeps own s0 s) : Keeps own s0 (State.modLnk s p f) := by
  unfold State.modLnk
  repeat' (first
      | with_reducible assumption | with_reducible apply keeps_foldl | with_reducible apply keeps_foldl2
      | extract_lets | split | intro _ | (dsimp +zetaDelta -zeta only)
      | with_reducible refine keeps_mk ?_ (by first | exact Nat.le_refl _ | exact Nat.le_add_right _ _) rfl rfl rfl)

theorem keeps_send {s : State} (x1 : Sent) (hs : Keeps own s0 s) : Keeps own s0 (State.send s x1) := by
  unfold State.send
  repeat' (first
      | with_reducible assumption | with_reducible apply keeps_foldl | with_reducible apply keeps_foldl2
      | extract_lets | split | intro _ | (dsimp +zetaDelta -zeta only)
      | with_reducible refine keeps_mk ?_ (by first | exact Nat.le_refl _ | exact Nat.le_add_right _ _) rfl rfl rfl)

theorem keeps_sendOn {s : State} (p : Nat) (n : Nat) (x3 : Sent) (hs : Keeps own s0 s) : Keeps own s0 (State.sendOn s p n x3) := by
  unfold State.sendOn
  repeat' (first
      | with_reducible assumption | with_reducible apply keeps_modLnk | with_reducible apply keeps_send
      | with_reducible apply keeps_foldl | with_reducible apply keeps_foldl2 | extract_lets | split | intro _
      | (dsimp +zetaDelta -zeta only))

theorem keeps_sendTwin {s : State} (n : Nat) (x2 : Sent) (hs : Keeps own s0 s) : Keeps own s0 (State.sendTwin s n x2) := by
  unfold State.sendTwin
  repeat' (first
      | with_reducible assumption | with_reducible apply keeps_sendOn | with_reducible apply keeps_foldl
      | with_reducible apply keeps_foldl2 | extract_lets | split | intro _ | (dsimp +zetaDelta -zeta only))

theorem keeps_modTwin {s : State} (f : TwinSt → TwinSt) (hs : Keeps own s0 s) : Keeps own s0 (State.modTwin s f) := by
  unfold State.modTwin
  repeat' (first
      | with_reducible assumption | with_reducible apply keeps_foldl | with_reducible apply keeps_foldl2
      | extract_lets | split | intro _ | (dsimp +zetaDelta -zeta only)
      | with_reducible refine keeps_mk ?_ (by first | exact Nat.le_refl _ | exact Nat.le_add_right _ _) rfl rfl rfl)

theorem keeps_mirrorUnpacked {s : State} (hs : Keeps own s0 s) : Keeps own s0 (State.mirrorUnpacked s) := by
  unfold State.mirrorUnpacked
  repeat' (first
      | with_reducible assumption | with_reducible apply keeps_kvQueueFree | with_reducible apply keeps_modTwin
      | with_reducible apply keeps_sendTwin | with_reducible apply keeps_unpackBuffers
      | with_reducible apply keeps_unpackKv | with_reducible apply keeps_foldl
      | with_reducible apply keeps_foldl2 | extract_lets | split | intro _ | (dsimp +zetaDelta -zeta only))

theorem keeps_sendRouted {s : State} (dst : Nat) (n : Nat) (x3 : Sent) (hs : Keeps own s0 s) : Keeps own s0 (State.sendRouted s dst n x3) := by
  unfold State.sendRouted
  repeat' (first
      | with_reducible assumption | with_reducible apply keeps_raise | with_reducible apply keeps_sendOn
      | with_reducible apply keeps_foldl | with_reducible apply keeps_foldl2 | extract_lets | split | intro _
      | (dsimp +zetaDelta -zeta only))

theorem keeps_modWindow {s : State} (w : Nat) (f : WindowSt → WindowSt) (hs : Keeps own s0 s) : Keeps own s0 (State.modWindow s w f) := by
  unfold State.modWindow
  repeat' (first
      | with_reducible assumption | with_reducible apply keeps_foldl | with_reducible apply keeps_foldl2
      | extract_lets | split | intro _ | (dsimp +zetaDelta -zeta only)
      | with_reducible refine keeps_mk ?_ (by first | exact Nat.le_refl _ | exact Nat.le_add_right _ _) rfl rfl rfl)

theorem keeps_closeWindow {s : State} (w : Nat) (hs : Keeps own s0 s) : Keeps own s0 (State.closeWindow s w) := by
  unfold State.closeWindow
  repeat' (first
      | with_reducible assumption | with_reducible apply keeps_modWindow | with_reducible apply keeps_sendRouted
      | with_reducible apply keeps_foldl | with_reducible apply keeps_foldl2 | extract_lets | split | intro _
      | (dsimp +zetaDelta -zeta only))

theorem keeps_modSlot {s : State} (i : Nat) (f : SlotSt → SlotSt) (hs : Keeps own s0 s) : Keeps own s0 (State.modSlot s i f) := by
  unfold State.modSlot
  repeat' (first
      | with_reducible assumption | with_reducible apply keeps_foldl | with_reducible apply keeps_foldl2
      | extract_lets | split | intro _ | (dsimp +zetaDelta -zeta only)
      | with_reducible refine keeps_mk ?_ (by first | exact Nat.le_refl _ | exact Nat.le_add_right _ _) rfl rfl rfl)

theorem keeps_adoptNow {s : State} (hs : Keeps own s0 s) : Keeps own s0 (State.adoptNow s) := by
  unfold State.adoptNow
  repeat' (first
      | with_reducible assumption | with_reducible apply keeps_closeWindow | with_reducible apply keeps_modHost
      | with_reducible apply keeps_modSlot | with_reducible apply keeps_modTwin
      | with_reducible apply keeps_raise | with_reducible apply keeps_foldl | with_reducible apply keeps_foldl2
      | extract_lets | split | intro _ | (dsimp +zetaDelta -zeta only))

theorem keeps_adoptAtCue {s : State} (hs : Keeps own s0 s) : Keeps own s0 (State.adoptAtCue s) := by
  unfold State.adoptAtCue
  repeat' (first
      | with_reducible assumption | with_reducible apply keeps_adoptNow
      | with_reducible apply keeps_mirrorUnpacked | with_reducible apply keeps_foldl
      | with_reducible apply keeps_foldl2 | extract_lets | split | intro _ | (dsimp +zetaDelta -zeta only))

theorem keeps_afterBoot {s : State} (hs : Keeps own s0 s) : Keeps own s0 (State.afterBoot s) := by
  unfold State.afterBoot
  repeat' (first
      | with_reducible assumption | with_reducible apply keeps_modHost | with_reducible apply keeps_foldl
      | with_reducible apply keeps_foldl2 | extract_lets | split | intro _ | (dsimp +zetaDelta -zeta only))

theorem keeps_answer {s : State} (r : Reply) (hs : Keeps own s0 s) : Keeps own s0 (State.answer s r) := by
  unfold State.answer
  repeat' (first
      | with_reducible assumption | with_reducible apply keeps_foldl | with_reducible apply keeps_foldl2
      | extract_lets | split | intro _ | (dsimp +zetaDelta -zeta only)
      | with_reducible refine keeps_mk ?_ (by first | exact Nat.le_refl _ | exact Nat.le_add_right _ _) rfl rfl rfl)

theorem keeps_applyStep {s : State} (hs : Keeps own s0 s) : Keeps own s0 (State.applyStep s) := by
  unfold State.applyStep
  repeat' (first
      | with_reducible assumption | with_reducible apply keeps_modPwr | with_reducible apply keeps_raise
      | with_reducible apply keeps_foldl | with_reducible apply keeps_foldl2 | extract_lets | split | intro _
      | (dsimp +zetaDelta -zeta only)
      | with_reducible refine keeps_mk ?_ (by first | exact Nat.le_refl _ | exact Nat.le_add_right _ _) rfl rfl rfl)

theorem keeps_modLayer {s : State} (l : Nat) (f : LayerSt → LayerSt) (hs : Keeps own s0 s) : Keeps own s0 (State.modLayer s l f) := by
  unfold State.modLayer
  repeat' (first
      | with_reducible assumption | with_reducible apply keeps_foldl | with_reducible apply keeps_foldl2
      | extract_lets | split | intro _ | (dsimp +zetaDelta -zeta only)
      | with_reducible refine keeps_mk ?_ (by first | exact Nat.le_refl _ | exact Nat.le_add_right _ _) rfl rfl rfl)

theorem keeps_modInv {s : State} (o : Nat) (f : InvSt → InvSt) (hs : Keeps own s0 s) : Keeps own s0 (State.modInv s o f) := by
  unfold State.modInv
  repeat' (first
      | with_reducible assumption | with_reducible apply keeps_foldl | with_reducible apply keeps_foldl2
      | extract_lets | split | intro _ | (dsimp +zetaDelta -zeta only)
      | with_reducible refine keeps_mk ?_ (by first | exact Nat.le_refl _ | exact Nat.le_add_right _ _) rfl rfl rfl)

theorem keeps_stand {s : State} (ord : Nat) (hs : Keeps own s0 s) : Keeps own s0 (State.stand s ord) := by
  unfold State.stand
  repeat' (first
      | with_reducible assumption | with_reducible apply keeps_modInv | with_reducible apply keeps_modLayer
      | with_reducible apply keeps_foldl | with_reducible apply keeps_foldl2 | extract_lets | split | intro _
      | (dsimp +zetaDelta -zeta only))

theorem keeps_modPrec {s : State} (f : PrecSt → PrecSt) (hs : Keeps own s0 s) : Keeps own s0 (State.modPrec s f) := by
  unfold State.modPrec
  repeat' (first
      | with_reducible assumption | with_reducible apply keeps_foldl | with_reducible apply keeps_foldl2
      | extract_lets | split | intro _ | (dsimp +zetaDelta -zeta only)
      | with_reducible refine keeps_mk ?_ (by first | exact Nat.le_refl _ | exact Nat.le_add_right _ _) rfl rfl rfl)

theorem keeps_refuse {s : State} (ord : Nat) (hs : Keeps own s0 s) : Keeps own s0 (State.refuse s ord) := by
  unfold State.refuse
  repeat' (first
      | with_reducible assumption | with_reducible apply keeps_modLayer | with_reducible apply keeps_modPrec
      | with_reducible apply keeps_raise | with_reducible apply keeps_slotFault
      | with_reducible apply keeps_stand | with_reducible apply keeps_foldl | with_reducible apply keeps_foldl2
      | extract_lets | split | intro _ | (dsimp +zetaDelta -zeta only))

theorem keeps_startSquash {s : State} (v : Nat) (hs : Keeps own s0 s) : Keeps own s0 (State.startSquash s v) := by
  unfold State.startSquash
  repeat' (first
      | with_reducible assumption | with_reducible apply keeps_foldl | with_reducible apply keeps_foldl2
      | extract_lets | split | intro _ | (dsimp +zetaDelta -zeta only)
      | with_reducible refine keeps_mk ?_ (by first | exact Nat.le_refl _ | exact Nat.le_add_right _ _) rfl rfl rfl)

theorem keeps_grant {s : State} (ord : Nat) (c : Nat) (promptOnly : Bool) (hs : Keeps own s0 s) : Keeps own s0 (State.grant s ord c promptOnly) := by
  unfold State.grant
  repeat' (first
      | with_reducible assumption | with_reducible apply keeps_modInv | with_reducible apply keeps_modPrec
      | with_reducible apply keeps_raise | with_reducible apply keeps_startSquash
      | with_reducible apply keeps_foldl | with_reducible apply keeps_foldl2 | extract_lets | split | intro _
      | (dsimp +zetaDelta -zeta only))

theorem keeps_askRerun {s : State} (ord : Nat) (promptOnly : Bool) (hs : Keeps own s0 s) : Keeps own s0 (State.askRerun s ord promptOnly) := by
  unfold State.askRerun
  repeat' (first
      | with_reducible assumption | with_reducible apply keeps_grant | with_reducible apply keeps_refuse
      | with_reducible apply keeps_stand | with_reducible apply keeps_foldl | with_reducible apply keeps_foldl2
      | extract_lets | split | intro _ | (dsimp +zetaDelta -zeta only))

theorem keeps_badOp {s : State} (hs : Keeps own s0 s) : Keeps own s0 (State.badOp s) := by
  unfold State.badOp
  repeat' (first
      | with_reducible assumption | with_reducible apply keeps_admReject | with_reducible apply keeps_admTake
      | with_reducible apply keeps_foldl | with_reducible apply keeps_foldl2 | extract_lets | split | intro _
      | (dsimp +zetaDelta -zeta only))

theorem keeps_barRefuse {s : State} (hs : Keeps own s0 s) : Keeps own s0 (State.barRefuse s) := by
  unfold State.barRefuse
  repeat' (first
      | with_reducible assumption | with_reducible apply keeps_modHost | with_reducible apply keeps_raise
      | with_reducible apply keeps_foldl | with_reducible apply keeps_foldl2 | extract_lets | split | intro _
      | (dsimp +zetaDelta -zeta only))

theorem keeps_drawWord {s : State} (hs : Keeps own s0 s) : Keeps own s0 (State.drawWord s).2 := by
  unfold State.drawWord
  repeat' (first
      | with_reducible assumption | with_reducible apply keeps_foldl | with_reducible apply keeps_foldl2
      | extract_lets | split | intro _ | (dsimp +zetaDelta -zeta only)
      | with_reducible refine keeps_mk ?_ (by first | exact Nat.le_refl _ | exact Nat.le_add_right _ _) rfl rfl rfl)

theorem keeps_raiseSupply {s : State} (n : Nat) (hs : Keeps own s0 s) : Keeps own s0 (State.raiseSupply s n) := by
  unfold State.raiseSupply
  repeat' (first
      | with_reducible assumption | with_reducible apply keeps_drawWord | with_reducible apply keeps_modClu
      | with_reducible apply keeps_foldl | with_reducible apply keeps_foldl2 | extract_lets | split | intro _
      | (dsimp +zetaDelta -zeta only))

theorem keeps_raiseAll {s : State} (hs : Keeps own s0 s) : Keeps own s0 (State.raiseAll s) := by
  unfold State.raiseAll
  repeat' (first
      | with_reducible assumption | with_reducible apply keeps_raiseSupply | with_reducible apply keeps_foldl
      | with_reducible apply keeps_foldl2 | extract_lets | split | intro _ | (dsimp +zetaDelta -zeta only))

theorem keeps_safeModeCue {s : State} (hs : Keeps own s0 s) : Keeps own s0 (State.safeModeCue s) := by
  unfold State.safeModeCue
  repeat' (first
      | with_reducible assumption | with_reducible apply keeps_modErr | with_reducible apply keeps_raise
      | with_reducible apply keeps_raiseAll | with_reducible apply keeps_rehTrigger
      | with_reducible apply keeps_foldl | with_reducible apply keeps_foldl2 | extract_lets | split | intro _
      | (dsimp +zetaDelta -zeta only))

theorem keeps_modWin {s : State} (f : WinSt → WinSt) (hs : Keeps own s0 s) : Keeps own s0 (State.modWin s f) := by
  unfold State.modWin
  repeat' (first
      | with_reducible assumption | with_reducible apply keeps_foldl | with_reducible apply keeps_foldl2
      | extract_lets | split | intro _ | (dsimp +zetaDelta -zeta only)
      | with_reducible refine keeps_mk ?_ (by first | exact Nat.le_refl _ | exact Nat.le_add_right _ _) rfl rfl rfl)

theorem keeps_linksAtCue {s : State} (hs : Keeps own s0 s) : Keeps own s0 (State.linksAtCue s) := by
  unfold State.linksAtCue
  repeat' (first
      | with_reducible assumption | with_reducible apply keeps_modWin | with_reducible apply keeps_foldl
      | with_reducible apply keeps_foldl2 | extract_lets | split | intro _ | (dsimp +zetaDelta -zeta only))

theorem keeps_modTick {s : State} (f : TickSt → TickSt) (hs : Keeps own s0 s) : Keeps own s0 (State.modTick s f) := by
  unfold State.modTick
  repeat' (first
      | with_reducible assumption | with_reducible apply keeps_foldl | with_reducible apply keeps_foldl2
      | extract_lets | split | intro _ | (dsimp +zetaDelta -zeta only)
      | with_reducible refine keeps_mk ?_ (by first | exact Nat.le_refl _ | exact Nat.le_add_right _ _) rfl rfl rfl)

theorem keeps_releaseResults {s : State} (upTo : DWord → Bool) (hs : Keeps own s0 s) : Keeps own s0 (State.releaseResults s upTo) := by
  unfold State.releaseResults
  repeat' (first
      | with_reducible assumption | with_reducible apply keeps_modHost | with_reducible apply keeps_foldl
      | with_reducible apply keeps_foldl2 | extract_lets | split | intro _ | (dsimp +zetaDelta -zeta only))

theorem keeps_twinInterval {s : State} (hs : Keeps own s0 s) : Keeps own s0 (State.twinInterval s) := by
  unfold State.twinInterval
  repeat' (first
      | with_reducible assumption | with_reducible apply keeps_modTwin | with_reducible apply keeps_raise
      | with_reducible apply keeps_releaseResults | with_reducible apply keeps_foldl
      | with_reducible apply keeps_foldl2 | extract_lets | split | intro _ | (dsimp +zetaDelta -zeta only))

theorem keeps_coolCue {s : State} (hs : Keeps own s0 s) : Keeps own s0 (State.coolCue s) := by
  unfold State.coolCue
  repeat' (first
      | with_reducible assumption | with_reducible apply keeps_modPwr | with_reducible apply keeps_foldl
      | with_reducible apply keeps_foldl2 | extract_lets | split | intro _ | (dsimp +zetaDelta -zeta only))

theorem keeps_beforePlan {s : State} (c : HeldCue) (rest : List HeldCue) (at_ : Nat) (hs : Keeps own s0 s) : Keeps own s0 (State.beforePlan s c rest at_) := by
  unfold State.beforePlan
  repeat' (first
      | with_reducible assumption | with_reducible apply keeps_adoptAtCue | with_reducible apply keeps_applyStep
      | with_reducible apply keeps_coolCue | with_reducible apply keeps_linksAtCue
      | with_reducible apply keeps_modPrec | with_reducible apply keeps_modPwr
      | with_reducible apply keeps_modTick | with_reducible apply keeps_safeModeCue
      | with_reducible apply keeps_twinInterval | with_reducible apply keeps_foldl
      | with_reducible apply keeps_foldl2 | extract_lets | split | intro _ | (dsimp +zetaDelta -zeta only)
      | with_reducible refine keeps_mk ?_ (by first | exact Nat.le_refl _ | exact Nat.le_add_right _ _) rfl rfl rfl)

theorem keeps_modEng {s : State} (c : CoreId) (e : Nat) (f : EngineSt → EngineSt) (hs : Keeps own s0 s) : Keeps own s0 (State.modEng s c e f) := by
  unfold State.modEng
  repeat' (first
      | with_reducible assumption | with_reducible apply keeps_modCore | with_reducible apply keeps_foldl
      | with_reducible apply keeps_foldl2 | extract_lets | split | intro _ | (dsimp +zetaDelta -zeta only))

theorem keeps_gateEngines {s : State} (c : CoreId) (d : LayerDesc) (mode : Nat) (hs : Keeps own s0 s) : Keeps own s0 (State.gateEngines s c d mode) := by
  unfold State.gateEngines
  repeat' (first
      | with_reducible assumption | with_reducible apply keeps_modEng | with_reducible apply keeps_foldl
      | with_reducible apply keeps_foldl2 | extract_lets | split | intro _ | (dsimp +zetaDelta -zeta only))

theorem keeps_modSeq {s : State} (c : CoreId) (f : SeqSt → SeqSt) (hs : Keeps own s0 s) : Keeps own s0 (State.modSeq s c f) := by
  unfold State.modSeq
  repeat' (first
      | with_reducible assumption | with_reducible apply keeps_modCore | with_reducible apply keeps_foldl
      | with_reducible apply keeps_foldl2 | extract_lets | split | intro _ | (dsimp +zetaDelta -zeta only))

theorem keeps_issued {s : State} (c : CoreId) (hs : Keeps own s0 s) : Keeps own s0 (State.issued s c) := by
  unfold State.issued
  repeat' (first
      | with_reducible assumption | with_reducible apply keeps_drawWord | with_reducible apply keeps_modCore
      | with_reducible apply keeps_modSeq | with_reducible apply keeps_foldl | with_reducible apply keeps_foldl2
      | extract_lets | split | intro _ | (dsimp +zetaDelta -zeta only))

theorem keeps_bind {s : State} (c : CoreId) (d : LayerDesc) (ord : Nat) (hs : Keeps own s0 s) : Keeps own s0 (State.bind s c d ord) := by
  unfold State.bind
  repeat' (first
      | with_reducible assumption | with_reducible apply keeps_gateEngines | with_reducible apply keeps_issued
      | with_reducible apply keeps_modInv | with_reducible apply keeps_modSeq | with_reducible apply keeps_foldl
      | with_reducible apply keeps_foldl2 | extract_lets | split | intro _ | (dsimp +zetaDelta -zeta only))

theorem keeps_sharedFault {s : State} (hs : Keeps own s0 s) : Keeps own s0 (State.sharedFault s) := by
  unfold State.sharedFault
  repeat' (first
      | with_reducible assumption | with_reducible apply keeps_abandonTick | with_reducible apply keeps_foldl
      | with_reducible apply keeps_foldl2 | extract_lets | split | intro _ | (dsimp +zetaDelta -zeta only))

theorem keeps_openWindow {s : State} (w : Nat) (hs : Keeps own s0 s) : Keeps own s0 (State.openWindow s w) := by
  unfold State.openWindow
  repeat' (first
      | with_reducible assumption | with_reducible apply keeps_modWindow | with_reducible apply keeps_sendRouted
      | with_reducible apply keeps_foldl | with_reducible apply keeps_foldl2 | extract_lets | split | intro _
      | (dsimp +zetaDelta -zeta only))

theorem keeps_refetchStart {s : State} (block : Nat) (hs : Keeps own s0 s) : Keeps own s0 (State.refetchStart s block) := by
  unfold State.refetchStart
  repeat' (first
      | with_reducible assumption | with_reducible apply keeps_modTwin | with_reducible apply keeps_modWindow
      | with_reducible apply keeps_openWindow | with_reducible apply keeps_sendTwin
      | with_reducible apply keeps_foldl | with_reducible apply keeps_foldl2 | extract_lets | split | intro _
      | (dsimp +zetaDelta -zeta only))

theorem keeps_refetchWant {s : State} (block : Nat) (hs : Keeps own s0 s) : Keeps own s0 (State.refetchWant s block) := by
  unfold State.refetchWant
  repeat' (first
      | with_reducible assumption | with_reducible apply keeps_modTwin | with_reducible apply keeps_raise
      | with_reducible apply keeps_refetchStart | with_reducible apply keeps_foldl
      | with_reducible apply keeps_foldl2 | extract_lets | split | intro _ | (dsimp +zetaDelta -zeta only))

theorem keeps_injFire {s : State} (hs : Keeps own s0 s) : Keeps own s0 (State.injFire s) := by
  unfold State.injFire
  repeat' (first
      | with_reducible assumption | with_reducible apply keeps_modErr | with_reducible apply keeps_raise
      | with_reducible apply keeps_foldl | with_reducible apply keeps_foldl2 | extract_lets | split | intro _
      | (dsimp +zetaDelta -zeta only))

theorem keeps_readSpm {s : State} (r : Region) (off : Nat) (n : Nat) (live : Bool) (hs : Keeps own s0 s) : Keeps own s0 (State.readSpm s r off n live).2 := by
  unfold State.readSpm
  repeat' (first
      | with_reducible assumption | with_reducible apply keeps_injFire | with_reducible apply keeps_modClu
      | with_reducible apply keeps_raise | with_reducible apply keeps_foldl | with_reducible apply keeps_foldl2
      | extract_lets | split | intro _ | (dsimp +zetaDelta -zeta only)
      | with_reducible refine keeps_mk ?_ (by first | exact Nat.le_refl _ | exact Nat.le_add_right _ _) rfl rfl rfl)

theorem keeps_modStk {s : State} (k : Nat) (f : StkSt → StkSt) (hs : Keeps own s0 s) : Keeps own s0 (State.modStk s k f) := by
  unfold State.modStk
  repeat' (first
      | with_reducible assumption | with_reducible apply keeps_foldl | with_reducible apply keeps_foldl2
      | extract_lets | split | intro _ | (dsimp +zetaDelta -zeta only)
      | with_reducible refine keeps_mk ?_ (by first | exact Nat.le_refl _ | exact Nat.le_add_right _ _) rfl rfl rfl)

theorem keeps_stkUe {s : State} (k : Nat) (a : Nat) (hs : Keeps own s0 s) : Keeps own s0 (State.stkUe s k a) := by
  unfold State.stkUe
  repeat' (first
      | with_reducible assumption | with_reducible apply keeps_modStk | with_reducible apply keeps_raise
      | with_reducible apply keeps_foldl | with_reducible apply keeps_foldl2 | extract_lets | split | intro _
      | (dsimp +zetaDelta -zeta only))

theorem keeps_markLane {s : State} (k : Nat) (chan : Nat) (lane : Nat) (hs : Keeps own s0 s) : Keeps own s0 (State.markLane s k chan lane) := by
  unfold State.markLane
  repeat' (first
      | with_reducible assumption | with_reducible apply keeps_modStk | with_reducible apply keeps_raise
      | with_reducible apply keeps_foldl | with_reducible apply keeps_foldl2 | extract_lets | split | intro _
      | (dsimp +zetaDelta -zeta only))

theorem keeps_spareRow {s : State} (k : Nat) (deep : Bool) (row : Nat) (hs : Keeps own s0 s) : Keeps own s0 (State.spareRow s k deep row) := by
  unfold State.spareRow
  repeat' (first
      | with_reducible assumption | with_reducible apply keeps_modStk | with_reducible apply keeps_raise
      | with_reducible apply keeps_foldl | with_reducible apply keeps_foldl2 | extract_lets | split | intro _
      | (dsimp +zetaDelta -zeta only))

theorem keeps_granuleRead {s : State} (k : Nat) (chan : Nat) (off : Nat) (hs : Keeps own s0 s) : Keeps own s0 (State.granuleRead s k chan off).2 := by
  unfold State.granuleRead
  repeat' (first
      | with_reducible assumption | with_reducible apply keeps_markLane | with_reducible apply keeps_modStk
      | with_reducible apply keeps_raise | with_reducible apply keeps_spareRow | with_reducible apply keeps_foldl
      | with_reducible apply keeps_foldl2 | extract_lets | split | intro _ | (dsimp +zetaDelta -zeta only))

theorem keeps_readGranule {s : State} (k : Nat) (chan : Nat) (off : Nat) (a : Nat) (hs : Keeps own s0 s) : Keeps own s0 (State.readGranule s k chan off a).2 := by
  unfold State.readGranule
  repeat' (first
      | with_reducible assumption | with_reducible apply keeps_granuleRead | with_reducible apply keeps_injFire
      | with_reducible apply keeps_stkUe | with_reducible apply keeps_foldl | with_reducible apply keeps_foldl2
      | extract_lets | split | intro _ | (dsimp +zetaDelta -zeta only))

theorem keeps_readGranules {s : State} (a : Nat) (x2 : Nat) (hs : Keeps own s0 s) : Keeps own s0 (State.readGranules s a x2).2 := by
  induction x2 generalizing s a with
  | zero => unfold State.readGranules; exact hs
  | succ k ih =>
  unfold State.readGranules
  repeat' (first
      | with_reducible assumption | with_reducible apply ih | with_reducible apply keeps_readGranule
      | with_reducible apply keeps_foldl | with_reducible apply keeps_foldl2 | extract_lets | split | intro _
      | (dsimp +zetaDelta -zeta only))

theorem keeps_readDev {s : State} (a : Nat) (n : Nat) (hs : Keeps own s0 s) : Keeps own s0 (State.readDev s a n).2 := by
  unfold State.readDev
  repeat' (first
      | with_reducible assumption | with_reducible apply keeps_readGranules | with_reducible apply keeps_readSpm
      | with_reducible apply keeps_foldl | with_reducible apply keeps_foldl2 | extract_lets | split | intro _
      | (dsimp +zetaDelta -zeta only))

theorem keeps_readWork {s : State} (a : Nat) (n : Nat) (x3 : Nat) (hs : Keeps own s0 s) : Keeps own s0 (State.readWork s a n x3).2 := by
  induction x3 generalizing s a n with
  | zero => unfold State.readWork; exact hs
  | succ k ih =>
  unfold State.readWork
  repeat' (first
      | with_reducible assumption | with_reducible apply ih | with_reducible apply keeps_readDev
      | with_reducible apply keeps_refetchWant | with_reducible apply keeps_sharedFault
      | with_reducible apply keeps_foldl | with_reducible apply keeps_foldl2 | extract_lets | split | intro _
      | (dsimp +zetaDelta -zeta only))

theorem keeps_workRead {s : State} (a : Nat) (n : Nat) (hs : Keeps own s0 s) : Keeps own s0 (State.workRead s a n).2 := by
  unfold State.workRead
  repeat' (first
      | with_reducible assumption | with_reducible apply keeps_readWork | with_reducible apply keeps_foldl
      | with_reducible apply keeps_foldl2 | extract_lets | split | intro _ | (dsimp +zetaDelta -zeta only))

theorem keeps_readWords {s : State} (x1 : List Nat) (hs : Keeps own s0 s) : Keeps own s0 (State.readWords s x1).2 := by
  induction x1 generalizing s with
  | nil => unfold State.readWords; exact hs
  | cons y t ih =>
  unfold State.readWords
  repeat' (first
      | with_reducible assumption | with_reducible apply ih | with_reducible apply keeps_workRead
      | with_reducible apply keeps_foldl | with_reducible apply keeps_foldl2 | extract_lets | split | intro _
      | (dsimp +zetaDelta -zeta only))

theorem keeps_reachFault {s : State} (c : CoreId) (hs : Keeps own s0 s) : Keeps own s0 (State.reachFault s c) := by
  unfold State.reachFault
  repeat' (first
      | with_reducible assumption | with_reducible apply keeps_modClu | with_reducible apply keeps_raise
      | with_reducible apply keeps_sharedFault | with_reducible apply keeps_foldl
      | with_reducible apply keeps_foldl2 | extract_lets | split | intro _ | (dsimp +zetaDelta -zeta only))

theorem keeps_copyWords {s : State} (src : List Nat) (dst : List Nat) (hs : Keeps own s0 s) : Keeps own s0 (State.copyWords s src dst) := by
  unfold State.copyWords
  repeat' (first
      | with_reducible assumption | with_reducible apply keeps_writeDev | with_reducible apply keeps_foldl
      | with_reducible apply keeps_foldl2 | extract_lets | split | intro _ | (dsimp +zetaDelta -zeta only))

theorem keeps_waitAt {s : State} (c : CoreId) (st : BitVec 4) (hs : Keeps own s0 s) : Keeps own s0 (State.waitAt s c st) := by
  unfold State.waitAt
  repeat' (first
      | with_reducible assumption | with_reducible apply keeps_modSeq | with_reducible apply keeps_foldl
      | with_reducible apply keeps_foldl2 | extract_lets | split | intro _ | (dsimp +zetaDelta -zeta only))

theorem keeps_sbEnter {s : State} (c : CoreId) (w : List SbRange) (l : List SbRange) (hs : Keeps own s0 s) : Keeps own s0 (State.sbEnter s c w l) := by
  unfold State.sbEnter
  repeat' (first
      | with_reducible assumption | with_reducible apply keeps_modCore | with_reducible apply keeps_foldl
      | with_reducible apply keeps_foldl2 | extract_lets | split | intro _ | (dsimp +zetaDelta -zeta only))

theorem keeps_withSb {s : State} (c : CoreId) (w : List SbRange) (l : List SbRange) (ck : List SbRange) (f : State → State) (hs : Keeps own s0 s) (hf : ∀ y0, Keeps own s0 y0 → Keeps own s0 (f y0)) : Keeps own s0 (State.withSb s c w l ck f) := by
  unfold State.withSb
  repeat' (first
      | with_reducible assumption | with_reducible apply hf | with_reducible apply keeps_sbEnter
      | with_reducible apply keeps_waitAt | with_reducible apply keeps_foldl | with_reducible apply keeps_foldl2
      | extract_lets | split | intro _ | (dsimp +zetaDelta -zeta only))

theorem keeps_modRing {s : State} (c : CoreId) (q : Nat) (f : RingSt → RingSt) (hs : Keeps own s0 s) : Keeps own s0 (State.modRing s c q f) := by
  unfold State.modRing
  repeat' (first
      | with_reducible assumption | with_reducible apply keeps_modCore | with_reducible apply keeps_foldl
      | with_reducible apply keeps_foldl2 | extract_lets | split | intro _ | (dsimp +zetaDelta -zeta only))

theorem keeps_ringFault {s : State} (c : CoreId) (q : Nat) (hs : Keeps own s0 s) : Keeps own s0 (State.ringFault s c q) := by
  unfold State.ringFault
  repeat' (first
      | with_reducible assumption | with_reducible apply keeps_modRing | with_reducible apply keeps_raise
      | with_reducible apply keeps_sharedFault | with_reducible apply keeps_foldl
      | with_reducible apply keeps_foldl2 | extract_lets | split | intro _ | (dsimp +zetaDelta -zeta only))

theorem keeps_ringPut {s : State} (c : CoreId) (q : Nat) (p : Nat) (l : List Byte) (hs : Keeps own s0 s) : Keeps own s0 (State.ringPut s c q p l) := by
  unfold State.ringPut
  repeat' (first
      | with_reducible assumption | with_reducible apply keeps_writeDev | with_reducible apply keeps_foldl
      | with_reducible apply keeps_foldl2 | extract_lets | split | intro _ | (dsimp +zetaDelta -zeta only))

theorem keeps_pushBytes {s : State} (c : CoreId) (q : Nat) (p : Producer) (e : BitVec 16) (l : List Byte) (hs : Keeps own s0 s) : KeepsR own s0 (State.pushBytes s c q p e l) := by
  unfold State.pushBytes
  repeat' (first
      | with_reducible assumption | with_reducible apply keeps_modRing | with_reducible apply keeps_ringPut
      | with_reducible apply keeps_foldl | with_reducible apply keeps_foldl2 | with_reducible apply keepsR_done
      | with_reducible apply keepsR_wait | extract_lets | split | intro _ | (dsimp +zetaDelta -zeta only))

theorem keeps_pushUnit {s : State} (c : CoreId) (q : Nat) (p : Producer) (kind : Nat) (e : BitVec 16) (body : List Byte) (hs : Keeps own s0 s) : KeepsR own s0 (State.pushUnit s c q p kind e body) := by
  unfold State.pushUnit
  repeat' (first
      | with_reducible assumption | with_reducible apply keeps_pushBytes | with_reducible apply keeps_ringFault
      | with_reducible apply keeps_foldl | with_reducible apply keeps_foldl2 | with_reducible apply keepsR_done
      | with_reducible apply keepsR_wait | with_reducible refine keeps_of_done (by with_reducible assumption) ?_
      | with_reducible refine keeps_of_wait (by with_reducible assumption) ?_ | extract_lets | split | intro _
      | (dsimp +zetaDelta -zeta only))

theorem keeps_pushMove {s : State} (o : DmaOp) (x2 : Nat) (hs : Keeps own s0 s) : Keeps own s0 (State.pushMove s o x2).2 := by
  induction x2 generalizing s o with
  | zero => unfold State.pushMove; exact hs
  | succ k ih =>
  unfold State.pushMove
  repeat' (first
      | with_reducible assumption | with_reducible apply ih | with_reducible apply keeps_pushUnit
      | with_reducible apply keeps_foldl | with_reducible apply keeps_foldl2
      | with_reducible refine keeps_of_done (by with_reducible assumption) ?_
      | with_reducible refine keeps_of_wait (by with_reducible assumption) ?_ | extract_lets | split | intro _
      | (dsimp +zetaDelta -zeta only))

theorem keeps_queueMove {s : State} (c : CoreId) (die : Bool) (o : DmaOp) (hs : Keeps own s0 s) : Keeps own s0 (State.queueMove s c die o) := by
  unfold State.queueMove
  repeat' (first
      | with_reducible assumption | with_reducible apply keeps_modCore | with_reducible apply keeps_pushMove
      | with_reducible apply keeps_foldl | with_reducible apply keeps_foldl2 | extract_lets | split | intro _
      | (dsimp +zetaDelta -zeta only))

theorem keeps_blockMove {s : State} (c : CoreId) (w : DWord) (write : Bool) (hs : Keeps own s0 s) : Keeps own s0 (State.blockMove s c w write) := by
  unfold State.blockMove
  repeat' (first
      | with_reducible assumption | with_reducible apply keeps_copyWords | with_reducible apply keeps_issued
      | with_reducible apply keeps_queueMove | with_reducible apply keeps_reachFault
      | with_reducible apply keeps_readWords | with_reducible apply keeps_waitAt
      | with_reducible apply keeps_withSb | with_reducible apply keeps_foldl | with_reducible apply keeps_foldl2
      | extract_lets | split | intro _ | (dsimp +zetaDelta -zeta only))

theorem keeps_takeSettings {s : State} (r : Settings) (hs : Keeps own s0 s) : Keeps own s0 (State.takeSettings s r) := by
  unfold State.takeSettings
  repeat' (first
      | with_reducible assumption | with_reducible apply keeps_modClu | with_reducible apply keeps_modHost
      | with_reducible apply keeps_modPrec | with_reducible apply keeps_modPwr
      | with_reducible apply keeps_modStk | with_reducible apply keeps_foldl | with_reducible apply keeps_foldl2
      | extract_lets | split | intro _ | (dsimp +zetaDelta -zeta only))

theorem keeps_modPin {s : State} (f : PinSt → PinSt) (hs : Keeps own s0 s) : Keeps own s0 (State.modPin s f) := by
  unfold State.modPin
  repeat' (first
      | with_reducible assumption | with_reducible apply keeps_foldl | with_reducible apply keeps_foldl2
      | extract_lets | split | intro _ | (dsimp +zetaDelta -zeta only)
      | with_reducible refine keeps_mk ?_ (by first | exact Nat.le_refl _ | exact Nat.le_add_right _ _) rfl rfl rfl)

theorem keeps_modUpd {s : State} (f : UpdSt → UpdSt) (hs : Keeps own s0 s)
    (hk : (f s.upd).flash.ownerKey = s.upd.flash.ownerKey) (hl : (f s.upd).flash.ownerLock = s.upd.flash.ownerLock) :
    Keeps own s0 (s.modUpd f) := keeps_mk hs (Nat.le_refl _) rfl hk hl

theorem keeps_placeItems {s : State} (on : Nat → Bool) (hs : Keeps own s0 s) : Keeps own s0 (State.placeItems s on) := by
  unfold State.placeItems
  repeat' (first
      | with_reducible assumption | with_reducible apply keeps_modRing | with_reducible apply keeps_modSeq
      | with_reducible apply keeps_writeDev | with_reducible apply keeps_foldl
      | with_reducible apply keeps_foldl2 | extract_lets | split | intro _ | (dsimp +zetaDelta -zeta only))

theorem keeps_takeConfig {s : State} (c : CfgImage) (hs : Keeps own s0 s) : Keeps own s0 (State.takeConfig s c) := by
  unfold State.takeConfig
  repeat' (first
      | with_reducible assumption | with_reducible apply keeps_modHost | with_reducible apply keeps_modLnk
      | with_reducible apply keeps_modPin | with_reducible apply keeps_modPrec
      | with_reducible apply keeps_modPwr | with_reducible apply keeps_modReh
      | with_reducible apply keeps_modTick | with_reducible apply keeps_modUpd
      | with_reducible apply keeps_modWin | with_reducible apply keeps_placeItems
      | with_reducible apply keeps_foldl | with_reducible apply keeps_foldl2 | with_reducible rfl | extract_lets
      | split | intro _ | (dsimp +zetaDelta -zeta only)
      | with_reducible refine keeps_mk ?_ (by first | exact Nat.le_refl _ | exact Nat.le_add_right _ _) rfl rfl rfl)

theorem keeps_bootConfig {s : State} (c : CfgImage) (hs : Keeps own s0 s) : Keeps own s0 (State.bootConfig s c) := by
  unfold State.bootConfig
  repeat' (first
      | with_reducible assumption | with_reducible apply keeps_takeConfig
      | with_reducible apply keeps_takeSettings | with_reducible apply keeps_foldl
      | with_reducible apply keeps_foldl2 | extract_lets | split | intro _ | (dsimp +zetaDelta -zeta only))

theorem keeps_bootFloor {s : State} (m : FwImage) (trial : Bool) (hs : Keeps own s0 s) : Keeps own s0 (State.bootFloor s m trial) := by
  unfold State.bootFloor
  repeat' (first
      | with_reducible assumption | with_reducible apply keeps_modUpd | with_reducible apply keeps_raise
      | with_reducible apply keeps_foldl | with_reducible apply keeps_foldl2 | with_reducible rfl
      | (simp only [Flash.writeFloor_ownerKey]) | (simp only [Flash.writeFloor_ownerLock]) | extract_lets | split
      | intro _ | (dsimp +zetaDelta -zeta only))

theorem keeps_rejectConfig {s : State} (l : List Nat) (hs : Keeps own s0 s) : Keeps own s0 (State.rejectConfig s l) := by
  unfold State.rejectConfig
  repeat' (first
      | with_reducible assumption | with_reducible apply keeps_drawWord | with_reducible apply keeps_modUpd
      | with_reducible apply keeps_raise | with_reducible apply keeps_foldl | with_reducible apply keeps_foldl2
      | with_reducible rfl | extract_lets | split | intro _ | (dsimp +zetaDelta -zeta only))

theorem keeps_setGateBit {s : State} (f : Gateable) (on : Bool) (hs : Keeps own s0 s) : Keeps own s0 (State.setGateBit s f on) := by
  unfold State.setGateBit
  repeat' (first
      | with_reducible assumption | with_reducible apply keeps_modPwr | with_reducible apply keeps_foldl
      | with_reducible apply keeps_foldl2 | extract_lets | split | intro _ | (dsimp +zetaDelta -zeta only))

theorem keeps_modGate {s : State} (f : Gateable) (g : GateSt → GateSt) (hs : Keeps own s0 s) : Keeps own s0 (State.modGate s f g) := by
  unfold State.modGate
  repeat' (first
      | with_reducible assumption | with_reducible apply keeps_modPwr | with_reducible apply keeps_foldl
      | with_reducible apply keeps_foldl2 | extract_lets | split | intro _ | (dsimp +zetaDelta -zeta only))

theorem keeps_gateReq {s : State} (f : Gateable) (on : Bool) (hs : Keeps own s0 s) : Keeps own s0 (State.gateReq s f on) := by
  unfold State.gateReq
  repeat' (first
      | with_reducible assumption | with_reducible apply keeps_modGate | with_reducible apply keeps_raise
      | with_reducible apply keeps_setGateBit | with_reducible apply keeps_foldl
      | with_reducible apply keeps_foldl2 | extract_lets | split | intro _ | (dsimp +zetaDelta -zeta only))

theorem keeps_gateUnused {s : State} (hs : Keeps own s0 s) : Keeps own s0 (State.gateUnused s) := by
  unfold State.gateUnused
  repeat' (first
      | with_reducible assumption | with_reducible apply keeps_gateReq | with_reducible apply keeps_modGate
      | with_reducible apply keeps_foldl | with_reducible apply keeps_foldl2 | extract_lets | split | intro _
      | (dsimp +zetaDelta -zeta only))

theorem keeps_trainStack {s : State} (t : StackTrain) (hs : Keeps own s0 s) : Keeps own s0 (State.trainStack s t) := by
  unfold State.trainStack
  repeat' (first
      | with_reducible assumption | with_reducible apply keeps_modStk | with_reducible apply keeps_raise
      | with_reducible apply keeps_foldl | with_reducible apply keeps_foldl2 | extract_lets | split | intro _
      | (dsimp +zetaDelta -zeta only))

theorem keeps_trainStacks {s : State} (l : List StackTrain) (hs : Keeps own s0 s) : Keeps own s0 (State.trainStacks s l) := by
  unfold State.trainStacks
  repeat' (first
      | with_reducible assumption | with_reducible apply keeps_trainStack | with_reducible apply keeps_foldl
      | with_reducible apply keeps_foldl2 | extract_lets | split | intro _ | (dsimp +zetaDelta -zeta only))

theorem keeps_openSpare {s : State} (hs : Keeps own s0 s) : Keeps own s0 (State.openSpare s) := by
  unfold State.openSpare
  repeat' (first
      | with_reducible assumption | with_reducible apply keeps_modWindow | with_reducible apply keeps_openWindow
      | with_reducible apply keeps_foldl | with_reducible apply keeps_foldl2 | extract_lets | split | intro _
      | (dsimp +zetaDelta -zeta only))

theorem keeps_openConfigured {s : State} (w : WindowCfg) (hs : Keeps own s0 s) : Keeps own s0 (State.openConfigured s w) := by
  unfold State.openConfigured
  repeat' (first
      | with_reducible assumption | with_reducible apply keeps_modWindow | with_reducible apply keeps_openWindow
      | with_reducible apply keeps_foldl | with_reducible apply keeps_foldl2 | extract_lets | split | intro _
      | (dsimp +zetaDelta -zeta only))

theorem keeps_enterReady {s : State} (trial : Bool) (hs : Keeps own s0 s) : Keeps own s0 (State.enterReady s trial) := by
  unfold State.enterReady
  repeat' (first
      | with_reducible assumption | with_reducible apply keeps_afterBoot | with_reducible apply keeps_modPwr
      | with_reducible apply keeps_modTwin | with_reducible apply keeps_openConfigured
      | with_reducible apply keeps_openSpare | with_reducible apply keeps_foldl
      | with_reducible apply keeps_foldl2 | extract_lets | split | intro _ | (dsimp +zetaDelta -zeta only)
      | with_reducible refine keeps_mk ?_ (by first | exact Nat.le_refl _ | exact Nat.le_add_right _ _) rfl rfl rfl)

theorem keeps_selfTestPassed {s : State} (on : Nat → Bool) (hs : Keeps own s0 s) : Keeps own s0 (State.selfTestPassed s on) := by
  unfold State.selfTestPassed
  repeat' (first
      | with_reducible assumption | with_reducible apply keeps_modErr | with_reducible apply keeps_placeItems
      | with_reducible apply keeps_foldl | with_reducible apply keeps_foldl2 | extract_lets | split | intro _
      | (dsimp +zetaDelta -zeta only))

theorem keeps_selfTestFailed {s : State} (row : BitVec 4) (pos : BitVec 16) (hs : Keeps own s0 s) : Keeps own s0 (State.selfTestFailed s row pos) := by
  unfold State.selfTestFailed
  repeat' (first
      | with_reducible assumption | with_reducible apply keeps_modErr | with_reducible apply keeps_raise
      | with_reducible apply keeps_foldl | with_reducible apply keeps_foldl2 | extract_lets | split | intro _
      | (dsimp +zetaDelta -zeta only))

theorem keeps_zeroRegion {s : State} (r : Region) (hs : Keeps own s0 s) : Keeps own s0 (State.zeroRegion s r) := by
  unfold State.zeroRegion
  extract_lets a n out t
  with_reducible apply keeps_foldl
  · exact ⟨fun w => tab_clearRange_wf memDefault _ _ _ (hs.mem w), hs.queue, hs.variant, hs.free, hs.owner⟩
  · intro t c ht
    with_reducible apply keeps_modCore
    with_reducible assumption

theorem keeps_selfTestClear {s : State} (on : Nat → Bool) (hs : Keeps own s0 s) : Keeps own s0 (State.selfTestClear s on) := by
  unfold State.selfTestClear
  repeat' (first
      | with_reducible assumption | with_reducible apply keeps_zeroRegion | with_reducible apply keeps_foldl
      | with_reducible apply keeps_foldl2 | extract_lets | split | intro _ | (dsimp +zetaDelta -zeta only)
      | with_reducible refine keeps_mk ?_ (by first | exact Nat.le_refl _ | exact Nat.le_add_right _ _) rfl rfl rfl)

theorem keeps_startTest {s : State} (fail : Option (BitVec 4 × BitVec 16)) (hs : Keeps own s0 s) : Keeps own s0 (State.startTest s fail) := by
  unfold State.startTest
  repeat' (first
      | with_reducible assumption | with_reducible apply keeps_selfTestClear
      | with_reducible apply keeps_selfTestFailed | with_reducible apply keeps_selfTestPassed
      | with_reducible apply keeps_foldl | with_reducible apply keeps_foldl2 | extract_lets | split | intro _
      | (dsimp +zetaDelta -zeta only))

theorem keeps_resendOuts {s : State} (p : Nat) (hs : Keeps own s0 s) : Keeps own s0 (State.resendOuts s p) := by
  unfold State.resendOuts
  repeat' (first
      | with_reducible assumption | with_reducible apply keeps_modWin | with_reducible apply keeps_foldl
      | with_reducible apply keeps_foldl2 | extract_lets | split | intro _ | (dsimp +zetaDelta -zeta only))

theorem keeps_trained {s : State} (t : LinkTrain) (hs : Keeps own s0 s) : Keeps own s0 (State.trained s t) := by
  unfold State.trained
  repeat' (first
      | with_reducible assumption | with_reducible apply keeps_modLnk | with_reducible apply keeps_raise
      | with_reducible apply keeps_resendOuts | with_reducible apply keeps_foldl
      | with_reducible apply keeps_foldl2 | extract_lets | split | intro _ | (dsimp +zetaDelta -zeta only))

theorem keeps_trainLinks {s : State} (l : List LinkTrain) (hs : Keeps own s0 s) : Keeps own s0 (State.trainLinks s l) := by
  unfold State.trainLinks
  repeat' (first
      | with_reducible assumption | with_reducible apply keeps_trained | with_reducible apply keeps_foldl
      | with_reducible apply keeps_foldl2 | extract_lets | split | intro _ | (dsimp +zetaDelta -zeta only))

theorem keeps_disarm {s : State} (hs : Keeps own s0 s) : Keeps own s0 (State.disarm s) := by
  unfold State.disarm
  repeat' (first
      | with_reducible assumption | with_reducible apply keeps_modErr | with_reducible apply keeps_foldl
      | with_reducible apply keeps_foldl2 | extract_lets | split | intro _ | (dsimp +zetaDelta -zeta only))

theorem keeps_goSafe {s : State} (hs : Keeps own s0 s) : Keeps own s0 (State.goSafe s) := by
  unfold State.goSafe
  repeat' (first
      | with_reducible assumption | with_reducible apply keeps_disarm | with_reducible apply keeps_modReh
      | with_reducible apply keeps_modTick | with_reducible apply keeps_foldl | with_reducible apply keeps_foldl2
      | extract_lets | split | intro _ | (dsimp +zetaDelta -zeta only)
      | with_reducible refine keeps_mk ?_ (by first | exact Nat.le_refl _ | exact Nat.le_add_right _ _) rfl rfl rfl)

theorem keeps_bootSafe {s : State} (hs : Keeps own s0 s) : Keeps own s0 (State.bootSafe s) := by
  unfold State.bootSafe
  repeat' (first
      | with_reducible assumption | with_reducible apply keeps_afterBoot | with_reducible apply keeps_goSafe
      | with_reducible apply keeps_foldl | with_reducible apply keeps_foldl2 | extract_lets | split | intro _
      | (dsimp +zetaDelta -zeta only))

theorem keeps_bootTrain {s : State} (env : BootEnv) (trial : Bool) (hs : Keeps own s0 s) : Keeps own s0 (State.bootTrain s env trial) := by
  unfold State.bootTrain
  repeat' (first
      | with_reducible assumption | with_reducible apply keeps_bootSafe | with_reducible apply keeps_enterReady
      | with_reducible apply keeps_gateUnused | with_reducible apply keeps_startTest
      | with_reducible apply keeps_trainLinks | with_reducible apply keeps_trainStacks
      | with_reducible apply keeps_foldl | with_reducible apply keeps_foldl2 | extract_lets | split | intro _
      | (dsimp +zetaDelta -zeta only))

theorem keeps_runFw {s : State} (m : FwImage) (c : Chosen) (hs : Keeps own s0 s) : Keeps own s0 (State.runFw s m c) := by
  unfold State.runFw
  repeat' (first
      | with_reducible assumption | with_reducible apply keeps_bootFloor | with_reducible apply keeps_modUpd
      | with_reducible apply keeps_foldl | with_reducible apply keeps_foldl2 | with_reducible rfl
      | (simp only [Flash.runSlots_ownerKey, Flash.takeFormat_ownerKey])
      | (simp only [Flash.runSlots_ownerLock, Flash.takeFormat_ownerLock]) | extract_lets | split | intro _
      | (dsimp +zetaDelta -zeta only)
      | with_reducible refine keeps_mk ?_ (by first | exact Nat.le_refl _ | exact Nat.le_add_right _ _) rfl rfl rfl)

theorem keeps_putPtr {s : State} (r : PtrRec) (hs : Keeps own s0 s) : Keeps own s0 (State.putPtr s r) := by
  unfold State.putPtr
  repeat' (first
      | with_reducible assumption | with_reducible apply keeps_modUpd | with_reducible apply keeps_foldl
      | with_reducible apply keeps_foldl2 | with_reducible rfl | (simp only [Flash.writePtr_ownerKey])
      | (simp only [Flash.writePtr_ownerLock]) | extract_lets | split | intro _ | (dsimp +zetaDelta -zeta only))

theorem keeps_modFlash {s : State} (f : Flash → Flash) (hs : Keeps own s0 s)
    (hk : (f s.upd.flash).ownerKey = s.upd.flash.ownerKey) (hl : (f s.upd.flash).ownerLock = s.upd.flash.ownerLock) :
    Keeps own s0 (s.modFlash f) := keeps_modUpd _ hs hk hl

theorem keeps_revert {s : State} (r : Nat) (hs : Keeps own s0 s) : Keeps own s0 (State.revert s r) := by
  unfold State.revert
  repeat' (first
      | with_reducible assumption | with_reducible apply keeps_modFlash | with_reducible apply keeps_putPtr
      | with_reducible apply keeps_raise | with_reducible apply keeps_foldl | with_reducible apply keeps_foldl2
      | with_reducible rfl | (simp only [Flash.setSlotCode_ownerKey]) | (simp only [Flash.setSlotCode_ownerLock])
      | extract_lets | split | intro _ | (dsimp +zetaDelta -zeta only))

theorem keeps_choose {s : State} (hs : Keeps own s0 s) : Keeps own s0 (State.choose s).2 := by
  unfold State.choose
  repeat' (first
      | with_reducible assumption | with_reducible apply keeps_modUpd | with_reducible apply keeps_putPtr
      | with_reducible apply keeps_raise | with_reducible apply keeps_revert | with_reducible apply keeps_foldl
      | with_reducible apply keeps_foldl2 | with_reducible rfl | extract_lets | split | intro _
      | (dsimp +zetaDelta -zeta only))

theorem keeps_bootFw {s : State} (c : Chosen) (hs : Keeps own s0 s) :
    Keeps own s0 (s.bootFw c).2 ∧ ∀ t, (s.bootFw c).1 = some t → Keeps own s0 t := by
  unfold State.bootFw
  split
  · exact ⟨hs, fun t e => (by cases e; exact keeps_runFw _ _ hs)⟩
  · exact ⟨keeps_raise _ _ _ _ hs, fun t e => (by cases e)⟩
  · exact ⟨keeps_raise _ _ _ _ hs, fun t e => (by cases e)⟩

theorem keeps_bootSlots {s : State} (hs : Keeps own s0 s) :
    Keeps own s0 s.bootSlots.2 ∧ ∀ c t, s.bootSlots.1 = some (c, t) → Keeps own s0 t := by
  have back : ∀ (t : State) (c : Chosen), Keeps own s0 t → Keeps own s0 (t.bootFw c).2 ∧
      ∀ d u, (t.bootFw c).1.map (fun t => (c, t)) = some (d, u) → Keeps own s0 u := by
    intro t c ht
    refine ⟨(keeps_bootFw c ht).1, fun d u e => ?_⟩
    cases h : (t.bootFw c).1 with
    | none => rw [h] at e; cases e
    | some x => rw [h] at e; cases e; exact (keeps_bootFw c ht).2 _ h
  unfold State.bootSlots
  extract_lets r c s1 f x
  have h1 : Keeps own s0 s1 := keeps_choose hs
  split
  · split
    · exact ⟨h1, fun c t e => (by cases e; exact keeps_runFw _ _ h1)⟩
    · exact back _ _ (keeps_revert _ h1)
    · exact back _ _ (keeps_revert _ h1)
  · exact back _ _ h1

theorem keeps_bootIdentity {s : State} (hs : Keeps own s0 s) : Keeps own s0 (State.bootIdentity s) := by
  unfold State.bootIdentity
  repeat' (first
      | with_reducible assumption | with_reducible apply keeps_foldl | with_reducible apply keeps_foldl2
      | extract_lets | split | intro _ | (dsimp +zetaDelta -zeta only)
      | with_reducible refine keeps_mk ?_ (by first | exact Nat.le_refl _ | exact Nat.le_add_right _ _) rfl rfl rfl)

theorem keeps_bootFrom {s : State} (env : BootEnv) (again : State → State) (hs : Keeps own s0 s)
    (hagain : ∀ t, Keeps own s0 t → Keeps own s0 (again t)) : Keeps own s0 (s.bootFrom env again) := by
  unfold State.bootFrom
  split
  · exact keeps_bootSafe (keeps_raise _ _ _ _ hs)
  · extract_lets r
    have hr := keeps_bootSlots (keeps_bootIdentity hs)
    split
    · exact keeps_bootSafe hr.1
    · rename_i c t e
      have ht : Keeps own s0 t := hr.2 c t e
      extract_lets img l u
      have hu : Keeps own s0 u := keeps_rejectConfig _ ht
      clear_value u l img
      split
      · exact keeps_bootTrain _ _ (keeps_bootConfig _ ht)
      · split
        · exact hagain _ (keeps_revert _ hu)
        · exact keeps_bootSafe hu

theorem keeps_cutHold {s : State} (hs : Keeps own s0 s) : Keeps own s0 (State.cutHold s) := by
  unfold State.cutHold
  repeat' (first
      | with_reducible assumption | with_reducible apply keeps_modPwr | with_reducible apply keeps_raise
      | with_reducible apply keeps_foldl | with_reducible apply keeps_foldl2 | extract_lets | split | intro _
      | (dsimp +zetaDelta -zeta only))

theorem keeps_takeCue {s : State} (n : DWord) (at_ : Nat) (mismatch : Bool) (hs : Keeps own s0 s) : Keeps own s0 (State.takeCue s n at_ mismatch) := by
  unfold State.takeCue
  repeat' (first
      | with_reducible assumption | with_reducible apply keeps_abandonTick | with_reducible apply keeps_cutHold
      | with_reducible apply keeps_modPwr | with_reducible apply keeps_modTick | with_reducible apply keeps_raise
      | with_reducible apply keeps_foldl | with_reducible apply keeps_foldl2 | extract_lets | split | intro _
      | (dsimp +zetaDelta -zeta only))

theorem keeps_chainCue {s : State} (tick : DWord) (period : Word) (tickMax : Word) (at_ : Nat) (hs : Keeps own s0 s) : Keeps own s0 (State.chainCue s tick period tickMax at_) := by
  unfold State.chainCue
  repeat' (first
      | with_reducible assumption | with_reducible apply keeps_raise | with_reducible apply keeps_takeCue
      | with_reducible apply keeps_foldl | with_reducible apply keeps_foldl2 | extract_lets | split | intro _
      | (dsimp +zetaDelta -zeta only))

theorem keeps_setPort {s : State} (p : Port) (x2 : PortSt) (hs : Keeps own s0 s) : Keeps own s0 (State.setPort s p x2) := by
  unfold State.setPort
  repeat' (first
      | with_reducible assumption | with_reducible apply keeps_foldl | with_reducible apply keeps_foldl2
      | extract_lets | split | intro _ | (dsimp +zetaDelta -zeta only)
      | with_reducible refine keeps_mk ?_ (by first | exact Nat.le_refl _ | exact Nat.le_add_right _ _) rfl rfl rfl)

theorem keeps_modPort {s : State} (p : Port) (f : PortSt → PortSt) (hs : Keeps own s0 s) : Keeps own s0 (State.modPort s p f) := by
  unfold State.modPort
  repeat' (first
      | with_reducible assumption | with_reducible apply keeps_setPort | with_reducible apply keeps_foldl
      | with_reducible apply keeps_foldl2 | extract_lets | split | intro _ | (dsimp +zetaDelta -zeta only))

theorem keeps_msix {s : State} (p : Port) (v : Nat) (hs : Keeps own s0 s) : Keeps own s0 (State.msix s p v) := by
  unfold State.msix
  repeat' (first
      | with_reducible assumption | with_reducible apply keeps_modPort | with_reducible apply keeps_send
      | with_reducible apply keeps_foldl | with_reducible apply keeps_foldl2 | extract_lets | split | intro _
      | (dsimp +zetaDelta -zeta only))

theorem keeps_checkLapse {s : State} (hs : Keeps own s0 s) : Keeps own s0 (State.checkLapse s) := by
  unfold State.checkLapse
  repeat' (first
      | with_reducible assumption | with_reducible apply keeps_modHost | with_reducible apply keeps_msix
      | with_reducible apply keeps_raise | with_reducible apply keeps_foldl | with_reducible apply keeps_foldl2
      | extract_lets | split | intro _ | (dsimp +zetaDelta -zeta only))

theorem keeps_modLast {s : State} (c : CoreId) (f : Bound → Bound) (hs : Keeps own s0 s) : Keeps own s0 (State.modLast s c f) := by
  unfold State.modLast
  repeat' (first
      | with_reducible assumption | with_reducible apply keeps_modSeq | with_reducible apply keeps_foldl
      | with_reducible apply keeps_foldl2 | extract_lets | split | intro _ | (dsimp +zetaDelta -zeta only))

theorem keeps_modConv {s : State} (c : CoreId) (id : Nat) (f : ConvOp → ConvOp) (hs : Keeps own s0 s) : Keeps own s0 (State.modConv s c id f) := by
  unfold State.modConv
  repeat' (first
      | with_reducible assumption | with_reducible apply keeps_modCore | with_reducible apply keeps_foldl
      | with_reducible apply keeps_foldl2 | extract_lets | split | intro _ | (dsimp +zetaDelta -zeta only))

theorem keeps_modShare {s : State} (ord : Nat) (core : Nat) (part : Nat) (f : Share → Share) (hs : Keeps own s0 s) : Keeps own s0 (State.modShare s ord core part f) := by
  unfold State.modShare
  repeat' (first
      | with_reducible assumption | with_reducible apply keeps_modInv | with_reducible apply keeps_foldl
      | with_reducible apply keeps_foldl2 | extract_lets | split | intro _ | (dsimp +zetaDelta -zeta only))

theorem keeps_modOcv {s : State} (c : CoreId) (f : OcvSt → OcvSt) (hs : Keeps own s0 s) : Keeps own s0 (State.modOcv s c f) := by
  unfold State.modOcv
  repeat' (first
      | with_reducible assumption | with_reducible apply keeps_modCore | with_reducible apply keeps_foldl
      | with_reducible apply keeps_foldl2 | extract_lets | split | intro _ | (dsimp +zetaDelta -zeta only))

theorem keeps_report {s : State} (c : CoreId) (ord : Nat) (part : Nat) (hs : Keeps own s0 s) : Keeps own s0 (State.report s c ord part) := by
  unfold State.report
  repeat' (first
      | with_reducible assumption | with_reducible apply keeps_modClu | with_reducible apply keeps_modOcv
      | with_reducible apply keeps_modShare | with_reducible apply keeps_foldl
      | with_reducible apply keeps_foldl2 | extract_lets | split | intro _ | (dsimp +zetaDelta -zeta only))

theorem keeps_closePart {s : State} (c : CoreId) (b : Bound) (hs : Keeps own s0 s) : Keeps own s0 (State.closePart s c b) := by
  unfold State.closePart
  repeat' (first
      | with_reducible assumption | with_reducible apply keeps_modConv | with_reducible apply keeps_modLast
      | with_reducible apply keeps_report | with_reducible apply keeps_foldl | with_reducible apply keeps_foldl2
      | extract_lets | split | intro _ | (dsimp +zetaDelta -zeta only))

theorem keeps_powerOff {s : State} (hs : Keeps own s0 s) : Keeps own s0 (State.powerOff s) := ⟨fun _ => rfl, hs.queue, hs.variant, hs.free, fun o => ⟨(State.flashAfterLoss_ownerKey s).trans (hs.owner o).1, (State.flashAfterLoss_ownerLock s).trans (hs.owner o).2⟩⟩

theorem keeps_enterBoot {s : State} (env : BootEnv) (hs : Keeps own s0 s) : Keeps own s0 (State.enterBoot s env) := by
  unfold State.enterBoot
  repeat' (first
      | with_reducible assumption | with_reducible apply keeps_modPin | with_reducible apply keeps_powerOff
      | with_reducible apply keeps_foldl | with_reducible apply keeps_foldl2 | extract_lets | split | intro _
      | (dsimp +zetaDelta -zeta only)
      | with_reducible refine keeps_mk ?_ (by first | exact Nat.le_refl _ | exact Nat.le_add_right _ _) rfl rfl rfl)

theorem keeps_coldStart {s : State} (env : BootEnv) (hs : Keeps own s0 s) : Keeps own s0 (State.coldStart s env) := by
  unfold State.coldStart
  repeat' (first
      | with_reducible assumption | with_reducible apply keeps_bootFrom | with_reducible apply keeps_bootSafe
      | with_reducible apply keeps_enterBoot | with_reducible apply keeps_foldl
      | with_reducible apply keeps_foldl2 | extract_lets | split | intro _ | (dsimp +zetaDelta -zeta only))

theorem keeps_countCompared {s : State} (slot : Nat) (x2 : Compared) (hs : Keeps own s0 s) : Keeps own s0 (State.countCompared s slot x2) := by
  unfold State.countCompared
  repeat' (first
      | with_reducible assumption | with_reducible apply keeps_modReh | with_reducible apply keeps_raise
      | with_reducible apply keeps_foldl | with_reducible apply keeps_foldl2 | extract_lets | split | intro _
      | (dsimp +zetaDelta -zeta only))

theorem keeps_compareTick {s : State} (rec : List Byte) (final : BitVec 256) (fail : BitVec 256) (runs : List SlotRun) (hs : Keeps own s0 s) : Keeps own s0 (State.compareTick s rec final fail runs) := by
  unfold State.compareTick
  repeat' (first
      | with_reducible assumption | with_reducible apply keeps_countCompared | with_reducible apply keeps_foldl
      | with_reducible apply keeps_foldl2 | extract_lets | split | intro _ | (dsimp +zetaDelta -zeta only))

theorem keeps_freeSlot {s : State} (i : Nat) (hs : Keeps own s0 s) : Keeps own s0 (State.freeSlot s i) := by
  unfold State.freeSlot
  repeat' (first
      | with_reducible assumption | with_reducible apply keeps_admRelease
      | with_reducible apply keeps_kvQueueFree | with_reducible apply keeps_modSlot
      | with_reducible apply keeps_modTwin | with_reducible apply keeps_foldl | with_reducible apply keeps_foldl2
      | extract_lets | split | intro _ | (dsimp +zetaDelta -zeta only))

theorem keeps_settleSlot {s : State} (failM : BitVec 256) (freeM : BitVec 256) (r : SlotRec) (hs : Keeps own s0 s) : Keeps own s0 (State.settleSlot s failM freeM r) := by
  unfold State.settleSlot
  repeat' (first
      | with_reducible assumption | with_reducible apply keeps_admRelease | with_reducible apply keeps_freeSlot
      | with_reducible apply keeps_modSlot | with_reducible apply keeps_foldl | with_reducible apply keeps_foldl2
      | extract_lets | split | intro _ | (dsimp +zetaDelta -zeta only))

theorem keeps_noteConfirmed {s : State} (changed : List Nat) (freed : List Nat) (hs : Keeps own s0 s) : Keeps own s0 (State.noteConfirmed s changed freed) := by
  unfold State.noteConfirmed
  repeat' (first
      | with_reducible assumption | with_reducible apply keeps_modTwin | with_reducible apply keeps_foldl
      | with_reducible apply keeps_foldl2 | extract_lets | split | intro _ | (dsimp +zetaDelta -zeta only))

theorem keeps_kvMarkFull {s : State} (d : Nat) (slot : Nat) (hs : Keeps own s0 s) : Keeps own s0 (State.kvMarkFull s d slot) := by
  unfold State.kvMarkFull
  repeat' (first
      | with_reducible assumption | with_reducible apply keeps_setPte | with_reducible apply keeps_foldl
      | with_reducible apply keeps_foldl2 | extract_lets | split | intro _ | (dsimp +zetaDelta -zeta only))

theorem keeps_showSlots {s : State} (g : Nat) (hs : Keeps own s0 s) : Keeps own s0 (State.showSlots s g) := by
  unfold State.showSlots
  repeat' (first
      | with_reducible assumption | with_reducible apply keeps_modTick | with_reducible apply keeps_foldl
      | with_reducible apply keeps_foldl2 | extract_lets | split | intro _ | (dsimp +zetaDelta -zeta only))

theorem keeps_confirmStep {s : State} (g : Nat) (failM : BitVec 256) (freeM : BitVec 256) (records : List SlotRec) (hs : Keeps own s0 s) : Keeps own s0 (State.confirmStep s g failM freeM records) := by
  unfold State.confirmStep
  repeat' (first
      | with_reducible assumption | with_reducible apply keeps_kvMarkFull
      | with_reducible apply keeps_noteConfirmed | with_reducible apply keeps_settleSlot
      | with_reducible apply keeps_showSlots | with_reducible apply keeps_foldl
      | with_reducible apply keeps_foldl2 | extract_lets | split | intro _ | (dsimp +zetaDelta -zeta only))

theorem keeps_postResults {s : State} (l : List ResEntry) (hs : Keeps own s0 s) : Keeps own s0 (State.postResults s l) := by
  unfold State.postResults
  repeat' (first
      | with_reducible assumption | with_reducible apply keeps_modHost | with_reducible apply keeps_foldl
      | with_reducible apply keeps_foldl2 | extract_lets | split | intro _ | (dsimp +zetaDelta -zeta only))

theorem keeps_sendStep {s : State} (typ : Nat) (m : StepMsg) (hs : Keeps own s0 s) : Keeps own s0 (State.sendStep s typ m) := by
  unfold State.sendStep
  repeat' (first
      | with_reducible assumption | with_reducible apply keeps_sendOn | with_reducible apply keeps_foldl
      | with_reducible apply keeps_foldl2 | extract_lets | split | intro _ | (dsimp +zetaDelta -zeta only))

theorem keeps_hostWrite {s : State} (p : Port) (addr : Nat) (l : List Byte) (hs : Keeps own s0 s) : Keeps own s0 (State.hostWrite s p addr l) := by
  unfold State.hostWrite
  repeat' (first
      | with_reducible assumption | with_reducible apply keeps_send | with_reducible apply keeps_foldl
      | with_reducible apply keeps_foldl2 | extract_lets | split | intro _ | (dsimp +zetaDelta -zeta only))

theorem keeps_writeFrame {s : State} (r : SlotRec) (frame : List Byte) (hs : Keeps own s0 s) : Keeps own s0 (State.writeFrame s r frame) := by
  unfold State.writeFrame
  repeat' (first
      | with_reducible assumption | with_reducible apply keeps_hostWrite | with_reducible apply keeps_writeDev
      | with_reducible apply keeps_foldl | with_reducible apply keeps_foldl2 | extract_lets | split | intro _
      | (dsimp +zetaDelta -zeta only))

theorem keeps_freeSlots {s : State} (l : List Nat) (hs : Keeps own s0 s) : Keeps own s0 (State.freeSlots s l) := by
  unfold State.freeSlots
  repeat' (first
      | with_reducible assumption | with_reducible apply keeps_freeSlot
      | with_reducible apply keeps_noteConfirmed | with_reducible apply keeps_foldl
      | with_reducible apply keeps_foldl2 | extract_lets | split | intro _ | (dsimp +zetaDelta -zeta only))

theorem keeps_confirmLast {s : State} (r : RunTick) (o : Outcome) (hs : Keeps own s0 s) : Keeps own s0 (State.confirmLast s r o) := by
  unfold State.confirmLast
  repeat' (first
      | with_reducible assumption | with_reducible apply keeps_confirmStep | with_reducible apply keeps_freeSlots
      | with_reducible apply keeps_modHost | with_reducible apply keeps_modSlot
      | with_reducible apply keeps_modTick | with_reducible apply keeps_postResults
      | with_reducible apply keeps_raise | with_reducible apply keeps_sendStep
      | with_reducible apply keeps_writeFrame | with_reducible apply keeps_foldl
      | with_reducible apply keeps_foldl2 | extract_lets | split | intro _ | (dsimp +zetaDelta -zeta only))

theorem keeps_confirmLater {s : State} (r : RunTick) (o : Outcome) (hs : Keeps own s0 s) : Keeps own s0 (State.confirmLater s r o) := by
  unfold State.confirmLater
  repeat' (first
      | with_reducible assumption | with_reducible apply keeps_freeSlots | with_reducible apply keeps_modTick
      | with_reducible apply keeps_sendStep | with_reducible apply keeps_foldl
      | with_reducible apply keeps_foldl2 | extract_lets | split | intro _ | (dsimp +zetaDelta -zeta only))

theorem keeps_confirmReplay {s : State} (r : RunTick) (o : Outcome) (x3 : ReplaySt) (w : List Byte) (runs : List SlotRun) (hs : Keeps own s0 s) : Keeps own s0 (State.confirmReplay s r o x3 w runs) := by
  unfold State.confirmReplay
  repeat' (first
      | with_reducible assumption | with_reducible apply keeps_compareTick
      | with_reducible apply keeps_confirmStep | with_reducible apply keeps_modReh
      | with_reducible apply keeps_modSlot | with_reducible apply keeps_foldl | with_reducible apply keeps_foldl2
      | extract_lets | split | intro _ | (dsimp +zetaDelta -zeta only))

end Sys2Proof.Machine
end

