-- ==== Sys2Proof/Laws/KeepsOps.lean ====
section
/-! SUPPORT. The shared operations, continued: each keeps what Keeps says. -/

namespace Sys2Proof.Machine

variable {own : Bool} {s0 : State}

theorem keeps_pushCluster {s : State} (n : Nat) (o : DmaOp) (hs : Keeps own s0 s) : Keeps own s0 (State.pushCluster s n o) := by
  unfold State.pushCluster
  repeat' (first
      | with_reducible assumption | with_reducible apply keeps_modClu | with_reducible apply keeps_pushMove
      | with_reducible apply keeps_foldl | with_reducible apply keeps_foldl2 | extract_lets | split | intro _
      | (dsimp +zetaDelta -zeta only))

theorem keeps_svuPush {s : State} (c : ClusterId) (o : SvuOp) (e : CoreId) (q : Nat) (kind : Nat) (l : List Byte) (hs : Keeps own s0 s) : Keeps own s0 (State.svuPush s c o e q kind l) := by
  unfold State.svuPush
  repeat' (first
      | with_reducible assumption | with_reducible apply keeps_pushCluster | with_reducible apply keeps_foldl
      | with_reducible apply keeps_foldl2 | extract_lets | split | intro _ | (dsimp +zetaDelta -zeta only))

theorem keeps_convert {s : State} (c : ClusterId) (o : SvuOp) (d : SvuDesc) (b : Bound) (r : Red) (hs : Keeps own s0 s) : Keeps own s0 (State.convert s c o d b r) := by
  unfold State.convert
  repeat' (first
      | with_reducible assumption | with_reducible apply keeps_svuPush | with_reducible apply keeps_writeDev
      | with_reducible apply keeps_foldl | with_reducible apply keeps_foldl2 | extract_lets | split | intro _
      | (dsimp +zetaDelta -zeta only)
      | with_reducible refine keeps_mk ?_ (by first | exact Nat.le_refl _ | exact Nat.le_add_right _ _) rfl rfl rfl)

theorem keeps_countFec {s : State} (p : Nat) (hs : Keeps own s0 s) : Keeps own s0 (State.countFec s p) := by
  unfold State.countFec
  repeat' (first
      | with_reducible assumption | with_reducible apply keeps_drawWord | with_reducible apply keeps_modLnk
      | with_reducible apply keeps_foldl | with_reducible apply keeps_foldl2 | extract_lets | split | intro _
      | (dsimp +zetaDelta -zeta only))

theorem keeps_countRollback {s : State} (whole : Bool) (n : Nat) (hs : Keeps own s0 s) : Keeps own s0 (State.countRollback s whole n) := by
  unfold State.countRollback
  repeat' (first
      | with_reducible assumption | with_reducible apply keeps_modErr | with_reducible apply keeps_modTick
      | with_reducible apply keeps_raise | with_reducible apply keeps_foldl | with_reducible apply keeps_foldl2
      | extract_lets | split | intro _ | (dsimp +zetaDelta -zeta only))

theorem keeps_countTherm {s : State} (hs : Keeps own s0 s) : Keeps own s0 (State.countTherm s) := by
  unfold State.countTherm
  repeat' (first
      | with_reducible assumption | with_reducible apply keeps_modPwr | with_reducible apply keeps_foldl
      | with_reducible apply keeps_foldl2 | extract_lets | split | intro _ | (dsimp +zetaDelta -zeta only))

theorem keeps_modSparse {s : State} (c : CoreId) (f : SparseSt → SparseSt) (hs : Keeps own s0 s) : Keeps own s0 (State.modSparse s c f) := by
  unfold State.modSparse
  repeat' (first
      | with_reducible assumption | with_reducible apply keeps_modCore | with_reducible apply keeps_foldl
      | with_reducible apply keeps_foldl2 | extract_lets | split | intro _ | (dsimp +zetaDelta -zeta only))

theorem keeps_curtainMisses {s : State} (hs : Keeps own s0 s) : Keeps own s0 (State.curtainMisses s) := by
  unfold State.curtainMisses
  repeat' (first
      | with_reducible assumption | with_reducible apply keeps_modSparse | with_reducible apply keeps_raise
      | with_reducible apply keeps_foldl | with_reducible apply keeps_foldl2 | extract_lets | split | intro _
      | (dsimp +zetaDelta -zeta only))

theorem keeps_phaseLow {s : State} (hs : Keeps own s0 s) : Keeps own s0 (State.phaseLow s) := by
  unfold State.phaseLow
  repeat' (first
      | with_reducible assumption | with_reducible apply keeps_modPin | with_reducible apply keeps_foldl
      | with_reducible apply keeps_foldl2 | extract_lets | split | intro _ | (dsimp +zetaDelta -zeta only))

theorem keeps_curtainTraffic {s : State} (hs : Keeps own s0 s) : Keeps own s0 (State.curtainTraffic s) := by
  unfold State.curtainTraffic
  repeat' (first
      | with_reducible assumption | with_reducible apply keeps_drawWord | with_reducible apply keeps_modClu
      | with_reducible apply keeps_foldl | with_reducible apply keeps_foldl2 | extract_lets | split | intro _
      | (dsimp +zetaDelta -zeta only))

theorem keeps_kvRead {s : State} (d : Nat) (a : Nat) (n : Nat) (x4 : Nat) (hs : Keeps own s0 s) : Keeps own s0 (State.kvRead s d a n x4).2.2 := by
  induction x4 generalizing s d a n with
  | zero => unfold State.kvRead; exact hs
  | succ k ih =>
  unfold State.kvRead
  repeat' (first
      | with_reducible assumption | with_reducible apply ih | with_reducible apply keeps_kvLookup
      | with_reducible apply keeps_kvSlotFault | with_reducible apply keeps_readDev
      | with_reducible apply keeps_foldl | with_reducible apply keeps_foldl2 | extract_lets | split | intro _
      | (dsimp +zetaDelta -zeta only))

theorem keeps_mirrorKv {s : State} (i : Nat) (lo : Nat) (hi : Nat) (hs : Keeps own s0 s) : Keeps own s0 (State.mirrorKv s i lo hi).2 := by
  unfold State.mirrorKv
  repeat' (first
      | with_reducible assumption | with_reducible apply keeps_kvRead | with_reducible apply keeps_foldl
      | with_reducible apply keeps_foldl2 | extract_lets | split | intro _ | (dsimp +zetaDelta -zeta only))

theorem keeps_mirrorSlot {s : State} (i : Nat) (hs : Keeps own s0 s) : Keeps own s0 (State.mirrorSlot s i).2 := by
  unfold State.mirrorSlot
  repeat' (first
      | with_reducible assumption | with_reducible apply keeps_mirrorKv | with_reducible apply keeps_foldl
      | with_reducible apply keeps_foldl2 | extract_lets | split | intro _ | (dsimp +zetaDelta -zeta only))

theorem keeps_mirrorSlots {s : State} (x1 : List Nat) (hs : Keeps own s0 s) : Keeps own s0 (State.mirrorSlots s x1).2 := by
  induction x1 generalizing s with
  | nil => unfold State.mirrorSlots; exact hs
  | cons y t ih =>
  unfold State.mirrorSlots
  repeat' (first
      | with_reducible assumption | with_reducible apply ih | with_reducible apply keeps_mirrorSlot
      | with_reducible apply keeps_foldl | with_reducible apply keeps_foldl2 | extract_lets | split | intro _
      | (dsimp +zetaDelta -zeta only))

theorem keeps_stageMirror {s : State} (hs : Keeps own s0 s) : Keeps own s0 (State.stageMirror s) := by
  unfold State.stageMirror
  repeat' (first
      | with_reducible assumption | with_reducible apply keeps_mirrorSlots | with_reducible apply keeps_modTwin
      | with_reducible apply keeps_sendTwin | with_reducible apply keeps_foldl
      | with_reducible apply keeps_foldl2 | extract_lets | split | intro _ | (dsimp +zetaDelta -zeta only))

theorem keeps_goto {s : State} (d : DevState) (hs : Keeps own s0 s) : Keeps own s0 (State.goto s d) := by
  unfold State.goto
  repeat' (first
      | with_reducible assumption | with_reducible apply keeps_foldl | with_reducible apply keeps_foldl2
      | extract_lets | split | intro _ | (dsimp +zetaDelta -zeta only)
      | with_reducible refine keeps_mk ?_ (by first | exact Nat.le_refl _ | exact Nat.le_add_right _ _) rfl rfl rfl)

theorem keeps_leaveRun {s : State} (hs : Keeps own s0 s) : Keeps own s0 (State.leaveRun s) := by
  unfold State.leaveRun
  repeat' (first
      | with_reducible assumption | with_reducible apply keeps_goto | with_reducible apply keeps_modPwr
      | with_reducible apply keeps_foldl | with_reducible apply keeps_foldl2 | extract_lets | split | intro _
      | (dsimp +zetaDelta -zeta only))

theorem keeps_curtainLayers {s : State} (whole : Bool) (hs : Keeps own s0 s) : Keeps own s0 (State.curtainLayers s whole) := by
  unfold State.curtainLayers
  repeat' (first
      | with_reducible assumption | with_reducible apply keeps_modLayer | with_reducible apply keeps_modPrec
      | with_reducible apply keeps_raise | with_reducible apply keeps_foldl | with_reducible apply keeps_foldl2
      | extract_lets | split | intro _ | (dsimp +zetaDelta -zeta only))

theorem keeps_curtainRings {s : State} (whole : Bool) (c : CoreId) (hs : Keeps own s0 s) : Keeps own s0 (State.curtainRings s whole c) := by
  unfold State.curtainRings
  repeat' (first
      | with_reducible assumption | with_reducible apply keeps_modCore | with_reducible apply keeps_foldl
      | with_reducible apply keeps_foldl2 | extract_lets | split | intro _ | (dsimp +zetaDelta -zeta only))

theorem keeps_curtainUnits {s : State} (whole : Bool) (hs : Keeps own s0 s) : Keeps own s0 (State.curtainUnits s whole) := by
  unfold State.curtainUnits
  repeat' (first
      | with_reducible assumption | with_reducible apply keeps_curtainRings | with_reducible apply keeps_foldl
      | with_reducible apply keeps_foldl2 | extract_lets | split | intro _ | (dsimp +zetaDelta -zeta only)
      | with_reducible refine keeps_mk ?_ (by first | exact Nat.le_refl _ | exact Nat.le_add_right _ _) rfl rfl rfl)

theorem keeps_kvSwitch {s : State} (d : Nat) (hs : Keeps own s0 s) : Keeps own s0 (State.kvSwitch s d) := by
  unfold State.kvSwitch
  repeat' (first
      | with_reducible assumption | with_reducible apply keeps_modKv | with_reducible apply keeps_setPte
      | with_reducible apply keeps_foldl | with_reducible apply keeps_foldl2 | extract_lets | split | intro _
      | (dsimp +zetaDelta -zeta only))

theorem keeps_upload {s : State} (off : Nat) (r : List Byte) (hs : Keeps own s0 s) : Keeps own s0 (State.upload s off r) := by
  unfold State.upload
  repeat' (first
      | with_reducible assumption | with_reducible apply keeps_modReh | with_reducible apply keeps_sendTwin
      | with_reducible apply keeps_foldl | with_reducible apply keeps_foldl2 | extract_lets | split | intro _
      | (dsimp +zetaDelta -zeta only))

theorem keeps_putRecord {s : State} (r : List Byte) (tickRec : Bool) (hs : Keeps own s0 s) : Keeps own s0 (State.putRecord s r tickRec) := by
  unfold State.putRecord
  repeat' (first
      | with_reducible assumption | with_reducible apply keeps_modReh | with_reducible apply keeps_rehWrite
      | with_reducible apply keeps_upload | with_reducible apply keeps_foldl | with_reducible apply keeps_foldl2
      | extract_lets | split | intro _ | (dsimp +zetaDelta -zeta only))

theorem keeps_kvSpillSelect {s : State} (d : Nat) (hs : Keeps own s0 s) : Keeps own s0 (State.kvSpillSelect s d) := by
  unfold State.kvSpillSelect
  repeat' (first
      | with_reducible assumption | with_reducible apply keeps_modKv | with_reducible apply keeps_foldl
      | with_reducible apply keeps_foldl2 | extract_lets | split | intro _ | (dsimp +zetaDelta -zeta only))

theorem keeps_discardSends {s : State} (hs : Keeps own s0 s) : Keeps own s0 (State.discardSends s) := by
  unfold State.discardSends
  repeat' (first
      | with_reducible assumption | with_reducible apply keeps_modRing | with_reducible apply keeps_foldl
      | with_reducible apply keeps_foldl2 | extract_lets | split | intro _ | (dsimp +zetaDelta -zeta only))

theorem keeps_curtain {s : State} (r : RunTick) (at_ : Nat) (results : List StepResult) (hs : Keeps own s0 s) : Keeps own s0 (State.curtain s r at_ results) := by
  unfold State.curtain
  repeat' (first
      | with_reducible assumption | with_reducible apply keeps_applyStep | with_reducible apply keeps_confirmLast
      | with_reducible apply keeps_confirmLater | with_reducible apply keeps_confirmReplay
      | with_reducible apply keeps_countRollback | with_reducible apply keeps_curtainLayers
      | with_reducible apply keeps_curtainMisses | with_reducible apply keeps_curtainTraffic
      | with_reducible apply keeps_curtainUnits | with_reducible apply keeps_discardSends
      | with_reducible apply keeps_kvSpillSelect | with_reducible apply keeps_kvSwitch
      | with_reducible apply keeps_leaveRun | with_reducible apply keeps_modHost
      | with_reducible apply keeps_modSlot | with_reducible apply keeps_modTick
      | with_reducible apply keeps_phaseLow | with_reducible apply keeps_putRecord
      | with_reducible apply keeps_stageMirror | with_reducible apply keeps_foldl
      | with_reducible apply keeps_foldl2 | extract_lets | split | intro _ | (dsimp +zetaDelta -zeta only)
      | with_reducible refine keeps_mk ?_ (by first | exact Nat.le_refl _ | exact Nat.le_add_right _ _) rfl rfl rfl)

theorem keeps_drawBytes {s : State} (n : Nat) (hs : Keeps own s0 s) : Keeps own s0 (State.drawBytes s n).2 := by
  unfold State.drawBytes
  repeat' (first
      | with_reducible assumption | with_reducible apply keeps_foldl | with_reducible apply keeps_foldl2
      | extract_lets | split | intro _ | (dsimp +zetaDelta -zeta only)
      | with_reducible refine keeps_mk ?_ (by first | exact Nat.le_refl _ | exact Nat.le_add_right _ _) rfl rfl rfl)

theorem keeps_scramble {s : State} (a : Nat) (x2 : Nat) (hs : Keeps own s0 s) : Keeps own s0 (State.scramble s a x2) := by
  induction x2 generalizing s a with
  | zero => unfold State.scramble; exact hs
  | succ k ih =>
  unfold State.scramble
  repeat' (first
      | with_reducible assumption | with_reducible apply ih | with_reducible apply keeps_drawBytes
      | with_reducible apply keeps_writeDev | with_reducible apply keeps_foldl
      | with_reducible apply keeps_foldl2 | extract_lets | split | intro _ | (dsimp +zetaDelta -zeta only))

theorem keeps_cutCommand {s : State} (hs : Keeps own s0 s) : Keeps own s0 (State.cutCommand s) := by
  unfold State.cutCommand
  repeat' (first
      | with_reducible assumption | with_reducible apply keeps_modHost | with_reducible apply keeps_scramble
      | with_reducible apply keeps_foldl | with_reducible apply keeps_foldl2 | extract_lets | split | intro _
      | (dsimp +zetaDelta -zeta only))

theorem keeps_deliver {s : State} (c : CoreId) (a : Nat) (l : List Byte) (hs : Keeps own s0 s) : Keeps own s0 (State.deliver s c a l) := by
  unfold State.deliver
  repeat' (first
      | with_reducible assumption | with_reducible apply keeps_kvWrite | with_reducible apply keeps_sendOn
      | with_reducible apply keeps_writeDev | with_reducible apply keeps_foldl
      | with_reducible apply keeps_foldl2 | extract_lets | split | intro _ | (dsimp +zetaDelta -zeta only))

theorem keeps_pushLink {s : State} (src : Producer) (e : LinkEntry) (hs : Keeps own s0 s) : KeepsR own s0 (State.pushLink s src e) := by
  unfold State.pushLink
  repeat' (first
      | with_reducible assumption | with_reducible apply keeps_pushUnit | with_reducible apply keeps_foldl
      | with_reducible apply keeps_foldl2 | with_reducible apply keepsR_done | with_reducible apply keepsR_wait
      | with_reducible refine keeps_of_done (by with_reducible assumption) ?_
      | with_reducible refine keeps_of_wait (by with_reducible assumption) ?_ | extract_lets | split | intro _
      | (dsimp +zetaDelta -zeta only))

theorem keeps_deliverLink {s : State} (p : Nat) (src : Producer) (e : LinkEntry) (hs : Keeps own s0 s) : Keeps own s0 (State.deliverLink s p src e) := by
  unfold State.deliverLink
  repeat' (first
      | with_reducible assumption | with_reducible apply keeps_modLnk | with_reducible apply keeps_pushLink
      | with_reducible apply keeps_foldl | with_reducible apply keeps_foldl2
      | with_reducible refine keeps_of_done (by with_reducible assumption) ?_
      | with_reducible refine keeps_of_wait (by with_reducible assumption) ?_ | extract_lets | split | intro _
      | (dsimp +zetaDelta -zeta only))

theorem keeps_destFault {s : State} (c : CoreId) (t : TileDesc) (hs : Keeps own s0 s) : KeepsO own s0 (State.destFault s c t) := by
  unfold State.destFault
  repeat' (first
      | with_reducible assumption | with_reducible apply keeps_reachFault | with_reducible apply keeps_ringFault
      | with_reducible apply keeps_foldl | with_reducible apply keeps_foldl2 | with_reducible apply keepsO_none
      | with_reducible apply keepsO_some | extract_lets | split | intro _ | (dsimp +zetaDelta -zeta only))

theorem keeps_doorbellBad {s : State} (hs : Keeps own s0 s) : Keeps own s0 (State.doorbellBad s) := by
  unfold State.doorbellBad
  repeat' (first
      | with_reducible assumption | with_reducible apply keeps_modHost | with_reducible apply keeps_raise
      | with_reducible apply keeps_foldl | with_reducible apply keeps_foldl2 | extract_lets | split | intro _
      | (dsimp +zetaDelta -zeta only))

theorem keeps_draw {s : State} (hs : Keeps own s0 s) : Keeps own s0 (State.draw s).2 := by
  unfold State.draw
  repeat' (first
      | with_reducible assumption | with_reducible apply keeps_foldl | with_reducible apply keeps_foldl2
      | extract_lets | split | intro _ | (dsimp +zetaDelta -zeta only)
      | with_reducible refine keeps_mk ?_ (by first | exact Nat.le_refl _ | exact Nat.le_add_right _ _) rfl rfl rfl)

theorem keeps_dropSlots {s : State} (hs : Keeps own s0 s) : Keeps own s0 (State.dropSlots s) := by
  unfold State.dropSlots
  repeat' (first
      | with_reducible assumption | with_reducible apply keeps_kvQueueFree | with_reducible apply keeps_modSlot
      | with_reducible apply keeps_showSlots | with_reducible apply keeps_foldl
      | with_reducible apply keeps_foldl2 | extract_lets | split | intro _ | (dsimp +zetaDelta -zeta only))

theorem keeps_endBound {s : State} (c : CoreId) (hs : Keeps own s0 s) : Keeps own s0 (State.endBound s c) := by
  unfold State.endBound
  repeat' (first
      | with_reducible assumption | with_reducible apply keeps_modLast | with_reducible apply keeps_report
      | with_reducible apply keeps_foldl | with_reducible apply keeps_foldl2 | extract_lets | split | intro _
      | (dsimp +zetaDelta -zeta only))

theorem keeps_endStaging {s : State} (hs : Keeps own s0 s) : Keeps own s0 (State.endStaging s) := by
  unfold State.endStaging
  repeat' (first
      | with_reducible assumption | with_reducible apply keeps_modFlash | with_reducible apply keeps_modUpd
      | with_reducible apply keeps_raise | with_reducible apply keeps_foldl | with_reducible apply keeps_foldl2
      | with_reducible rfl | (simp only [Flash.setSlotCode_ownerKey]) | (simp only [Flash.setSlotCode_ownerLock])
      | extract_lets | split | intro _ | (dsimp +zetaDelta -zeta only))

theorem keeps_engFault {s : State} (c : CoreId) (e : Nat) (code : Nat) (bit : Nat) (hs : Keeps own s0 s) : Keeps own s0 (State.engFault s c e code bit) := by
  unfold State.engFault
  repeat' (first
      | with_reducible assumption | with_reducible apply keeps_modEng | with_reducible apply keeps_raise
      | with_reducible apply keeps_sharedFault | with_reducible apply keeps_foldl
      | with_reducible apply keeps_foldl2 | extract_lets | split | intro _ | (dsimp +zetaDelta -zeta only))

theorem keeps_enqueueMatrix {s : State} (c : CoreId) (w : DWord) (b : Bound) (td : TileDesc) (src : TileSrc) (r : TRec) (hs : Keeps own s0 s) : Keeps own s0 (State.enqueueMatrix s c w b td src r) := by
  unfold State.enqueueMatrix
  repeat' (first
      | with_reducible assumption | with_reducible apply keeps_issued | with_reducible apply keeps_modCore
      | with_reducible apply keeps_modInv | with_reducible apply keeps_modLast
      | with_reducible apply keeps_modSeq | with_reducible apply keeps_modSparse
      | with_reducible apply keeps_foldl | with_reducible apply keeps_foldl2 | extract_lets | split | intro _
      | (dsimp +zetaDelta -zeta only))

theorem keeps_enterRun {s : State} (hs : Keeps own s0 s) : Keeps own s0 (State.enterRun s) := by
  unfold State.enterRun
  repeat' (first
      | with_reducible assumption | with_reducible apply keeps_goto | with_reducible apply keeps_foldl
      | with_reducible apply keeps_foldl2 | extract_lets | split | intro _ | (dsimp +zetaDelta -zeta only))

theorem keeps_euRan {s : State} (c : CoreId) (o : ChainOp) (t : TileData) (m : Nat) (hs : Keeps own s0 s) : Keeps own s0 (State.euRan s c o t m) := by
  unfold State.euRan
  repeat' (first
      | with_reducible assumption | with_reducible apply keeps_modEng | with_reducible apply keeps_foldl
      | with_reducible apply keeps_foldl2 | extract_lets | split | intro _ | (dsimp +zetaDelta -zeta only))

theorem keeps_faultMismatched {s : State} (l : List Nat) (hs : Keeps own s0 s) : Keeps own s0 (State.faultMismatched s l) := by
  unfold State.faultMismatched
  repeat' (first
      | with_reducible assumption | with_reducible apply keeps_modSlot | with_reducible apply keeps_raise
      | with_reducible apply keeps_foldl | with_reducible apply keeps_foldl2 | extract_lets | split | intro _
      | (dsimp +zetaDelta -zeta only))

theorem keeps_faultSlots {s : State} (all : Bool) (hs : Keeps own s0 s) : Keeps own s0 (State.faultSlots s all) := by
  unfold State.faultSlots
  repeat' (first
      | with_reducible assumption | with_reducible apply keeps_foldl | with_reducible apply keeps_foldl2
      | extract_lets | split | intro _ | (dsimp +zetaDelta -zeta only)
      | with_reducible refine keeps_mk ?_ (by first | exact Nat.le_refl _ | exact Nat.le_add_right _ _) rfl rfl rfl)

theorem keeps_promptTokens {s : State} (r : SlotRec) (hs : Keeps own s0 s) : Keeps own s0 (State.promptTokens s r).2 := by
  unfold State.promptTokens
  repeat' (first
      | with_reducible assumption | with_reducible apply keeps_drawBytes
      | with_reducible apply keeps_readGranules | with_reducible apply keeps_send
      | with_reducible apply keeps_slotFault | with_reducible apply keeps_foldl
      | with_reducible apply keeps_foldl2 | extract_lets | split | intro _ | (dsimp +zetaDelta -zeta only))

theorem keeps_pushHost {s : State} (kind : Nat) (l : List Byte) (hs : Keeps own s0 s) : Keeps own s0 (State.pushHost s kind l) := by
  unfold State.pushHost
  repeat' (first
      | with_reducible assumption | with_reducible apply keeps_pushCluster | with_reducible apply keeps_foldl
      | with_reducible apply keeps_foldl2 | extract_lets | split | intro _ | (dsimp +zetaDelta -zeta only))

theorem keeps_pushFrame {s : State} (fmt : BitVec 2) (l : List Byte) (hs : Keeps own s0 s) : Keeps own s0 (State.pushFrame s fmt l) := by
  unfold State.pushFrame
  repeat' (first
      | with_reducible assumption | with_reducible apply keeps_pushHost | with_reducible apply keeps_foldl
      | with_reducible apply keeps_foldl2 | extract_lets | split | intro _ | (dsimp +zetaDelta -zeta only))

theorem keeps_feedSlot {s : State} (r : SlotRec) (hs : Keeps own s0 s) : Keeps own s0 (State.feedSlot s r).2 := by
  unfold State.feedSlot
  repeat' (first
      | with_reducible assumption | with_reducible apply keeps_modSlot | with_reducible apply keeps_promptTokens
      | with_reducible apply keeps_pushFrame | with_reducible apply keeps_pushHost
      | with_reducible apply keeps_foldl | with_reducible apply keeps_foldl2 | extract_lets | split | intro _
      | (dsimp +zetaDelta -zeta only))

theorem keeps_feedAll {s : State} (x1 : List SlotRec) (hs : Keeps own s0 s) : Keeps own s0 (State.feedAll s x1).2 := by
  induction x1 generalizing s with
  | nil => unfold State.feedAll; exact hs
  | cons y t ih =>
  unfold State.feedAll
  repeat' (first
      | with_reducible assumption | with_reducible apply ih | with_reducible apply keeps_feedSlot
      | with_reducible apply keeps_foldl | with_reducible apply keeps_foldl2 | extract_lets | split | intro _
      | (dsimp +zetaDelta -zeta only))

theorem keeps_feedReplay {s : State} (w : List Byte) (hs : Keeps own s0 s) : Keeps own s0 (State.feedReplay s w).2 := by
  unfold State.feedReplay
  repeat' (first
      | with_reducible assumption | with_reducible apply keeps_pushHost | with_reducible apply keeps_foldl
      | with_reducible apply keeps_foldl2 | extract_lets | split | intro _ | (dsimp +zetaDelta -zeta only))

theorem keeps_feedTick {s : State} (p : Plan) (hs : Keeps own s0 s) : Keeps own s0 (State.feedTick s p).2 := by
  unfold State.feedTick
  repeat' (first
      | with_reducible assumption | with_reducible apply keeps_feedAll | with_reducible apply keeps_feedReplay
      | with_reducible apply keeps_foldl | with_reducible apply keeps_foldl2 | extract_lets | split | intro _
      | (dsimp +zetaDelta -zeta only))

theorem keeps_ringRead {s : State} (c : CoreId) (q : Nat) (p : Nat) (n : Nat) (hs : Keeps own s0 s) : Keeps own s0 (State.ringRead s c q p n).2 := by
  unfold State.ringRead
  repeat' (first
      | with_reducible assumption | with_reducible apply keeps_readDev | with_reducible apply keeps_foldl
      | with_reducible apply keeps_foldl2 | extract_lets | split | intro _ | (dsimp +zetaDelta -zeta only))

theorem keeps_readSource {s : State} (x1 : Source) (n : Nat) (hs : Keeps own s0 s) : Keeps own s0 (State.readSource s x1 n).2 := by
  unfold State.readSource
  repeat' (first
      | with_reducible assumption | with_reducible apply keeps_ringRead | with_reducible apply keeps_sharedFault
      | with_reducible apply keeps_workRead | with_reducible apply keeps_foldl
      | with_reducible apply keeps_foldl2 | extract_lets | split | intro _ | (dsimp +zetaDelta -zeta only))

theorem keeps_fetchMove {s : State} (c : CoreId) (x2 : Source) (n : Nat) (hs : Keeps own s0 s) : Keeps own s0 (State.fetchMove s c x2 n).2.2 := by
  unfold State.fetchMove
  repeat' (first
      | with_reducible assumption | with_reducible apply keeps_kvRead | with_reducible apply keeps_readSource
      | with_reducible apply keeps_workRead | with_reducible apply keeps_foldl
      | with_reducible apply keeps_foldl2 | extract_lets | split | intro _ | (dsimp +zetaDelta -zeta only))

theorem keeps_finishConv {s : State} (c : CoreId) (o : ConvOp) (hs : Keeps own s0 s) : Keeps own s0 (State.finishConv s c o) := by
  unfold State.finishConv
  repeat' (first
      | with_reducible assumption | with_reducible apply keeps_modCore | with_reducible apply keeps_modShare
      | with_reducible apply keeps_foldl | with_reducible apply keeps_foldl2 | extract_lets | split | intro _
      | (dsimp +zetaDelta -zeta only))

theorem keeps_firstPass {s : State} (c : CoreId) (o : ConvOp) (hs : Keeps own s0 s) : Keeps own s0 (State.firstPass s c o) := by
  unfold State.firstPass
  repeat' (first
      | with_reducible assumption | with_reducible apply keeps_addTop | with_reducible apply keeps_modClu
      | with_reducible apply keeps_modConv | with_reducible apply keeps_modCore
      | with_reducible apply keeps_modOcv | with_reducible apply keeps_modShare
      | with_reducible apply keeps_modSparse | with_reducible apply keeps_report
      | with_reducible apply keeps_foldl | with_reducible apply keeps_foldl2 | extract_lets | split | intro _
      | (dsimp +zetaDelta -zeta only))

theorem keeps_putEvent {s : State} (hs : Keeps own s0 s) : Keeps own s0 (State.putEvent s) := by
  unfold State.putEvent
  repeat' (first
      | with_reducible assumption | with_reducible apply keeps_hostWrite | with_reducible apply keeps_modHost
      | with_reducible apply keeps_foldl | with_reducible apply keeps_foldl2 | extract_lets | split | intro _
      | (dsimp +zetaDelta -zeta only))

theorem keeps_flushEvents {s : State} (hs : Keeps own s0 s) : Keeps own s0 (State.flushEvents s) := by
  unfold State.flushEvents
  repeat' (first
      | with_reducible assumption | with_reducible apply keeps_putEvent | with_reducible apply keeps_foldl
      | with_reducible apply keeps_foldl2 | extract_lets | split | intro _ | (dsimp +zetaDelta -zeta only))

theorem keeps_forward {s : State} (p : Nat) (h : FlitHdr) (hs : Keeps own s0 s) : Keeps own s0 (State.forward s p h) := by
  unfold State.forward
  repeat' (first
      | with_reducible assumption | with_reducible apply keeps_modLnk | with_reducible apply keeps_raise
      | with_reducible apply keeps_send | with_reducible apply keeps_foldl | with_reducible apply keeps_foldl2
      | extract_lets | split | intro _ | (dsimp +zetaDelta -zeta only))

theorem keeps_gather {s : State} (c : CoreId) (o : ChainOp) (e : Nat) (b : PlaneBuf) (hs : Keeps own s0 s) : Keeps own s0 (State.gather s c o e b) := by
  unfold State.gather
  repeat' (first
      | with_reducible assumption | with_reducible apply keeps_modEng | with_reducible apply keeps_foldl
      | with_reducible apply keeps_foldl2 | extract_lets | split | intro _ | (dsimp +zetaDelta -zeta only))

theorem keeps_gpLevel {s : State} (i : Nat) (b : Bool) (hs : Keeps own s0 s) : Keeps own s0 (State.gpLevel s i b) := by
  unfold State.gpLevel
  repeat' (first
      | with_reducible assumption | with_reducible apply keeps_modPin | with_reducible apply keeps_foldl
      | with_reducible apply keeps_foldl2 | extract_lets | split | intro _ | (dsimp +zetaDelta -zeta only))

theorem keeps_headPlan {s : State} (g : Nat) (hs : Keeps own s0 s) : Keeps own s0 (State.headPlan s g).2 := by
  unfold State.headPlan
  repeat' (first
      | with_reducible assumption | with_reducible apply keeps_modTick | with_reducible apply keeps_raise
      | with_reducible apply keeps_foldl | with_reducible apply keeps_foldl2 | extract_lets | split | intro _
      | (dsimp +zetaDelta -zeta only))

theorem keeps_holdWait {s : State} (c : CoreId) (hs : Keeps own s0 s) : Keeps own s0 (State.holdWait s c) := by
  unfold State.holdWait
  repeat' (first
      | with_reducible assumption | with_reducible apply keeps_drawWord | with_reducible apply keeps_modOcv
      | with_reducible apply keeps_foldl | with_reducible apply keeps_foldl2 | extract_lets | split | intro _
      | (dsimp +zetaDelta -zeta only))

theorem keeps_holeEvent {s : State} (a : Nat) (hs : Keeps own s0 s) : Keeps own s0 (State.holeEvent s a) := by
  unfold State.holeEvent
  repeat' (first
      | with_reducible assumption | with_reducible apply keeps_modClu | with_reducible apply keeps_raise
      | with_reducible apply keeps_foldl | with_reducible apply keeps_foldl2 | extract_lets | split | intro _
      | (dsimp +zetaDelta -zeta only))

theorem keeps_inputFault {s : State} (c : CoreId) (code : Nat) (hs : Keeps own s0 s) : Keeps own s0 (State.inputFault s c code) := by
  unfold State.inputFault
  repeat' (first
      | with_reducible assumption | with_reducible apply keeps_raise | with_reducible apply keeps_sharedFault
      | with_reducible apply keeps_foldl | with_reducible apply keeps_foldl2 | extract_lets | split | intro _
      | (dsimp +zetaDelta -zeta only))

theorem keeps_latchRings {s : State} (hs : Keeps own s0 s) : Keeps own s0 (State.latchRings s) := by
  unfold State.latchRings
  repeat' (first
      | with_reducible assumption | with_reducible apply keeps_foldl | with_reducible apply keeps_foldl2
      | extract_lets | split | intro _ | (dsimp +zetaDelta -zeta only)
      | with_reducible refine keeps_mk ?_ (by first | exact Nat.le_refl _ | exact Nat.le_add_right _ _) rfl rfl rfl)

theorem keeps_startSlot {s : State} (i : Nat) (hs : Keeps own s0 s) : Keeps own s0 (State.startSlot s i).2 := by
  unfold State.startSlot
  repeat' (first
      | with_reducible assumption | with_reducible apply keeps_modHost | with_reducible apply keeps_modSlot
      | with_reducible apply keeps_raise | with_reducible apply keeps_foldl | with_reducible apply keeps_foldl2
      | extract_lets | split | intro _ | (dsimp +zetaDelta -zeta only))

theorem keeps_laterPlan {s : State} (n : DWord) (g : Nat) (hs : Keeps own s0 s) : Keeps own s0 (State.laterPlan s n g).2 := by
  unfold State.laterPlan
  repeat' (first
      | with_reducible assumption | with_reducible apply keeps_modTick | with_reducible apply keeps_startSlot
      | with_reducible apply keeps_foldl | with_reducible apply keeps_foldl2 | extract_lets | split | intro _
      | (dsimp +zetaDelta -zeta only))

theorem keeps_loadEngine {s : State} (c : CoreId) (o : LoadOp) (i : Nat) (hs : Keeps own s0 s) : Keeps own s0 (State.loadEngine s c o i) := by
  unfold State.loadEngine
  repeat' (first
      | with_reducible assumption | with_reducible apply keeps_modEng | with_reducible apply keeps_foldl
      | with_reducible apply keeps_foldl2 | extract_lets | split | intro _ | (dsimp +zetaDelta -zeta only))

theorem keeps_loseOwner {s : State} (hs : Keeps own s0 s) : Keeps own s0 (State.loseOwner s) := by
  unfold State.loseOwner
  repeat' (first
      | with_reducible assumption | with_reducible apply keeps_foldl | with_reducible apply keeps_foldl2
      | extract_lets | split | intro _ | (dsimp +zetaDelta -zeta only)
      | with_reducible refine keeps_mk ?_ (by first | exact Nat.le_refl _ | exact Nat.le_add_right _ _) rfl rfl rfl)

theorem keeps_seqStop {s : State} (c : CoreId) (code : Nat) (err : Nat) (hs : Keeps own s0 s) : Keeps own s0 (State.seqStop s c code err) := by
  unfold State.seqStop
  repeat' (first
      | with_reducible assumption | with_reducible apply keeps_modSeq | with_reducible apply keeps_raise
      | with_reducible apply keeps_sharedFault | with_reducible apply keeps_foldl
      | with_reducible apply keeps_foldl2 | extract_lets | split | intro _ | (dsimp +zetaDelta -zeta only))

theorem keeps_skipInstr {s : State} (c : CoreId) (hs : Keeps own s0 s) : Keeps own s0 (State.skipInstr s c) := by
  unfold State.skipInstr
  repeat' (first
      | with_reducible assumption | with_reducible apply keeps_modSeq | with_reducible apply keeps_foldl
      | with_reducible apply keeps_foldl2 | extract_lets | split | intro _ | (dsimp +zetaDelta -zeta only))

theorem keeps_ocvFault {s : State} (c : CoreId) (code : Nat) (bit : Nat) (hs : Keeps own s0 s) : Keeps own s0 (State.ocvFault s c code bit) := by
  unfold State.ocvFault
  repeat' (first
      | with_reducible assumption | with_reducible apply keeps_modOcv | with_reducible apply keeps_raise
      | with_reducible apply keeps_sharedFault | with_reducible apply keeps_foldl
      | with_reducible apply keeps_foldl2 | extract_lets | split | intro _ | (dsimp +zetaDelta -zeta only))

theorem keeps_matrix {s : State} (c : CoreId) (w : DWord) (mode : Nat) (hs : Keeps own s0 s) : Keeps own s0 (State.matrix s c w mode) := by
  unfold State.matrix
  repeat' (first
      | with_reducible assumption | with_reducible apply keeps_enqueueMatrix
      | with_reducible apply keeps_holdWait | with_reducible apply keeps_inputFault
      | with_reducible apply keeps_ocvFault | with_reducible apply keeps_reachFault
      | with_reducible apply keeps_ringFault | with_reducible apply keeps_seqStop
      | with_reducible apply keeps_skipInstr | with_reducible apply keeps_waitAt
      | with_reducible apply keeps_withSb | with_reducible apply keeps_foldl | with_reducible apply keeps_foldl2
      | extract_lets | split | intro _ | (dsimp +zetaDelta -zeta only))

theorem keeps_mbxStart {s : State} (p : Port) (op : Nat) (len : Nat) (f : State → Word × List Byte × State) (hs : Keeps own s0 s) (hf : ∀ y0, Keeps own s0 y0 → Keeps own s0 (f y0).2.2) : Keeps own s0 (State.mbxStart s p op len f) := by
  unfold State.mbxStart
  repeat' (first
      | with_reducible assumption | with_reducible apply hf | with_reducible apply keeps_modPort
      | with_reducible apply keeps_foldl | with_reducible apply keeps_foldl2 | extract_lets | split | intro _
      | (dsimp +zetaDelta -zeta only))

theorem keeps_modHandle {s : State} (h : Nat) (f : HandleSt → HandleSt) (hs : Keeps own s0 s) : Keeps own s0 (State.modHandle s h f) := by
  unfold State.modHandle
  repeat' (first
      | with_reducible assumption | with_reducible apply keeps_foldl | with_reducible apply keeps_foldl2
      | extract_lets | split | intro _ | (dsimp +zetaDelta -zeta only)
      | with_reducible refine keeps_mk ?_ (by first | exact Nat.le_refl _ | exact Nat.le_add_right _ _) rfl rfl rfl)

theorem keeps_modTap {s : State} (f : TapSt → TapSt) (hs : Keeps own s0 s) : Keeps own s0 (State.modTap s f) := by
  unfold State.modTap
  repeat' (first
      | with_reducible assumption | with_reducible apply keeps_foldl | with_reducible apply keeps_foldl2
      | extract_lets | split | intro _ | (dsimp +zetaDelta -zeta only)
      | with_reducible refine keeps_mk ?_ (by first | exact Nat.le_refl _ | exact Nat.le_add_right _ _) rfl rfl rfl)

theorem keeps_modWinDma {s : State} (k : Nat) (f : DmaOp → DmaOp) (hs : Keeps own s0 s) : Keeps own s0 (State.modWinDma s k f) := by
  unfold State.modWinDma
  repeat' (first
      | with_reducible assumption | with_reducible apply keeps_foldl | with_reducible apply keeps_foldl2
      | extract_lets | split | intro _ | (dsimp +zetaDelta -zeta only)
      | with_reducible refine keeps_mk ?_ (by first | exact Nat.le_refl _ | exact Nat.le_add_right _ _) rfl rfl rfl)

theorem keeps_moveFault {s : State} (c : CoreId) (x2 : Reach) (hs : Keeps own s0 s) : Keeps own s0 (State.moveFault s c x2) := by
  unfold State.moveFault
  repeat' (first
      | with_reducible assumption | with_reducible apply keeps_raise | with_reducible apply keeps_reachFault
      | with_reducible apply keeps_sharedFault | with_reducible apply keeps_foldl
      | with_reducible apply keeps_foldl2 | extract_lets | split | intro _ | (dsimp +zetaDelta -zeta only))

theorem keeps_openOwn {s : State} (w : Nat) (base : Nat) (bytes : Nat) (hs : Keeps own s0 s) : Keeps own s0 (State.openOwn s w base bytes) := by
  unfold State.openOwn
  repeat' (first
      | with_reducible assumption | with_reducible apply keeps_modWindow | with_reducible apply keeps_openWindow
      | with_reducible apply keeps_foldl | with_reducible apply keeps_foldl2 | extract_lets | split | intro _
      | (dsimp +zetaDelta -zeta only))

theorem keeps_openPaired {s : State} (hs : Keeps own s0 s) : Keeps own s0 (State.openPaired s) := by
  unfold State.openPaired
  repeat' (first
      | with_reducible assumption | with_reducible apply keeps_openOwn | with_reducible apply keeps_foldl
      | with_reducible apply keeps_foldl2 | extract_lets | split | intro _ | (dsimp +zetaDelta -zeta only))

theorem keeps_orphanInputs {s : State} (hs : Keeps own s0 s) : Keeps own s0 (State.orphanInputs s) := by
  unfold State.orphanInputs
  repeat' (first
      | with_reducible assumption | with_reducible apply keeps_foldl | with_reducible apply keeps_foldl2
      | extract_lets | split | intro _ | (dsimp +zetaDelta -zeta only)
      | with_reducible refine keeps_mk ?_ (by first | exact Nat.le_refl _ | exact Nat.le_add_right _ _) rfl rfl rfl)

theorem keeps_via {s : State} (p : Port) (f : State → State) (hs : Keeps own s0 s) (hf : ∀ y0, Keeps own s0 y0 → Keeps own s0 (f y0)) : Keeps own s0 (State.via s p f) := by
  unfold State.via
  repeat' (first
      | with_reducible assumption | with_reducible apply hf | with_reducible apply keeps_foldl
      | with_reducible apply keeps_foldl2 | extract_lets | split | intro _ | (dsimp +zetaDelta -zeta only))

theorem keeps_ownerOnly {s : State} (p : Port) (f : State → State) (hs : Keeps own s0 s) (hf : ∀ y0, Keeps own s0 y0 → Keeps own s0 (f y0)) : Keeps own s0 (State.ownerOnly s p f) := by
  unfold State.ownerOnly
  repeat' (first
      | with_reducible assumption | with_reducible apply hf | with_reducible apply keeps_modHost
      | with_reducible apply keeps_raise | with_reducible apply keeps_via | with_reducible apply keeps_foldl
      | with_reducible apply keeps_foldl2 | extract_lets | split | intro _ | (dsimp +zetaDelta -zeta only))

theorem keeps_partReturn {s : State} (c : CoreId) (b : Bound) (hs : Keeps own s0 s) : Keeps own s0 (State.partReturn s c b) := by
  unfold State.partReturn
  repeat' (first
      | with_reducible assumption | with_reducible apply keeps_modSeq | with_reducible apply keeps_foldl
      | with_reducible apply keeps_foldl2 | extract_lets | split | intro _ | (dsimp +zetaDelta -zeta only))

theorem keeps_pinChange {s : State} (code : Nat) (asserted : Bool) (hs : Keeps own s0 s) : Keeps own s0 (State.pinChange s code asserted) := by
  unfold State.pinChange
  repeat' (first
      | with_reducible assumption | with_reducible apply keeps_endStaging | with_reducible apply keeps_raise
      | with_reducible apply keeps_foldl | with_reducible apply keeps_foldl2 | extract_lets | split | intro _
      | (dsimp +zetaDelta -zeta only))

theorem keeps_pinDrive {s : State} (code : Nat) (hs : Keeps own s0 s) : Keeps own s0 (State.pinDrive s code) := by
  unfold State.pinDrive
  repeat' (first
      | with_reducible assumption | with_reducible apply keeps_goSafe | with_reducible apply keeps_modTap
      | with_reducible apply keeps_raise | with_reducible apply keeps_foldl | with_reducible apply keeps_foldl2
      | extract_lets | split | intro _ | (dsimp +zetaDelta -zeta only))

theorem keeps_pushRecorded {s : State} (e : CoreId × Nat × List Byte) (hs : Keeps own s0 s) : Keeps own s0 (State.pushRecorded s e) := by
  unfold State.pushRecorded
  repeat' (first
      | with_reducible assumption | with_reducible apply keeps_modRing | with_reducible apply keeps_ringPut
      | with_reducible apply keeps_foldl | with_reducible apply keeps_foldl2 | extract_lets | split | intro _
      | (dsimp +zetaDelta -zeta only))

theorem keeps_replaySlots {s : State} (w : List Byte) (hs : Keeps own s0 s) : Keeps own s0 (State.replaySlots s w) := by
  unfold State.replaySlots
  repeat' (first
      | with_reducible assumption | with_reducible apply keeps_modSlot | with_reducible apply keeps_foldl
      | with_reducible apply keeps_foldl2 | extract_lets | split | intro _ | (dsimp +zetaDelta -zeta only))

theorem keeps_replayPlan {s : State} (x1 : ReplaySt) (w : List Byte) (hs : Keeps own s0 s) : Keeps own s0 (State.replayPlan s x1 w).2 := by
  unfold State.replayPlan
  repeat' (first
      | with_reducible assumption | with_reducible apply keeps_modPrec | with_reducible apply keeps_modReh
      | with_reducible apply keeps_pushRecorded | with_reducible apply keeps_raiseAll
      | with_reducible apply keeps_replaySlots | with_reducible apply keeps_foldl
      | with_reducible apply keeps_foldl2 | extract_lets | split | intro _ | (dsimp +zetaDelta -zeta only)
      | with_reducible refine keeps_mk ?_ (by first | exact Nat.le_refl _ | exact Nat.le_add_right _ _) rfl rfl rfl)

theorem keeps_planTick {s : State} (hs : Keeps own s0 s) : Keeps own s0 (State.planTick s).2 := by
  unfold State.planTick
  repeat' (first
      | with_reducible assumption | with_reducible apply keeps_headPlan | with_reducible apply keeps_laterPlan
      | with_reducible apply keeps_replayPlan | with_reducible apply keeps_foldl
      | with_reducible apply keeps_foldl2 | extract_lets | split | intro _ | (dsimp +zetaDelta -zeta only))

theorem keeps_portDown {s : State} (p : Nat) (err : Nat) (hs : Keeps own s0 s) : Keeps own s0 (State.portDown s p err) := by
  unfold State.portDown
  repeat' (first
      | with_reducible assumption | with_reducible apply keeps_modLnk | with_reducible apply keeps_raise
      | with_reducible apply keeps_sharedFault | with_reducible apply keeps_foldl
      | with_reducible apply keeps_foldl2 | extract_lets | split | intro _ | (dsimp +zetaDelta -zeta only))

theorem keeps_pushConv {s : State} (c : CoreId) (id : Nat) (ord : BitVec 16) (d : CoreId) (q : Nat) (kind : Nat) (l : List Byte) (hs : Keeps own s0 s) : Keeps own s0 (State.pushConv s c id ord d q kind l) := by
  unfold State.pushConv
  repeat' (first
      | with_reducible assumption | with_reducible apply keeps_modCore | with_reducible apply keeps_pushMove
      | with_reducible apply keeps_foldl | with_reducible apply keeps_foldl2 | extract_lets | split | intro _
      | (dsimp +zetaDelta -zeta only))

theorem keeps_pushMerged {s : State} (n : Nat) (ord : BitVec 16) (epoch : BitVec 16) (l : List Byte) (hs : Keeps own s0 s) : Keeps own s0 (State.pushMerged s n ord epoch l) := by
  unfold State.pushMerged
  repeat' (first
      | with_reducible assumption | with_reducible apply keeps_pushCluster | with_reducible apply keeps_foldl
      | with_reducible apply keeps_foldl2 | extract_lets | split | intro _ | (dsimp +zetaDelta -zeta only))

theorem keeps_pushRecord {s : State} (c : CoreId) (o : ConvOp) (d : CoreId) (q : Nat) (kind : Nat) (key : Nat) (l : List Byte) (hs : Keeps own s0 s) : Keeps own s0 (State.pushRecord s c o d q kind key l) := by
  unfold State.pushRecord
  repeat' (first
      | with_reducible assumption | with_reducible apply keeps_modShare | with_reducible apply keeps_pushConv
      | with_reducible apply keeps_foldl | with_reducible apply keeps_foldl2 | extract_lets | split | intro _
      | (dsimp +zetaDelta -zeta only))

theorem keeps_raiseOnce {s : State} (code : Nat) (hs : Keeps own s0 s) : Keeps own s0 (State.raiseOnce s code) := by
  unfold State.raiseOnce
  repeat' (first
      | with_reducible assumption | with_reducible apply keeps_raise | with_reducible apply keeps_foldl
      | with_reducible apply keeps_foldl2 | extract_lets | split | intro _ | (dsimp +zetaDelta -zeta only)
      | with_reducible refine keeps_mk ?_ (by first | exact Nat.le_refl _ | exact Nat.le_add_right _ _) rfl rfl rfl)

theorem keeps_readAll {s : State} (x1 : List (Nat × Nat)) (hs : Keeps own s0 s) : Keeps own s0 (State.readAll s x1).2 := by
  induction x1 generalizing s with
  | nil => unfold State.readAll; exact hs
  | cons y t ih =>
  unfold State.readAll
  repeat' (first
      | with_reducible assumption | with_reducible apply ih | with_reducible apply keeps_workRead
      | with_reducible apply keeps_foldl | with_reducible apply keeps_foldl2 | extract_lets | split | intro _
      | (dsimp +zetaDelta -zeta only))

theorem keeps_readEach {s : State} (a : Nat) (off : Nat) (x3 : Nat) (hs : Keeps own s0 s) : Keeps own s0 (State.readEach s a off x3).2 := by
  induction x3 generalizing s a off with
  | zero => unfold State.readEach; exact hs
  | succ k ih =>
  unfold State.readEach
  repeat' (first
      | with_reducible assumption | with_reducible apply ih | with_reducible apply keeps_readDev
      | with_reducible apply keeps_foldl | with_reducible apply keeps_foldl2 | extract_lets | split | intro _
      | (dsimp +zetaDelta -zeta only))

theorem keeps_readSpan {s : State} (a : Nat) (n : Nat) (x3 : Nat) (hs : Keeps own s0 s) : Keeps own s0 (State.readSpan s a n x3).2 := by
  induction x3 generalizing s a n with
  | zero => unfold State.readSpan; exact hs
  | succ k ih =>
  unfold State.readSpan
  repeat' (first
      | with_reducible assumption | with_reducible apply ih | with_reducible apply keeps_readDev
      | with_reducible apply keeps_foldl | with_reducible apply keeps_foldl2 | extract_lets | split | intro _
      | (dsimp +zetaDelta -zeta only))

theorem keeps_readEntry {s : State} (e : RehEntry) (hs : Keeps own s0 s) : Keeps own s0 (State.readEntry s e).2 := by
  unfold State.readEntry
  repeat' (first
      | with_reducible assumption | with_reducible apply keeps_readSpan | with_reducible apply keeps_foldl
      | with_reducible apply keeps_foldl2 | extract_lets | split | intro _ | (dsimp +zetaDelta -zeta only))

theorem keeps_readEntries {s : State} (x1 : List RehEntry) (hs : Keeps own s0 s) : Keeps own s0 (State.readEntries s x1).2 := by
  induction x1 generalizing s with
  | nil => unfold State.readEntries; exact hs
  | cons y t ih =>
  unfold State.readEntries
  repeat' (first
      | with_reducible assumption | with_reducible apply ih | with_reducible apply keeps_readEntry
      | with_reducible apply keeps_foldl | with_reducible apply keeps_foldl2 | extract_lets | split | intro _
      | (dsimp +zetaDelta -zeta only))

theorem keeps_readParity {s : State} (c : CoreId) (e : Nat) (hs : Keeps own s0 s) : Keeps own s0 (State.readParity s c e) := by
  unfold State.readParity
  repeat' (first
      | with_reducible assumption | with_reducible apply keeps_modEng | with_reducible apply keeps_raise
      | with_reducible apply keeps_foldl | with_reducible apply keeps_foldl2 | extract_lets | split | intro _
      | (dsimp +zetaDelta -zeta only))

theorem keeps_recordAt {s : State} (a : Nat) (hs : Keeps own s0 s) : Keeps own s0 (State.recordAt s a).2 := by
  unfold State.recordAt
  repeat' (first
      | with_reducible assumption | with_reducible apply keeps_readSpan | with_reducible apply keeps_foldl
      | with_reducible apply keeps_foldl2 | extract_lets | split | intro _ | (dsimp +zetaDelta -zeta only))

theorem keeps_recordConf {s : State} (p : PendStep) (g : Nat) (failM : BitVec 256) (hs : Keeps own s0 s) : Keeps own s0 (State.recordConf s p g failM) := by
  unfold State.recordConf
  repeat' (first
      | with_reducible assumption | with_reducible apply keeps_putRecord | with_reducible apply keeps_foldl
      | with_reducible apply keeps_foldl2 | extract_lets | split | intro _ | (dsimp +zetaDelta -zeta only))

theorem keeps_releaseOut {s : State} (r : Nat) (hs : Keeps own s0 s) : Keeps own s0 (State.releaseOut s r) := by
  unfold State.releaseOut
  repeat' (first
      | with_reducible assumption | with_reducible apply keeps_modRing | with_reducible apply keeps_modWin
      | with_reducible apply keeps_foldl | with_reducible apply keeps_foldl2 | extract_lets | split | intro _
      | (dsimp +zetaDelta -zeta only))

theorem keeps_releaseOuts {s : State} (hs : Keeps own s0 s) : Keeps own s0 (State.releaseOuts s) := by
  unfold State.releaseOuts
  repeat' (first
      | with_reducible assumption | with_reducible apply keeps_releaseOut | with_reducible apply keeps_foldl
      | with_reducible apply keeps_foldl2 | extract_lets | split | intro _ | (dsimp +zetaDelta -zeta only))

theorem keeps_takeAck {s : State} (p : Nat) (a : Option (BitVec 12)) (hs : Keeps own s0 s) : Keeps own s0 (State.takeAck s p a) := by
  unfold State.takeAck
  repeat' (first
      | with_reducible assumption | with_reducible apply keeps_modLnk | with_reducible apply keeps_modWin
      | with_reducible apply keeps_releaseOuts | with_reducible apply keeps_foldl
      | with_reducible apply keeps_foldl2 | extract_lets | split | intro _ | (dsimp +zetaDelta -zeta only))

theorem keeps_takeFlits {s : State} (p : Nat) (h : FlitHdr) (idle : Bool) (hs : Keeps own s0 s) : KeepsL own s0 (State.takeFlits s p h idle) := by
  unfold State.takeFlits
  repeat' (first
      | with_reducible assumption | with_reducible apply keeps_countFec | with_reducible apply keeps_modLnk
      | with_reducible apply keeps_send | with_reducible apply keeps_takeAck | with_reducible apply keeps_foldl
      | with_reducible apply keeps_foldl2 | with_reducible apply keepsL_lost | with_reducible apply keepsL_here
      | extract_lets | split | intro _ | (dsimp +zetaDelta -zeta only))

theorem keeps_recvCtrl {s : State} (p : Nat) (h : FlitHdr) (f : State → State) (hs : Keeps own s0 s) (hf : ∀ y0, Keeps own s0 y0 → Keeps own s0 (f y0)) : Keeps own s0 (State.recvCtrl s p h f) := by
  unfold State.recvCtrl
  repeat' (first
      | with_reducible assumption | with_reducible apply hf | with_reducible apply keeps_forward
      | with_reducible apply keeps_takeFlits | with_reducible apply keeps_foldl
      | with_reducible apply keeps_foldl2 | with_reducible refine keeps_of_lost (by with_reducible assumption) ?_
      | with_reducible refine keeps_of_here (by with_reducible assumption) ?_ | extract_lets | split | intro _
      | (dsimp +zetaDelta -zeta only))

theorem keeps_refetchNext {s : State} (hs : Keeps own s0 s) : Keeps own s0 (State.refetchNext s) := by
  unfold State.refetchNext
  repeat' (first
      | with_reducible assumption | with_reducible apply keeps_modTwin | with_reducible apply keeps_refetchStart
      | with_reducible apply keeps_foldl | with_reducible apply keeps_foldl2 | extract_lets | split | intro _
      | (dsimp +zetaDelta -zeta only))

theorem keeps_refetchEnd {s : State} (hs : Keeps own s0 s) : Keeps own s0 (State.refetchEnd s) := by
  unfold State.refetchEnd
  repeat' (first
      | with_reducible assumption | with_reducible apply keeps_closeWindow | with_reducible apply keeps_modTwin
      | with_reducible apply keeps_refetchNext | with_reducible apply keeps_foldl
      | with_reducible apply keeps_foldl2 | extract_lets | split | intro _ | (dsimp +zetaDelta -zeta only))

theorem keeps_refuseFlit {s : State} (h : FlitHdr) (m : WinWrite) (reason : Nat) (hs : Keeps own s0 s) : Keeps own s0 (State.refuseFlit s h m reason) := by
  unfold State.refuseFlit
  repeat' (first
      | with_reducible assumption | with_reducible apply keeps_modWin | with_reducible apply keeps_modWindow
      | with_reducible apply keeps_raise | with_reducible apply keeps_sendRouted
      | with_reducible apply keeps_foldl | with_reducible apply keeps_foldl2 | extract_lets | split | intro _
      | (dsimp +zetaDelta -zeta only))

theorem keeps_regrdWord {s : State} (off : Nat) (hs : Keeps own s0 s) : Keeps own s0 (State.regrdWord s off).2 := by
  unfold State.regrdWord
  repeat' (first
      | with_reducible assumption | with_reducible apply keeps_drawWord | with_reducible apply keeps_foldl
      | with_reducible apply keeps_foldl2 | extract_lets | split | intro _ | (dsimp +zetaDelta -zeta only))

theorem keeps_rehCommand {s : State} (p : Port) (op : Nat) (check : Bool) (f : State → State) (hs : Keeps own s0 s) (hf : ∀ y0, Keeps own s0 y0 → Keeps own s0 (f y0)) : Keeps own s0 (State.rehCommand s p op check f) := by
  unfold State.rehCommand
  repeat' (first
      | with_reducible assumption | with_reducible apply hf | with_reducible apply keeps_modReh
      | with_reducible apply keeps_ownerOnly | with_reducible apply keeps_foldl
      | with_reducible apply keeps_foldl2 | extract_lets | split | intro _ | (dsimp +zetaDelta -zeta only))

theorem keeps_rehRefuse {s : State} (r : Nat) (hs : Keeps own s0 s) : Keeps own s0 (State.rehRefuse s r) := by
  unfold State.rehRefuse
  repeat' (first
      | with_reducible assumption | with_reducible apply keeps_modReh | with_reducible apply keeps_raise
      | with_reducible apply keeps_foldl | with_reducible apply keeps_foldl2 | extract_lets | split | intro _
      | (dsimp +zetaDelta -zeta only))

theorem keeps_runSeq {s : State} (c : CoreId) (op : Nat) (f : DWord → State → State) (hs : Keeps own s0 s) (hf : ∀ y0, ∀ y1, Keeps own s0 y1 → Keeps own s0 (f y0 y1)) : Keeps own s0 (State.runSeq s c op f) := by
  unfold State.runSeq
  repeat' (first
      | with_reducible assumption | with_reducible apply hf | with_reducible apply keeps_foldl
      | with_reducible apply keeps_foldl2 | extract_lets | split | intro _ | (dsimp +zetaDelta -zeta only))

theorem keeps_tileRead {s : State} (x1 : TileSrc) (n : Nat) (hs : Keeps own s0 s) : Keeps own s0 (State.tileRead s x1 n).2 := by
  unfold State.tileRead
  repeat' (first
      | with_reducible assumption | with_reducible apply keeps_ringRead | with_reducible apply keeps_sharedFault
      | with_reducible apply keeps_workRead | with_reducible apply keeps_foldl
      | with_reducible apply keeps_foldl2 | extract_lets | split | intro _ | (dsimp +zetaDelta -zeta only))

theorem keeps_releaseBytes {s : State} (c : CoreId) (q : Nat) (e : BitVec 16) (n : Nat) (hs : Keeps own s0 s) : KeepsR own s0 (State.releaseBytes s c q e n) := by
  unfold State.releaseBytes
  repeat' (first
      | with_reducible assumption | with_reducible apply keeps_modRing | with_reducible apply keeps_foldl
      | with_reducible apply keeps_foldl2 | with_reducible apply keepsR_done | with_reducible apply keepsR_wait
      | extract_lets | split | intro _ | (dsimp +zetaDelta -zeta only))

theorem keeps_tried {s : State} {a : Answer} (hs : Keeps own s0 s) (ha : KeepsA own s0 a) : Keeps own s0 (tried s a) := by
  cases a with
  | next t => exact ha.out t rfl
  | fault _ => exact hs
  | refused _ => exact hs

theorem keeps_startTick {s : State} (r : RunTick) (at_ : Nat) (hs : Keeps own s0 s) : Keeps own s0 (State.startTick s r at_) := by
  unfold State.startTick
  repeat' (first
      | with_reducible assumption | with_reducible apply keeps_curtain | with_reducible apply keeps_modPin
      | with_reducible apply keeps_modTick | with_reducible apply keeps_foldl | with_reducible apply keeps_foldl2
      | extract_lets | split | intro _ | (dsimp +zetaDelta -zeta only)
      | with_reducible refine keeps_mk ?_ (by first | exact Nat.le_refl _ | exact Nat.le_add_right _ _) rfl rfl rfl)

theorem keeps_twinBeat {s : State} (n : DWord) (hs : Keeps own s0 s) : Keeps own s0 (State.twinBeat s n) := by
  unfold State.twinBeat
  repeat' (first
      | with_reducible assumption | with_reducible apply keeps_raise | with_reducible apply keeps_sendOn
      | with_reducible apply keeps_foldl | with_reducible apply keeps_foldl2 | extract_lets | split | intro _
      | (dsimp +zetaDelta -zeta only))

theorem keeps_sendCue {s : State} (n : DWord) (hs : Keeps own s0 s) : Keeps own s0 (State.sendCue s n) := by
  unfold State.sendCue
  repeat' (first
      | with_reducible assumption | with_reducible apply keeps_sendOn | with_reducible apply keeps_foldl
      | with_reducible apply keeps_foldl2 | extract_lets | split | intro _ | (dsimp +zetaDelta -zeta only))

theorem keeps_releaseCue {s : State} (c : HeldCue) (rest : List HeldCue) (at_ : Nat) (hs : Keeps own s0 s) : Keeps own s0 (State.releaseCue s c rest at_) := by
  unfold State.releaseCue
  repeat' (first
      | with_reducible assumption | with_reducible apply keeps_beforePlan | with_reducible apply keeps_enterRun
      | with_reducible apply keeps_feedTick | with_reducible apply keeps_latchRings
      | with_reducible apply keeps_modTick | with_reducible apply keeps_planTick
      | with_reducible apply keeps_sendCue | with_reducible apply keeps_startTick
      | with_reducible apply keeps_twinBeat | with_reducible apply keeps_foldl
      | with_reducible apply keeps_foldl2 | extract_lets | split | intro _ | (dsimp +zetaDelta -zeta only))

theorem keeps_resetOwnerRings {s : State} (p : Port) (hs : Keeps own s0 s) : Keeps own s0 (State.resetOwnerRings s p) := by
  unfold State.resetOwnerRings
  repeat' (first
      | with_reducible assumption | with_reducible apply keeps_cutCommand | with_reducible apply keeps_modHost
      | with_reducible apply keeps_modPort | with_reducible apply keeps_orphanInputs
      | with_reducible apply keeps_foldl | with_reducible apply keeps_foldl2 | extract_lets | split | intro _
      | (dsimp +zetaDelta -zeta only))

theorem keeps_retryMoves {s : State} (x1 : List DmaOp) (hs : Keeps own s0 s) : Keeps own s0 (State.retryMoves s x1).2 := by
  induction x1 generalizing s with
  | nil => unfold State.retryMoves; exact hs
  | cons y t ih =>
  unfold State.retryMoves
  repeat' (first
      | with_reducible assumption | with_reducible apply ih | with_reducible apply keeps_pushMove
      | with_reducible apply keeps_foldl | with_reducible apply keeps_foldl2 | extract_lets | split | intro _
      | (dsimp +zetaDelta -zeta only))

theorem keeps_retryCluster {s : State} (n : Nat) (hs : Keeps own s0 s) : Keeps own s0 (State.retryCluster s n) := by
  unfold State.retryCluster
  repeat' (first
      | with_reducible assumption | with_reducible apply keeps_modClu | with_reducible apply keeps_retryMoves
      | with_reducible apply keeps_foldl | with_reducible apply keeps_foldl2 | extract_lets | split | intro _
      | (dsimp +zetaDelta -zeta only))

theorem keeps_retryStalled {s : State} (p : Nat) (x2 : Nat) (hs : Keeps own s0 s) : Keeps own s0 (State.retryStalled s p x2) := by
  induction x2 generalizing s p with
  | zero => unfold State.retryStalled; exact hs
  | succ k ih =>
  unfold State.retryStalled
  repeat' (first
      | with_reducible assumption | with_reducible apply ih | with_reducible apply keeps_drawWord
      | with_reducible apply keeps_modLnk | with_reducible apply keeps_pushLink
      | with_reducible apply keeps_foldl | with_reducible apply keeps_foldl2
      | with_reducible refine keeps_of_done (by with_reducible assumption) ?_
      | with_reducible refine keeps_of_wait (by with_reducible assumption) ?_ | extract_lets | split | intro _
      | (dsimp +zetaDelta -zeta only))

theorem keeps_ringWrite {s : State} (p : Port) (c : CoreId) (q : Nat) (f : RingSt → RingSt) (hs : Keeps own s0 s) : Keeps own s0 (State.ringWrite s p c q f) := by
  unfold State.ringWrite
  repeat' (first
      | with_reducible assumption | with_reducible apply keeps_modRing | with_reducible apply keeps_ownerOnly
      | with_reducible apply keeps_raise | with_reducible apply keeps_foldl | with_reducible apply keeps_foldl2
      | extract_lets | split | intro _ | (dsimp +zetaDelta -zeta only))

theorem keeps_rollbackPending {s : State} (g : Nat) (p : PendStep) (hs : Keeps own s0 s) : Keeps own s0 (State.rollbackPending s g p) := by
  unfold State.rollbackPending
  repeat' (first
      | with_reducible assumption | with_reducible apply keeps_modSlot | with_reducible apply keeps_modTick
      | with_reducible apply keeps_recordConf | with_reducible apply keeps_foldl
      | with_reducible apply keeps_foldl2 | extract_lets | split | intro _ | (dsimp +zetaDelta -zeta only))

theorem keeps_runCmd {s : State} (e : List Byte) (op : Nat) (f : State → CmdEnd) (hs : Keeps own s0 s) (hf : ∀ y0, Keeps own s0 y0 → Keeps own s0 (f y0).s) : Keeps own s0 (State.runCmd s e op f) := by
  unfold State.runCmd
  repeat' (first
      | with_reducible assumption | with_reducible apply hf | with_reducible apply keeps_holeEvent
      | with_reducible apply keeps_modHost | with_reducible apply keeps_scramble
      | with_reducible apply keeps_foldl | with_reducible apply keeps_foldl2 | extract_lets | split | intro _
      | (dsimp +zetaDelta -zeta only))

theorem keeps_runSvu {s : State} (c : ClusterId) (op : Nat) (more : State → SvuDesc → List (Nat × Nat)) (f : State → SvuOp → SvuDesc → State) (hs : Keeps own s0 s) (hf : ∀ y0, Keeps own s0 y0 → ∀ y1, ∀ y2, Keeps own s0 (f y0 y1 y2)) : Keeps own s0 (State.runSvu s c op more f) := by
  unfold State.runSvu
  repeat' (first
      | with_reducible assumption | with_reducible apply hf | with_reducible apply keeps_modClu
      | with_reducible apply keeps_reachFault | with_reducible apply keeps_readAll
      | with_reducible apply keeps_ringFault | with_reducible apply keeps_foldl
      | with_reducible apply keeps_foldl2 | extract_lets | split | intro _ | (dsimp +zetaDelta -zeta only))

theorem keeps_sampleTile {s : State} (c : CoreId) (b : Bound) (o : ConvOp) (vals : List (List Acc)) (hs : Keeps own s0 s) : Keeps own s0 (State.sampleTile s c b o vals) := by
  unfold State.sampleTile
  repeat' (first
      | with_reducible assumption | with_reducible apply keeps_modCore | with_reducible apply keeps_modSparse
      | with_reducible apply keeps_foldl | with_reducible apply keeps_foldl2 | extract_lets | split | intro _
      | (dsimp +zetaDelta -zeta only))

theorem keeps_writeWide {s : State} (c : CoreId) (o : ConvOp) (r : Red) (t : TileDesc) (hs : Keeps own s0 s) : Keeps own s0 (State.writeWide s c o r t) := by
  unfold State.writeWide
  repeat' (first
      | with_reducible assumption | with_reducible apply keeps_pushConv | with_reducible apply keeps_pushRecord
      | with_reducible apply keeps_writeDev | with_reducible apply keeps_foldl
      | with_reducible apply keeps_foldl2 | extract_lets | split | intro _ | (dsimp +zetaDelta -zeta only))

theorem keeps_writeExt {s : State} (c : CoreId) (o : ConvOp) (r : Red) (e : CoreId) (exps : List (List Nat)) (hs : Keeps own s0 s) : Keeps own s0 (State.writeExt s c o r e exps) := by
  unfold State.writeExt
  repeat' (first
      | with_reducible assumption | with_reducible apply keeps_pushConv | with_reducible apply keeps_pushRecord
      | with_reducible apply keeps_foldl | with_reducible apply keeps_foldl2 | extract_lets | split | intro _
      | (dsimp +zetaDelta -zeta only))

theorem keeps_writeCheck {s : State} (c : CoreId) (o : ConvOp) (r : Red) (e : CoreId) (exps : List (List Nat)) (hs : Keeps own s0 s) : Keeps own s0 (State.writeCheck s c o r e exps) := by
  unfold State.writeCheck
  repeat' (first
      | with_reducible assumption | with_reducible apply keeps_pushConv | with_reducible apply keeps_pushRecord
      | with_reducible apply keeps_foldl | with_reducible apply keeps_foldl2 | extract_lets | split | intro _
      | (dsimp +zetaDelta -zeta only))

theorem keeps_writeCoded {s : State} (c : CoreId) (o : ConvOp) (r : Red) (codes : List (List Nat)) (exps : List (List Nat)) (t : TileDesc) (hs : Keeps own s0 s) : Keeps own s0 (State.writeCoded s c o r codes exps t) := by
  unfold State.writeCoded
  repeat' (first
      | with_reducible assumption | with_reducible apply keeps_pushConv | with_reducible apply keeps_pushRecord
      | with_reducible apply keeps_writeCheck | with_reducible apply keeps_writeDev
      | with_reducible apply keeps_writeExt | with_reducible apply keeps_foldl
      | with_reducible apply keeps_foldl2 | extract_lets | split | intro _ | (dsimp +zetaDelta -zeta only))

theorem keeps_secondPass {s : State} (c : CoreId) (o : ConvOp) (r : Red) (hs : Keeps own s0 s) : Keeps own s0 (State.secondPass s c o r) := by
  unfold State.secondPass
  repeat' (first
      | with_reducible assumption | with_reducible apply keeps_finishConv | with_reducible apply keeps_modConv
      | with_reducible apply keeps_modOcv | with_reducible apply keeps_modShare
      | with_reducible apply keeps_modSparse | with_reducible apply keeps_writeCoded
      | with_reducible apply keeps_writeDev | with_reducible apply keeps_writeWide
      | with_reducible apply keeps_foldl | with_reducible apply keeps_foldl2 | extract_lets | split | intro _
      | (dsimp +zetaDelta -zeta only)
      | with_reducible refine keeps_mk ?_ (by first | exact Nat.le_refl _ | exact Nat.le_add_right _ _) rfl rfl rfl)

theorem keeps_sendOut {s : State} (lp : Nat) (r : Nat) (hs : Keeps own s0 s) : KeepsO own s0 (State.sendOut s lp r) := by
  unfold State.sendOut
  repeat' (first
      | with_reducible assumption | with_reducible apply keeps_modLnk | with_reducible apply keeps_modWin
      | with_reducible apply keeps_ringFault | with_reducible apply keeps_send | with_reducible apply keeps_foldl
      | with_reducible apply keeps_foldl2 | with_reducible apply keepsO_none | with_reducible apply keepsO_some
      | extract_lets | split | intro _ | (dsimp +zetaDelta -zeta only))

theorem keeps_sendNext {s : State} (lp : Nat) (x2 : Nat) (x3 : Nat) (hs : Keeps own s0 s) : Keeps own s0 (State.sendNext s lp x2 x3) := by
  induction x3 generalizing s lp x2 with
  | zero => unfold State.sendNext; exact hs
  | succ k ih =>
  unfold State.sendNext
  repeat' (first
      | with_reducible assumption | with_reducible apply ih | with_reducible apply keeps_sendOut
      | with_reducible apply keeps_foldl | with_reducible apply keeps_foldl2
      | with_reducible refine keeps_of_some (by with_reducible assumption) ?_ | with_reducible apply keepsO_none
      | with_reducible apply keepsO_findSome | extract_lets | split | intro _ | (dsimp +zetaDelta -zeta only))

theorem keeps_serveRefetch {s : State} (a : Nat) (n : Nat) (hs : Keeps own s0 s) : Keeps own s0 (State.serveRefetch s a n).2 := by
  unfold State.serveRefetch
  repeat' (first
      | with_reducible assumption | with_reducible apply keeps_readDev | with_reducible apply keeps_foldl
      | with_reducible apply keeps_foldl2 | extract_lets | split | intro _ | (dsimp +zetaDelta -zeta only))

theorem keeps_setPc {s : State} (c : CoreId) (pc : Nat) (hs : Keeps own s0 s) : Keeps own s0 (State.setPc s c pc) := by
  unfold State.setPc
  repeat' (first
      | with_reducible assumption | with_reducible apply keeps_modSeq | with_reducible apply keeps_foldl
      | with_reducible apply keeps_foldl2 | extract_lets | split | intro _ | (dsimp +zetaDelta -zeta only))

theorem keeps_setPeriod {s : State} (period : BitVec 27) (tickMax : BitVec 28) (hs : Keeps own s0 s) : Keeps own s0 (State.setPeriod s period tickMax) := by
  unfold State.setPeriod
  repeat' (first
      | with_reducible assumption | with_reducible apply keeps_modPrec | with_reducible apply keeps_modTick
      | with_reducible apply keeps_raise | with_reducible apply keeps_foldl | with_reducible apply keeps_foldl2
      | extract_lets | split | intro _ | (dsimp +zetaDelta -zeta only))

theorem keeps_setPerst {s : State} (p : Port) (b : Bool) (hs : Keeps own s0 s) : Keeps own s0 (State.setPerst s p b) := by
  unfold State.setPerst
  repeat' (first
      | with_reducible assumption | with_reducible apply keeps_modPin | with_reducible apply keeps_foldl
      | with_reducible apply keeps_foldl2 | extract_lets | split | intro _ | (dsimp +zetaDelta -zeta only))

theorem keeps_setUpdCmd {s : State} (v : Nat) (hs : Keeps own s0 s) : Keeps own s0 (State.setUpdCmd s v) := by
  unfold State.setUpdCmd
  repeat' (first
      | with_reducible assumption | with_reducible apply keeps_modUpd | with_reducible apply keeps_foldl
      | with_reducible apply keeps_foldl2 | with_reducible rfl | extract_lets | split | intro _
      | (dsimp +zetaDelta -zeta only))

theorem keeps_squashRings {s : State} (c : CoreId) (v : Nat) (hs : Keeps own s0 s) : Keeps own s0 (State.squashRings s c v) := by
  unfold State.squashRings
  repeat' (first
      | with_reducible assumption | with_reducible apply keeps_modClu | with_reducible apply keeps_modCore
      | with_reducible apply keeps_foldl | with_reducible apply keeps_foldl2 | extract_lets | split | intro _
      | (dsimp +zetaDelta -zeta only))

theorem keeps_startStaging {s : State} (g : Staging) (hs : Keeps own s0 s) : Keeps own s0 (State.startStaging s g) := by
  unfold State.startStaging
  repeat' (first
      | with_reducible assumption | with_reducible apply keeps_modFlash | with_reducible apply keeps_modUpd
      | with_reducible apply keeps_send | with_reducible apply keeps_foldl | with_reducible apply keeps_foldl2
      | with_reducible rfl | (simp only [Flash.setSlotCode_ownerKey]) | (simp only [Flash.setSlotCode_ownerLock])
      | extract_lets | split | intro _ | (dsimp +zetaDelta -zeta only))

theorem keeps_startTile {s : State} (c : CoreId) (o : ChainOp) (hs : Keeps own s0 s) : Keeps own s0 (State.startTile s c o) := by
  unfold State.startTile
  repeat' (first
      | with_reducible assumption | with_reducible apply keeps_modChain | with_reducible apply keeps_modSparse
      | with_reducible apply keeps_raise | with_reducible apply keeps_sharedFault
      | with_reducible apply keeps_tileRead | with_reducible apply keeps_foldl
      | with_reducible apply keeps_foldl2 | extract_lets | split | intro _ | (dsimp +zetaDelta -zeta only))

theorem keeps_svuWrite {s : State} (c : ClusterId) (o : SvuOp) (d : SvuDesc) (kind : Nat) (l : List Byte) (hs : Keeps own s0 s) : Keeps own s0 (State.svuWrite s c o d kind l) := by
  unfold State.svuWrite
  repeat' (first
      | with_reducible assumption | with_reducible apply keeps_svuPush | with_reducible apply keeps_writeDev
      | with_reducible apply keeps_foldl | with_reducible apply keeps_foldl2 | extract_lets | split | intro _
      | (dsimp +zetaDelta -zeta only))

theorem keeps_svuRows {s : State} (c : ClusterId) (o : SvuOp) (d : SvuDesc) (f : Nat → List Word) (hs : Keeps own s0 s) : Keeps own s0 (State.svuRows s c o d f) := by
  unfold State.svuRows
  repeat' (first
      | with_reducible assumption | with_reducible apply keeps_svuWrite | with_reducible apply keeps_foldl
      | with_reducible apply keeps_foldl2 | extract_lets | split | intro _ | (dsimp +zetaDelta -zeta only))

theorem keeps_tryRelease {s : State} (at_ : Nat) (hs : Keeps own s0 s) : Keeps own s0 (State.tryRelease s at_) := by
  unfold State.tryRelease
  repeat' (first
      | with_reducible assumption | with_reducible apply keeps_modPwr | with_reducible apply keeps_modTick
      | with_reducible apply keeps_releaseCue | with_reducible apply keeps_foldl
      | with_reducible apply keeps_foldl2 | extract_lets | split | intro _ | (dsimp +zetaDelta -zeta only))

theorem keeps_updRefuse {s : State} (r : Nat) (hs : Keeps own s0 s) : Keeps own s0 (State.updRefuse s r) := by
  unfold State.updRefuse
  repeat' (first
      | with_reducible assumption | with_reducible apply keeps_modUpd | with_reducible apply keeps_raise
      | with_reducible apply keeps_foldl | with_reducible apply keeps_foldl2 | with_reducible rfl | extract_lets
      | split | intro _ | (dsimp +zetaDelta -zeta only))

theorem keeps_walkRecords {s : State} (a : Nat) (w : Walked) (x3 : Nat) (hs : Keeps own s0 s) : Keeps own s0 (State.walkRecords s a w x3).2 := by
  induction x3 generalizing s a w with
  | zero => unfold State.walkRecords; exact hs
  | succ k ih =>
  unfold State.walkRecords
  repeat' (first
      | with_reducible assumption | with_reducible apply ih | with_reducible apply keeps_recordAt
      | with_reducible apply keeps_foldl | with_reducible apply keeps_foldl2 | extract_lets | split | intro _
      | (dsimp +zetaDelta -zeta only))

theorem keeps_wholeStepFault {s : State} (hs : Keeps own s0 s) : Keeps own s0 (State.wholeStepFault s) := by
  unfold State.wholeStepFault
  repeat' (first
      | with_reducible assumption | with_reducible apply keeps_foldl | with_reducible apply keeps_foldl2
      | extract_lets | split | intro _ | (dsimp +zetaDelta -zeta only)
      | with_reducible refine keeps_mk ?_ (by first | exact Nat.le_refl _ | exact Nat.le_add_right _ _) rfl rfl rfl)

theorem keeps_winCommand {s : State} (w : Nat) (cmd : Nat) (gate : Bool) (f : State → State) (hs : Keeps own s0 s) (hf : ∀ y0, Keeps own s0 y0 → Keeps own s0 (f y0)) : Keeps own s0 (State.winCommand s w cmd gate f) := by
  unfold State.winCommand
  repeat' (first
      | with_reducible assumption | with_reducible apply hf | with_reducible apply keeps_modWindow
      | with_reducible apply keeps_raise | with_reducible apply keeps_foldl | with_reducible apply keeps_foldl2
      | extract_lets | split | intro _ | (dsimp +zetaDelta -zeta only))

theorem keeps_writeClu {s : State} (p : Port) (n : Nat) (o : Nat) (v : Word) (hs : Keeps own s0 s) : Keeps own s0 (State.writeClu s p n o v) := by
  unfold State.writeClu
  repeat' (first
      | with_reducible assumption | with_reducible apply keeps_modClu | with_reducible apply keeps_ownerOnly
      | with_reducible apply keeps_foldl | with_reducible apply keeps_foldl2 | extract_lets | split | intro _
      | (dsimp +zetaDelta -zeta only))

theorem keeps_writeEng {s : State} (p : Port) (c : CoreId) (e : Nat) (o : Nat) (v : Word) (hs : Keeps own s0 s) : Keeps own s0 (State.writeEng s p c e o v) := by
  unfold State.writeEng
  repeat' (first
      | with_reducible assumption | with_reducible apply keeps_modEng | with_reducible apply keeps_via
      | with_reducible apply keeps_foldl | with_reducible apply keeps_foldl2 | extract_lets | split | intro _
      | (dsimp +zetaDelta -zeta only))

theorem keeps_writeErr {s : State} (p : Port) (o : Nat) (v : Word) (hs : Keeps own s0 s) : Keeps own s0 (State.writeErr s p o v) := by
  unfold State.writeErr
  repeat' (first
      | with_reducible assumption | with_reducible apply keeps_modErr | with_reducible apply keeps_ownerOnly
      | with_reducible apply keeps_foldl | with_reducible apply keeps_foldl2 | extract_lets | split | intro _
      | (dsimp +zetaDelta -zeta only))

theorem keeps_writeHost {s : State} (p : Port) (o : Nat) (v : Word) (hs : Keeps own s0 s) : Keeps own s0 (State.writeHost s p o v) := by
  unfold State.writeHost
  repeat' (first
      | with_reducible assumption | with_reducible apply keeps_checkLapse | with_reducible apply keeps_modHost
      | with_reducible apply keeps_modPort | with_reducible apply keeps_ownerOnly
      | with_reducible apply keeps_via | with_reducible apply keeps_foldl | with_reducible apply keeps_foldl2
      | extract_lets | split | intro _ | (dsimp +zetaDelta -zeta only))

theorem keeps_writeLnk {s : State} (p : Port) (k : Nat) (o : Nat) (v : Word) (hs : Keeps own s0 s) : Keeps own s0 (State.writeLnk s p k o v) := by
  unfold State.writeLnk
  repeat' (first
      | with_reducible assumption | with_reducible apply keeps_modLnk | with_reducible apply keeps_via
      | with_reducible apply keeps_foldl | with_reducible apply keeps_foldl2 | extract_lets | split | intro _
      | (dsimp +zetaDelta -zeta only))

theorem keeps_writeOcv {s : State} (p : Port) (c : CoreId) (o : Nat) (v : Word) (hs : Keeps own s0 s) : Keeps own s0 (State.writeOcv s p c o v) := by
  unfold State.writeOcv
  repeat' (first
      | with_reducible assumption | with_reducible apply keeps_modOcv | with_reducible apply keeps_via
      | with_reducible apply keeps_foldl | with_reducible apply keeps_foldl2 | extract_lets | split | intro _
      | (dsimp +zetaDelta -zeta only))

theorem keeps_writeOut {s : State} (p : Port) (r : Nat) (o : Nat) (v : Word) (hs : Keeps own s0 s) : Keeps own s0 (State.writeOut s p r o v) := by
  unfold State.writeOut
  repeat' (first
      | with_reducible assumption | with_reducible apply keeps_modWin | with_reducible apply keeps_ownerOnly
      | with_reducible apply keeps_foldl | with_reducible apply keeps_foldl2 | extract_lets | split | intro _
      | (dsimp +zetaDelta -zeta only))

theorem keeps_writePrec {s : State} (p : Port) (o : Nat) (v : Word) (hs : Keeps own s0 s) : Keeps own s0 (State.writePrec s p o v) := by
  unfold State.writePrec
  repeat' (first
      | with_reducible assumption | with_reducible apply keeps_modPort | with_reducible apply keeps_modPrec
      | with_reducible apply keeps_ownerOnly | with_reducible apply keeps_via | with_reducible apply keeps_foldl
      | with_reducible apply keeps_foldl2 | extract_lets | split | intro _ | (dsimp +zetaDelta -zeta only))

theorem keeps_writePwr {s : State} (p : Port) (o : Nat) (v : Word) (hs : Keeps own s0 s) : Keeps own s0 (State.writePwr s p o v) := by
  unfold State.writePwr
  repeat' (first
      | with_reducible assumption | with_reducible apply keeps_modPwr | with_reducible apply keeps_ownerOnly
      | with_reducible apply keeps_foldl | with_reducible apply keeps_foldl2 | extract_lets | split | intro _
      | (dsimp +zetaDelta -zeta only))

theorem keeps_writeReh {s : State} (p : Port) (o : Nat) (v : Word) (hs : Keeps own s0 s) : Keeps own s0 (State.writeReh s p o v) := by
  unfold State.writeReh
  repeat' (first
      | with_reducible assumption | with_reducible apply keeps_modReh | with_reducible apply keeps_ownerOnly
      | with_reducible apply keeps_foldl | with_reducible apply keeps_foldl2 | extract_lets | split | intro _
      | (dsimp +zetaDelta -zeta only))

theorem keeps_writeRing {s : State} (p : Port) (c : CoreId) (q : Nat) (o : Nat) (v : Word) (hs : Keeps own s0 s) : Keeps own s0 (State.writeRing s p c q o v) := by
  unfold State.writeRing
  repeat' (first
      | with_reducible assumption | with_reducible apply keeps_modRing | with_reducible apply keeps_via
      | with_reducible apply keeps_foldl | with_reducible apply keeps_foldl2 | extract_lets | split | intro _
      | (dsimp +zetaDelta -zeta only))

theorem keeps_writeRoute {s : State} (p : Port) (i : Nat) (v : Word) (hs : Keeps own s0 s) : Keeps own s0 (State.writeRoute s p i v) := by
  unfold State.writeRoute
  repeat' (first
      | with_reducible assumption | with_reducible apply keeps_modWin | with_reducible apply keeps_ownerOnly
      | with_reducible apply keeps_foldl | with_reducible apply keeps_foldl2 | extract_lets | split | intro _
      | (dsimp +zetaDelta -zeta only))

theorem keeps_writeSec {s : State} (p : Port) (o : Nat) (v : Word) (hs : Keeps own s0 s) : Keeps own s0 (State.writeSec s p o v) := by
  unfold State.writeSec
  repeat' (first
      | with_reducible assumption | with_reducible apply keeps_modPort | with_reducible apply keeps_via
      | with_reducible apply keeps_foldl | with_reducible apply keeps_foldl2 | extract_lets | split | intro _
      | (dsimp +zetaDelta -zeta only))

theorem keeps_writeSeq {s : State} (p : Port) (c : CoreId) (o : Nat) (v : Word) (hs : Keeps own s0 s) : Keeps own s0 (State.writeSeq s p c o v) := by
  unfold State.writeSeq
  repeat' (first
      | with_reducible assumption | with_reducible apply keeps_modSeq | with_reducible apply keeps_via
      | with_reducible apply keeps_foldl | with_reducible apply keeps_foldl2 | extract_lets | split | intro _
      | (dsimp +zetaDelta -zeta only))

theorem keeps_writeSpan {s : State} (a : Nat) (l : List Byte) (x3 : Nat) (hs : Keeps own s0 s) : Keeps own s0 (State.writeSpan s a l x3) := by
  induction x3 generalizing s a l with
  | zero => unfold State.writeSpan; exact hs
  | succ k ih =>
  unfold State.writeSpan
  repeat' (first
      | with_reducible assumption | with_reducible apply ih | with_reducible apply keeps_writeDev
      | with_reducible apply keeps_foldl | with_reducible apply keeps_foldl2 | extract_lets | split | intro _
      | (dsimp +zetaDelta -zeta only))

theorem keeps_writeStk {s : State} (p : Port) (k : Nat) (o : Nat) (v : Word) (hs : Keeps own s0 s) : Keeps own s0 (State.writeStk s p k o v) := by
  unfold State.writeStk
  repeat' (first
      | with_reducible assumption | with_reducible apply keeps_modStk | with_reducible apply keeps_ownerOnly
      | with_reducible apply keeps_foldl | with_reducible apply keeps_foldl2 | extract_lets | split | intro _
      | (dsimp +zetaDelta -zeta only))

theorem keeps_writeUpd {s : State} (p : Port) (o : Nat) (v : Word) (hs : Keeps own s0 s) : Keeps own s0 (State.writeUpd s p o v) := by
  unfold State.writeUpd
  repeat' (first
      | with_reducible assumption | with_reducible apply keeps_modUpd | with_reducible apply keeps_ownerOnly
      | with_reducible apply keeps_setUpdCmd | with_reducible apply keeps_foldl
      | with_reducible apply keeps_foldl2 | with_reducible rfl | extract_lets | split | intro _
      | (dsimp +zetaDelta -zeta only))

theorem keeps_writeWin {s : State} (p : Port) (o : Nat) (v : Word) (hs : Keeps own s0 s) : Keeps own s0 (State.writeWin s p o v) := by
  unfold State.writeWin
  repeat' (first
      | with_reducible assumption | with_reducible apply keeps_modWin | with_reducible apply keeps_ownerOnly
      | with_reducible apply keeps_foldl | with_reducible apply keeps_foldl2 | extract_lets | split | intro _
      | (dsimp +zetaDelta -zeta only))

theorem keeps_writeWindow {s : State} (p : Port) (w : Nat) (o : Nat) (v : Word) (hs : Keeps own s0 s) : Keeps own s0 (State.writeWindow s p w o v) := by
  unfold State.writeWindow
  repeat' (first
      | with_reducible assumption | with_reducible apply keeps_modWindow | with_reducible apply keeps_ownerOnly
      | with_reducible apply keeps_raise | with_reducible apply keeps_foldl | with_reducible apply keeps_foldl2
      | extract_lets | split | intro _ | (dsimp +zetaDelta -zeta only))

end Sys2Proof.Machine
end

