-- ==== Sys2Proof/Laws/KeepsCommands.lean ====
section
/-! SUPPORT. The meanings of the commands: each keeps what Keeps says; those that act on the owner's key or lock keep it without `own`. -/

namespace Sys2Proof.Machine

variable {own : Bool} {s0 : State}

theorem keeps_execPush (c : CoreId) {s : State} (hs : Keeps own s0 s) : KeepsA own s0 (execPush c s) := by
  unfold execPush
  repeat' (first
      | with_reducible assumption | with_reducible apply keeps_issued | with_reducible apply keeps_queueMove
      | with_reducible apply keeps_reachFault | with_reducible apply keeps_readSource
      | with_reducible apply keeps_ringFault | with_reducible apply keeps_runSeq
      | with_reducible apply keeps_waitAt | with_reducible apply keeps_withSb | with_reducible apply keeps_foldl
      | with_reducible apply keeps_foldl2 | with_reducible apply keepsA_next | extract_lets | split | intro _
      | (dsimp +zetaDelta -zeta only))

theorem keeps_execTopkv (c : CoreId) {s : State} (hs : Keeps own s0 s) : KeepsA own s0 (execTopkv c s) := by
  unfold execTopkv
  repeat' (first
      | with_reducible assumption | with_reducible apply keeps_addTop | with_reducible apply keeps_issued
      | with_reducible apply keeps_modClu | with_reducible apply keeps_modCore
      | with_reducible apply keeps_modOcv | with_reducible apply keeps_reachFault
      | with_reducible apply keeps_readSource | with_reducible apply keeps_ringFault
      | with_reducible apply keeps_runSeq | with_reducible apply keeps_waitAt | with_reducible apply keeps_withSb
      | with_reducible apply keeps_foldl | with_reducible apply keeps_foldl2 | with_reducible apply keepsA_next
      | extract_lets | split | intro _ | (dsimp +zetaDelta -zeta only))

theorem keeps_execMsh2 (c : CoreId) {s : State} (hs : Keeps own s0 s) : KeepsA own s0 (execMsh2 c s) := by
  unfold execMsh2
  repeat' (first
      | with_reducible assumption | with_reducible apply keeps_matrix | with_reducible apply keeps_runSeq
      | with_reducible apply keeps_foldl | with_reducible apply keeps_foldl2 | with_reducible apply keepsA_next
      | extract_lets | split | intro _ | (dsimp +zetaDelta -zeta only))

theorem keeps_execMxn (c : CoreId) {s : State} (hs : Keeps own s0 s) : KeepsA own s0 (execMxn c s) := by
  unfold execMxn
  repeat' (first
      | with_reducible assumption | with_reducible apply keeps_matrix | with_reducible apply keeps_runSeq
      | with_reducible apply keeps_foldl | with_reducible apply keeps_foldl2 | with_reducible apply keepsA_next
      | extract_lets | split | intro _ | (dsimp +zetaDelta -zeta only))

theorem keeps_execMsh1 (c : CoreId) {s : State} (hs : Keeps own s0 s) : KeepsA own s0 (execMsh1 c s) := by
  unfold execMsh1
  repeat' (first
      | with_reducible assumption | with_reducible apply keeps_matrix | with_reducible apply keeps_runSeq
      | with_reducible apply keeps_foldl | with_reducible apply keeps_foldl2 | with_reducible apply keepsA_next
      | extract_lets | split | intro _ | (dsimp +zetaDelta -zeta only))

theorem keeps_execImprt (c : CoreId) {s : State} (hs : Keeps own s0 s) : KeepsA own s0 (execImprt c s) := by
  unfold execImprt
  repeat' (first
      | with_reducible assumption | with_reducible apply keeps_holdWait | with_reducible apply keeps_inputFault
      | with_reducible apply keeps_issued | with_reducible apply keeps_modCore
      | with_reducible apply keeps_modLast | with_reducible apply keeps_modSeq
      | with_reducible apply keeps_ocvFault | with_reducible apply keeps_reachFault
      | with_reducible apply keeps_readAll | with_reducible apply keeps_ringFault
      | with_reducible apply keeps_runSeq | with_reducible apply keeps_tileRead
      | with_reducible apply keeps_waitAt | with_reducible apply keeps_withSb | with_reducible apply keeps_foldl
      | with_reducible apply keeps_foldl2 | with_reducible apply keepsA_next | extract_lets | split | intro _
      | (dsimp +zetaDelta -zeta only))

theorem keeps_execProbe (c : CoreId) {s : State} (hs : Keeps own s0 s) : KeepsA own s0 (execProbe c s) := by
  unfold execProbe
  repeat' (first
      | with_reducible assumption | with_reducible apply keeps_inputFault | with_reducible apply keeps_issued
      | with_reducible apply keeps_modCore | with_reducible apply keeps_modLast
      | with_reducible apply keeps_reachFault | with_reducible apply keeps_ringFault
      | with_reducible apply keeps_runSeq | with_reducible apply keeps_tileRead
      | with_reducible apply keeps_waitAt | with_reducible apply keeps_withSb | with_reducible apply keeps_foldl
      | with_reducible apply keeps_foldl2 | with_reducible apply keepsA_next | extract_lets | split | intro _
      | (dsimp +zetaDelta -zeta only))

theorem keeps_execMbp (c : CoreId) {s : State} (hs : Keeps own s0 s) : KeepsA own s0 (execMbp c s) := by
  unfold execMbp
  repeat' (first
      | with_reducible assumption | with_reducible apply keeps_matrix | with_reducible apply keeps_runSeq
      | with_reducible apply keeps_foldl | with_reducible apply keeps_foldl2 | with_reducible apply keepsA_next
      | extract_lets | split | intro _ | (dsimp +zetaDelta -zeta only))

theorem keeps_execPop (c : CoreId) {s : State} (hs : Keeps own s0 s) : KeepsA own s0 (execPop c s) := by
  unfold execPop
  repeat' (first
      | with_reducible assumption | with_reducible apply keeps_issued | with_reducible apply keeps_releaseBytes
      | with_reducible apply keeps_ringFault | with_reducible apply keeps_runSeq
      | with_reducible apply keeps_waitAt | with_reducible apply keeps_foldl | with_reducible apply keeps_foldl2
      | with_reducible apply keepsA_next | with_reducible refine keeps_of_done (by with_reducible assumption) ?_
      | with_reducible refine keeps_of_wait (by with_reducible assumption) ?_ | extract_lets | split | intro _
      | (dsimp +zetaDelta -zeta only))

theorem keeps_execScat (c : CoreId) {s : State} (hs : Keeps own s0 s) : KeepsA own s0 (execScat c s) := by
  unfold execScat
  repeat' (first
      | with_reducible assumption | with_reducible apply keeps_addScat | with_reducible apply keeps_issued
      | with_reducible apply keeps_modCore | with_reducible apply keeps_reachFault
      | with_reducible apply keeps_readSource | with_reducible apply keeps_ringFault
      | with_reducible apply keeps_runSeq | with_reducible apply keeps_waitAt | with_reducible apply keeps_withSb
      | with_reducible apply keeps_foldl | with_reducible apply keeps_foldl2 | with_reducible apply keepsA_next
      | extract_lets | split | intro _ | (dsimp +zetaDelta -zeta only))

theorem keeps_execMb24 (c : CoreId) {s : State} (hs : Keeps own s0 s) : KeepsA own s0 (execMb24 c s) := by
  unfold execMb24
  repeat' (first
      | with_reducible assumption | with_reducible apply keeps_matrix | with_reducible apply keeps_runSeq
      | with_reducible apply keeps_foldl | with_reducible apply keeps_foldl2 | with_reducible apply keepsA_next
      | extract_lets | split | intro _ | (dsimp +zetaDelta -zeta only))

theorem keeps_execDma (c : CoreId) {s : State} (hs : Keeps own s0 s) : KeepsA own s0 (execDma c s) := by
  unfold execDma
  repeat' (first
      | with_reducible assumption | with_reducible apply keeps_deliver | with_reducible apply keeps_fetchMove
      | with_reducible apply keeps_issued | with_reducible apply keeps_moveFault
      | with_reducible apply keeps_queueMove | with_reducible apply keeps_ringFault
      | with_reducible apply keeps_runSeq | with_reducible apply keeps_waitAt | with_reducible apply keeps_withSb
      | with_reducible apply keeps_foldl | with_reducible apply keeps_foldl2 | with_reducible apply keepsA_next
      | extract_lets | split | intro _ | (dsimp +zetaDelta -zeta only))

theorem keeps_execBld (c : CoreId) {s : State} (hs : Keeps own s0 s) : KeepsA own s0 (execBld c s) := by
  unfold execBld
  repeat' (first
      | with_reducible assumption | with_reducible apply keeps_issued | with_reducible apply keeps_modCore
      | with_reducible apply keeps_modEng | with_reducible apply keeps_modSeq
      | with_reducible apply keeps_reachFault | with_reducible apply keeps_ringFault
      | with_reducible apply keeps_runSeq | with_reducible apply keeps_waitAt | with_reducible apply keeps_withSb
      | with_reducible apply keeps_foldl | with_reducible apply keeps_foldl2 | with_reducible apply keepsA_next
      | extract_lets | split | intro _ | (dsimp +zetaDelta -zeta only))

theorem keeps_execSvq (c : CoreId) {s : State} (hs : Keeps own s0 s) : KeepsA own s0 (execSvq c s) := by
  unfold execSvq
  repeat' (first
      | with_reducible assumption | with_reducible apply keeps_issued | with_reducible apply keeps_modClu
      | with_reducible apply keeps_reachFault | with_reducible apply keeps_readSource
      | with_reducible apply keeps_ringFault | with_reducible apply keeps_runSeq
      | with_reducible apply keeps_waitAt | with_reducible apply keeps_withSb | with_reducible apply keeps_foldl
      | with_reducible apply keeps_foldl2 | with_reducible apply keepsA_next | extract_lets | split | intro _
      | (dsimp +zetaDelta -zeta only))

theorem keeps_execMsp (c : CoreId) {s : State} (hs : Keeps own s0 s) : KeepsA own s0 (execMsp c s) := by
  unfold execMsp
  repeat' (first
      | with_reducible assumption | with_reducible apply keeps_matrix | with_reducible apply keeps_runSeq
      | with_reducible apply keeps_foldl | with_reducible apply keeps_foldl2 | with_reducible apply keepsA_next
      | extract_lets | split | intro _ | (dsimp +zetaDelta -zeta only))

theorem keeps_reissue {s : State} (c : CoreId) (hs : Keeps own s0 s) : Keeps own s0 (State.reissue s c) := by
  unfold State.reissue
  repeat' (first
      | with_reducible assumption | with_reducible apply keeps_execBld | with_reducible apply keeps_execDma
      | with_reducible apply keeps_execImprt | with_reducible apply keeps_execMb24
      | with_reducible apply keeps_execMbp | with_reducible apply keeps_execMsh1
      | with_reducible apply keeps_execMsh2 | with_reducible apply keeps_execMsp
      | with_reducible apply keeps_execMxn | with_reducible apply keeps_execPop
      | with_reducible apply keeps_execProbe | with_reducible apply keeps_execPush
      | with_reducible apply keeps_execScat | with_reducible apply keeps_execSvq
      | with_reducible apply keeps_execTopkv | with_reducible apply keeps_tried
      | with_reducible apply keeps_foldl | with_reducible apply keeps_foldl2 | with_reducible apply keepsA_next
      | with_reducible refine keeps_of_next (by with_reducible assumption) ?_ | extract_lets | split | intro _
      | (dsimp +zetaDelta -zeta only))

theorem keeps_execAbort (p : Port) {s : State} (hs : Keeps own s0 s) : KeepsA own s0 (execAbort p s) := by
  unfold execAbort
  repeat' (first
      | with_reducible assumption | with_reducible apply keeps_endStaging | with_reducible apply keeps_ownerOnly
      | with_reducible apply keeps_setUpdCmd | with_reducible apply keeps_foldl
      | with_reducible apply keeps_foldl2 | with_reducible apply keepsA_next | extract_lets | split | intro _
      | (dsimp +zetaDelta -zeta only))

theorem keeps_execActivate (p : Port) (fw : Bool) (cfg : Bool) {s : State} (hs : Keeps own s0 s) : KeepsA own s0 (execActivate p fw cfg s) := by
  unfold execActivate
  repeat' (first
      | with_reducible assumption | with_reducible apply keeps_modUpd | with_reducible apply keeps_ownerOnly
      | with_reducible apply keeps_putPtr | with_reducible apply keeps_raise
      | with_reducible apply keeps_setUpdCmd | with_reducible apply keeps_updRefuse
      | with_reducible apply keeps_foldl | with_reducible apply keeps_foldl2 | with_reducible apply keepsA_next
      | with_reducible rfl | extract_lets | split | intro _ | (dsimp +zetaDelta -zeta only))

theorem keeps_execAdmitEntry (e : List Byte) {s : State} (hs : Keeps own s0 s) : KeepsA own s0 (execAdmitEntry e s) := by
  unfold execAdmitEntry
  repeat' (first
      | with_reducible assumption | with_reducible apply keeps_admReject | with_reducible apply keeps_admRelease
      | with_reducible apply keeps_admTake | with_reducible apply keeps_badOp
      | with_reducible apply keeps_enterRun | with_reducible apply keeps_modHost
      | with_reducible apply keeps_modSlot | with_reducible apply keeps_foldl | with_reducible apply keeps_foldl2
      | with_reducible apply keepsA_next | extract_lets | split | intro _ | (dsimp +zetaDelta -zeta only))

theorem keeps_execAdopt (p : Port) (v : Word) {s : State} (hs : Keeps own s0 s) : KeepsA own s0 (execAdopt p v s) := by
  unfold execAdopt
  repeat' (first
      | with_reducible assumption | with_reducible apply keeps_modTwin | with_reducible apply keeps_ownerOnly
      | with_reducible apply keeps_foldl | with_reducible apply keeps_foldl2 | with_reducible apply keepsA_next
      | extract_lets | split | intro _ | (dsimp +zetaDelta -zeta only))

theorem keeps_execAlu (c : CoreId) {s : State} (hs : Keeps own s0 s) : KeepsA own s0 (execAlu c s) := by
  unfold execAlu
  repeat' (first
      | with_reducible assumption | with_reducible apply keeps_issued | with_reducible apply keeps_modSeq
      | with_reducible apply keeps_runSeq | with_reducible apply keeps_foldl | with_reducible apply keeps_foldl2
      | with_reducible apply keepsA_next | extract_lets | split | intro _ | (dsimp +zetaDelta -zeta only))

theorem keeps_execAttest (p : Port) {s : State} (hs : Keeps own s0 s) : KeepsA own s0 (execAttest p s) := by
  unfold execAttest
  repeat' (first
      | with_reducible assumption | with_reducible apply keeps_mbxStart | with_reducible apply keeps_via
      | with_reducible apply keeps_foldl | with_reducible apply keeps_foldl2 | with_reducible apply keepsA_next
      | extract_lets | split | intro _ | (dsimp +zetaDelta -zeta only))

theorem keeps_execBankLoadDone (c : CoreId) {s : State} (hs : Keeps own s0 s) : KeepsA own s0 (execBankLoadDone c s) := by
  unfold execBankLoadDone
  repeat' (first
      | with_reducible assumption | with_reducible apply keeps_loadEngine | with_reducible apply keeps_modCore
      | with_reducible apply keeps_modEng | with_reducible apply keeps_readAll | with_reducible apply keeps_foldl
      | with_reducible apply keeps_foldl2 | with_reducible apply keepsA_next | extract_lets | split | intro _
      | (dsimp +zetaDelta -zeta only))

theorem keeps_execBar (c : CoreId) {s : State} (hs : Keeps own s0 s) : KeepsA own s0 (execBar c s) := by
  unfold execBar
  repeat' (first
      | with_reducible assumption | with_reducible apply keeps_modSeq | with_reducible apply keeps_runSeq
      | with_reducible apply keeps_foldl | with_reducible apply keeps_foldl2 | with_reducible apply keepsA_next
      | extract_lets | split | intro _ | (dsimp +zetaDelta -zeta only))

theorem keeps_execBar0AccessRefused (p : Port) (off : BitVec 28) (size : Nat) (isWrite : Bool) {s : State} (hs : Keeps own s0 s) : KeepsA own s0 (execBar0AccessRefused p off size isWrite s) := by
  unfold execBar0AccessRefused
  repeat' (first
      | with_reducible assumption | with_reducible apply keeps_answer | with_reducible apply keeps_barRefuse
      | with_reducible apply keeps_foldl | with_reducible apply keeps_foldl2 | with_reducible apply keepsA_next
      | extract_lets | split | intro _ | (dsimp +zetaDelta -zeta only))

theorem keeps_execBar4Read (p : Port) (off : BitVec 41) (len : Nat) {s : State} (hs : Keeps own s0 s) : KeepsA own s0 (execBar4Read p off len s) := by
  unfold execBar4Read
  repeat' (first
      | with_reducible assumption | with_reducible apply keeps_answer | with_reducible apply keeps_barRefuse
      | with_reducible apply keeps_modPort | with_reducible apply keeps_raise
      | with_reducible apply keeps_readSpan | with_reducible apply keeps_foldl
      | with_reducible apply keeps_foldl2 | with_reducible apply keepsA_next | extract_lets | split | intro _
      | (dsimp +zetaDelta -zeta only))

theorem keeps_execBar4Write (p : Port) (off : BitVec 41) (data : List Byte) {s : State} (hs : Keeps own s0 s) : KeepsA own s0 (execBar4Write p off data s) := by
  unfold execBar4Write
  repeat' (first
      | with_reducible assumption | with_reducible apply keeps_barRefuse | with_reducible apply keeps_ownerOnly
      | with_reducible apply keeps_raise | with_reducible apply keeps_writeSpan
      | with_reducible apply keeps_foldl | with_reducible apply keeps_foldl2 | with_reducible apply keepsA_next
      | extract_lets | split | intro _ | (dsimp +zetaDelta -zeta only))

theorem keeps_execBarrierComplete (c : CoreId) (id : Fin 16) {s : State} (hs : Keeps own s0 s) : KeepsA own s0 (execBarrierComplete c id s) := by
  unfold execBarrierComplete
  repeat' (first
      | with_reducible assumption | with_reducible apply keeps_issued | with_reducible apply keeps_modSeq
      | with_reducible apply keeps_foldl | with_reducible apply keeps_foldl2 | with_reducible apply keepsA_next
      | extract_lets | split | intro _ | (dsimp +zetaDelta -zeta only))

theorem keeps_execBindEntry (e : List Byte) {s : State} (hs : Keeps own s0 s) : KeepsA own s0 (execBindEntry e s) := by
  unfold execBindEntry
  repeat' (first
      | with_reducible assumption | with_reducible apply keeps_admReject | with_reducible apply keeps_admRelease
      | with_reducible apply keeps_admTake | with_reducible apply keeps_badOp
      | with_reducible apply keeps_modSlot | with_reducible apply keeps_foldl | with_reducible apply keeps_foldl2
      | with_reducible apply keepsA_next | extract_lets | split | intro _ | (dsimp +zetaDelta -zeta only))

theorem keeps_execBr (c : CoreId) {s : State} (hs : Keeps own s0 s) : KeepsA own s0 (execBr c s) := by
  unfold execBr
  repeat' (first
      | with_reducible assumption | with_reducible apply keeps_issued | with_reducible apply keeps_runSeq
      | with_reducible apply keeps_setPc | with_reducible apply keeps_foldl | with_reducible apply keeps_foldl2
      | with_reducible apply keepsA_next | extract_lets | split | intro _ | (dsimp +zetaDelta -zeta only))

theorem keeps_execBypass {s : State} (hs : Keeps own s0 s) : KeepsA own s0 (execBypass s) := by
  unfold execBypass
  repeat' (first
      | with_reducible assumption | with_reducible apply keeps_modTap | with_reducible apply keeps_foldl
      | with_reducible apply keeps_foldl2 | with_reducible apply keepsA_next | extract_lets | split | intro _
      | (dsimp +zetaDelta -zeta only))

theorem keeps_execCancelEntry (e : List Byte) {s : State} (hs : Keeps own s0 s) : KeepsA own s0 (execCancelEntry e s) := by
  unfold execCancelEntry
  repeat' (first
      | with_reducible assumption | with_reducible apply keeps_admReject | with_reducible apply keeps_admRelease
      | with_reducible apply keeps_admTake | with_reducible apply keeps_badOp
      | with_reducible apply keeps_modSlot | with_reducible apply keeps_foldl | with_reducible apply keeps_foldl2
      | with_reducible apply keepsA_next | extract_lets | split | intro _ | (dsimp +zetaDelta -zeta only))

theorem keeps_execCert (p : Port) {s : State} (hs : Keeps own s0 s) : KeepsA own s0 (execCert p s) := by
  unfold execCert
  repeat' (first
      | with_reducible assumption | with_reducible apply keeps_mbxStart | with_reducible apply keeps_via
      | with_reducible apply keeps_foldl | with_reducible apply keeps_foldl2 | with_reducible apply keepsA_next
      | extract_lets | split | intro _ | (dsimp +zetaDelta -zeta only))

theorem keeps_execChainLinkAdd (c : CoreId) (e : Fin 16) {s : State} (hs : Keeps own s0 s) : KeepsA own s0 (execChainLinkAdd c e s) := by
  unfold execChainLinkAdd
  repeat' (first
      | with_reducible assumption | with_reducible apply keeps_acbLand | with_reducible apply keeps_modEng
      | with_reducible apply keeps_modOcv | with_reducible apply keeps_foldl | with_reducible apply keeps_foldl2
      | with_reducible apply keepsA_next | extract_lets | split | intro _ | (dsimp +zetaDelta -zeta only))

theorem keeps_execChainTimeout (at_ : Nat) {s : State} (hs : Keeps own s0 s) : KeepsA own s0 (execChainTimeout at_ s) := by
  unfold execChainTimeout
  repeat' (first
      | with_reducible assumption | with_reducible apply keeps_modTick | with_reducible apply keeps_raise
      | with_reducible apply keeps_rollbackPending | with_reducible apply keeps_tryRelease
      | with_reducible apply keeps_foldl | with_reducible apply keeps_foldl2 | with_reducible apply keepsA_next
      | extract_lets | split | intro _ | (dsimp +zetaDelta -zeta only))

theorem keeps_execChallenge (p : Port) {s : State} (hs : Keeps own s0 s) : KeepsA own s0 (execChallenge p s) := by
  unfold execChallenge
  repeat' (first
      | with_reducible assumption | with_reducible apply keeps_mbxStart | with_reducible apply keeps_modFlash
      | with_reducible apply keeps_ownerOnly | with_reducible apply keeps_foldl
      | with_reducible apply keeps_foldl2 | with_reducible apply keepsA_next | with_reducible rfl | extract_lets
      | split | intro _ | (dsimp +zetaDelta -zeta only)
      | with_reducible refine keeps_mk ?_ (by first | exact Nat.le_refl _ | exact Nat.le_add_right _ _) rfl rfl rfl)

theorem keeps_execClaim (p : Port) (v : Bool) {s : State} (hs : Keeps own s0 s) : KeepsA own s0 (execClaim p v s) := by
  unfold execClaim
  repeat' (first
      | with_reducible assumption | with_reducible apply keeps_modHost | with_reducible apply keeps_raise
      | with_reducible apply keeps_via | with_reducible apply keeps_foldl | with_reducible apply keeps_foldl2
      | with_reducible apply keepsA_next | extract_lets | split | intro _ | (dsimp +zetaDelta -zeta only))

theorem keeps_execClamp {s : State} (hs : Keeps own s0 s) : KeepsA own s0 (execClamp s) := by
  unfold execClamp
  repeat' (first
      | with_reducible assumption | with_reducible apply keeps_pinDrive | with_reducible apply keeps_foldl
      | with_reducible apply keeps_foldl2 | with_reducible apply keepsA_next | extract_lets | split | intro _
      | (dsimp +zetaDelta -zeta only))

theorem keeps_execClkHoldover {s : State} (hs : Keeps own s0 s) : KeepsA own s0 (execClkHoldover s) := by
  unfold execClkHoldover
  repeat' (first
      | with_reducible assumption | with_reducible apply keeps_modPin | with_reducible apply keeps_raise
      | with_reducible apply keeps_foldl | with_reducible apply keeps_foldl2 | with_reducible apply keepsA_next
      | extract_lets | split | intro _ | (dsimp +zetaDelta -zeta only)
      | with_reducible refine keeps_mk ?_ (by first | exact Nat.le_refl _ | exact Nat.le_add_right _ _) rfl rfl rfl)

theorem keeps_execClrSticky (p : Port) (v : Word) {s : State} (hs : Keeps own s0 s) : KeepsA own s0 (execClrSticky p v s) := by
  unfold execClrSticky
  repeat' (first
      | with_reducible assumption | with_reducible apply keeps_modPrec | with_reducible apply keeps_ownerOnly
      | with_reducible apply keeps_foldl | with_reducible apply keeps_foldl2 | with_reducible apply keepsA_next
      | extract_lets | split | intro _ | (dsimp +zetaDelta -zeta only))

theorem keeps_execCmdDone {s : State} (hs : Keeps own s0 s) : KeepsA own s0 (execCmdDone s) := by
  unfold execCmdDone
  repeat' (first
      | with_reducible assumption | with_reducible apply keeps_modHost | with_reducible apply keeps_raise
      | with_reducible apply keeps_foldl | with_reducible apply keeps_foldl2 | with_reducible apply keepsA_next
      | extract_lets | split | intro _ | (dsimp +zetaDelta -zeta only))

theorem keeps_execCmdNop (e : List Byte) {s : State} (hs : Keeps own s0 s) : KeepsA own s0 (execCmdNop e s) := by
  unfold execCmdNop
  repeat' (first
      | with_reducible assumption | with_reducible apply keeps_runCmd | with_reducible apply keeps_foldl
      | with_reducible apply keeps_foldl2 | with_reducible apply keepsA_next | extract_lets | split | intro _
      | (dsimp +zetaDelta -zeta only))

theorem keeps_execConfigRequest (p : Port) (off : BitVec 12) (wr : Option Word) {s : State} (hs : Keeps own s0 s) : KeepsA own s0 (execConfigRequest p off wr s) := by
  unfold execConfigRequest
  repeat' (first
      | with_reducible assumption | with_reducible apply keeps_answer | with_reducible apply keeps_modPort
      | with_reducible apply keeps_setPerst | with_reducible apply keeps_foldl
      | with_reducible apply keeps_foldl2 | with_reducible apply keepsA_next | extract_lets | split | intro _
      | (dsimp +zetaDelta -zeta only))

theorem keeps_execConfirm (p : Port) {s : State} (hs : Keeps own s0 s) : KeepsA own s0 (execConfirm p s) := by
  unfold execConfirm
  repeat' (first
      | with_reducible assumption | with_reducible apply keeps_modFlash | with_reducible apply keeps_modUpd
      | with_reducible apply keeps_ownerOnly | with_reducible apply keeps_putPtr
      | with_reducible apply keeps_raise | with_reducible apply keeps_setUpdCmd
      | with_reducible apply keeps_updRefuse | with_reducible apply keeps_foldl
      | with_reducible apply keeps_foldl2 | with_reducible apply keepsA_next | with_reducible rfl
      | (simp only [Flash.settle_ownerKey]) | (simp only [Flash.settle_ownerLock]) | extract_lets | split
      | intro _ | (dsimp +zetaDelta -zeta only)
      | with_reducible refine keeps_mk ?_ (by first | exact Nat.le_refl _ | exact Nat.le_add_right _ _) rfl rfl rfl)

theorem keeps_execConsumerResume (c : CoreId) {s : State} (hs : Keeps own s0 s) : KeepsA own s0 (execConsumerResume c s) := by
  unfold execConsumerResume
  repeat' (first
      | with_reducible assumption | with_reducible apply keeps_drawWord | with_reducible apply keeps_modSeq
      | with_reducible apply keeps_reissue | with_reducible apply keeps_foldl | with_reducible apply keeps_foldl2
      | with_reducible apply keepsA_next | extract_lets | split | intro _ | (dsimp +zetaDelta -zeta only))

theorem keeps_execConv (c : ClusterId) {s : State} (hs : Keeps own s0 s) : KeepsA own s0 (execConv c s) := by
  unfold execConv
  repeat' (first
      | with_reducible assumption | with_reducible apply keeps_convert | with_reducible apply keeps_runSvu
      | with_reducible apply keeps_foldl | with_reducible apply keeps_foldl2 | with_reducible apply keepsA_next
      | extract_lets | split | intro _ | (dsimp +zetaDelta -zeta only))

theorem keeps_execCue (lp : Fin 8) (h : FlitHdr) (bypass : Bool) (tick : DWord) (period : Word) (tickMax : Word) (at_ : Nat) {s : State} (hs : Keeps own s0 s) : KeepsA own s0 (execCue lp h bypass tick period tickMax at_ s) := by
  unfold execCue
  repeat' (first
      | with_reducible assumption | with_reducible apply keeps_chainCue | with_reducible apply keeps_modTick
      | with_reducible apply keeps_recvCtrl | with_reducible apply keeps_foldl
      | with_reducible apply keeps_foldl2 | with_reducible apply keepsA_next | extract_lets | split | intro _
      | (dsimp +zetaDelta -zeta only))

theorem keeps_execCuePulseEnd {s : State} (hs : Keeps own s0 s) : KeepsA own s0 (execCuePulseEnd s) := by
  unfold execCuePulseEnd
  repeat' (first
      | with_reducible assumption | with_reducible apply keeps_modPin | with_reducible apply keeps_foldl
      | with_reducible apply keeps_foldl2 | with_reducible apply keepsA_next | extract_lets | split | intro _
      | (dsimp +zetaDelta -zeta only))

theorem keeps_execCueRelease (at_ : Nat) {s : State} (hs : Keeps own s0 s) : KeepsA own s0 (execCueRelease at_ s) := by
  unfold execCueRelease
  repeat' (first
      | with_reducible assumption | with_reducible apply keeps_tryRelease | with_reducible apply keeps_foldl
      | with_reducible apply keeps_foldl2 | with_reducible apply keepsA_next | extract_lets | split | intro _
      | (dsimp +zetaDelta -zeta only))

theorem keeps_execCurtain (at_ : Nat) (results : List StepResult) {s : State} (hs : Keeps own s0 s) : KeepsA own s0 (execCurtain at_ results s) := by
  unfold execCurtain
  repeat' (first
      | with_reducible assumption | with_reducible apply keeps_curtain | with_reducible apply keeps_foldl
      | with_reducible apply keeps_foldl2 | with_reducible apply keepsA_next | extract_lets | split | intro _
      | (dsimp +zetaDelta -zeta only))

theorem keeps_execCurtainMessage (lp : Fin 8) (h : FlitHdr) (m : StepMsg) {s : State} (hs : Keeps own s0 s) : KeepsA own s0 (execCurtainMessage lp h m s) := by
  unfold execCurtainMessage
  repeat' (first
      | with_reducible assumption | with_reducible apply keeps_confirmStep
      | with_reducible apply keeps_faultMismatched | with_reducible apply keeps_leaveRun
      | with_reducible apply keeps_modTick | with_reducible apply keeps_raise
      | with_reducible apply keeps_recordConf | with_reducible apply keeps_recvCtrl
      | with_reducible apply keeps_sendStep | with_reducible apply keeps_stageMirror
      | with_reducible apply keeps_foldl | with_reducible apply keeps_foldl2 | with_reducible apply keepsA_next
      | extract_lets | split | intro _ | (dsimp +zetaDelta -zeta only))

theorem keeps_execCvt (c : ClusterId) {s : State} (hs : Keeps own s0 s) : KeepsA own s0 (execCvt c s) := by
  unfold execCvt
  repeat' (first
      | with_reducible assumption | with_reducible apply keeps_runSvu | with_reducible apply keeps_svuRows
      | with_reducible apply keeps_foldl | with_reducible apply keeps_foldl2 | with_reducible apply keepsA_next
      | extract_lets | split | intro _ | (dsimp +zetaDelta -zeta only))

theorem keeps_execD0Return (p : Port) {s : State} (hs : Keeps own s0 s) : KeepsA own s0 (execD0Return p s) := by
  unfold execD0Return
  repeat' (first
      | with_reducible assumption | with_reducible apply keeps_modPort | with_reducible apply keeps_foldl
      | with_reducible apply keeps_foldl2 | with_reducible apply keepsA_next | extract_lets | split | intro _
      | (dsimp +zetaDelta -zeta only))

theorem keeps_execD3hotEntry (p : Port) {s : State} (hs : Keeps own s0 s) : KeepsA own s0 (execD3hotEntry p s) := by
  unfold execD3hotEntry
  repeat' (first
      | with_reducible assumption | with_reducible apply keeps_modPort
      | with_reducible apply keeps_resetOwnerRings | with_reducible apply keeps_foldl
      | with_reducible apply keeps_foldl2 | with_reducible apply keepsA_next | extract_lets | split | intro _
      | (dsimp +zetaDelta -zeta only))

theorem keeps_execDbAdmTail (p : Port) (v : Word) {s : State} (hs : Keeps own s0 s) : KeepsA own s0 (execDbAdmTail p v s) := by
  unfold execDbAdmTail
  repeat' (first
      | with_reducible assumption | with_reducible apply keeps_doorbellBad | with_reducible apply keeps_modHost
      | with_reducible apply keeps_modPort | with_reducible apply keeps_ownerOnly
      | with_reducible apply keeps_foldl | with_reducible apply keeps_foldl2 | with_reducible apply keepsA_next
      | extract_lets | split | intro _ | (dsimp +zetaDelta -zeta only))

theorem keeps_execDbCmdTail (p : Port) (v : Word) {s : State} (hs : Keeps own s0 s) : KeepsA own s0 (execDbCmdTail p v s) := by
  unfold execDbCmdTail
  repeat' (first
      | with_reducible assumption | with_reducible apply keeps_doorbellBad | with_reducible apply keeps_modHost
      | with_reducible apply keeps_modPort | with_reducible apply keeps_ownerOnly
      | with_reducible apply keeps_foldl | with_reducible apply keeps_foldl2 | with_reducible apply keepsA_next
      | extract_lets | split | intro _ | (dsimp +zetaDelta -zeta only))

theorem keeps_execDbEvtHead (p : Port) (v : Word) {s : State} (hs : Keeps own s0 s) : KeepsA own s0 (execDbEvtHead p v s) := by
  unfold execDbEvtHead
  repeat' (first
      | with_reducible assumption | with_reducible apply keeps_doorbellBad | with_reducible apply keeps_modHost
      | with_reducible apply keeps_modPort | with_reducible apply keeps_ownerOnly
      | with_reducible apply keeps_foldl | with_reducible apply keeps_foldl2 | with_reducible apply keepsA_next
      | extract_lets | split | intro _ | (dsimp +zetaDelta -zeta only))

theorem keeps_execDbResHead (p : Port) (v : Word) {s : State} (hs : Keeps own s0 s) : KeepsA own s0 (execDbResHead p v s) := by
  unfold execDbResHead
  repeat' (first
      | with_reducible assumption | with_reducible apply keeps_doorbellBad | with_reducible apply keeps_modHost
      | with_reducible apply keeps_modPort | with_reducible apply keeps_ownerOnly
      | with_reducible apply keeps_foldl | with_reducible apply keeps_foldl2 | with_reducible apply keepsA_next
      | extract_lets | split | intro _ | (dsimp +zetaDelta -zeta only))

theorem keeps_execDeltaCheck (c : CoreId) {s : State} (hs : Keeps own s0 s) : KeepsA own s0 (execDeltaCheck c s) := by
  unfold execDeltaCheck
  repeat' (first
      | with_reducible assumption | with_reducible apply keeps_modCore | with_reducible apply keeps_modSparse
      | with_reducible apply keeps_raise | with_reducible apply keeps_foldl | with_reducible apply keeps_foldl2
      | with_reducible apply keepsA_next | extract_lets | split | intro _ | (dsimp +zetaDelta -zeta only))

theorem keeps_execDigest (e : List Byte) {s : State} (hs : Keeps own s0 s) : KeepsA own s0 (execDigest e s) := by
  unfold execDigest
  repeat' (first
      | with_reducible assumption | with_reducible apply keeps_hostWrite | with_reducible apply keeps_readEach
      | with_reducible apply keeps_runCmd | with_reducible apply keeps_foldl | with_reducible apply keeps_foldl2
      | with_reducible apply keepsA_next | extract_lets | split | intro _ | (dsimp +zetaDelta -zeta only))

theorem keeps_execDmaDone (c : CoreId) (die : Bool) {s : State} (hs : Keeps own s0 s) : KeepsA own s0 (execDmaDone c die s) := by
  unfold execDmaDone
  repeat' (first
      | with_reducible assumption | with_reducible apply keeps_modCore | with_reducible apply keeps_foldl
      | with_reducible apply keeps_foldl2 | with_reducible apply keepsA_next | extract_lets | split | intro _
      | (dsimp +zetaDelta -zeta only))

theorem keeps_execDrain (c : CoreId) {s : State} (hs : Keeps own s0 s) : KeepsA own s0 (execDrain c s) := by
  unfold execDrain
  repeat' (first
      | with_reducible assumption | with_reducible apply keeps_closePart | with_reducible apply keeps_destFault
      | with_reducible apply keeps_inputFault | with_reducible apply keeps_issued
      | with_reducible apply keeps_modCore | with_reducible apply keeps_modLast
      | with_reducible apply keeps_modSeq | with_reducible apply keeps_ocvFault
      | with_reducible apply keeps_partReturn | with_reducible apply keeps_runSeq
      | with_reducible apply keeps_sampleTile | with_reducible apply keeps_skipInstr
      | with_reducible apply keeps_waitAt | with_reducible apply keeps_foldl | with_reducible apply keeps_foldl2
      | with_reducible apply keepsA_next | with_reducible refine keeps_of_some (by with_reducible assumption) ?_
      | with_reducible apply keepsO_none | with_reducible apply keepsO_findSome | extract_lets | split | intro _
      | (dsimp +zetaDelta -zeta only))

theorem keeps_execDrainPass1 (c : CoreId) {s : State} (hs : Keeps own s0 s) : KeepsA own s0 (execDrainPass1 c s) := by
  unfold execDrainPass1
  repeat' (first
      | with_reducible assumption | with_reducible apply keeps_firstPass | with_reducible apply keeps_modSparse
      | with_reducible apply keeps_ocvFault | with_reducible apply keeps_readAll
      | with_reducible apply keeps_foldl | with_reducible apply keeps_foldl2 | with_reducible apply keepsA_next
      | extract_lets | split | intro _ | (dsimp +zetaDelta -zeta only))

theorem keeps_execDrainPass2 (c : CoreId) {s : State} (hs : Keeps own s0 s) : KeepsA own s0 (execDrainPass2 c s) := by
  unfold execDrainPass2
  repeat' (first
      | with_reducible assumption | with_reducible apply keeps_secondPass | with_reducible apply keeps_foldl
      | with_reducible apply keeps_foldl2 | with_reducible apply keepsA_next | extract_lets | split | intro _
      | (dsimp +zetaDelta -zeta only))

theorem keeps_execEngRbAddr (p : Port) (c : CoreId) (e : Fin 17) (v : Word) {s : State} (hs : Keeps own s0 s) : KeepsA own s0 (execEngRbAddr p c e v s) := by
  unfold execEngRbAddr
  repeat' (first
      | with_reducible assumption | with_reducible apply keeps_modPort | with_reducible apply keeps_readParity
      | with_reducible apply keeps_via | with_reducible apply keeps_foldl | with_reducible apply keeps_foldl2
      | with_reducible apply keepsA_next | extract_lets | split | intro _ | (dsimp +zetaDelta -zeta only))

theorem keeps_execEnroll (p : Port) (len : BitVec 16) {s : State} (hs : Keeps false s0 s) : KeepsA false s0 (execEnroll p len s) := by
  refine keepsA_next (keeps_ownerOnly p _ hs fun _ h => keeps_mbxStart p 5 _ _ h fun _ h => ?_)
  split
  · dsimp only; exact keeps_modFlash_any _ h
  · dsimp only; exact keeps_drawWord h

theorem keeps_execEpoch (c : CoreId) {s : State} (hs : Keeps own s0 s) : KeepsA own s0 (execEpoch c s) := by
  unfold execEpoch
  repeat' (first
      | with_reducible assumption | with_reducible apply keeps_issued | with_reducible apply keeps_modSeq
      | with_reducible apply keeps_runSeq | with_reducible apply keeps_seqStop
      | with_reducible apply keeps_waitAt | with_reducible apply keeps_foldl | with_reducible apply keeps_foldl2
      | with_reducible apply keepsA_next | extract_lets | split | intro _ | (dsimp +zetaDelta -zeta only))

theorem keeps_execEpochConfirm (c : CoreId) (e : BitVec 16) {s : State} (hs : Keeps own s0 s) : KeepsA own s0 (execEpochConfirm c e s) := by
  unfold execEpochConfirm
  repeat' (first
      | with_reducible assumption | with_reducible apply keeps_modCore | with_reducible apply keeps_foldl
      | with_reducible apply keeps_foldl2 | with_reducible apply keepsA_next | extract_lets | split | intro _
      | (dsimp +zetaDelta -zeta only))

theorem keeps_execErrFirstClr (p : Port) (v : Word) {s : State} (hs : Keeps own s0 s) : KeepsA own s0 (execErrFirstClr p v s) := by
  unfold execErrFirstClr
  repeat' (first
      | with_reducible assumption | with_reducible apply keeps_modErr | with_reducible apply keeps_via
      | with_reducible apply keeps_foldl | with_reducible apply keeps_foldl2 | with_reducible apply keepsA_next
      | extract_lets | split | intro _ | (dsimp +zetaDelta -zeta only))

theorem keeps_execEventVectorSend {s : State} (hs : Keeps own s0 s) : KeepsA own s0 (execEventVectorSend s) := by
  unfold execEventVectorSend
  repeat' (first
      | with_reducible assumption | with_reducible apply keeps_modHost | with_reducible apply keeps_msix
      | with_reducible apply keeps_foldl | with_reducible apply keeps_foldl2 | with_reducible apply keepsA_next
      | extract_lets | split | intro _ | (dsimp +zetaDelta -zeta only))

theorem keeps_execEventWrite {s : State} (hs : Keeps own s0 s) : KeepsA own s0 (execEventWrite s) := by
  unfold execEventWrite
  repeat' (first
      | with_reducible assumption | with_reducible apply keeps_modHost | with_reducible apply keeps_msix
      | with_reducible apply keeps_putEvent | with_reducible apply keeps_foldl
      | with_reducible apply keeps_foldl2 | with_reducible apply keepsA_next | extract_lets | split | intro _
      | (dsimp +zetaDelta -zeta only))

theorem keeps_execExtest {s : State} (hs : Keeps own s0 s) : KeepsA own s0 (execExtest s) := by
  unfold execExtest
  repeat' (first
      | with_reducible assumption | with_reducible apply keeps_pinDrive | with_reducible apply keeps_foldl
      | with_reducible apply keeps_foldl2 | with_reducible apply keepsA_next | extract_lets | split | intro _
      | (dsimp +zetaDelta -zeta only))

theorem keeps_execFence (c : CoreId) {s : State} (hs : Keeps own s0 s) : KeepsA own s0 (execFence c s) := by
  unfold execFence
  repeat' (first
      | with_reducible assumption | with_reducible apply keeps_issued | with_reducible apply keeps_runSeq
      | with_reducible apply keeps_foldl | with_reducible apply keeps_foldl2 | with_reducible apply keepsA_next
      | extract_lets | split | intro _ | (dsimp +zetaDelta -zeta only))

theorem keeps_execFill (e : List Byte) {s : State} (hs : Keeps own s0 s) : KeepsA own s0 (execFill e s) := by
  unfold execFill
  repeat' (first
      | with_reducible assumption | with_reducible apply keeps_runCmd | with_reducible apply keeps_writeDev
      | with_reducible apply keeps_foldl | with_reducible apply keeps_foldl2 | with_reducible apply keepsA_next
      | extract_lets | split | intro _ | (dsimp +zetaDelta -zeta only))

theorem keeps_execGateRequest (p : Port) (w : Fin 3) (v : Word) {s : State} (hs : Keeps own s0 s) : KeepsA own s0 (execGateRequest p w v s) := by
  unfold execGateRequest
  repeat' (first
      | with_reducible assumption | with_reducible apply keeps_gateReq | with_reducible apply keeps_ownerOnly
      | with_reducible apply keeps_foldl | with_reducible apply keeps_foldl2 | with_reducible apply keepsA_next
      | extract_lets | split | intro _ | (dsimp +zetaDelta -zeta only))

theorem keeps_execGateStartDone (f : Gateable) {s : State} (hs : Keeps own s0 s) : KeepsA own s0 (execGateStartDone f s) := by
  unfold execGateStartDone
  repeat' (first
      | with_reducible assumption | with_reducible apply keeps_modGate | with_reducible apply keeps_foldl
      | with_reducible apply keeps_foldl2 | with_reducible apply keepsA_next | extract_lets | split | intro _
      | (dsimp +zetaDelta -zeta only))

theorem keeps_execGateStopDone (f : Gateable) {s : State} (hs : Keeps own s0 s) : KeepsA own s0 (execGateStopDone f s) := by
  unfold execGateStopDone
  repeat' (first
      | with_reducible assumption | with_reducible apply keeps_modGate | with_reducible apply keeps_foldl
      | with_reducible apply keeps_foldl2 | with_reducible apply keepsA_next | extract_lets | split | intro _
      | (dsimp +zetaDelta -zeta only))

theorem keeps_execGroupSumHandoff (c : CoreId) (e : Fin 16) {s : State} (hs : Keeps own s0 s) : KeepsA own s0 (execGroupSumHandoff c e s) := by
  unfold execGroupSumHandoff
  repeat' (first
      | with_reducible assumption | with_reducible apply keeps_drawWord | with_reducible apply keeps_modEng
      | with_reducible apply keeps_modOcv | with_reducible apply keeps_foldl | with_reducible apply keeps_foldl2
      | with_reducible apply keepsA_next | extract_lets | split | intro _ | (dsimp +zetaDelta -zeta only)
      | with_reducible refine keeps_mk ?_ (by first | exact Nat.le_refl _ | exact Nat.le_add_right _ _) rfl rfl rfl)

theorem keeps_execHbAgeAdvance {s : State} (hs : Keeps own s0 s) : KeepsA own s0 (execHbAgeAdvance s) := by
  unfold execHbAgeAdvance
  repeat' (first
      | with_reducible assumption | with_reducible apply keeps_checkLapse | with_reducible apply keeps_modHost
      | with_reducible apply keeps_foldl | with_reducible apply keeps_foldl2 | with_reducible apply keepsA_next
      | extract_lets | split | intro _ | (dsimp +zetaDelta -zeta only))

theorem keeps_execHeartbeat (lp : Fin 8) (h : FlitHdr) (adopted : Bool) (_tick : DWord) (_applied : DWord) {s : State} (hs : Keeps own s0 s) : KeepsA own s0 (execHeartbeat lp h adopted _tick _applied s) := by
  unfold execHeartbeat
  repeat' (first
      | with_reducible assumption | with_reducible apply keeps_faultSlots | with_reducible apply keeps_modTwin
      | with_reducible apply keeps_raise | with_reducible apply keeps_recvCtrl | with_reducible apply keeps_foldl
      | with_reducible apply keeps_foldl2 | with_reducible apply keepsA_next | extract_lets | split | intro _
      | (dsimp +zetaDelta -zeta only))

theorem keeps_execHello (lp : Fin 8) (h : FlitHdr) (m : HelloMsg) {s : State} (hs : Keeps own s0 s) : KeepsA own s0 (execHello lp h m s) := by
  unfold execHello
  repeat' (first
      | with_reducible assumption | with_reducible apply keeps_modTwin | with_reducible apply keeps_openPaired
      | with_reducible apply keeps_raise | with_reducible apply keeps_recvCtrl | with_reducible apply keeps_foldl
      | with_reducible apply keeps_foldl2 | with_reducible apply keepsA_next | extract_lets | split | intro _
      | (dsimp +zetaDelta -zeta only))

theorem keeps_execHelloSend (lp : Fin 8) {s : State} (hs : Keeps own s0 s) : KeepsA own s0 (execHelloSend lp s) := by
  unfold execHelloSend
  repeat' (first
      | with_reducible assumption | with_reducible apply keeps_sendOn | with_reducible apply keeps_foldl
      | with_reducible apply keeps_foldl2 | with_reducible apply keepsA_next | extract_lets | split | intro _
      | (dsimp +zetaDelta -zeta only))

theorem keeps_execHighz {s : State} (hs : Keeps own s0 s) : KeepsA own s0 (execHighz s) := by
  unfold execHighz
  repeat' (first
      | with_reducible assumption | with_reducible apply keeps_pinDrive | with_reducible apply keeps_foldl
      | with_reducible apply keeps_foldl2 | with_reducible apply keepsA_next | extract_lets | split | intro _
      | (dsimp +zetaDelta -zeta only))

theorem keeps_execHostHeartbeat (p : Port) (v : Word) {s : State} (hs : Keeps own s0 s) : KeepsA own s0 (execHostHeartbeat p v s) := by
  unfold execHostHeartbeat
  repeat' (first
      | with_reducible assumption | with_reducible apply keeps_checkLapse | with_reducible apply keeps_modHost
      | with_reducible apply keeps_ownerOnly | with_reducible apply keeps_foldl
      | with_reducible apply keeps_foldl2 | with_reducible apply keepsA_next | extract_lets | split | intro _
      | (dsimp +zetaDelta -zeta only))

theorem keeps_execHostRingBase (p : Port) (r : HostRing) (hi : Bool) (v : Word) {s : State} (hs : Keeps own s0 s) : KeepsA own s0 (execHostRingBase p r hi v s) := by
  unfold execHostRingBase
  repeat' (first
      | with_reducible assumption | with_reducible apply keeps_doorbellBad | with_reducible apply keeps_modHost
      | with_reducible apply keeps_ownerOnly | with_reducible apply keeps_foldl
      | with_reducible apply keeps_foldl2 | with_reducible apply keepsA_next | extract_lets | split | intro _
      | (dsimp +zetaDelta -zeta only))

theorem keeps_execHostRingCfg (p : Port) (r : HostRing) (v : Word) {s : State} (hs : Keeps own s0 s) : KeepsA own s0 (execHostRingCfg p r v s) := by
  unfold execHostRingCfg
  repeat' (first
      | with_reducible assumption | with_reducible apply keeps_doorbellBad | with_reducible apply keeps_modHost
      | with_reducible apply keeps_modPort | with_reducible apply keeps_orphanInputs
      | with_reducible apply keeps_ownerOnly | with_reducible apply keeps_foldl
      | with_reducible apply keeps_foldl2 | with_reducible apply keepsA_next | extract_lets | split | intro _
      | (dsimp +zetaDelta -zeta only))

theorem keeps_execIdcode {s : State} (hs : Keeps own s0 s) : KeepsA own s0 (execIdcode s) := by
  unfold execIdcode
  repeat' (first
      | with_reducible assumption | with_reducible apply keeps_answer | with_reducible apply keeps_modTap
      | with_reducible apply keeps_foldl | with_reducible apply keeps_foldl2 | with_reducible apply keepsA_next
      | extract_lets | split | intro _ | (dsimp +zetaDelta -zeta only))

theorem keeps_execIdleFlit (lp : Fin 8) (h : FlitHdr) {s : State} (hs : Keeps own s0 s) : KeepsA own s0 (execIdleFlit lp h s) := by
  unfold execIdleFlit
  repeat' (first
      | with_reducible assumption | with_reducible apply keeps_takeFlits | with_reducible apply keeps_foldl
      | with_reducible apply keeps_foldl2 | with_reducible apply keepsA_next
      | with_reducible refine keeps_of_lost (by with_reducible assumption) ?_
      | with_reducible refine keeps_of_here (by with_reducible assumption) ?_ | extract_lets | split | intro _
      | (dsimp +zetaDelta -zeta only))

theorem keeps_execInjArm (p : Port) (v : Word) {s : State} (hs : Keeps own s0 s) : KeepsA own s0 (execInjArm p v s) := by
  unfold execInjArm
  repeat' (first
      | with_reducible assumption | with_reducible apply keeps_modErr | with_reducible apply keeps_ownerOnly
      | with_reducible apply keeps_raise | with_reducible apply keeps_foldl | with_reducible apply keeps_foldl2
      | with_reducible apply keepsA_next | extract_lets | split | intro _ | (dsimp +zetaDelta -zeta only))

theorem keeps_execInjDisarm (p : Port) (v : Word) {s : State} (hs : Keeps own s0 s) : KeepsA own s0 (execInjDisarm p v s) := by
  unfold execInjDisarm
  repeat' (first
      | with_reducible assumption | with_reducible apply keeps_modErr | with_reducible apply keeps_ownerOnly
      | with_reducible apply keeps_foldl | with_reducible apply keeps_foldl2 | with_reducible apply keepsA_next
      | extract_lets | split | intro _ | (dsimp +zetaDelta -zeta only))

theorem keeps_execInputBodyFail (e : List Byte) {s : State} (hs : Keeps own s0 s) : KeepsA own s0 (execInputBodyFail e s) := by
  unfold execInputBodyFail
  repeat' (first
      | with_reducible assumption | with_reducible apply keeps_admReject | with_reducible apply keeps_admTake
      | with_reducible apply keeps_foldl | with_reducible apply keeps_foldl2 | with_reducible apply keepsA_next
      | extract_lets | split | intro _ | (dsimp +zetaDelta -zeta only))

theorem keeps_execInputEntry (e : List Byte) (body : List Byte) {s : State} (hs : Keeps own s0 s) : KeepsA own s0 (execInputEntry e body s) := by
  unfold execInputEntry
  repeat' (first
      | with_reducible assumption | with_reducible apply keeps_admReject | with_reducible apply keeps_admRelease
      | with_reducible apply keeps_admTake | with_reducible apply keeps_badOp
      | with_reducible apply keeps_modSlot | with_reducible apply keeps_raise | with_reducible apply keeps_foldl
      | with_reducible apply keeps_foldl2 | with_reducible apply keepsA_next | extract_lets | split | intro _
      | (dsimp +zetaDelta -zeta only))

theorem keeps_execJmp (c : CoreId) {s : State} (hs : Keeps own s0 s) : KeepsA own s0 (execJmp c s) := by
  unfold execJmp
  repeat' (first
      | with_reducible assumption | with_reducible apply keeps_issued | with_reducible apply keeps_runSeq
      | with_reducible apply keeps_setPc | with_reducible apply keeps_foldl | with_reducible apply keeps_foldl2
      | with_reducible apply keepsA_next | extract_lets | split | intro _ | (dsimp +zetaDelta -zeta only))

theorem keeps_execJunctionSample (tj : BitVec 32) (tjIo : BitVec 32) {s : State} (hs : Keeps own s0 s) : KeepsA own s0 (execJunctionSample tj tjIo s) := by
  unfold execJunctionSample
  repeat' (first
      | with_reducible assumption | with_reducible apply keeps_countTherm | with_reducible apply keeps_modPwr
      | with_reducible apply keeps_powerOff | with_reducible apply keeps_raise | with_reducible apply keeps_foldl
      | with_reducible apply keeps_foldl2 | with_reducible apply keepsA_next | extract_lets | split | intro _
      | (dsimp +zetaDelta -zeta only))

theorem keeps_execKvFree (d : Fin 4) {s : State} (hs : Keeps own s0 s) : KeepsA own s0 (execKvFree d s) := by
  unfold execKvFree
  repeat' (first
      | with_reducible assumption | with_reducible apply keeps_kvFreePage | with_reducible apply keeps_foldl
      | with_reducible apply keeps_foldl2 | with_reducible apply keepsA_next | extract_lets | split | intro _
      | (dsimp +zetaDelta -zeta only))

theorem keeps_execLaneDegrade (lp : Fin 8) (lane : Fin 8) {s : State} (hs : Keeps own s0 s) : KeepsA own s0 (execLaneDegrade lp lane s) := by
  unfold execLaneDegrade
  repeat' (first
      | with_reducible assumption | with_reducible apply keeps_modLnk | with_reducible apply keeps_portDown
      | with_reducible apply keeps_raise | with_reducible apply keeps_foldl | with_reducible apply keeps_foldl2
      | with_reducible apply keepsA_next | extract_lets | split | intro _ | (dsimp +zetaDelta -zeta only))

theorem keeps_execLdi (c : CoreId) {s : State} (hs : Keeps own s0 s) : KeepsA own s0 (execLdi c s) := by
  unfold execLdi
  repeat' (first
      | with_reducible assumption | with_reducible apply keeps_issued | with_reducible apply keeps_modSeq
      | with_reducible apply keeps_runSeq | with_reducible apply keeps_foldl | with_reducible apply keeps_foldl2
      | with_reducible apply keepsA_next | extract_lets | split | intro _ | (dsimp +zetaDelta -zeta only))

theorem keeps_execLds (c : CoreId) {s : State} (hs : Keeps own s0 s) : KeepsA own s0 (execLds c s) := by
  unfold execLds
  with_reducible apply keepsA_next
  with_reducible apply keeps_runSeq
  · with_reducible assumption
  intro w s hs
  extract_lets a
  split
  · with_reducible apply keeps_reachFault; with_reducible assumption
  · with_reducible apply keeps_withSb
    · with_reducible assumption
    intro s hs
    extract_lets r
    split
    · with_reducible apply keeps_modSeq
      with_reducible apply keeps_issued
      with_reducible apply keeps_workRead
      with_reducible assumption
    · with_reducible apply keeps_issued
      with_reducible apply keeps_workRead
      with_reducible assumption

theorem keeps_execLinkRetrain (lp : Fin 8) {s : State} (hs : Keeps own s0 s) : KeepsA own s0 (execLinkRetrain lp s) := by
  unfold execLinkRetrain
  repeat' (first
      | with_reducible assumption | with_reducible apply keeps_modLnk | with_reducible apply keeps_foldl
      | with_reducible apply keeps_foldl2 | with_reducible apply keepsA_next | extract_lets | split | intro _
      | (dsimp +zetaDelta -zeta only))

theorem keeps_execLinkSilent (lp : Fin 8) {s : State} (hs : Keeps own s0 s) : KeepsA own s0 (execLinkSilent lp s) := by
  unfold execLinkSilent
  repeat' (first
      | with_reducible assumption | with_reducible apply keeps_portDown | with_reducible apply keeps_foldl
      | with_reducible apply keeps_foldl2 | with_reducible apply keepsA_next | extract_lets | split | intro _
      | (dsimp +zetaDelta -zeta only))

theorem keeps_execLinkUp (t : LinkTrain) {s : State} (hs : Keeps own s0 s) : KeepsA own s0 (execLinkUp t s) := by
  unfold execLinkUp
  repeat' (first
      | with_reducible assumption | with_reducible apply keeps_trained | with_reducible apply keeps_foldl
      | with_reducible apply keeps_foldl2 | with_reducible apply keepsA_next | extract_lets | split | intro _
      | (dsimp +zetaDelta -zeta only))

theorem keeps_execLnrm (c : ClusterId) {s : State} (hs : Keeps own s0 s) : KeepsA own s0 (execLnrm c s) := by
  unfold execLnrm
  repeat' (first
      | with_reducible assumption | with_reducible apply keeps_runSvu | with_reducible apply keeps_svuRows
      | with_reducible apply keeps_foldl | with_reducible apply keeps_foldl2 | with_reducible apply keepsA_next
      | extract_lets | split | intro _ | (dsimp +zetaDelta -zeta only))

theorem keeps_execLoad (e : List Byte) (data : HostRead) {s : State} (hs : Keeps own s0 s) : KeepsA own s0 (execLoad e data s) := by
  unfold execLoad
  repeat' (first
      | with_reducible assumption | with_reducible apply keeps_runCmd | with_reducible apply keeps_scramble
      | with_reducible apply keeps_send | with_reducible apply keeps_writeDev | with_reducible apply keeps_foldl
      | with_reducible apply keeps_foldl2 | with_reducible apply keepsA_next | extract_lets | split | intro _
      | (dsimp +zetaDelta -zeta only))

theorem keeps_execLock (p : Port) {s : State} (hs : Keeps false s0 s) : KeepsA false s0 (execLock p s) := by
  refine keepsA_next (keeps_ownerOnly p _ hs fun _ h => keeps_mbxStart p 6 0 _ h fun _ h => ?_)
  dsimp only
  exact keeps_modFlash_any _ h

theorem keeps_execLoop (c : CoreId) {s : State} (hs : Keeps own s0 s) : KeepsA own s0 (execLoop c s) := by
  unfold execLoop
  repeat' (first
      | with_reducible assumption | with_reducible apply keeps_issued | with_reducible apply keeps_modSeq
      | with_reducible apply keeps_runSeq | with_reducible apply keeps_setPc | with_reducible apply keeps_foldl
      | with_reducible apply keeps_foldl2 | with_reducible apply keepsA_next | extract_lets | split | intro _
      | (dsimp +zetaDelta -zeta only))

theorem keeps_execLyr (c : CoreId) {s : State} (hs : Keeps own s0 s) : KeepsA own s0 (execLyr c s) := by
  unfold execLyr
  with_reducible apply keepsA_next
  with_reducible apply keeps_runSeq
  · with_reducible assumption
  intro w s hs
  extract_lets q a ord
  repeat' (first
      | with_reducible assumption | with_reducible apply keeps_reachFault | with_reducible apply keeps_seqStop
      | with_reducible apply keeps_waitAt | split)
  with_reducible apply keeps_withSb
  · with_reducible assumption
  intro s hs
  extract_lets r d
  have h : Keeps own s0 r.2 := by with_reducible apply keeps_workRead; with_reducible assumption
  split
  · exact h
  · split
    · exact keeps_seqStop c _ _ h
    · with_reducible apply keeps_bind
      exact keeps_endBound c h

theorem keeps_execMailboxDone (p : Port) {s : State} (hs : Keeps own s0 s) : KeepsA own s0 (execMailboxDone p s) := by
  unfold execMailboxDone
  repeat' (first
      | with_reducible assumption | with_reducible apply keeps_modPort | with_reducible apply keeps_foldl
      | with_reducible apply keeps_foldl2 | with_reducible apply keepsA_next | extract_lets | split | intro _
      | (dsimp +zetaDelta -zeta only))

theorem keeps_execMakeUp (c : CoreId) {s : State} (hs : Keeps own s0 s) : KeepsA own s0 (execMakeUp c s) := by
  unfold execMakeUp
  repeat' (first
      | with_reducible assumption | with_reducible apply keeps_euRan | with_reducible apply keeps_modCore
      | with_reducible apply keeps_modInv | with_reducible apply keeps_modSparse
      | with_reducible apply keeps_raise | with_reducible apply keeps_foldl | with_reducible apply keeps_foldl2
      | with_reducible apply keepsA_next | extract_lets | split | intro _ | (dsimp +zetaDelta -zeta only))

theorem keeps_execMirrorApplied (lp : Fin 8) (h : FlitHdr) (tick : DWord) {s : State} (hs : Keeps own s0 s) : KeepsA own s0 (execMirrorApplied lp h tick s) := by
  unfold execMirrorApplied
  repeat' (first
      | with_reducible assumption | with_reducible apply keeps_modTwin | with_reducible apply keeps_recvCtrl
      | with_reducible apply keeps_releaseResults | with_reducible apply keeps_stageMirror
      | with_reducible apply keeps_foldl | with_reducible apply keeps_foldl2 | with_reducible apply keepsA_next
      | extract_lets | split | intro _ | (dsimp +zetaDelta -zeta only))

theorem keeps_execMirrorApplyDone {s : State} (hs : Keeps own s0 s) : KeepsA own s0 (execMirrorApplyDone s) := by
  unfold execMirrorApplyDone
  repeat' (first
      | with_reducible assumption | with_reducible apply keeps_mirrorUnpacked | with_reducible apply keeps_foldl
      | with_reducible apply keeps_foldl2 | with_reducible apply keepsA_next | extract_lets | split | intro _
      | (dsimp +zetaDelta -zeta only))

theorem keeps_execMirrorCommit (lp : Fin 8) (h : FlitHdr) (tick : DWord) (bytes : DWord) (slots : List MirrorSlot) (freed : BitVec 256) {s : State} (hs : Keeps own s0 s) : KeepsA own s0 (execMirrorCommit lp h tick bytes slots freed s) := by
  unfold execMirrorCommit
  repeat' (first
      | with_reducible assumption | with_reducible apply keeps_modTwin | with_reducible apply keeps_recvCtrl
      | with_reducible apply keeps_foldl | with_reducible apply keeps_foldl2 | with_reducible apply keepsA_next
      | extract_lets | split | intro _ | (dsimp +zetaDelta -zeta only))

theorem keeps_execMotion (level : Bool) {s : State} (hs : Keeps own s0 s) : KeepsA own s0 (execMotion level s) := by
  unfold execMotion
  repeat' (first
      | with_reducible assumption | with_reducible apply keeps_modPin | with_reducible apply keeps_pinChange
      | with_reducible apply keeps_foldl | with_reducible apply keeps_foldl2 | with_reducible apply keepsA_next
      | extract_lets | split | intro _ | (dsimp +zetaDelta -zeta only))

theorem keeps_execMsixPending (p : Port) (vec : Fin 64) {s : State} (hs : Keeps own s0 s) : KeepsA own s0 (execMsixPending p vec s) := by
  unfold execMsixPending
  repeat' (first
      | with_reducible assumption | with_reducible apply keeps_modPort | with_reducible apply keeps_send
      | with_reducible apply keeps_foldl | with_reducible apply keeps_foldl2 | with_reducible apply keepsA_next
      | extract_lets | split | intro _ | (dsimp +zetaDelta -zeta only))

theorem keeps_execNop (c : CoreId) {s : State} (hs : Keeps own s0 s) : KeepsA own s0 (execNop c s) := by
  unfold execNop
  repeat' (first
      | with_reducible assumption | with_reducible apply keeps_issued | with_reducible apply keeps_runSeq
      | with_reducible apply keeps_foldl | with_reducible apply keeps_foldl2 | with_reducible apply keepsA_next
      | extract_lets | split | intro _ | (dsimp +zetaDelta -zeta only))

theorem keeps_execNrd (c : CoreId) {s : State} (hs : Keeps own s0 s) : KeepsA own s0 (execNrd c s) := by
  unfold execNrd
  repeat' (first
      | with_reducible assumption | with_reducible apply keeps_blockMove | with_reducible apply keeps_runSeq
      | with_reducible apply keeps_foldl | with_reducible apply keeps_foldl2 | with_reducible apply keepsA_next
      | extract_lets | split | intro _ | (dsimp +zetaDelta -zeta only))

theorem keeps_execNwr (c : CoreId) {s : State} (hs : Keeps own s0 s) : KeepsA own s0 (execNwr c s) := by
  unfold execNwr
  repeat' (first
      | with_reducible assumption | with_reducible apply keeps_blockMove | with_reducible apply keeps_runSeq
      | with_reducible apply keeps_foldl | with_reducible apply keeps_foldl2 | with_reducible apply keepsA_next
      | extract_lets | split | intro _ | (dsimp +zetaDelta -zeta only))

theorem keeps_execOffer (p : Port) (v : Bool) {s : State} (hs : Keeps own s0 s) : KeepsA own s0 (execOffer p v s) := by
  unfold execOffer
  repeat' (first
      | with_reducible assumption | with_reducible apply keeps_modHost | with_reducible apply keeps_msix
      | with_reducible apply keeps_ownerOnly | with_reducible apply keeps_foldl
      | with_reducible apply keeps_foldl2 | with_reducible apply keepsA_next | extract_lets | split | intro _
      | (dsimp +zetaDelta -zeta only))

theorem keeps_execOutboundSend (lp : Fin 8) {s : State} (hs : Keeps own s0 s) : KeepsA own s0 (execOutboundSend lp s) := by
  unfold execOutboundSend
  repeat' (first
      | with_reducible assumption | with_reducible apply keeps_releaseOuts | with_reducible apply keeps_sendNext
      | with_reducible apply keeps_foldl | with_reducible apply keeps_foldl2 | with_reducible apply keepsA_next
      | extract_lets | split | intro _ | (dsimp +zetaDelta -zeta only))

theorem keeps_execOwnerChange {s : State} (hs : Keeps own s0 s) : KeepsA own s0 (execOwnerChange s) := by
  unfold execOwnerChange
  repeat' (first
      | with_reducible assumption | with_reducible apply keeps_abandonQueued
      | with_reducible apply keeps_cutCommand | with_reducible apply keeps_endStaging
      | with_reducible apply keeps_flushEvents | with_reducible apply keeps_loseOwner
      | with_reducible apply keeps_modHost | with_reducible apply keeps_msix | with_reducible apply keeps_raise
      | with_reducible apply keeps_foldl | with_reducible apply keeps_foldl2 | with_reducible apply keepsA_next
      | extract_lets | split | intro _ | (dsimp +zetaDelta -zeta only)
      | with_reducible refine keeps_mk ?_ (by first | exact Nat.le_refl _ | exact Nat.le_add_right _ _) rfl rfl rfl)

theorem keeps_execPackageReduction (ord : BitVec 16) {s : State} (hs : Keeps own s0 s) : KeepsA own s0 (execPackageReduction ord s) := by
  unfold execPackageReduction
  repeat' (first
      | with_reducible assumption | with_reducible apply keeps_modInv | with_reducible apply keeps_modLayer
      | with_reducible apply keeps_foldl | with_reducible apply keeps_foldl2 | with_reducible apply keepsA_next
      | extract_lets | split | intro _ | (dsimp +zetaDelta -zeta only))

theorem keeps_execPark (p : Port) {s : State} (hs : Keeps own s0 s) : KeepsA own s0 (execPark p s) := by
  unfold execPark
  repeat' (first
      | with_reducible assumption | with_reducible apply keeps_disarm | with_reducible apply keeps_modPwr
      | with_reducible apply keeps_modTick | with_reducible apply keeps_ownerOnly
      | with_reducible apply keeps_raise | with_reducible apply keeps_foldl | with_reducible apply keeps_foldl2
      | with_reducible apply keepsA_next | extract_lets | split | intro _ | (dsimp +zetaDelta -zeta only)
      | with_reducible refine keeps_mk ?_ (by first | exact Nat.le_refl _ | exact Nat.le_add_right _ _) rfl rfl rfl)

theorem keeps_execPassStart (c : CoreId) (e : Fin 16) {s : State} (hs : Keeps own s0 s) : KeepsA own s0 (execPassStart c e s) := by
  unfold execPassStart
  repeat' (first
      | with_reducible assumption | with_reducible apply keeps_drawWord | with_reducible apply keeps_engFault
      | with_reducible apply keeps_gather | with_reducible apply keeps_modCore
      | with_reducible apply keeps_modEng | with_reducible apply keeps_readAll | with_reducible apply keeps_foldl
      | with_reducible apply keeps_foldl2 | with_reducible apply keepsA_next | extract_lets | split | intro _
      | (dsimp +zetaDelta -zeta only))

theorem keeps_execPlaneFill (c : CoreId) (e : Fin 16) {s : State} (hs : Keeps own s0 s) : KeepsA own s0 (execPlaneFill c e s) := by
  unfold execPlaneFill
  repeat' (first
      | with_reducible assumption | with_reducible apply keeps_modEng | with_reducible apply keeps_startTile
      | with_reducible apply keeps_foldl | with_reducible apply keeps_foldl2 | with_reducible apply keepsA_next
      | extract_lets | split | intro _ | (dsimp +zetaDelta -zeta only))

theorem keeps_execPortReset (p : Port) (kind : ResetKind) {s : State} (hs : Keeps own s0 s) : KeepsA own s0 (execPortReset p kind s) := by
  unfold execPortReset
  repeat' (first
      | with_reducible assumption | with_reducible apply keeps_modHost | with_reducible apply keeps_modPort
      | with_reducible apply keeps_resetOwnerRings | with_reducible apply keeps_setPerst
      | with_reducible apply keeps_foldl | with_reducible apply keeps_foldl2 | with_reducible apply keepsA_next
      | extract_lets | split | intro _ | (dsimp +zetaDelta -zeta only))

theorem keeps_execPowerGood (env : BootEnv) {s : State} (hs : Keeps own s0 s) : KeepsA own s0 (execPowerGood env s) := by
  unfold execPowerGood
  repeat' (first
      | with_reducible assumption | with_reducible apply keeps_coldStart | with_reducible apply keeps_foldl
      | with_reducible apply keeps_foldl2 | with_reducible apply keepsA_next | extract_lets | split | intro _
      | (dsimp +zetaDelta -zeta only))

theorem keeps_execPowerSample (watts10 : BitVec 16) (mv10 : BitVec 16) (auxMv : BitVec 16) {s : State} (hs : Keeps own s0 s) : KeepsA own s0 (execPowerSample watts10 mv10 auxMv s) := by
  unfold execPowerSample
  repeat' (first
      | with_reducible assumption | with_reducible apply keeps_modPwr | with_reducible apply keeps_foldl
      | with_reducible apply keeps_foldl2 | with_reducible apply keepsA_next | extract_lets | split | intro _
      | (dsimp +zetaDelta -zeta only))

theorem keeps_execProt (c : ClusterId) {s : State} (hs : Keeps own s0 s) : KeepsA own s0 (execProt c s) := by
  unfold execProt
  repeat' (first
      | with_reducible assumption | with_reducible apply keeps_drawWord | with_reducible apply keeps_runSvu
      | with_reducible apply keeps_svuRows | with_reducible apply keeps_foldl | with_reducible apply keeps_foldl2
      | with_reducible apply keepsA_next | extract_lets | split | intro _ | (dsimp +zetaDelta -zeta only))

theorem keeps_execPushResume (c : CoreId) {s : State} (hs : Keeps own s0 s) : KeepsA own s0 (execPushResume c s) := by
  unfold execPushResume
  repeat' (first
      | with_reducible assumption | with_reducible apply keeps_finishConv | with_reducible apply keeps_modCore
      | with_reducible apply keeps_retryCluster | with_reducible apply keeps_retryMoves
      | with_reducible apply keeps_retryStalled | with_reducible apply keeps_foldl
      | with_reducible apply keeps_foldl2 | with_reducible apply keepsA_next | extract_lets | split | intro _
      | (dsimp +zetaDelta -zeta only))

theorem keeps_execPwrBrake (pin : Fin 4) {s : State} (hs : Keeps own s0 s) : KeepsA own s0 (execPwrBrake pin s) := by
  unfold execPwrBrake
  repeat' (first
      | with_reducible assumption | with_reducible apply keeps_gpLevel | with_reducible apply keeps_modPwr
      | with_reducible apply keeps_foldl | with_reducible apply keeps_foldl2 | with_reducible apply keepsA_next
      | extract_lets | split | intro _ | (dsimp +zetaDelta -zeta only))

theorem keeps_execPwrBrakeRelease (pin : Fin 4) {s : State} (hs : Keeps own s0 s) : KeepsA own s0 (execPwrBrakeRelease pin s) := by
  unfold execPwrBrakeRelease
  repeat' (first
      | with_reducible assumption | with_reducible apply keeps_gpLevel | with_reducible apply keeps_modPwr
      | with_reducible apply keeps_foldl | with_reducible apply keeps_foldl2 | with_reducible apply keepsA_next
      | extract_lets | split | intro _ | (dsimp +zetaDelta -zeta only))

theorem keeps_execPwrHold (level : Bool) {s : State} (hs : Keeps own s0 s) : KeepsA own s0 (execPwrHold level s) := by
  unfold execPwrHold
  repeat' (first
      | with_reducible assumption | with_reducible apply keeps_modPin | with_reducible apply keeps_pinChange
      | with_reducible apply keeps_foldl | with_reducible apply keeps_foldl2 | with_reducible apply keepsA_next
      | extract_lets | split | intro _ | (dsimp +zetaDelta -zeta only))

theorem keeps_execReadout (p : Port) (check : Bool) {s : State} (hs : Keeps own s0 s) : KeepsA own s0 (execReadout p check s) := by
  unfold execReadout
  repeat' (first
      | with_reducible assumption | with_reducible apply keeps_modReh | with_reducible apply keeps_rehCommand
      | with_reducible apply keeps_rehRefuse | with_reducible apply keeps_foldl
      | with_reducible apply keeps_foldl2 | with_reducible apply keepsA_next | extract_lets | split | intro _
      | (dsimp +zetaDelta -zeta only))

theorem keeps_execReadoutDone {s : State} (hs : Keeps own s0 s) : KeepsA own s0 (execReadoutDone s) := by
  unfold execReadoutDone
  repeat' (first
      | with_reducible assumption | with_reducible apply keeps_modReh | with_reducible apply keeps_raise
      | with_reducible apply keeps_writeDev | with_reducible apply keeps_foldl
      | with_reducible apply keeps_foldl2 | with_reducible apply keepsA_next | extract_lets | split | intro _
      | (dsimp +zetaDelta -zeta only))

theorem keeps_execReferenceRestored {s : State} (hs : Keeps own s0 s) : KeepsA own s0 (execReferenceRestored s) := by
  unfold execReferenceRestored
  repeat' (first
      | with_reducible assumption | with_reducible apply keeps_modPin | with_reducible apply keeps_foldl
      | with_reducible apply keeps_foldl2 | with_reducible apply keepsA_next | extract_lets | split | intro _
      | (dsimp +zetaDelta -zeta only)
      | with_reducible refine keeps_mk ?_ (by first | exact Nat.le_refl _ | exact Nat.le_add_right _ _) rfl rfl rfl)

theorem keeps_execRefetchDone (lp : Fin 8) (h : FlitHdr) (addr : BitVec 44) {s : State} (hs : Keeps own s0 s) : KeepsA own s0 (execRefetchDone lp h addr s) := by
  unfold execRefetchDone
  repeat' (first
      | with_reducible assumption | with_reducible apply keeps_modTwin | with_reducible apply keeps_recvCtrl
      | with_reducible apply keeps_refetchEnd | with_reducible apply keeps_foldl
      | with_reducible apply keeps_foldl2 | with_reducible apply keepsA_next | extract_lets | split | intro _
      | (dsimp +zetaDelta -zeta only))

theorem keeps_execRefetchFail (lp : Fin 8) (h : FlitHdr) (_reason : BitVec 8) (addr : BitVec 44) {s : State} (hs : Keeps own s0 s) : KeepsA own s0 (execRefetchFail lp h _reason addr s) := by
  unfold execRefetchFail
  repeat' (first
      | with_reducible assumption | with_reducible apply keeps_modTwin | with_reducible apply keeps_raise
      | with_reducible apply keeps_recvCtrl | with_reducible apply keeps_refetchEnd
      | with_reducible apply keeps_foldl | with_reducible apply keeps_foldl2 | with_reducible apply keepsA_next
      | extract_lets | split | intro _ | (dsimp +zetaDelta -zeta only))

theorem keeps_execRefetchRequest (lp : Fin 8) (h : FlitHdr) (_epoch : BitVec 16) (addr : BitVec 44) (len : Word) {s : State} (hs : Keeps own s0 s) : KeepsA own s0 (execRefetchRequest lp h _epoch addr len s) := by
  unfold execRefetchRequest
  repeat' (first
      | with_reducible assumption | with_reducible apply keeps_modTwin | with_reducible apply keeps_recvCtrl
      | with_reducible apply keeps_sendTwin | with_reducible apply keeps_serveRefetch
      | with_reducible apply keeps_foldl | with_reducible apply keeps_foldl2 | with_reducible apply keepsA_next
      | extract_lets | split | intro _ | (dsimp +zetaDelta -zeta only))

theorem keeps_execRefetchTimeout (at_ : Nat) {s : State} (hs : Keeps own s0 s) : KeepsA own s0 (execRefetchTimeout at_ s) := by
  unfold execRefetchTimeout
  repeat' (first
      | with_reducible assumption | with_reducible apply keeps_modTwin | with_reducible apply keeps_foldl
      | with_reducible apply keeps_foldl2 | with_reducible apply keepsA_next | extract_lets | split | intro _
      | (dsimp +zetaDelta -zeta only))

theorem keeps_execSpmIdx (p : Port) (c : ClusterId) (v : Word) {s : State} (hs : Keeps own s0 s) : KeepsA own s0 (execSpmIdx p c v s) := by
  unfold execSpmIdx
  repeat' (first
      | with_reducible assumption | with_reducible apply keeps_modPort | with_reducible apply keeps_via
      | with_reducible apply keeps_foldl | with_reducible apply keeps_foldl2 | with_reducible apply keepsA_next
      | extract_lets | split | intro _ | (dsimp +zetaDelta -zeta only))

theorem keeps_execTickPeriod (p : Port) (v : Word) {s : State} (hs : Keeps own s0 s) : KeepsA own s0 (execTickPeriod p v s) := by
  unfold execTickPeriod
  repeat' (first
      | with_reducible assumption | with_reducible apply keeps_ownerOnly | with_reducible apply keeps_setPeriod
      | with_reducible apply keeps_foldl | with_reducible apply keeps_foldl2 | with_reducible apply keepsA_next
      | extract_lets | split | intro _ | (dsimp +zetaDelta -zeta only))

theorem keeps_execStRun (p : Port) (v : Word) {s : State} (hs : Keeps own s0 s) : KeepsA own s0 (execStRun p v s) := by
  unfold execStRun
  repeat' (first
      | with_reducible assumption | with_reducible apply keeps_modErr | with_reducible apply keeps_ownerOnly
      | with_reducible apply keeps_raise | with_reducible apply keeps_foldl | with_reducible apply keeps_foldl2
      | with_reducible apply keepsA_next | extract_lets | split | intro _ | (dsimp +zetaDelta -zeta only))

theorem keeps_execSeqRbAddr (p : Port) (c : CoreId) (v : Word) {s : State} (hs : Keeps own s0 s) : KeepsA own s0 (execSeqRbAddr p c v s) := by
  unfold execSeqRbAddr
  repeat' (first
      | with_reducible assumption | with_reducible apply keeps_modPort | with_reducible apply keeps_via
      | with_reducible apply keeps_foldl | with_reducible apply keeps_foldl2 | with_reducible apply keepsA_next
      | extract_lets | split | intro _ | (dsimp +zetaDelta -zeta only))

theorem keeps_writeHostRing (p : Port) (r : HostRing) (o : Nat) (v : Word) {s : State} (hs : Keeps own s0 s) : KeepsA own s0 (writeHostRing p r o v s) := by
  unfold writeHostRing
  repeat' (first
      | with_reducible assumption | with_reducible apply keeps_execHostRingBase
      | with_reducible apply keeps_execHostRingCfg | with_reducible apply keeps_foldl
      | with_reducible apply keeps_foldl2 | with_reducible apply keepsA_next
      | with_reducible refine keeps_of_next (by with_reducible assumption) ?_ | extract_lets | split | intro _
      | (dsimp +zetaDelta -zeta only))

theorem keeps_execSaveSettings (p : Port) {s : State} (hs : Keeps own s0 s) : KeepsA own s0 (execSaveSettings p s) := by
  unfold execSaveSettings
  repeat' (first
      | with_reducible assumption | with_reducible apply keeps_modFlash | with_reducible apply keeps_modUpd
      | with_reducible apply keeps_ownerOnly | with_reducible apply keeps_setUpdCmd
      | with_reducible apply keeps_foldl | with_reducible apply keeps_foldl2 | with_reducible apply keepsA_next
      | with_reducible rfl | extract_lets | split | intro _ | (dsimp +zetaDelta -zeta only))

theorem keeps_writeUpdCmd (p : Port) (v : Word) {s : State} (hs : Keeps own s0 s) : KeepsA own s0 (writeUpdCmd p v s) := by
  unfold writeUpdCmd
  repeat' (first
      | with_reducible assumption | with_reducible apply keeps_execAbort
      | with_reducible apply keeps_execActivate | with_reducible apply keeps_execConfirm
      | with_reducible apply keeps_execSaveSettings | with_reducible apply keeps_writeUpd
      | with_reducible apply keeps_foldl | with_reducible apply keeps_foldl2 | with_reducible apply keepsA_next
      | with_reducible refine keeps_of_next (by with_reducible assumption) ?_ | extract_lets | split | intro _
      | (dsimp +zetaDelta -zeta only))

theorem keeps_execTickMax (p : Port) (v : Word) {s : State} (hs : Keeps own s0 s) : KeepsA own s0 (execTickMax p v s) := by
  unfold execTickMax
  repeat' (first
      | with_reducible assumption | with_reducible apply keeps_ownerOnly | with_reducible apply keeps_setPeriod
      | with_reducible apply keeps_foldl | with_reducible apply keeps_foldl2 | with_reducible apply keepsA_next
      | extract_lets | split | intro _ | (dsimp +zetaDelta -zeta only))

theorem keeps_execWake (p : Port) {s : State} (hs : Keeps own s0 s) : KeepsA own s0 (execWake p s) := by
  unfold execWake
  repeat' (first
      | with_reducible assumption | with_reducible apply keeps_modPwr | with_reducible apply keeps_ownerOnly
      | with_reducible apply keeps_raise | with_reducible apply keeps_foldl | with_reducible apply keeps_foldl2
      | with_reducible apply keepsA_next | extract_lets | split | intro _ | (dsimp +zetaDelta -zeta only)
      | with_reducible refine keeps_mk ?_ (by first | exact Nat.le_refl _ | exact Nat.le_add_right _ _) rfl rfl rfl)

theorem keeps_execRingSize (p : Port) (c : CoreId) (q : Fin 16) (v : Word) {s : State} (hs : Keeps own s0 s) : KeepsA own s0 (execRingSize p c q v s) := by
  unfold execRingSize
  repeat' (first
      | with_reducible assumption | with_reducible apply keeps_ringWrite | with_reducible apply keeps_foldl
      | with_reducible apply keeps_foldl2 | with_reducible apply keepsA_next | extract_lets | split | intro _
      | (dsimp +zetaDelta -zeta only))

theorem keeps_execTrigger (p : Port) (check : Bool) {s : State} (hs : Keeps own s0 s) : KeepsA own s0 (execTrigger p check s) := by
  unfold execTrigger
  repeat' (first
      | with_reducible assumption | with_reducible apply keeps_rehCommand | with_reducible apply keeps_rehRefuse
      | with_reducible apply keeps_rehTrigger | with_reducible apply keeps_foldl
      | with_reducible apply keeps_foldl2 | with_reducible apply keepsA_next | extract_lets | split | intro _
      | (dsimp +zetaDelta -zeta only))

theorem keeps_execRehReplay (p : Port) (check : Bool) {s : State} (hs : Keeps own s0 s) : KeepsA own s0 (execRehReplay p check s) := by
  unfold execRehReplay
  repeat' (first
      | with_reducible assumption | with_reducible apply keeps_modReh | with_reducible apply keeps_rehCommand
      | with_reducible apply keeps_rehRefuse | with_reducible apply keeps_walkRecords
      | with_reducible apply keeps_foldl | with_reducible apply keeps_foldl2 | with_reducible apply keepsA_next
      | extract_lets | split | intro _ | (dsimp +zetaDelta -zeta only))

theorem keeps_writeRehCmd (p : Port) (v : Word) {s : State} (hs : Keeps own s0 s) : KeepsA own s0 (writeRehCmd p v s) := by
  unfold writeRehCmd
  repeat' (first
      | with_reducible assumption | with_reducible apply keeps_execReadout
      | with_reducible apply keeps_execRehReplay | with_reducible apply keeps_execTrigger
      | with_reducible apply keeps_writeReh | with_reducible apply keeps_foldl
      | with_reducible apply keeps_foldl2 | with_reducible apply keepsA_next
      | with_reducible refine keeps_of_next (by with_reducible assumption) ?_ | extract_lets | split | intro _
      | (dsimp +zetaDelta -zeta only))

theorem keeps_execSpmScrub (p : Port) (c : ClusterId) (v : Word) {s : State} (hs : Keeps own s0 s) : KeepsA own s0 (execSpmScrub p c v s) := by
  unfold execSpmScrub
  repeat' (first
      | with_reducible assumption | with_reducible apply keeps_modClu | with_reducible apply keeps_ownerOnly
      | with_reducible apply keeps_raise | with_reducible apply keeps_foldl | with_reducible apply keeps_foldl2
      | with_reducible apply keepsA_next | extract_lets | split | intro _ | (dsimp +zetaDelta -zeta only))

theorem keeps_execTwinMidx (p : Port) (v : Word) {s : State} (hs : Keeps own s0 s) : KeepsA own s0 (execTwinMidx p v s) := by
  unfold execTwinMidx
  repeat' (first
      | with_reducible assumption | with_reducible apply keeps_modPort | with_reducible apply keeps_via
      | with_reducible apply keeps_foldl | with_reducible apply keeps_foldl2 | with_reducible apply keepsA_next
      | extract_lets | split | intro _ | (dsimp +zetaDelta -zeta only))

theorem keeps_execRingBase (p : Port) (c : CoreId) (q : Fin 16) (v : Word) {s : State} (hs : Keeps own s0 s) : KeepsA own s0 (execRingBase p c q v s) := by
  unfold execRingBase
  repeat' (first
      | with_reducible assumption | with_reducible apply keeps_ringWrite | with_reducible apply keeps_foldl
      | with_reducible apply keeps_foldl2 | with_reducible apply keepsA_next | extract_lets | split | intro _
      | (dsimp +zetaDelta -zeta only))

theorem keeps_execSlotPidx (p : Port) (v : Word) {s : State} (hs : Keeps own s0 s) : KeepsA own s0 (execSlotPidx p v s) := by
  unfold execSlotPidx
  repeat' (first
      | with_reducible assumption | with_reducible apply keeps_modPort | with_reducible apply keeps_via
      | with_reducible apply keeps_foldl | with_reducible apply keeps_foldl2 | with_reducible apply keepsA_next
      | extract_lets | split | intro _ | (dsimp +zetaDelta -zeta only))

theorem keeps_execWinClose (p : Port) (w : Fin 64) (gate : Bool) {s : State} (hs : Keeps own s0 s) : KeepsA own s0 (execWinClose p w gate s) := by
  unfold execWinClose
  repeat' (first
      | with_reducible assumption | with_reducible apply keeps_closeWindow | with_reducible apply keeps_modWindow
      | with_reducible apply keeps_ownerOnly | with_reducible apply keeps_raise
      | with_reducible apply keeps_winCommand | with_reducible apply keeps_foldl
      | with_reducible apply keeps_foldl2 | with_reducible apply keepsA_next | extract_lets | split | intro _
      | (dsimp +zetaDelta -zeta only))

theorem keeps_execWinOpen (p : Port) (w : Fin 64) (gate : Bool) {s : State} (hs : Keeps own s0 s) : KeepsA own s0 (execWinOpen p w gate s) := by
  unfold execWinOpen
  repeat' (first
      | with_reducible assumption | with_reducible apply keeps_modWindow | with_reducible apply keeps_openWindow
      | with_reducible apply keeps_ownerOnly | with_reducible apply keeps_raise
      | with_reducible apply keeps_winCommand | with_reducible apply keeps_foldl
      | with_reducible apply keeps_foldl2 | with_reducible apply keepsA_next | extract_lets | split | intro _
      | (dsimp +zetaDelta -zeta only))

theorem keeps_writeWinCmd (p : Port) (w : Nat) (v : Word) {s : State} (hs : Keeps own s0 s) : KeepsA own s0 (writeWinCmd p w v s) := by
  unfold writeWinCmd
  repeat' (first
      | with_reducible assumption | with_reducible apply keeps_execWinClose
      | with_reducible apply keeps_execWinOpen | with_reducible apply keeps_ownerOnly
      | with_reducible apply keeps_winCommand | with_reducible apply keeps_foldl
      | with_reducible apply keeps_foldl2 | with_reducible apply keepsA_next
      | with_reducible refine keeps_of_next (by with_reducible assumption) ?_ | extract_lets | split | intro _
      | (dsimp +zetaDelta -zeta only))

theorem keeps_execRingCfg (p : Port) (c : CoreId) (q : Fin 16) (v : Word) {s : State} (hs : Keeps own s0 s) : KeepsA own s0 (execRingCfg p c q v s) := by
  unfold execRingCfg
  repeat' (first
      | with_reducible assumption | with_reducible apply keeps_ringWrite | with_reducible apply keeps_foldl
      | with_reducible apply keeps_foldl2 | with_reducible apply keepsA_next | extract_lets | split | intro _
      | (dsimp +zetaDelta -zeta only))

theorem keeps_execToken (p : Port) (len : BitVec 16) {s : State} (hs : Keeps false s0 s) : KeepsA false s0 (execToken p len s) := by
  refine keepsA_next (keeps_ownerOnly p _ hs fun _ h => keeps_mbxStart p 4 _ _ h fun t h => ?_)
  have h' : Keeps false s0 { t with sec := { t.sec with chal := none } } := ⟨h.mem, h.queue, h.variant, h.free, h.owner⟩
  dsimp only
  split
  · dsimp only; exact keeps_modFlash_any _ h'
  · dsimp only; exact keeps_drawWord (keeps_raise _ _ _ _ h')

theorem keeps_writeMbxCmd (p : Port) (v : Word) {s : State} (hs : Keeps false s0 s) : KeepsA false s0 (writeMbxCmd p v s) := by
  unfold writeMbxCmd
  repeat' (first
      | with_reducible assumption | with_reducible apply keeps_execAttest | with_reducible apply keeps_execCert
      | with_reducible apply keeps_execChallenge | with_reducible apply keeps_execEnroll
      | with_reducible apply keeps_execLock | with_reducible apply keeps_execToken
      | with_reducible apply keeps_writeSec | with_reducible apply keeps_foldl
      | with_reducible apply keeps_foldl2 | with_reducible apply keepsA_next
      | with_reducible refine keeps_of_next (by with_reducible assumption) ?_ | extract_lets | split | intro _
      | (dsimp +zetaDelta -zeta only))

theorem keeps_execStkLidx (p : Port) (k : Fin 16) (v : Word) {s : State} (hs : Keeps own s0 s) : KeepsA own s0 (execStkLidx p k v s) := by
  unfold execStkLidx
  repeat' (first
      | with_reducible assumption | with_reducible apply keeps_modPort | with_reducible apply keeps_via
      | with_reducible apply keeps_foldl | with_reducible apply keeps_foldl2 | with_reducible apply keepsA_next
      | extract_lets | split | intro _ | (dsimp +zetaDelta -zeta only))

theorem keeps_writeBar0 (p : Port) (off : Nat) (v : Word) {s : State} (hs : Keeps false s0 s) : KeepsA false s0 (writeBar0 p off v s) := by
  unfold writeBar0
  repeat' (first
      | with_reducible assumption | with_reducible apply keeps_execAdopt | with_reducible apply keeps_execClaim
      | with_reducible apply keeps_execClrSticky | with_reducible apply keeps_execEngRbAddr
      | with_reducible apply keeps_execErrFirstClr | with_reducible apply keeps_execGateRequest
      | with_reducible apply keeps_execHostHeartbeat | with_reducible apply keeps_execInjArm
      | with_reducible apply keeps_execInjDisarm | with_reducible apply keeps_execOffer
      | with_reducible apply keeps_execPark | with_reducible apply keeps_execRingBase
      | with_reducible apply keeps_execRingCfg | with_reducible apply keeps_execRingSize
      | with_reducible apply keeps_execSeqRbAddr | with_reducible apply keeps_execSlotPidx
      | with_reducible apply keeps_execSpmIdx | with_reducible apply keeps_execSpmScrub
      | with_reducible apply keeps_execStRun | with_reducible apply keeps_execStkLidx
      | with_reducible apply keeps_execTickMax | with_reducible apply keeps_execTickPeriod
      | with_reducible apply keeps_execTwinMidx | with_reducible apply keeps_execWake
      | with_reducible apply keeps_writeClu | with_reducible apply keeps_writeEng
      | with_reducible apply keeps_writeErr | with_reducible apply keeps_writeHost
      | with_reducible apply keeps_writeHostRing | with_reducible apply keeps_writeLnk
      | with_reducible apply keeps_writeMbxCmd | with_reducible apply keeps_writeOcv
      | with_reducible apply keeps_writeOut | with_reducible apply keeps_writePrec
      | with_reducible apply keeps_writePwr | with_reducible apply keeps_writeReh
      | with_reducible apply keeps_writeRehCmd | with_reducible apply keeps_writeRing
      | with_reducible apply keeps_writeRoute | with_reducible apply keeps_writeSec
      | with_reducible apply keeps_writeSeq | with_reducible apply keeps_writeStk
      | with_reducible apply keeps_writeUpd | with_reducible apply keeps_writeUpdCmd
      | with_reducible apply keeps_writeWin | with_reducible apply keeps_writeWinCmd
      | with_reducible apply keeps_writeWindow | with_reducible apply keeps_foldl
      | with_reducible apply keeps_foldl2 | with_reducible apply keepsA_next
      | with_reducible refine keeps_of_next (by with_reducible assumption) ?_ | extract_lets | split | intro _
      | (dsimp +zetaDelta -zeta only))

theorem keeps_writeBar2 (p : Port) (off : Nat) (v : Word) {s : State} (hs : Keeps own s0 s) : KeepsA own s0 (writeBar2 p off v s) := by
  unfold writeBar2
  repeat' (first
      | with_reducible assumption | with_reducible apply keeps_execDbAdmTail
      | with_reducible apply keeps_execDbCmdTail | with_reducible apply keeps_execDbEvtHead
      | with_reducible apply keeps_execDbResHead | with_reducible apply keeps_modPort
      | with_reducible apply keeps_via | with_reducible apply keeps_foldl | with_reducible apply keeps_foldl2
      | with_reducible apply keepsA_next | with_reducible refine keeps_of_next (by with_reducible assumption) ?_
      | extract_lets | split | intro _ | (dsimp +zetaDelta -zeta only))

theorem keeps_execRegisterWrite (p : Port) (bar2 : Bool) (off : BitVec 28) (v : Word) {s : State} (hs : Keeps false s0 s) : KeepsA false s0 (execRegisterWrite p bar2 off v s) := by
  unfold execRegisterWrite
  repeat' (first
      | with_reducible assumption | with_reducible apply keeps_writeBar0 | with_reducible apply keeps_writeBar2
      | with_reducible apply keeps_foldl | with_reducible apply keeps_foldl2 | with_reducible apply keepsA_next
      | with_reducible refine keeps_of_next (by with_reducible assumption) ?_ | extract_lets | split | intro _
      | (dsimp +zetaDelta -zeta only))

theorem keeps_execRegrd (off : BitVec 32) {s : State} (hs : Keeps own s0 s) : KeepsA own s0 (execRegrd off s) := by
  unfold execRegrd
  repeat' (first
      | with_reducible assumption | with_reducible apply keeps_answer | with_reducible apply keeps_modTap
      | with_reducible apply keeps_regrdWord | with_reducible apply keeps_foldl
      | with_reducible apply keeps_foldl2 | with_reducible apply keepsA_next | extract_lets | split | intro _
      | (dsimp +zetaDelta -zeta only))

theorem keeps_execRehSpill {s : State} (hs : Keeps own s0 s) : KeepsA own s0 (execRehSpill s) := by
  unfold execRehSpill
  repeat' (first
      | with_reducible assumption | with_reducible apply keeps_modFlash | with_reducible apply keeps_modReh
      | with_reducible apply keeps_foldl | with_reducible apply keeps_foldl2 | with_reducible apply keepsA_next
      | with_reducible rfl | extract_lets | split | intro _ | (dsimp +zetaDelta -zeta only))

theorem keeps_execRehSpilled {s : State} (hs : Keeps own s0 s) : KeepsA own s0 (execRehSpilled s) := by
  unfold execRehSpilled
  repeat' (first
      | with_reducible assumption | with_reducible apply keeps_modFlash | with_reducible apply keeps_modReh
      | with_reducible apply keeps_raise | with_reducible apply keeps_readEntries
      | with_reducible apply keeps_foldl | with_reducible apply keeps_foldl2 | with_reducible apply keepsA_next
      | with_reducible rfl | extract_lets | split | intro _ | (dsimp +zetaDelta -zeta only))

theorem keeps_execRehTrigPin (pin : Fin 4) {s : State} (hs : Keeps own s0 s) : KeepsA own s0 (execRehTrigPin pin s) := by
  unfold execRehTrigPin
  repeat' (first
      | with_reducible assumption | with_reducible apply keeps_gpLevel | with_reducible apply keeps_rehTrigger
      | with_reducible apply keeps_foldl | with_reducible apply keeps_foldl2 | with_reducible apply keepsA_next
      | extract_lets | split | intro _ | (dsimp +zetaDelta -zeta only))

theorem keeps_execReplay (lp : Fin 8) (seq : BitVec 12) {s : State} (hs : Keeps own s0 s) : KeepsA own s0 (execReplay lp seq s) := by
  unfold execReplay
  repeat' (first
      | with_reducible assumption | with_reducible apply keeps_modLnk | with_reducible apply keeps_portDown
      | with_reducible apply keeps_send | with_reducible apply keeps_takeAck | with_reducible apply keeps_foldl
      | with_reducible apply keeps_foldl2 | with_reducible apply keepsA_next | extract_lets | split | intro _
      | (dsimp +zetaDelta -zeta only))

theorem keeps_execReplayDone {s : State} (hs : Keeps own s0 s) : KeepsA own s0 (execReplayDone s) := by
  unfold execReplayDone
  repeat' (first
      | with_reducible assumption | with_reducible apply keeps_dropSlots | with_reducible apply keeps_modPwr
      | with_reducible apply keeps_modReh | with_reducible apply keeps_raise | with_reducible apply keeps_foldl
      | with_reducible apply keeps_foldl2 | with_reducible apply keepsA_next | extract_lets | split | intro _
      | (dsimp +zetaDelta -zeta only)
      | with_reducible refine keeps_mk ?_ (by first | exact Nat.le_refl _ | exact Nat.le_add_right _ _) rfl rfl rfl)

theorem keeps_execRestart (p : Port) (env : BootEnv) {s : State} (hs : Keeps own s0 s) : KeepsA own s0 (execRestart p env s) := by
  unfold execRestart
  repeat' (first
      | with_reducible assumption | with_reducible apply keeps_coldStart | with_reducible apply keeps_modPort
      | with_reducible apply keeps_ownerOnly | with_reducible apply keeps_setUpdCmd
      | with_reducible apply keeps_foldl | with_reducible apply keeps_foldl2 | with_reducible apply keepsA_next
      | extract_lets | split | intro _ | (dsimp +zetaDelta -zeta only))

theorem keeps_execResultWrite {s : State} (hs : Keeps own s0 s) : KeepsA own s0 (execResultWrite s) := by
  unfold execResultWrite
  repeat' (first
      | with_reducible assumption | with_reducible apply keeps_hostWrite | with_reducible apply keeps_modHost
      | with_reducible apply keeps_msix | with_reducible apply keeps_foldl | with_reducible apply keeps_foldl2
      | with_reducible apply keepsA_next | extract_lets | split | intro _ | (dsimp +zetaDelta -zeta only))

theorem keeps_execRingEntry (lp : Fin 8) (h : FlitHdr) (e : LinkEntry) {s : State} (hs : Keeps own s0 s) : KeepsA own s0 (execRingEntry lp h e s) := by
  unfold execRingEntry
  repeat' (first
      | with_reducible assumption | with_reducible apply keeps_deliverLink | with_reducible apply keeps_modLnk
      | with_reducible apply keeps_raise | with_reducible apply keeps_sharedFault
      | with_reducible apply keeps_takeFlits | with_reducible apply keeps_foldl
      | with_reducible apply keeps_foldl2 | with_reducible apply keepsA_next
      | with_reducible refine keeps_of_lost (by with_reducible assumption) ?_
      | with_reducible refine keeps_of_here (by with_reducible assumption) ?_ | extract_lets | split | intro _
      | (dsimp +zetaDelta -zeta only))

theorem keeps_execRingRead (cmdRing : Bool) {s : State} (hs : Keeps own s0 s) : KeepsA own s0 (execRingRead cmdRing s) := by
  unfold execRingRead
  repeat' (first
      | with_reducible assumption | with_reducible apply keeps_modHost | with_reducible apply keeps_raise
      | with_reducible apply keeps_foldl | with_reducible apply keeps_foldl2 | with_reducible apply keepsA_next
      | extract_lets | split | intro _ | (dsimp +zetaDelta -zeta only))

theorem keeps_execRmsn (c : ClusterId) {s : State} (hs : Keeps own s0 s) : KeepsA own s0 (execRmsn c s) := by
  unfold execRmsn
  repeat' (first
      | with_reducible assumption | with_reducible apply keeps_runSvu | with_reducible apply keeps_svuRows
      | with_reducible apply keeps_foldl | with_reducible apply keeps_foldl2 | with_reducible apply keepsA_next
      | extract_lets | split | intro _ | (dsimp +zetaDelta -zeta only))

theorem keeps_execRowsumStep (c : CoreId) (e : Fin 16) {s : State} (hs : Keeps own s0 s) : KeepsA own s0 (execRowsumStep c e s) := by
  unfold execRowsumStep
  repeat' (first
      | with_reducible assumption | with_reducible apply keeps_modCore | with_reducible apply keeps_modEng
      | with_reducible apply keeps_foldl | with_reducible apply keeps_foldl2 | with_reducible apply keepsA_next
      | extract_lets | split | intro _ | (dsimp +zetaDelta -zeta only))

theorem keeps_execSamp (c : ClusterId) {s : State} (hs : Keeps own s0 s) : KeepsA own s0 (execSamp c s) := by
  unfold execSamp
  repeat' (first
      | with_reducible assumption | with_reducible apply keeps_runSvu | with_reducible apply keeps_svuWrite
      | with_reducible apply keeps_foldl | with_reducible apply keeps_foldl2 | with_reducible apply keepsA_next
      | extract_lets | split | intro _ | (dsimp +zetaDelta -zeta only))

theorem keeps_execSamplePreload {s : State} (hs : Keeps own s0 s) : KeepsA own s0 (execSamplePreload s) := by
  unfold execSamplePreload
  repeat' (first
      | with_reducible assumption | with_reducible apply keeps_modTap | with_reducible apply keeps_foldl
      | with_reducible apply keeps_foldl2 | with_reducible apply keepsA_next | extract_lets | split | intro _
      | (dsimp +zetaDelta -zeta only))

theorem keeps_execSbRetire (c : CoreId) (entry : Fin 16) {s : State} (hs : Keeps own s0 s) : KeepsA own s0 (execSbRetire c entry s) := by
  unfold execSbRetire
  repeat' (first
      | with_reducible assumption | with_reducible apply keeps_modCore | with_reducible apply keeps_foldl
      | with_reducible apply keeps_foldl2 | with_reducible apply keepsA_next | extract_lets | split | intro _
      | (dsimp +zetaDelta -zeta only))

theorem keeps_execScatterMerge (c : ClusterId) {s : State} (hs : Keeps own s0 s) : KeepsA own s0 (execScatterMerge c s) := by
  unfold execScatterMerge
  repeat' (first
      | with_reducible assumption | with_reducible apply keeps_modClu | with_reducible apply keeps_pushMerged
      | with_reducible apply keeps_raise | with_reducible apply keeps_foldl | with_reducible apply keeps_foldl2
      | with_reducible apply keepsA_next | extract_lets | split | intro _ | (dsimp +zetaDelta -zeta only))

theorem keeps_execScrubDone (r : Region) {s : State} (hs : Keeps own s0 s) : KeepsA own s0 (execScrubDone r s) := by
  unfold execScrubDone
  repeat' (first
      | with_reducible assumption | with_reducible apply keeps_modClu | with_reducible apply keeps_zeroRegion
      | with_reducible apply keeps_foldl | with_reducible apply keeps_foldl2 | with_reducible apply keepsA_next
      | extract_lets | split | intro _ | (dsimp +zetaDelta -zeta only))

theorem keeps_execSeed (c : CoreId) {s : State} (hs : Keeps own s0 s) : KeepsA own s0 (execSeed c s) := by
  unfold execSeed
  repeat' (first
      | with_reducible assumption | with_reducible apply keeps_issued | with_reducible apply keeps_modSeq
      | with_reducible apply keeps_runSeq | with_reducible apply keeps_foldl | with_reducible apply keeps_foldl2
      | with_reducible apply keepsA_next | extract_lets | split | intro _ | (dsimp +zetaDelta -zeta only))

theorem keeps_execSeqEnd (c : CoreId) {s : State} (hs : Keeps own s0 s) : KeepsA own s0 (execSeqEnd c s) := by
  unfold execSeqEnd
  repeat' (first
      | with_reducible assumption | with_reducible apply keeps_endBound | with_reducible apply keeps_issued
      | with_reducible apply keeps_modCore | with_reducible apply keeps_modSeq
      | with_reducible apply keeps_modSparse | with_reducible apply keeps_runSeq
      | with_reducible apply keeps_waitAt | with_reducible apply keeps_foldl | with_reducible apply keeps_foldl2
      | with_reducible apply keepsA_next | extract_lets | split | intro _ | (dsimp +zetaDelta -zeta only))

theorem keeps_execSeqIllegal (c : CoreId) {s : State} (hs : Keeps own s0 s) : KeepsA own s0 (execSeqIllegal c s) := by
  unfold execSeqIllegal
  repeat' (first
      | with_reducible assumption | with_reducible apply keeps_seqStop | with_reducible apply keeps_foldl
      | with_reducible apply keeps_foldl2 | with_reducible apply keepsA_next | extract_lets | split | intro _
      | (dsimp +zetaDelta -zeta only))

theorem keeps_execSeqImemParity (c : CoreId) {s : State} (hs : Keeps own s0 s) : KeepsA own s0 (execSeqImemParity c s) := by
  unfold execSeqImemParity
  repeat' (first
      | with_reducible assumption | with_reducible apply keeps_seqStop | with_reducible apply keeps_foldl
      | with_reducible apply keeps_foldl2 | with_reducible apply keepsA_next | extract_lets | split | intro _
      | (dsimp +zetaDelta -zeta only))

theorem keeps_execSmax (c : ClusterId) {s : State} (hs : Keeps own s0 s) : KeepsA own s0 (execSmax c s) := by
  unfold execSmax
  repeat' (first
      | with_reducible assumption | with_reducible apply keeps_runSvu | with_reducible apply keeps_svuRows
      | with_reducible apply keeps_foldl | with_reducible apply keeps_foldl2 | with_reducible apply keepsA_next
      | extract_lets | split | intro _ | (dsimp +zetaDelta -zeta only))

theorem keeps_execSmbAlertResponse {s : State} (hs : Keeps own s0 s) : KeepsA own s0 (execSmbAlertResponse s) := by
  unfold execSmbAlertResponse
  repeat' (first
      | with_reducible assumption | with_reducible apply keeps_answer | with_reducible apply keeps_modPwr
      | with_reducible apply keeps_foldl | with_reducible apply keeps_foldl2 | with_reducible apply keepsA_next
      | extract_lets | split | intro _ | (dsimp +zetaDelta -zeta only))

theorem keeps_execSmbInputPower {s : State} (hs : Keeps own s0 s) : KeepsA own s0 (execSmbInputPower s) := by
  unfold execSmbInputPower
  repeat' (first
      | with_reducible assumption | with_reducible apply keeps_answer | with_reducible apply keeps_foldl
      | with_reducible apply keeps_foldl2 | with_reducible apply keepsA_next | extract_lets | split | intro _
      | (dsimp +zetaDelta -zeta only))

theorem keeps_execSmbLastEvent {s : State} (hs : Keeps own s0 s) : KeepsA own s0 (execSmbLastEvent s) := by
  unfold execSmbLastEvent
  repeat' (first
      | with_reducible assumption | with_reducible apply keeps_answer | with_reducible apply keeps_foldl
      | with_reducible apply keeps_foldl2 | with_reducible apply keepsA_next | extract_lets | split | intro _
      | (dsimp +zetaDelta -zeta only))

theorem keeps_execSmbState {s : State} (hs : Keeps own s0 s) : KeepsA own s0 (execSmbState s) := by
  unfold execSmbState
  repeat' (first
      | with_reducible assumption | with_reducible apply keeps_answer | with_reducible apply keeps_foldl
      | with_reducible apply keeps_foldl2 | with_reducible apply keepsA_next | extract_lets | split | intro _
      | (dsimp +zetaDelta -zeta only))

theorem keeps_execSmbTj {s : State} (hs : Keeps own s0 s) : KeepsA own s0 (execSmbTj s) := by
  unfold execSmbTj
  repeat' (first
      | with_reducible assumption | with_reducible apply keeps_answer | with_reducible apply keeps_foldl
      | with_reducible apply keeps_foldl2 | with_reducible apply keepsA_next | extract_lets | split | intro _
      | (dsimp +zetaDelta -zeta only))

theorem keeps_execSmbVariant {s : State} (hs : Keeps own s0 s) : KeepsA own s0 (execSmbVariant s) := by
  unfold execSmbVariant
  repeat' (first
      | with_reducible assumption | with_reducible apply keeps_answer | with_reducible apply keeps_foldl
      | with_reducible apply keeps_foldl2 | with_reducible apply keepsA_next | extract_lets | split | intro _
      | (dsimp +zetaDelta -zeta only))

theorem keeps_execSmbVin {s : State} (hs : Keeps own s0 s) : KeepsA own s0 (execSmbVin s) := by
  unfold execSmbVin
  repeat' (first
      | with_reducible assumption | with_reducible apply keeps_answer | with_reducible apply keeps_foldl
      | with_reducible apply keeps_foldl2 | with_reducible apply keepsA_next | extract_lets | split | intro _
      | (dsimp +zetaDelta -zeta only))

theorem keeps_execSpareCopyDone (k : Fin 16) {s : State} (hs : Keeps own s0 s) : KeepsA own s0 (execSpareCopyDone k s) := by
  unfold execSpareCopyDone
  repeat' (first
      | with_reducible assumption | with_reducible apply keeps_modStk | with_reducible apply keeps_foldl
      | with_reducible apply keeps_foldl2 | with_reducible apply keepsA_next | extract_lets | split | intro _
      | (dsimp +zetaDelta -zeta only))

theorem keeps_execSpillCopyDone (d : Fin 4) {s : State} (hs : Keeps own s0 s) : KeepsA own s0 (execSpillCopyDone d s) := by
  unfold execSpillCopyDone
  repeat' (first
      | with_reducible assumption | with_reducible apply keeps_modKv | with_reducible apply keeps_readDev
      | with_reducible apply keeps_writeDev | with_reducible apply keeps_foldl
      | with_reducible apply keeps_foldl2 | with_reducible apply keepsA_next | extract_lets | split | intro _
      | (dsimp +zetaDelta -zeta only))

theorem keeps_execSpmPatrolRead (r : Region) {s : State} (hs : Keeps own s0 s) : KeepsA own s0 (execSpmPatrolRead r s) := by
  unfold execSpmPatrolRead
  repeat' (first
      | with_reducible assumption | with_reducible apply keeps_modClu | with_reducible apply keeps_readSpm
      | with_reducible apply keeps_foldl | with_reducible apply keeps_foldl2 | with_reducible apply keepsA_next
      | extract_lets | split | intro _ | (dsimp +zetaDelta -zeta only))

theorem keeps_execSquashResume {s : State} (hs : Keeps own s0 s) : KeepsA own s0 (execSquashResume s) := by
  unfold execSquashResume
  repeat' (first
      | with_reducible assumption | with_reducible apply keeps_squashRings | with_reducible apply keeps_foldl
      | with_reducible apply keeps_foldl2 | with_reducible apply keepsA_next | extract_lets | split | intro _
      | (dsimp +zetaDelta -zeta only)
      | with_reducible refine keeps_mk ?_ (by first | exact Nat.le_refl _ | exact Nat.le_add_right _ _) rfl rfl rfl)

theorem keeps_execStDone (fail : Option (BitVec 4 × BitVec 16)) {s : State} (hs : Keeps own s0 s) : KeepsA own s0 (execStDone fail s) := by
  unfold execStDone
  repeat' (first
      | with_reducible assumption | with_reducible apply keeps_goSafe | with_reducible apply keeps_raise
      | with_reducible apply keeps_selfTestClear | with_reducible apply keeps_selfTestFailed
      | with_reducible apply keeps_selfTestPassed | with_reducible apply keeps_foldl
      | with_reducible apply keeps_foldl2 | with_reducible apply keepsA_next | extract_lets | split | intro _
      | (dsimp +zetaDelta -zeta only))

theorem keeps_execStageCfg (p : Port) (img : CfgImage) {s : State} (hs : Keeps own s0 s) : KeepsA own s0 (execStageCfg p img s) := by
  unfold execStageCfg
  repeat' (first
      | with_reducible assumption | with_reducible apply keeps_ownerOnly | with_reducible apply keeps_setUpdCmd
      | with_reducible apply keeps_startStaging | with_reducible apply keeps_updRefuse
      | with_reducible apply keeps_foldl | with_reducible apply keeps_foldl2 | with_reducible apply keepsA_next
      | extract_lets | split | intro _ | (dsimp +zetaDelta -zeta only))

theorem keeps_execStageFw (p : Port) (img : FwImage) {s : State} (hs : Keeps own s0 s) : KeepsA own s0 (execStageFw p img s) := by
  unfold execStageFw
  repeat' (first
      | with_reducible assumption | with_reducible apply keeps_ownerOnly | with_reducible apply keeps_setUpdCmd
      | with_reducible apply keeps_startStaging | with_reducible apply keeps_updRefuse
      | with_reducible apply keeps_foldl | with_reducible apply keeps_foldl2 | with_reducible apply keepsA_next
      | extract_lets | split | intro _ | (dsimp +zetaDelta -zeta only))

theorem keeps_execStat (c : CoreId) {s : State} (hs : Keeps own s0 s) : KeepsA own s0 (execStat c s) := by
  unfold execStat
  repeat' (first
      | with_reducible assumption | with_reducible apply keeps_destFault | with_reducible apply keeps_issued
      | with_reducible apply keeps_modLast | with_reducible apply keeps_modSeq
      | with_reducible apply keeps_modShare | with_reducible apply keeps_pushConv
      | with_reducible apply keeps_reachFault | with_reducible apply keeps_readSource
      | with_reducible apply keeps_report | with_reducible apply keeps_ringFault
      | with_reducible apply keeps_runSeq | with_reducible apply keeps_waitAt | with_reducible apply keeps_withSb
      | with_reducible apply keeps_writeDev | with_reducible apply keeps_foldl
      | with_reducible apply keeps_foldl2 | with_reducible apply keepsA_next
      | with_reducible refine keeps_of_some (by with_reducible assumption) ?_ | with_reducible apply keepsO_none
      | with_reducible apply keepsO_findSome | extract_lets | split | intro _ | (dsimp +zetaDelta -zeta only))

theorem keeps_execStatusMessage (lp : Fin 8) (h : FlitHdr) (m : StepMsg) {s : State} (hs : Keeps own s0 s) : KeepsA own s0 (execStatusMessage lp h m s) := by
  unfold execStatusMessage
  repeat' (first
      | with_reducible assumption | with_reducible apply keeps_faultMismatched
      | with_reducible apply keeps_modTick | with_reducible apply keeps_raise
      | with_reducible apply keeps_recvCtrl | with_reducible apply keeps_foldl
      | with_reducible apply keeps_foldl2 | with_reducible apply keepsA_next | extract_lets | split | intro _
      | (dsimp +zetaDelta -zeta only))

theorem keeps_execStkPatrolRead (k : Fin 16) {s : State} (hs : Keeps own s0 s) : KeepsA own s0 (execStkPatrolRead k s) := by
  unfold execStkPatrolRead
  repeat' (first
      | with_reducible assumption | with_reducible apply keeps_granuleRead | with_reducible apply keeps_modStk
      | with_reducible apply keeps_foldl | with_reducible apply keeps_foldl2 | with_reducible apply keepsA_next
      | extract_lets | split | intro _ | (dsimp +zetaDelta -zeta only))

theorem keeps_execStkRefresh (k : Fin 16) (temp : BitVec 8) {s : State} (hs : Keeps own s0 s) : KeepsA own s0 (execStkRefresh k temp s) := by
  unfold execStkRefresh
  repeat' (first
      | with_reducible assumption | with_reducible apply keeps_modStk | with_reducible apply keeps_foldl
      | with_reducible apply keeps_foldl2 | with_reducible apply keepsA_next | extract_lets | split | intro _
      | (dsimp +zetaDelta -zeta only))

theorem keeps_execStore (e : List Byte) {s : State} (hs : Keeps own s0 s) : KeepsA own s0 (execStore e s) := by
  unfold execStore
  repeat' (first
      | with_reducible assumption | with_reducible apply keeps_hostWrite | with_reducible apply keeps_readEach
      | with_reducible apply keeps_runCmd | with_reducible apply keeps_foldl | with_reducible apply keeps_foldl2
      | with_reducible apply keepsA_next | extract_lets | split | intro _ | (dsimp +zetaDelta -zeta only))

theorem keeps_execSts (c : CoreId) {s : State} (hs : Keeps own s0 s) : KeepsA own s0 (execSts c s) := by
  unfold execSts
  repeat' (first
      | with_reducible assumption | with_reducible apply keeps_issued | with_reducible apply keeps_reachFault
      | with_reducible apply keeps_runSeq | with_reducible apply keeps_withSb
      | with_reducible apply keeps_writeDev | with_reducible apply keeps_foldl
      | with_reducible apply keeps_foldl2 | with_reducible apply keepsA_next | extract_lets | split | intro _
      | (dsimp +zetaDelta -zeta only))

theorem keeps_execSupplyLoss (mv10 : BitVec 16) {s : State} (hs : Keeps own s0 s) : KeepsA own s0 (execSupplyLoss mv10 s) := by
  unfold execSupplyLoss
  repeat' (first
      | with_reducible assumption | with_reducible apply keeps_modPwr | with_reducible apply keeps_powerOff
      | with_reducible apply keeps_foldl | with_reducible apply keeps_foldl2 | with_reducible apply keepsA_next
      | extract_lets | split | intro _ | (dsimp +zetaDelta -zeta only))

theorem keeps_execSupplyLower (c : ClusterId) {s : State} (hs : Keeps own s0 s) : KeepsA own s0 (execSupplyLower c s) := by
  unfold execSupplyLower
  repeat' (first
      | with_reducible assumption | with_reducible apply keeps_modClu | with_reducible apply keeps_modTick
      | with_reducible apply keeps_foldl | with_reducible apply keeps_foldl2 | with_reducible apply keepsA_next
      | extract_lets | split | intro _ | (dsimp +zetaDelta -zeta only))

theorem keeps_execSupplyRaise (c : ClusterId) {s : State} (hs : Keeps own s0 s) : KeepsA own s0 (execSupplyRaise c s) := by
  unfold execSupplyRaise
  repeat' (first
      | with_reducible assumption | with_reducible apply keeps_raiseSupply | with_reducible apply keeps_foldl
      | with_reducible apply keeps_foldl2 | with_reducible apply keepsA_next | extract_lets | split | intro _
      | (dsimp +zetaDelta -zeta only))

theorem keeps_execSupplyRange (mv10 : BitVec 16) {s : State} (hs : Keeps own s0 s) : KeepsA own s0 (execSupplyRange mv10 s) := by
  unfold execSupplyRange
  repeat' (first
      | with_reducible assumption | with_reducible apply keeps_modPwr | with_reducible apply keeps_raise
      | with_reducible apply keeps_foldl | with_reducible apply keeps_foldl2 | with_reducible apply keepsA_next
      | extract_lets | split | intro _ | (dsimp +zetaDelta -zeta only))

theorem keeps_execSvuAdd (c : ClusterId) {s : State} (hs : Keeps own s0 s) : KeepsA own s0 (execSvuAdd c s) := by
  unfold execSvuAdd
  repeat' (first
      | with_reducible assumption | with_reducible apply keeps_runSvu | with_reducible apply keeps_svuRows
      | with_reducible apply keeps_foldl | with_reducible apply keeps_foldl2 | with_reducible apply keepsA_next
      | extract_lets | split | intro _ | (dsimp +zetaDelta -zeta only))

theorem keeps_execSvuGate (c : ClusterId) {s : State} (hs : Keeps own s0 s) : KeepsA own s0 (execSvuGate c s) := by
  unfold execSvuGate
  repeat' (first
      | with_reducible assumption | with_reducible apply keeps_raise | with_reducible apply keeps_runSvu
      | with_reducible apply keeps_sharedFault | with_reducible apply keeps_svuRows
      | with_reducible apply keeps_foldl | with_reducible apply keeps_foldl2 | with_reducible apply keepsA_next
      | extract_lets | split | intro _ | (dsimp +zetaDelta -zeta only))

theorem keeps_execSvuMul (c : ClusterId) {s : State} (hs : Keeps own s0 s) : KeepsA own s0 (execSvuMul c s) := by
  unfold execSvuMul
  repeat' (first
      | with_reducible assumption | with_reducible apply keeps_runSvu | with_reducible apply keeps_svuRows
      | with_reducible apply keeps_foldl | with_reducible apply keeps_foldl2 | with_reducible apply keepsA_next
      | extract_lets | split | intro _ | (dsimp +zetaDelta -zeta only))

theorem keeps_execTadd (c : CoreId) {s : State} (hs : Keeps own s0 s) : KeepsA own s0 (execTadd c s) := by
  unfold execTadd
  repeat' (first
      | with_reducible assumption | with_reducible apply keeps_issued | with_reducible apply keeps_modSeq
      | with_reducible apply keeps_runSeq | with_reducible apply keeps_foldl | with_reducible apply keeps_foldl2
      | with_reducible apply keepsA_next | extract_lets | split | intro _ | (dsimp +zetaDelta -zeta only))

theorem keeps_execTapReset {s : State} (hs : Keeps own s0 s) : KeepsA own s0 (execTapReset s) := by
  unfold execTapReset
  repeat' (first
      | with_reducible assumption | with_reducible apply keeps_foldl | with_reducible apply keeps_foldl2
      | with_reducible apply keepsA_next | extract_lets | split | intro _ | (dsimp +zetaDelta -zeta only)
      | with_reducible refine keeps_mk ?_ (by first | exact Nat.le_refl _ | exact Nat.le_add_right _ _) rfl rfl rfl)

theorem keeps_execTickInEdge (at_ : Nat) (highNs : Nat) (lowNs : Nat) {s : State} (hs : Keeps own s0 s) : KeepsA own s0 (execTickInEdge at_ highNs lowNs s) := by
  unfold execTickInEdge
  repeat' (first
      | with_reducible assumption | with_reducible apply keeps_modPin | with_reducible apply keeps_takeCue
      | with_reducible apply keeps_foldl | with_reducible apply keeps_foldl2 | with_reducible apply keepsA_next
      | extract_lets | split | intro _ | (dsimp +zetaDelta -zeta only))

theorem keeps_execTickMaxExpiry (at_ : Nat) {s : State} (hs : Keeps own s0 s) : KeepsA own s0 (execTickMaxExpiry at_ s) := by
  unfold execTickMaxExpiry
  repeat' (first
      | with_reducible assumption | with_reducible apply keeps_abandonTick | with_reducible apply keeps_raise
      | with_reducible apply keeps_foldl | with_reducible apply keeps_foldl2 | with_reducible apply keepsA_next
      | extract_lets | split | intro _ | (dsimp +zetaDelta -zeta only))

theorem keeps_execTimerCue (at_ : Nat) {s : State} (hs : Keeps own s0 s) : KeepsA own s0 (execTimerCue at_ s) := by
  unfold execTimerCue
  repeat' (first
      | with_reducible assumption | with_reducible apply keeps_modTick | with_reducible apply keeps_takeCue
      | with_reducible apply keeps_foldl | with_reducible apply keeps_foldl2 | with_reducible apply keepsA_next
      | extract_lets | split | intro _ | (dsimp +zetaDelta -zeta only))

theorem keeps_execTld (c : CoreId) {s : State} (hs : Keeps own s0 s) : KeepsA own s0 (execTld c s) := by
  unfold execTld
  with_reducible apply keepsA_next
  with_reducible apply keeps_runSeq
  · with_reducible assumption
  intro w s hs
  extract_lets a
  split
  · with_reducible apply keeps_reachFault; with_reducible assumption
  · with_reducible apply keeps_withSb
    · with_reducible assumption
    intro s hs
    extract_lets r
    split
    · with_reducible apply keeps_modSeq
      with_reducible apply keeps_issued
      with_reducible apply keeps_workRead
      with_reducible assumption
    · with_reducible apply keeps_issued
      with_reducible apply keeps_workRead
      with_reducible assumption

theorem keeps_execTopkMerge (c : ClusterId) {s : State} (hs : Keeps own s0 s) : KeepsA own s0 (execTopkMerge c s) := by
  unfold execTopkMerge
  repeat' (first
      | with_reducible assumption | with_reducible apply keeps_modClu | with_reducible apply keeps_pushMerged
      | with_reducible apply keeps_foldl | with_reducible apply keeps_foldl2 | with_reducible apply keepsA_next
      | extract_lets | split | intro _ | (dsimp +zetaDelta -zeta only))

theorem keeps_execTripRelease {s : State} (hs : Keeps own s0 s) : KeepsA own s0 (execTripRelease s) := by
  unfold execTripRelease
  repeat' (first
      | with_reducible assumption | with_reducible apply keeps_modPwr | with_reducible apply keeps_foldl
      | with_reducible apply keeps_foldl2 | with_reducible apply keepsA_next | extract_lets | split | intro _
      | (dsimp +zetaDelta -zeta only))

theorem keeps_execTwait (c : CoreId) {s : State} (hs : Keeps own s0 s) : KeepsA own s0 (execTwait c s) := by
  unfold execTwait
  repeat' (first
      | with_reducible assumption | with_reducible apply keeps_issued | with_reducible apply keeps_modSeq
      | with_reducible apply keeps_runSeq | with_reducible apply keeps_waitAt | with_reducible apply keeps_foldl
      | with_reducible apply keeps_foldl2 | with_reducible apply keepsA_next | extract_lets | split | intro _
      | (dsimp +zetaDelta -zeta only))

theorem keeps_execUpdStaged (readOk : Bool) {s : State} (hs : Keeps own s0 s) : KeepsA own s0 (execUpdStaged readOk s) := by
  unfold execUpdStaged
  repeat' (first
      | with_reducible assumption | with_reducible apply keeps_drawWord | with_reducible apply keeps_modFlash
      | with_reducible apply keeps_modUpd | with_reducible apply keeps_raise | with_reducible apply keeps_foldl
      | with_reducible apply keeps_foldl2 | with_reducible apply keepsA_next | with_reducible rfl
      | (simp only [Flash.setSlotCode_ownerKey]) | (simp only [Flash.setSlotCode_ownerLock]) | extract_lets
      | split | intro _ | (dsimp +zetaDelta -zeta only))

theorem keeps_execUsSample (c : CoreId) {s : State} (hs : Keeps own s0 s) : KeepsA own s0 (execUsSample c s) := by
  unfold execUsSample
  repeat' (first
      | with_reducible assumption | with_reducible apply keeps_drawWord | with_reducible apply keeps_modCore
      | with_reducible apply keeps_modEng | with_reducible apply keeps_modInv
      | with_reducible apply keeps_modSparse | with_reducible apply keeps_raise
      | with_reducible apply keeps_foldl | with_reducible apply keeps_foldl2 | with_reducible apply keepsA_next
      | extract_lets | split | intro _ | (dsimp +zetaDelta -zeta only))

theorem keeps_execVerdict (ord : BitVec 16) {s : State} (hs : Keeps own s0 s) : KeepsA own s0 (execVerdict ord s) := by
  unfold execVerdict
  repeat' (first
      | with_reducible assumption | with_reducible apply keeps_askRerun | with_reducible apply keeps_modLayer
      | with_reducible apply keeps_modPrec | with_reducible apply keeps_raise | with_reducible apply keeps_stand
      | with_reducible apply keeps_foldl | with_reducible apply keeps_foldl2 | with_reducible apply keepsA_next
      | extract_lets | split | intro _ | (dsimp +zetaDelta -zeta only))

theorem keeps_execWack (lp : Fin 8) (h : FlitHdr) (window : Fin 64) (epoch : BitVec 16) (_flits : Word) {s : State} (hs : Keeps own s0 s) : KeepsA own s0 (execWack lp h window epoch _flits s) := by
  unfold execWack
  repeat' (first
      | with_reducible assumption | with_reducible apply keeps_modTwin | with_reducible apply keeps_modWinDma
      | with_reducible apply keeps_recvCtrl | with_reducible apply keeps_sendTwin
      | with_reducible apply keeps_foldl | with_reducible apply keeps_foldl2 | with_reducible apply keepsA_next
      | extract_lets | split | intro _ | (dsimp +zetaDelta -zeta only))

theorem keeps_execWclosed (lp : Fin 8) (h : FlitHdr) (window : Fin 64) (_epoch : BitVec 16) {s : State} (hs : Keeps own s0 s) : KeepsA own s0 (execWclosed lp h window _epoch s) := by
  unfold execWclosed
  repeat' (first
      | with_reducible assumption | with_reducible apply keeps_modHandle | with_reducible apply keeps_recvCtrl
      | with_reducible apply keeps_foldl | with_reducible apply keeps_foldl2 | with_reducible apply keepsA_next
      | extract_lets | split | intro _ | (dsimp +zetaDelta -zeta only))

theorem keeps_execWfence (lp : Fin 8) (h : FlitHdr) (window : Fin 64) (epoch : BitVec 16) {s : State} (hs : Keeps own s0 s) : KeepsA own s0 (execWfence lp h window epoch s) := by
  unfold execWfence
  repeat' (first
      | with_reducible assumption | with_reducible apply keeps_modWindow | with_reducible apply keeps_recvCtrl
      | with_reducible apply keeps_sendRouted | with_reducible apply keeps_foldl
      | with_reducible apply keeps_foldl2 | with_reducible apply keepsA_next | extract_lets | split | intro _
      | (dsimp +zetaDelta -zeta only))

theorem keeps_execWinCloseDone (w : Fin 64) {s : State} (hs : Keeps own s0 s) : KeepsA own s0 (execWinCloseDone w s) := by
  unfold execWinCloseDone
  repeat' (first
      | with_reducible assumption | with_reducible apply keeps_drawWord | with_reducible apply keeps_modWindow
      | with_reducible apply keeps_openWindow | with_reducible apply keeps_refetchNext
      | with_reducible apply keeps_foldl | with_reducible apply keeps_foldl2 | with_reducible apply keepsA_next
      | extract_lets | split | intro _ | (dsimp +zetaDelta -zeta only))

theorem keeps_execWnak (lp : Fin 8) (h : FlitHdr) (window : Fin 64) (reason : BitVec 3) (epoch : BitVec 16) {s : State} (hs : Keeps own s0 s) : KeepsA own s0 (execWnak lp h window reason epoch s) := by
  unfold execWnak
  repeat' (first
      | with_reducible assumption | with_reducible apply keeps_modHandle | with_reducible apply keeps_modLnk
      | with_reducible apply keeps_modReh | with_reducible apply keeps_modTwin
      | with_reducible apply keeps_modWinDma | with_reducible apply keeps_raise
      | with_reducible apply keeps_recvCtrl | with_reducible apply keeps_sharedFault
      | with_reducible apply keeps_foldl | with_reducible apply keeps_foldl2 | with_reducible apply keepsA_next
      | extract_lets | split | intro _ | (dsimp +zetaDelta -zeta only))

theorem keeps_execWopen (lp : Fin 8) (h : FlitHdr) (window : Fin 64) (gate : Bool) (epoch : BitVec 16) (size : DWord) {s : State} (hs : Keeps own s0 s) : KeepsA own s0 (execWopen lp h window gate epoch size s) := by
  unfold execWopen
  repeat' (first
      | with_reducible assumption | with_reducible apply keeps_modHandle | with_reducible apply keeps_raise
      | with_reducible apply keeps_recvCtrl | with_reducible apply keeps_foldl
      | with_reducible apply keeps_foldl2 | with_reducible apply keepsA_next | extract_lets | split | intro _
      | (dsimp +zetaDelta -zeta only))

theorem keeps_execWwrite (lp : Fin 8) (h : FlitHdr) (m : WinWrite) {s : State} (hs : Keeps own s0 s) : KeepsA own s0 (execWwrite lp h m s) := by
  unfold execWwrite
  repeat' (first
      | with_reducible assumption | with_reducible apply keeps_deliverLink | with_reducible apply keeps_forward
      | with_reducible apply keeps_modWin | with_reducible apply keeps_modWindow
      | with_reducible apply keeps_refuseFlit | with_reducible apply keeps_takeFlits
      | with_reducible apply keeps_writeDev | with_reducible apply keeps_foldl
      | with_reducible apply keeps_foldl2 | with_reducible apply keepsA_next
      | with_reducible refine keeps_of_lost (by with_reducible assumption) ?_
      | with_reducible refine keeps_of_here (by with_reducible assumption) ?_ | extract_lets | split | intro _
      | (dsimp +zetaDelta -zeta only))

theorem keeps_execXport (c : CoreId) {s : State} (hs : Keeps own s0 s) : KeepsA own s0 (execXport c s) := by
  unfold execXport
  repeat' (first
      | with_reducible assumption | with_reducible apply keeps_destFault | with_reducible apply keeps_issued
      | with_reducible apply keeps_modLast | with_reducible apply keeps_modOcv
      | with_reducible apply keeps_modSeq | with_reducible apply keeps_ocvFault
      | with_reducible apply keeps_pushConv | with_reducible apply keeps_reachFault
      | with_reducible apply keeps_runSeq | with_reducible apply keeps_sampleTile
      | with_reducible apply keeps_skipInstr | with_reducible apply keeps_waitAt
      | with_reducible apply keeps_withSb | with_reducible apply keeps_writeDev
      | with_reducible apply keeps_foldl | with_reducible apply keeps_foldl2 | with_reducible apply keepsA_next
      | with_reducible refine keeps_of_some (by with_reducible assumption) ?_ | with_reducible apply keepsO_none
      | with_reducible apply keepsO_findSome | extract_lets | split | intro _ | (dsimp +zetaDelta -zeta only))

end Sys2Proof.Machine
end

