-- ==== Sys2Proof/Laws/Messages.lean ====
section
/-! SUPPORT. What messages on links leave as it is: sending one counts in the port's link layer and shows outside; opening and
closing a window changes that window and tells its sources. -/

namespace Sys2Proof.Machine

/-- t agrees with s in all that sending and receiving messages, and events, never change. -/
structure MsgOnly (s t : State) : Prop where
  pending : t.pending = s.pending
  reply : t.reply = s.reply
  cfg : t.cfg = s.cfg
  glb : t.glb = s.glb
  portA : t.portA = s.portA
  portB : t.portB = s.portB
  tick : t.tick = s.tick
  slots : t.slots = s.slots
  pin : t.pin = s.pin
  upd : t.upd = s.upd
  sec : t.sec = s.sec
  tap : t.tap = s.tap
  twin : t.twin = s.twin
  stk : t.stk = s.stk
  kv : t.kv = s.kv
  prec : t.prec = s.prec
  clu : t.clu = s.clu
  core : t.core = s.core
  badOne : t.badOne = s.badOne
  badTwo : t.badTwo = s.badTwo
  pwr_mv10 : t.pwr.mv10 = s.pwr.mv10
  pwr_auxMv : t.pwr.auxMv = s.pwr.auxMv
  pwr_excursion : t.pwr.excursion = s.pwr.excursion
  pwr_trip : t.pwr.trip = s.pwr.trip
  pwr_therm : t.pwr.therm = s.pwr.therm
  pwr_cap : t.pwr.cap = s.pwr.cap
  pwr_capInForce : t.pwr.capInForce = s.pwr.capInForce
  pwr_cmd : t.pwr.cmd = s.pwr.cmd
  pwr_stepMin : t.pwr.stepMin = s.pwr.stepMin
  pwr_thermStep : t.pwr.thermStep = s.pwr.thermStep
  pwr_coolCues : t.pwr.coolCues = s.pwr.coolCues
  pwr_brake : t.pwr.brake = s.pwr.brake
  pwr_samples : t.pwr.samples = s.pwr.samples
  pwr_inputAvg : t.pwr.inputAvg = s.pwr.inputAvg
  pwr_lastInterval : t.pwr.lastInterval = s.pwr.lastInterval
  pwr_energy : t.pwr.energy = s.pwr.energy
  pwr_sampleCount : t.pwr.sampleCount = s.pwr.sampleCount
  pwr_exempt : t.pwr.exempt = s.pwr.exempt
  pwr_holdFrom : t.pwr.holdFrom = s.pwr.holdFrom
  pwr_cut : t.pwr.cut = s.pwr.cut
  pwr_cutRun : t.pwr.cutRun = s.pwr.cutRun
  pwr_tj : t.pwr.tj = s.pwr.tj
  pwr_tjIo : t.pwr.tjIo = s.pwr.tjIo
  pwr_gateClu : t.pwr.gateClu = s.pwr.gateClu
  pwr_gateLnk : t.pwr.gateLnk = s.pwr.gateLnk
  pwr_gCluster : t.pwr.gCluster = s.pwr.gCluster
  pwr_gLink : t.pwr.gLink = s.pwr.gLink
  pwr_holds : t.pwr.holds = s.pwr.holds
  pwr_holdUs : t.pwr.holdUs = s.pwr.holdUs
  pwr_holdCut : t.pwr.holdCut = s.pwr.holdCut
  pwr_steps : t.pwr.steps = s.pwr.steps
  pwr_thermMs : t.pwr.thermMs = s.pwr.thermMs
  pwr_thermSamples : t.pwr.thermSamples = s.pwr.thermSamples
  host_owner : t.host.owner = s.host.owner
  host_offer : t.host.offer = s.host.offer
  host_lapsed : t.host.lapsed = s.host.lapsed
  host_claimed : t.host.claimed = s.host.claimed
  host_switchDue : t.host.switchDue = s.host.switchDue
  host_defOwner : t.host.defOwner = s.host.defOwner
  host_heartbeat : t.host.heartbeat = s.host.heartbeat
  host_limit : t.host.limit = s.host.limit
  host_age : t.host.age = s.host.age
  host_adm : t.host.adm = s.host.adm
  host_res : t.host.res = s.host.res
  host_evt : t.host.evt = s.host.evt
  host_cmd : t.host.cmd = s.host.cmd
  host_admRead : t.host.admRead = s.host.admRead
  host_admReleased : t.host.admReleased = s.host.admReleased
  host_resq : t.host.resq = s.host.resq
  host_vec0Limit : t.host.vec0Limit = s.host.vec0Limit
  host_vec0Due : t.host.vec0Due = s.host.vec0Due
  host_err : t.host.err = s.host.err
  host_run : t.host.run = s.host.run
  host_admits : t.host.admits = s.host.admits
  host_rejects : t.host.rejects = s.host.rejects
  host_results : t.host.results = s.host.results
  host_backlogRb : t.host.backlogRb = s.host.backlogRb
  host_unboundN : t.host.unboundN = s.host.unboundN
  host_switches : t.host.switches = s.host.switches
  host_resets : t.host.resets = s.host.resets
  host_discards : t.host.discards = s.host.discards
  host_admSeq : t.host.admSeq = s.host.admSeq
  err_safemode : t.err.safemode = s.err.safemode
  err_active : t.err.active = s.err.active
  err_storm : t.err.storm = s.err.storm
  err_runLen : t.err.runLen = s.err.runLen
  err_injArm : t.err.injArm = s.err.injArm
  err_injTier : t.err.injTier = s.err.injTier
  err_injFired : t.err.injFired = s.err.injFired
  err_injAddr : t.err.injAddr = s.err.injAddr
  err_injLatchTier : t.err.injLatchTier = s.err.injLatchTier
  err_injLatch : t.err.injLatch = s.err.injLatch
  err_stCmd : t.err.stCmd = s.err.stCmd
  err_stBusy : t.err.stBusy = s.err.stBusy
  err_stPass : t.err.stPass = s.err.stPass
  err_stRan : t.err.stRan = s.err.stRan
  err_stRow : t.err.stRow = s.err.stRow
  err_stPos : t.err.stPos = s.err.stPos
  err_entries : t.err.entries = s.err.entries
  err_injected : t.err.injected = s.err.injected
  reh_reading : t.reh.reading = s.reh.reading
  reh_replay : t.reh.replay = s.reh.replay
  reh_triggerMask : t.reh.triggerMask = s.reh.triggerMask
  reh_post : t.reh.post = s.reh.post
  reh_codes : t.reh.codes = s.reh.codes
  reh_cmd : t.reh.cmd = s.reh.cmd
  reh_refusal : t.reh.refusal = s.reh.refusal
  reh_rfirst : t.reh.rfirst = s.reh.rfirst
  reh_rcount : t.reh.rcount = s.reh.rcount
  reh_rbase : t.reh.rbase = s.reh.rbase
  reh_rdbase : t.reh.rdbase = s.reh.rdbase

theorem MsgOnly.refl (s : State) : MsgOnly s s := by constructor <;> rfl

theorem MsgOnly.trans {s t u : State} (h : MsgOnly s t) (k : MsgOnly t u) : MsgOnly s u :=
  ⟨k.pending.trans h.pending,
   k.reply.trans h.reply,
   k.cfg.trans h.cfg,
   k.glb.trans h.glb,
   k.portA.trans h.portA,
   k.portB.trans h.portB,
   k.tick.trans h.tick,
   k.slots.trans h.slots,
   k.pin.trans h.pin,
   k.upd.trans h.upd,
   k.sec.trans h.sec,
   k.tap.trans h.tap,
   k.twin.trans h.twin,
   k.stk.trans h.stk,
   k.kv.trans h.kv,
   k.prec.trans h.prec,
   k.clu.trans h.clu,
   k.core.trans h.core,
   k.badOne.trans h.badOne,
   k.badTwo.trans h.badTwo,
   k.pwr_mv10.trans h.pwr_mv10,
   k.pwr_auxMv.trans h.pwr_auxMv,
   k.pwr_excursion.trans h.pwr_excursion,
   k.pwr_trip.trans h.pwr_trip,
   k.pwr_therm.trans h.pwr_therm,
   k.pwr_cap.trans h.pwr_cap,
   k.pwr_capInForce.trans h.pwr_capInForce,
   k.pwr_cmd.trans h.pwr_cmd,
   k.pwr_stepMin.trans h.pwr_stepMin,
   k.pwr_thermStep.trans h.pwr_thermStep,
   k.pwr_coolCues.trans h.pwr_coolCues,
   k.pwr_brake.trans h.pwr_brake,
   k.pwr_samples.trans h.pwr_samples,
   k.pwr_inputAvg.trans h.pwr_inputAvg,
   k.pwr_lastInterval.trans h.pwr_lastInterval,
   k.pwr_energy.trans h.pwr_energy,
   k.pwr_sampleCount.trans h.pwr_sampleCount,
   k.pwr_exempt.trans h.pwr_exempt,
   k.pwr_holdFrom.trans h.pwr_holdFrom,
   k.pwr_cut.trans h.pwr_cut,
   k.pwr_cutRun.trans h.pwr_cutRun,
   k.pwr_tj.trans h.pwr_tj,
   k.pwr_tjIo.trans h.pwr_tjIo,
   k.pwr_gateClu.trans h.pwr_gateClu,
   k.pwr_gateLnk.trans h.pwr_gateLnk,
   k.pwr_gCluster.trans h.pwr_gCluster,
   k.pwr_gLink.trans h.pwr_gLink,
   k.pwr_holds.trans h.pwr_holds,
   k.pwr_holdUs.trans h.pwr_holdUs,
   k.pwr_holdCut.trans h.pwr_holdCut,
   k.pwr_steps.trans h.pwr_steps,
   k.pwr_thermMs.trans h.pwr_thermMs,
   k.pwr_thermSamples.trans h.pwr_thermSamples,
   k.host_owner.trans h.host_owner,
   k.host_offer.trans h.host_offer,
   k.host_lapsed.trans h.host_lapsed,
   k.host_claimed.trans h.host_claimed,
   k.host_switchDue.trans h.host_switchDue,
   k.host_defOwner.trans h.host_defOwner,
   k.host_heartbeat.trans h.host_heartbeat,
   k.host_limit.trans h.host_limit,
   k.host_age.trans h.host_age,
   k.host_adm.trans h.host_adm,
   k.host_res.trans h.host_res,
   k.host_evt.trans h.host_evt,
   k.host_cmd.trans h.host_cmd,
   k.host_admRead.trans h.host_admRead,
   k.host_admReleased.trans h.host_admReleased,
   k.host_resq.trans h.host_resq,
   k.host_vec0Limit.trans h.host_vec0Limit,
   k.host_vec0Due.trans h.host_vec0Due,
   k.host_err.trans h.host_err,
   k.host_run.trans h.host_run,
   k.host_admits.trans h.host_admits,
   k.host_rejects.trans h.host_rejects,
   k.host_results.trans h.host_results,
   k.host_backlogRb.trans h.host_backlogRb,
   k.host_unboundN.trans h.host_unboundN,
   k.host_switches.trans h.host_switches,
   k.host_resets.trans h.host_resets,
   k.host_discards.trans h.host_discards,
   k.host_admSeq.trans h.host_admSeq,
   k.err_safemode.trans h.err_safemode,
   k.err_active.trans h.err_active,
   k.err_storm.trans h.err_storm,
   k.err_runLen.trans h.err_runLen,
   k.err_injArm.trans h.err_injArm,
   k.err_injTier.trans h.err_injTier,
   k.err_injFired.trans h.err_injFired,
   k.err_injAddr.trans h.err_injAddr,
   k.err_injLatchTier.trans h.err_injLatchTier,
   k.err_injLatch.trans h.err_injLatch,
   k.err_stCmd.trans h.err_stCmd,
   k.err_stBusy.trans h.err_stBusy,
   k.err_stPass.trans h.err_stPass,
   k.err_stRan.trans h.err_stRan,
   k.err_stRow.trans h.err_stRow,
   k.err_stPos.trans h.err_stPos,
   k.err_entries.trans h.err_entries,
   k.err_injected.trans h.err_injected,
   k.reh_reading.trans h.reh_reading,
   k.reh_replay.trans h.reh_replay,
   k.reh_triggerMask.trans h.reh_triggerMask,
   k.reh_post.trans h.reh_post,
   k.reh_codes.trans h.reh_codes,
   k.reh_cmd.trans h.reh_cmd,
   k.reh_refusal.trans h.reh_refusal,
   k.reh_rfirst.trans h.reh_rfirst,
   k.reh_rcount.trans h.reh_rcount,
   k.reh_rbase.trans h.reh_rbase,
   k.reh_rdbase.trans h.reh_rdbase⟩

theorem EventOnly.msg {s t : State} (h : EventOnly s t) : MsgOnly s t :=
  ⟨h.pending,
   h.reply,
   h.cfg,
   h.glb,
   h.portA,
   h.portB,
   h.tick,
   h.slots,
   h.pin,
   h.upd,
   h.sec,
   h.tap,
   h.twin,
   h.stk,
   h.kv,
   h.prec,
   h.clu,
   h.core,
   h.badOne,
   h.badTwo,
   h.pwr_mv10,
   h.pwr_auxMv,
   h.pwr_excursion,
   h.pwr_trip,
   h.pwr_therm,
   h.pwr_cap,
   h.pwr_capInForce,
   h.pwr_cmd,
   h.pwr_stepMin,
   h.pwr_thermStep,
   h.pwr_coolCues,
   h.pwr_brake,
   h.pwr_samples,
   h.pwr_inputAvg,
   h.pwr_lastInterval,
   h.pwr_energy,
   h.pwr_sampleCount,
   h.pwr_exempt,
   h.pwr_holdFrom,
   h.pwr_cut,
   h.pwr_cutRun,
   h.pwr_tj,
   h.pwr_tjIo,
   h.pwr_gateClu,
   h.pwr_gateLnk,
   h.pwr_gCluster,
   h.pwr_gLink,
   h.pwr_holds,
   h.pwr_holdUs,
   h.pwr_holdCut,
   h.pwr_steps,
   h.pwr_thermMs,
   h.pwr_thermSamples,
   h.host_owner,
   h.host_offer,
   h.host_lapsed,
   h.host_claimed,
   h.host_switchDue,
   h.host_defOwner,
   h.host_heartbeat,
   h.host_limit,
   h.host_age,
   h.host_adm,
   h.host_res,
   h.host_evt,
   h.host_cmd,
   h.host_admRead,
   h.host_admReleased,
   h.host_resq,
   h.host_vec0Limit,
   h.host_vec0Due,
   h.host_err,
   h.host_run,
   h.host_admits,
   h.host_rejects,
   h.host_results,
   h.host_backlogRb,
   h.host_unboundN,
   h.host_switches,
   h.host_resets,
   h.host_discards,
   h.host_admSeq,
   h.err_safemode,
   h.err_active,
   h.err_storm,
   h.err_runLen,
   h.err_injArm,
   h.err_injTier,
   h.err_injFired,
   h.err_injAddr,
   h.err_injLatchTier,
   h.err_injLatch,
   h.err_stCmd,
   h.err_stBusy,
   h.err_stPass,
   h.err_stRan,
   h.err_stRow,
   h.err_stPos,
   h.err_entries,
   h.err_injected,
   h.reh_reading,
   h.reh_replay,
   h.reh_triggerMask,
   h.reh_post,
   h.reh_codes,
   h.reh_cmd,
   h.reh_refusal,
   h.reh_rfirst,
   h.reh_rcount,
   h.reh_rbase,
   h.reh_rdbase⟩

theorem modLnk_msg (s : State) (p : Nat) (f : LnkSt → LnkSt) : MsgOnly s (s.modLnk p f) := by constructor <;> rfl

theorem send_msg (s : State) (x : Sent) : MsgOnly s (s.send x) := by constructor <;> rfl

theorem modWin_msg (s : State) (f : WinSt → WinSt) : MsgOnly s (s.modWin f) := by constructor <;> rfl

theorem modWindow_msg (s : State) (w : Nat) (f : WindowSt → WindowSt) : MsgOnly s (s.modWindow w f) := by
  constructor <;> rfl

theorem sendOn_msg (s : State) (p n : Nat) (x : Sent) : MsgOnly s (s.sendOn p n x) := by
  unfold State.sendOn
  split
  · exact (modLnk_msg s _ _).trans (send_msg _ _)
  · exact .refl s

theorem sendOn_win (s : State) (p n : Nat) (x : Sent) : (s.sendOn p n x).win = s.win := by
  unfold State.sendOn; split <;> rfl

theorem sendRouted_msg (s : State) (d n : Nat) (x : Sent) : MsgOnly s (s.sendRouted d n x) := by
  unfold State.sendRouted
  split
  · exact sendOn_msg _ _ _ _
  · exact (raise_eventOnly _ _ _ _ _).msg

theorem sendRouted_win (s : State) (d n : Nat) (x : Sent) : (s.sendRouted d n x).win = s.win := by
  unfold State.sendRouted
  split
  · exact sendOn_win _ _ _ _
  · simp

/-- Messages to several destinations. -/
theorem foldl_msg {α : Type} (f : State → α → State) (h : ∀ t x, MsgOnly t (f t x)) :
    ∀ (l : List α) (s : State), MsgOnly s (l.foldl f s)
  | [], s => .refl s
  | x :: l, s => (h s x).trans (foldl_msg f h l (f s x))

theorem foldl_win {α : Type} (f : State → α → State) (h : ∀ t x, (f t x).win = t.win) :
    ∀ (l : List α) (s : State), (l.foldl f s).win = s.win
  | [], _ => rfl
  | x :: l, s => (foldl_win f h l (f s x)).trans (h s x)

/-- Opening a window tells its sources and changes the window alone. -/
theorem openWindow_msg (s : State) (w : Nat) : MsgOnly s (s.openWindow w) :=
  (modWindow_msg s w _).trans (foldl_msg _ (fun _ _ => sendRouted_msg _ _ _ _) _ _)

theorem openWindow_win (s : State) (w : Nat) : (s.openWindow w).win = (s.modWindow w (fun x => { x with
    state := 1, pending := false, epoch := nextEpoch x.epoch, landing := 0, refused := false })).win :=
  foldl_win _ (fun _ _ => sendRouted_win _ _ _ _) _ _

/-- Closing a window tells its sources and changes the window alone. -/
theorem closeWindow_msg (s : State) (w : Nat) : MsgOnly s (s.closeWindow w) :=
  (modWindow_msg s w _).trans (foldl_msg _ (fun _ _ => sendRouted_msg _ _ _ _) _ _)

theorem closeWindow_win (s : State) (w : Nat) :
    (s.closeWindow w).win = (s.modWindow w (fun x => { x with state := 2 })).win :=
  foldl_win _ (fun _ _ => sendRouted_win _ _ _ _) _ _

theorem draw_msg (s : State) (n : Nat) : MsgOnly s { s with free := n } := by constructor <;> rfl

theorem countFec_msg (s : State) (p : Nat) : MsgOnly s (s.countFec p) := by
  unfold State.countFec
  dsimp only
  split
  · exact (draw_msg s _).trans (modLnk_msg _ _ _)
  · exact .refl s

end Sys2Proof.Machine
end

