-- ==== Sys2Proof/Laws/Units.lean ====
section
/-! SUPPORT. Reading one unit of an array after a change of one unit: the changed unit reads as changed, every other as before. -/

namespace Sys2Proof.Machine

theorem tab_get_upd {β : Type} (d : β) (t : Tab β) (i j : Nat) (f : β → β) :
    Tab.get d (Tab.upd d t i f) j = if j = i then f (Tab.get d t i) else Tab.get d t j := tab_get_put d i _ t j

/-- Two cores of one number are one core. -/
theorem coreId_num_inj {c d : CoreId} (h : c.num = d.num) : c = d := by
  obtain ⟨a1, b1, c1⟩ := c
  obtain ⟨a2, b2, c2⟩ := d
  unfold CoreId.num at h
  dsimp only at h
  have e1 : a1 = a2 := Fin.ext (by omega)
  have e2 : b1 = b2 := Fin.ext (by omega)
  have e3 : c1 = c2 := Fin.ext (by omega)
  subst e1 e2 e3; rfl

/-- Two clusters of one number are one cluster. -/
theorem clusterId_num_inj {c d : ClusterId} (h : c.num = d.num) : c = d := by
  obtain ⟨a1, b1⟩ := c
  obtain ⟨a2, b2⟩ := d
  unfold ClusterId.num at h
  dsimp only at h
  have e1 : a1 = a2 := Fin.ext (by omega)
  have e2 : b1 = b2 := Fin.ext (by omega)
  subst e1 e2; rfl

theorem coreAt_modCore (s : State) (c d : CoreId) (f : CoreSt → CoreSt) :
    (s.modCore c f).coreAt d = if d = c then f (s.coreAt c) else s.coreAt d := by
  show Tab.get _ (Tab.upd _ _ _ _) _ = _
  rw [tab_get_upd]
  by_cases h : d = c
  · subst h; simp [State.coreAt]
  · rw [if_neg h, if_neg (fun e => h (coreId_num_inj e))]; rfl

theorem seqAt_modSeq (s : State) (c d : CoreId) (f : SeqSt → SeqSt) :
    (s.modSeq c f).seqAt d = if d = c then f (s.seqAt c) else s.seqAt d := by
  unfold State.seqAt State.modSeq
  rw [coreAt_modCore]; split <;> rfl

theorem seqAt_modCore (s : State) (c d : CoreId) (f : CoreSt → CoreSt) :
    (s.modCore c f).seqAt d = if d = c then (f (s.coreAt c)).seq else s.seqAt d := by
  unfold State.seqAt
  rw [coreAt_modCore]; split <;> rfl

theorem engAt_modEng (s : State) (c d : CoreId) (e g : Nat) (f : EngineSt → EngineSt) :
    (s.modEng c e f).engAt d g = if d = c ∧ g = e then f (s.engAt c e) else s.engAt d g := by
  unfold State.engAt State.modEng
  rw [coreAt_modCore]
  by_cases h : d = c
  · subst h; simp only [if_true, true_and]; rw [tab_get_upd]
  · rw [if_neg h, if_neg (fun x => h x.1)]

theorem ringAt_modRing (s : State) (c d : CoreId) (q r : Nat) (f : RingSt → RingSt) :
    (s.modRing c q f).ringAt d r = if d = c ∧ r = q then f (s.ringAt c q) else s.ringAt d r := by
  unfold State.ringAt State.modRing
  rw [coreAt_modCore]
  by_cases h : d = c
  · subst h; simp only [if_true, true_and]; rw [tab_get_upd]
  · rw [if_neg h, if_neg (fun x => h x.1)]

theorem seqAt_modRing (s : State) (c d : CoreId) (q : Nat) (f : RingSt → RingSt) : (s.modRing c q f).seqAt d = s.seqAt d := by
  unfold State.modRing
  rw [seqAt_modCore]; split
  · rename_i h; subst h; rfl
  · rfl

theorem ringAt_modSeq (s : State) (c d : CoreId) (q : Nat) (f : SeqSt → SeqSt) : (s.modSeq c f).ringAt d q = s.ringAt d q := by
  unfold State.ringAt State.modSeq
  rw [coreAt_modCore]; split
  · rename_i h; subst h; rfl
  · rfl

theorem engAt_modSeq (s : State) (c d : CoreId) (q : Nat) (f : SeqSt → SeqSt) : (s.modSeq c f).engAt d q = s.engAt d q := by
  unfold State.engAt State.modSeq
  rw [coreAt_modCore]; split
  · rename_i h; subst h; rfl
  · rfl

theorem slot_modSlot (s : State) (i j : Nat) (f : SlotSt → SlotSt) :
    (s.modSlot i f).slot j = if j = i then f (s.slot i) else s.slot j := tab_get_upd _ _ _ _ _

theorem cluAt_modClu (s : State) (n j : Nat) (f : CluSt → CluSt) :
    (s.modClu n f).cluAt j = if j = n then f (s.cluAt n) else s.cluAt j := tab_get_upd _ _ _ _ _

theorem stkAt_modStk (s : State) (k j : Nat) (f : StkSt → StkSt) :
    (s.modStk k f).stkAt j = if j = k then f (s.stkAt k) else s.stkAt j := tab_get_upd _ _ _ _ _

theorem kvAt_modKv (s : State) (d j : Nat) (f : KvSt → KvSt) :
    (s.modKv d f).kvAt j = if j = d then f (s.kvAt d) else s.kvAt j := tab_get_upd _ _ _ _ _

theorem lnkAt_modLnk (s : State) (p j : Nat) (f : LnkSt → LnkSt) :
    (s.modLnk p f).lnkAt j = if j = p then f (s.lnkAt p) else s.lnkAt j := tab_get_upd _ _ _ _ _

theorem windowAt_modWindow (s : State) (w j : Nat) (f : WindowSt → WindowSt) :
    (s.modWindow w f).windowAt j = if j = w then f (s.windowAt w) else s.windowAt j := tab_get_upd _ _ _ _ _

theorem handleAt_modHandle (s : State) (h j : Nat) (f : HandleSt → HandleSt) :
    (s.modHandle h f).handleAt j = if j = h then f (s.handleAt h) else s.handleAt j := tab_get_upd _ _ _ _ _

theorem layerAt_modLayer (s : State) (l j : Nat) (f : LayerSt → LayerSt) :
    (s.modLayer l f).layerAt j = if j = l then f (s.layerAt l) else s.layerAt j := tab_get_upd _ _ _ _ _

theorem invAt_modInv (s : State) (o j : Nat) (f : InvSt → InvSt) :
    (s.modInv o f).invAt j = if j = o then f (s.invAt o) else s.invAt j := tab_get_upd _ _ _ _ _

end Sys2Proof.Machine
end

