-- ==== Sys2Proof/Laws/Ops.lean ====
section
/-! SUPPORT. What the shared operations can do, once each: writes of the owner, writes through a port, events, messages. -/

namespace Sys2Proof.Machine

/-- A write of the owner takes effect. -/
theorem ownerOnly_owns {s : State} {p : Port} {f : State → State} (h : s.owns p) : s.ownerOnly p f = f s := by
  simp only [State.ownerOnly, State.via, if_pos h.1, if_pos h.2]

/-- The same, from the two halves of `owns`. -/
theorem ownerOnly_owner {s : State} {f : State → State} (h : s.decodes s.host.owner = true) :
    s.ownerOnly s.host.owner f = f s := ownerOnly_owns ⟨h, rfl⟩

/-- A standby write is discarded (R615). -/
theorem ownerOnly_standby {s : State} {p : Port} {f : State → State} (h : s.decodes p = true) (e : p ≠ s.host.owner) :
    s.ownerOnly p f = { s with host := { s.host with discards := bump s.host.discards } }.raise 0x6002 := by
  simp [State.ownerOnly, State.via, h, e, State.modHost]

/-- Nothing passes a port that does not decode (R652). -/
theorem ownerOnly_lost {s : State} {p : Port} {f : State → State} (h : s.decodes p = false) : s.ownerOnly p f = s := by
  simp [State.ownerOnly, State.via, h]

/-- A write that either port may make takes effect. -/
theorem via_decodes {s : State} {p : Port} {f : State → State} (h : s.decodes p = true) : s.via p f = f s := by
  simp [State.via, h]

/-- Nothing passes a port that does not decode (R652). -/
theorem via_lost {s : State} {p : Port} {f : State → State} (h : s.decodes p = false) : s.via p f = s := by
  simp [State.via, h]

/-! ## Writes to device memory -/

/-- A write of bytes changes memory at those bytes, and the errors of the words and granules it touches; nothing else. -/
theorem writeDev_only (s : State) (a : Nat) (l : List Byte) :
    (s.writeDev a l).mem = Tab.setRange memDefault s.mem a l ∧
    s.writeDev a l = { s with
      mem := (s.writeDev a l).mem, badOne := (s.writeDev a l).badOne, badTwo := (s.writeDev a l).badTwo, stk := (s.writeDev a l).stk } := by
  unfold State.writeDev
  split
  · rename_i h; rw [List.isEmpty_iff.mp h]; exact ⟨rfl, rfl⟩
  · dsimp only; split <;> exact ⟨rfl, rfl⟩

/-- Bytes written piece by piece are written as one run. -/
theorem writeSpan_only : ∀ (f : Nat) (s : State) (a : Nat) (l : List Byte), l.length + a % 32 ≤ 32 * f →
    (s.writeSpan a l f).mem = Tab.setRange memDefault s.mem a l ∧
    s.writeSpan a l f = { s with
      mem := (s.writeSpan a l f).mem, badOne := (s.writeSpan a l f).badOne, badTwo := (s.writeSpan a l f).badTwo,
      stk := (s.writeSpan a l f).stk }
  | 0, s, a, l, h => by
    have : l = [] := List.eq_nil_of_length_eq_zero (by omega)
    subst this; exact ⟨rfl, rfl⟩
  | f + 1, s, a, l, h => by
    unfold State.writeSpan
    split
    · rename_i e; rw [List.isEmpty_iff.mp e]; exact ⟨rfl, rfl⟩
    · dsimp only
      have k := writeDev_only s a (l.take (32 - a % 32))
      generalize s.writeDev a (l.take (32 - a % 32)) = u at k
      by_cases e : l.drop (32 - a % 32) = []
      · rw [e]
        have z : ∀ n, (u.writeSpan (a + (32 - a % 32)) [] n) = u := by intro n; cases n <;> simp [State.writeSpan]
        have t : l.take (32 - a % 32) = l := by
          have := List.take_append_drop (32 - a % 32) l; rw [e, List.append_nil] at this; exact this
        rw [z]; rw [t] at k; exact k
      · have lt : 32 - a % 32 < l.length := by
          by_cases c : 32 - a % 32 < l.length
          · exact c
          · exact absurd (List.drop_eq_nil_of_le (by omega)) e
        have r := writeSpan_only f u (a + (32 - a % 32)) (l.drop (32 - a % 32)) (by rw [List.length_drop]; omega)
        refine ⟨?_, ?_⟩
        · rw [r.1, k.1]
          conv => rhs; rw [← List.take_append_drop (32 - a % 32) l]
          rw [tab_setRange_append, List.length_take, Nat.min_eq_left (by omega)]
        · exact r.2.trans (congrArg (fun x : State => { x with
            mem := (u.writeSpan (a + (32 - a % 32)) (l.drop (32 - a % 32)) f).mem,
            badOne := (u.writeSpan (a + (32 - a % 32)) (l.drop (32 - a % 32)) f).badOne,
            badTwo := (u.writeSpan (a + (32 - a % 32)) (l.drop (32 - a % 32)) f).badTwo,
            stk := (u.writeSpan (a + (32 - a % 32)) (l.drop (32 - a % 32)) f).stk }) k.2)

/-- The release of an admission entry changes no slot. -/
theorem slot_admRelease (s : State) (i : Word) (j : Nat) : (s.admRelease i).slot j = s.slot j := rfl

/-! ## Instructions of a sequencer -/

/-- A row of the instruction tables acts on the word at PC where that instruction issues. -/
theorem runSeq_issues {s : State} {c : CoreId} {op : Nat} {f : DWord → State → State} (h : s.issues c op = true) :
    s.runSeq c op f = f (s.seqAt c).word s := if_pos h

/-- The row does not come about anywhere else. -/
theorem runSeq_not {s : State} {c : CoreId} {op : Nat} {f : DWord → State → State} (h : s.issues c op = false) :
    s.runSeq c op f = s := if_neg (fun e => Bool.false_ne_true (h.symm.trans e))

/-- What an issue does: PC moves on, the state is RUN, a word is counted; the programmer's registers stay. -/
theorem issued_at (s : State) (c : CoreId) : ∃ t : State, s.issued c = t ∧ t = { s with core := t.core, free := t.free } ∧
    (∀ d, d ≠ c → t.coreAt d = s.coreAt d) ∧ ∃ x : SeqSt, t.seqAt c = x ∧ x.pc = (s.seqAt c).pc + 1 ∧ x.state = 1 ∧ x.issued = bump (s.seqAt c).issued ∧ x.s = (s.seqAt c).s ∧ x.l = (s.seqAt c).l ∧ x.t = (s.seqAt c).t ∧
      x.epoch = (s.seqAt c).epoch ∧ x.seed = (s.seqAt c).seed ∧ x.ckpts = (s.seqAt c).ckpts ∧ x.bound = (s.seqAt c).bound ∧ x.ended = (s.seqAt c).ended ∧
      t.coreAt c = { (s.coreAt c) with seq := x, sbWait := (t.coreAt c).sbWait } := by
  refine ⟨_, rfl, ?_⟩
  unfold State.issued; lift_lets; intro d st s1 s2
  have h1 : s1 = { s with free := s1.free } := by unfold s1; split <;> rfl
  have k1 : ∀ d, s1.coreAt d = s.coreAt d := by intro d; unfold State.coreAt; rw [h1]
  have h2 : s2 = { s with core := s2.core, free := s2.free } := by
    unfold s2; split
    · show State.modCore _ _ _ = _; unfold State.modCore; rw [h1]
    · rw [h1]
  have k2 : (∀ d, d ≠ c → s2.coreAt d = s.coreAt d) ∧ s2.seqAt c = s.seqAt c ∧
      s2.coreAt c = { (s.coreAt c) with sbWait := (s2.coreAt c).sbWait } := by
    unfold s2; split
    · refine ⟨fun d hd => ?_, ?_, ?_⟩
      · rw [coreAt_modCore, if_neg hd, k1]
      · rw [seqAt_modCore, if_pos rfl]; show (s1.coreAt c).seq = _; exact congrArg CoreSt.seq (k1 c)
      · rw [coreAt_modCore, if_pos rfl, k1]
    · exact ⟨fun d _ => k1 d, congrArg CoreSt.seq (k1 c), by rw [k1]⟩
  clear_value s2
  refine ⟨?_, fun d hd => ?_, _, rfl, ?_⟩
  · unfold State.modSeq State.modCore; rw [h2]
  · unfold State.modSeq; rw [coreAt_modCore, if_neg hd, k2.1 d hd]
  · have e : ∀ f, (s2.modSeq c f).coreAt c = { (s2.coreAt c) with seq := f (s2.coreAt c).seq } := by
      intro f; unfold State.modSeq; rw [coreAt_modCore, if_pos rfl]
    rw [seqAt_modSeq, if_pos rfl, k2.2.1, e]
    refine ⟨rfl, rfl, rfl, rfl, rfl, rfl, rfl, rfl, rfl, rfl, rfl, ?_⟩
    have e2 : (s2.coreAt c).seq = s.seqAt c := k2.2.1
    rw [e2, k2.2.2]

/-! ## Messages that arrive -/

/-- A control message for this device acts on the state that its flits leave. -/
theorem recvCtrl_here {s u : State} {p : Nat} {h : FlitHdr} {f : State → State} (e : s.takeFlits p h false = .here u)
    (d : h.dst = u.win.linkId) : s.recvCtrl p h f = f u := by
  simp only [State.recvCtrl, e, if_pos d]

/-- A message whose flits are lost leaves what the link layer leaves. -/
theorem recvCtrl_lost {s u : State} {p : Nat} {h : FlitHdr} {f : State → State} (e : s.takeFlits p h false = .lost u) :
    s.recvCtrl p h f = u := by
  simp only [State.recvCtrl, e]

end Sys2Proof.Machine
end

