-- ==== Sys2Proof/Laws/Reads.lean ====
section
/-! SUPPORT. What a read of device memory leaves as it is: it corrects, counts and repairs in its stack or cluster and may raise
events and fire an injection; every other unit stays. -/

namespace Sys2Proof.Machine

/-- t agrees with s in all that a read of memory never changes. -/
structure ReadOnly (s t : State) : Prop where
  pending : t.pending = s.pending
  reply : t.reply = s.reply
  sent : t.sent = s.sent
  cfg : t.cfg = s.cfg
  glb : t.glb = s.glb
  portA : t.portA = s.portA
  portB : t.portB = s.portB
  tick : t.tick = s.tick
  slots : t.slots = s.slots
  pin : t.pin = s.pin
  upd : t.upd = s.upd
  sec : t.sec = s.sec
  tap : t.tap = s.tap
  twin : t.twin = s.twin
  lnk : t.lnk = s.lnk
  win : t.win = s.win
  kv : t.kv = s.kv
  prec : t.prec = s.prec
  core : t.core = s.core
  badTwo : t.badTwo = s.badTwo
  host_owner : t.host.owner = s.host.owner
  host_adm : t.host.adm = s.host.adm
  host_resq : t.host.resq = s.host.resq

theorem ReadOnly.refl (s : State) : ReadOnly s s := by constructor <;> rfl

theorem ReadOnly.trans {s t u : State} (h : ReadOnly s t) (k : ReadOnly t u) : ReadOnly s u where
  pending := k.pending.trans h.pending
  reply := k.reply.trans h.reply
  sent := k.sent.trans h.sent
  cfg := k.cfg.trans h.cfg
  glb := k.glb.trans h.glb
  portA := k.portA.trans h.portA
  portB := k.portB.trans h.portB
  tick := k.tick.trans h.tick
  slots := k.slots.trans h.slots
  pin := k.pin.trans h.pin
  upd := k.upd.trans h.upd
  sec := k.sec.trans h.sec
  tap := k.tap.trans h.tap
  twin := k.twin.trans h.twin
  lnk := k.lnk.trans h.lnk
  win := k.win.trans h.win
  kv := k.kv.trans h.kv
  prec := k.prec.trans h.prec
  core := k.core.trans h.core
  badTwo := k.badTwo.trans h.badTwo
  host_owner := k.host_owner.trans h.host_owner
  host_adm := k.host_adm.trans h.host_adm
  host_resq := k.host_resq.trans h.host_resq

theorem EventOnly.read {s t : State} (h : EventOnly s t) : ReadOnly s t where
  pending := h.pending
  reply := h.reply
  sent := h.sent
  cfg := h.cfg
  glb := h.glb
  portA := h.portA
  portB := h.portB
  tick := h.tick
  slots := h.slots
  pin := h.pin
  upd := h.upd
  sec := h.sec
  tap := h.tap
  twin := h.twin
  lnk := h.lnk
  win := h.win
  kv := h.kv
  prec := h.prec
  core := h.core
  badTwo := h.badTwo
  host_owner := h.host_owner
  host_adm := h.host_adm
  host_resq := h.host_resq

theorem raise_read (s : State) (c : Nat) (a b : Option Nat) (p : Nat) : ReadOnly s (s.raise c a b p) :=
  (raise_eventOnly s c a b p).read

theorem modStk_read (s : State) (k : Nat) (f : StkSt → StkSt) : ReadOnly s (s.modStk k f) := by constructor <;> rfl

theorem modClu_read (s : State) (n : Nat) (f : CluSt → CluSt) : ReadOnly s (s.modClu n f) := by constructor <;> rfl

theorem modErr_read (s : State) (f : ErrSt → ErrSt) : ReadOnly s (s.modErr f) := by constructor <;> rfl

theorem injFire_read (s : State) : ReadOnly s s.injFire := (modErr_read s _).trans (raise_read _ _ _ _ _)

theorem ite_read {c : Prop} [Decidable c] {s a b : State} (h : ReadOnly s a) (k : ReadOnly s b) : ReadOnly s (if c then a else b) := by
  split
  · exact h
  · exact k

theorem spareRow_read (s : State) (k : Nat) (d : Bool) (r : Nat) : ReadOnly s (s.spareRow k d r) :=
  ite_read ((modStk_read s _ _).trans (raise_read _ _ _ _ _)) ((modStk_read s _ _).trans (raise_read _ _ _ _ _))

theorem stkUe_read (s : State) (k a : Nat) : ReadOnly s (s.stkUe k a) := (modStk_read s _ _).trans (raise_read _ _ _ _ _)

theorem markLane_read (s : State) (k c l : Nat) : ReadOnly s (s.markLane k c l) := (modStk_read s _ _).trans (raise_read _ _ _ _ _)

theorem ite_read2 {c : Prop} [Decidable c] {s : State} {a b : Bool × State} (h : ReadOnly s a.2) (k : ReadOnly s b.2) :
    ReadOnly s (if c then a else b).2 := by
  split
  · exact h
  · exact k

theorem granuleRead_read (s : State) (k c o : Nat) : ReadOnly s (s.granuleRead k c o).2 := by
  unfold State.granuleRead
  lift_lets
  intro t deep row
  refine ite_read2 (.refl s) ?_
  cases t.errs.find? (fun e => e.1 == granuleKey c o) with
  | none => exact .refl s
  | some x =>
    obtain ⟨key, e⟩ := x
    dsimp only
    refine ite_read2 (spareRow_read s _ _ _) (ite_read2 (.refl s) (ite_read2 ((modStk_read s _ _).trans (raise_read _ _ _ _ _)) ?_))
    have h1 := modStk_read s k (fun t => { t with
          errs := Tab.erase t.errs key, laneHits := addOnce (s.stkAt k).laneHits (c, e.lane, row), rowHits := addOnce (s.stkAt k).rowHits (row, key),
          ceFast := if deep then t.ceFast else bump t.ceFast, ceDeep := if deep then bump t.ceDeep else t.ceDeep })
    exact ite_read ((ite_read (h1.trans (markLane_read _ _ _ _)) h1).trans (spareRow_read _ _ _ _))
      (ite_read (h1.trans (markLane_read _ _ _ _)) h1)

theorem readGranule_read (s : State) (k c o a : Nat) : ReadOnly s (s.readGranule k c o a).2 := by
  have g := granuleRead_read s k c o
  unfold State.readGranule
  dsimp only
  split
  · exact g.trans (stkUe_read _ _ _)
  · split
    · exact (g.trans (stkUe_read _ _ _)).trans (injFire_read _)
    · exact g

theorem readGranules_read : ∀ (n : Nat) (s : State) (a : Nat), ReadOnly s (s.readGranules a n).2
  | 0, s, _ => .refl s
  | n + 1, s, a => by
    have g := readGranule_read s (s.stackMap a).stk (s.stackMap a).chan (s.stackMap a).off a
    unfold State.readGranules
    dsimp only
    split
    · exact g.trans (readGranules_read n _ _)
    · exact g

theorem readSpm_read (s : State) (r : Region) (o n : Nat) (l : Bool) : ReadOnly s (s.readSpm r o n l).2 := by
  have b : ∀ (s : State) x, ReadOnly s { s with badOne := x } := fun s x => by constructor <;> rfl
  unfold State.readSpm
  lift_lets
  intro a inR ones s1 s2 bad inj at_ s3 s4
  have h2 : ReadOnly s s2 := ite_read (b s _) ((b s _).trans (modClu_read _ _ _))
  by_cases c : (bad.isEmpty && !inj) = true
  · rw [if_pos c]; exact h2
  · rw [if_neg c]
    have h4 : ReadOnly s s4 := (h2.trans (modClu_read _ _ _)).trans (raise_read _ _ _ _ _)
    exact ite_read (h4.trans (injFire_read _)) h4

/-- A checked read of memory. -/
theorem readDev_read (s : State) (a n : Nat) : ReadOnly s (s.readDev a n).2 := by
  unfold State.readDev
  split
  · exact .refl s
  · split
    · exact readSpm_read _ _ _ _ _
    · exact readGranules_read _ _ _
    · exact readGranules_read _ _ _
    · exact .refl s

theorem readSpan_read : ∀ (f : Nat) (s : State) (a n : Nat), ReadOnly s (s.readSpan a n f).2
  | 0, s, _, _ => .refl s
  | f + 1, s, a, n => by
    unfold State.readSpan
    split
    · exact .refl s
    · have g := readDev_read s a (min n (32 - a % 32))
      dsimp only
      split
      · exact g.trans (readSpan_read f _ _ _)
      · exact g

/-- A read of tick work that delivers. -/
theorem readWork_read : ∀ (f : Nat) (s : State) (a n : Nat), (s.readWork a n f).1 = true → ReadOnly s (s.readWork a n f).2
  | 0, s, _, _, _ => .refl s
  | f + 1, s, a, n, h => by
    unfold State.readWork at h ⊢
    by_cases e : n = 0
    · rw [if_pos e]; exact .refl s
    · rw [if_neg e] at h ⊢
      have g := readDev_read s a (min n (4096 - a % 4096))
      dsimp only at h ⊢
      by_cases k : (s.readDev a (min n (4096 - a % 4096))).1 = true
      · rw [if_pos k] at h ⊢; exact g.trans (readWork_read f _ _ _ h)
      · rw [if_neg k] at h; cases h

/-- The same for a whole operand. -/
theorem workRead_read {s : State} {a n : Nat} (h : (s.workRead a n).1 = true) : ReadOnly s (s.workRead a n).2 :=
  readWork_read _ s a n h

/-! ## Between ticks -/

theorem modKv_tick (s : State) (d : Nat) (f : KvSt → KvSt) : (s.modKv d f).tick = s.tick := rfl

theorem kvLookup_tick (s : State) (d n : Nat) : (s.kvLookup d n).tick = s.tick := by
  unfold State.kvLookup; split <;> rfl

/-- A fault of slots changes nothing between ticks. -/
theorem slotFault_idle {s : State} (m : BitVec 256) (h : s.tick.running = none) : s.slotFault m = s := by
  unfold State.slotFault; rw [h]

/-- Reads of KV positions between ticks leave the tick controller alone. -/
theorem kvRead_idle : ∀ (f : Nat) (s : State) (d a n : Nat), s.tick.running = none → (s.kvRead d a n f).2.2.tick = s.tick
  | 0, _, _, _, _, _ => rfl
  | f + 1, s, d, a, n, h => by
    unfold State.kvRead
    by_cases c : n = 0
    · rw [if_pos c]
    · rw [if_neg c]
      have h1 : (s.kvLookup d (kvPage a)).tick = s.tick := kvLookup_tick s d _
      have key : ∀ r : Bool × List Byte × State, r.2.2.tick = s.tick → (r.2.2.kvRead d (a + min n (65536 - a % 65536))
          (n - min n (65536 - a % 65536)) f).2.2.tick = s.tick :=
        fun r e => (kvRead_idle f _ _ _ _ (by rw [e]; exact h)).trans e
      refine key _ ?_
      generalize s.kvLookup d (kvPage a) = u at h1 ⊢
      dsimp only
      split
      · exact h1
      · have g := readDev_read u (ptePage (u.pte d (kvPage a)) * 65536 + a % 65536) (min n (65536 - a % 65536))
        dsimp only
        split
        · rw [g.tick]; exact h1
        · rw [State.kvSlotFault, slotFault_idle _ (by rw [g.tick, h1]; exact h), g.tick]; exact h1

theorem mirrorKv_idle (s : State) (i lo hi : Nat) (h : s.tick.running = none) : (s.mirrorKv i lo hi).2.tick = s.tick := by
  unfold State.mirrorKv
  split
  · rfl
  · have g : ∀ (l : List (Nat × Nat)) (a : Option (List (Nat × List Byte)) × State), a.2.tick = s.tick →
        (l.foldl (fun a e =>
          let n := (hi - lo) * a.2.kvBytes e.1
          let r := a.2.kvRead e.1 (a.2.kvAddr e.1 i e.2 lo) n (n / 65536 + 2)
          (if r.1 then a.1.map (fun l => l ++ [(e.1 * 2 ^ 44 + s.kvAddr e.1 (i + 128) e.2 lo, r.2.1)]) else none, r.2.2)) a).2.tick = s.tick := by
      intro l; induction l with
      | nil => intro a e; exact e
      | cons x l ih => intro a e; exact ih _ ((kvRead_idle _ _ _ _ _ (by rw [e]; exact h)).trans e)
    exact g _ _ rfl

theorem mirrorSlots_idle : ∀ (l : List Nat) (s : State), s.tick.running = none → (s.mirrorSlots l).2.tick = s.tick
  | [], _, _ => rfl
  | k :: l, s, h =>
    have e : (s.mirrorSlot k).2.tick = s.tick := mirrorKv_idle s _ _ _ h
    (mirrorSlots_idle l _ (by rw [e]; exact h)).trans e

theorem sendTwin_msg (s : State) (n : Nat) (x : Sent) : MsgOnly s (s.sendTwin n x) := by
  unfold State.sendTwin; split <;> exact sendOn_msg _ _ _ _

/-- Staging a mirror between ticks leaves the tick controller alone. -/
theorem stageMirror_idle (s : State) (h : s.tick.running = none) : s.stageMirror.tick = s.tick := by
  unfold State.stageMirror
  dsimp only
  split
  · rfl
  · have g := mirrorSlots_idle ((List.range 128).filter (fun k => s.twin.dirty.contains k && (s.slot k).state != 0)) s h
    generalize State.mirrorSlots _ _ = r at g
    split
    · exact g
    · rw [State.modTwin_tick, (sendTwin_msg _ _ _).tick, (sendTwin_msg _ _ _).tick]; exact g

end Sys2Proof.Machine
end

