-- ==== Sys2Proof/Laws/Ticks.lean ====
section
/-! SUPPORT. What taking a cue, releasing it and the curtain do to the tick controller. -/

namespace Sys2Proof.Machine

/-! ## Taking a cue -/

theorem takeCue_holds (u : State) (n : DWord) (at_ : Nat) (bad : Bool) (h : u.readyOrRun = true) (h1 : u.tick.held.length < 2)
    (h2 : u.pwr.holdFrom = none) : u.takeCue n at_ bad = { u with
    tick := { u.tick with held := u.tick.held ++ [⟨n, at_, bad⟩], anyCue := true, nextNum := n + 1, lastTaken := some at_ }
    pwr := { u.pwr with capInForce := u.pwr.cap } } := by
  have c : u.cutHold = u := by unfold State.cutHold; rw [if_neg (by simp [h2])]
  unfold State.takeCue
  rw [if_neg (by simp [h]), c, if_neg (by omega)]; rfl
theorem takeCue_cuts (u : State) (n : DWord) (at_ : Nat) (bad : Bool) (h : u.readyOrRun = true) (h1 : u.tick.held.length < 2)
    (h2 : u.pwr.holdFrom.isSome = true) (h3 : u.pwr.cut = false) (h4 : u.pwr.cutRun = false) : u.takeCue n at_ bad =
    (let v := { u with pwr := { u.pwr with cut := true, exempt := true, holdCut := bump u.pwr.holdCut } }.raise 0x9003
     { v with
       tick := { v.tick with held := v.tick.held ++ [⟨n, at_, bad⟩], anyCue := true, nextNum := n + 1, lastTaken := some at_ }
       pwr := { v.pwr with capInForce := v.pwr.cap } }) := by
  have c : u.cutHold = { u with pwr := { u.pwr with cut := true, exempt := true, holdCut := bump u.pwr.holdCut } }.raise 0x9003 := by
    unfold State.cutHold; rw [if_pos ⟨h2, by simp [h3]⟩]; show (if u.pwr.cutRun then _ else _) = _; rw [if_neg (by simp [h4])]; rfl
  unfold State.takeCue
  rw [if_neg (by simp [h]), c, if_neg (by rw [raise_tick]; show ¬ 2 ≤ u.tick.held.length; omega)]; rfl
theorem takeCue_third (u : State) (n : DWord) (at_ : Nat) (bad : Bool) (h : u.readyOrRun = true) (h1 : 2 ≤ u.tick.held.length)
    (h2 : u.pwr.holdFrom = none) : u.takeCue n at_ bad = u.abandonTick.raise 0x1001 := by
  have c : u.cutHold = u := by unfold State.cutHold; rw [if_neg (by simp [h2])]
  unfold State.takeCue
  rw [if_neg (by simp [h]), c, if_pos h1]
/-! ## The curtain and the start of a tick -/

theorem phaseLow_tick (s : State) : s.phaseLow.tick = s.tick := by unfold State.phaseLow; split <;> rfl
theorem leaveRun_tick (s : State) : s.leaveRun.tick = s.tick := by unfold State.leaveRun; split <;> rfl
theorem curtain_end (s : State) (r : RunTick) (at_ : Nat) (l : List StepResult) :
    (s.curtain r at_ l).tick.running = none ∧ (s.curtain r at_ l).tick.lastLen = word (at_ - r.released) := by
  unfold State.curtain
  lift_lets
  intro x1 x2 x3 x4 x5 x6 x7 x8 x9 x10 x11 x12 x13 x14 x15 x16 x17 x18
  have h : x18.tick.running = none ∧ x18.tick.lastLen = word (at_ - r.released) := by
    have : x18.tick = x17.tick := (phaseLow_tick _).trans (leaveRun_tick _)
    rw [this]; exact ⟨rfl, rfl⟩
  rw [stageMirror_idle _ h.1]; exact h
theorem startTick_end (s : State) (r : RunTick) (at_ : Nat) :
    (r.stepM = 0 → (s.startTick r at_).tick.running = none) ∧
    (r.stepM ≠ 0 → (s.startTick r at_).tick.running = some r ∧ ∀ e ∈ (s.startTick r at_).core, e.2.seq.cueLatched = true ∧
            e.2.seq.ended = false ∧ e.2.conf = 0 ∧ e.2.seq.arrivals = []) := by
  unfold State.startTick
  refine ⟨fun h => ?_, fun h => ?_⟩
  · dsimp only
    rw [if_pos h]; exact (curtain_end _ _ _ _).1
  · dsimp only
    rw [if_neg h]
    have g : ∀ e ∈ (s.modTick (fun t => { t with running := some r })).core.map (fun e => (e.1, e.2.atCue)),
        e.2.seq.cueLatched = true ∧ e.2.seq.ended = false ∧ e.2.conf = 0 ∧ e.2.seq.arrivals = [] := by
      intro e he
      obtain ⟨y, _, rfl⟩ := List.mem_map.mp he
      exact ⟨rfl, rfl, rfl, rfl⟩
    split
    · exact ⟨rfl, g⟩
    · exact ⟨rfl, g⟩
theorem raiseAll_parts (s : State) : s.raiseAll.tick = s.tick ∧ s.raiseAll.win = s.win ∧ s.raiseAll.prec = s.prec ∧ s.raiseAll.reh = s.reh := by
  have : ∀ (l : Tab CluSt) (s : State), (l.foldl (fun s e => s.raiseSupply e.1) s).tick = s.tick ∧ (l.foldl (fun s e => s.raiseSupply e.1) s).win = s.win ∧ (l.foldl (fun s e => s.raiseSupply e.1) s).prec = s.prec ∧ (l.foldl (fun s e => s.raiseSupply e.1) s).reh = s.reh := by
    intro l; induction l with
    | nil => intro s; exact ⟨rfl, rfl, rfl, rfl⟩
    | cons x l ih =>
      intro s
      have := ih (s.raiseSupply x.1)
      have g : (s.raiseSupply x.1).tick = s.tick ∧ (s.raiseSupply x.1).win = s.win ∧ (s.raiseSupply x.1).prec = s.prec ∧ (s.raiseSupply x.1).reh = s.reh := by
        unfold State.raiseSupply; dsimp only; repeat' split
        all_goals exact ⟨rfl, rfl, rfl, rfl⟩
      exact ⟨this.1.trans g.1, this.2.1.trans g.2.1, this.2.2.1.trans g.2.2.1, this.2.2.2.trans g.2.2.2⟩
  exact this _ _
theorem safeModeCue_parts (s : State) : s.safeModeCue.tick = s.tick ∧ s.safeModeCue.win = s.win ∧ s.safeModeCue.prec = s.prec ∧
    s.safeModeCue.reh.replay = s.reh.replay := by
  unfold State.safeModeCue
  dsimp only
  split
  · split
    · exact ⟨rfl, rfl, rfl, rfl⟩
    · exact ⟨rfl, rfl, rfl, rfl⟩
  · split
    · have k := raiseAll_parts
      have e := fun x : State => (raise_eventOnly x 0xA010 none none 0xFFFF).trans (rehTrigger_eventOnly (x.raise 0xA010) (word (0xFFFF0000 + (Config.triggerSource 3).toNat)))
      refine ⟨?_, ?_, ?_, ?_⟩
      · rw [(k _).1, (e _).tick]; rfl
      · rw [(k _).2.1, (e _).win]; rfl
      · rw [(k _).2.2.1, (e _).prec]; rfl
      · rw [(k _).2.2.2, (e _).reh_replay]; rfl
    · exact ⟨rfl, rfl, rfl, rfl⟩
theorem applyStep_parts (s : State) : s.applyStep.tick = s.tick ∧ s.applyStep.win = s.win ∧ s.applyStep.prec = s.prec ∧
    s.applyStep.reh.replay = s.reh.replay := by
  unfold State.applyStep
  split
  · exact ⟨rfl, rfl, rfl, rfl⟩
  · have e := fun x : State => raise_eventOnly x 0x9002 none none 0xFFFF
    exact ⟨(e _).tick, (e _).win, (e _).prec, (e _).reh_replay⟩
theorem coolCue_parts (s : State) : s.coolCue.tick = s.tick ∧ s.coolCue.win = s.win ∧ s.coolCue.prec = s.prec ∧
    s.coolCue.reh = s.reh := by
  unfold State.coolCue
  dsimp only
  split
  · exact ⟨rfl, rfl, rfl, rfl⟩
  · split <;> exact ⟨rfl, rfl, rfl, rfl⟩

end Sys2Proof.Machine
end

