-- ==== Sys2Proof/WellFormed.lean ====
section
/-! DEFINITION. Which commands and operands are well formed: the sizes and alignments that the manual gives to what the
outside hands to the block. The meanings are total and do not rely on it. -/

namespace Sys2Proof

/-- A 32-bit BAR0 register stands at a multiple of 4 (R607). -/
def offsetOk (off : Nat) : Bool := off % 4 == 0

/-- A ring entry of the host is 64 bytes (R622). -/
def entryOk (e : List Byte) : Bool := e.length == 64

/-- The core's ring names a power-of-two granule ring no larger than its field (R366), its entry size is at most 4,095
and it has 1 to 16 producers (R375). -/
def RingCfg.wf (r : RingCfg) : Bool :=
  decide (1 ≤ r.producers.length) && decide (r.producers.length ≤ 16)

/-- A configuration body's chain place lies inside its chain (R489) and its tables name each key once. -/
def CfgBody.wf (b : CfgBody) : Bool :=
  decide (b.cpos.toNat ≤ b.clenM1.toNat) && b.rings.all RingCfg.wf && b.usedClusters.all (fun c => decide (c < 64)) &&
  b.weightRanges.all (fun r => decide (0 < r.2))

/-- A configuration image's body is well formed (R704). -/
def CfgImage.wf (i : CfgImage) : Bool := i.body.wf

/-- A flit header counts at least one flit (R568). -/
def FlitHdr.wf (h : FlitHdr) : Bool := decide (1 ≤ h.flits)

/-- A step message carries at most one record for each slot (R495). -/
def StepMsg.wf (m : StepMsg) : Bool := decide (m.records.length ≤ 256)

/-- The well-formed commands. -/
def Instr.wf : Instr → Bool
  | .registerWrite _ bar2 off _ => offsetOk off.toNat && (!bar2 || decide (off.toNat < 65536))
  | .regrd off => offsetOk off.toNat
  | .bar0AccessRefused _ off size _ => !(size == 4 && offsetOk off.toNat)
  | .configRequest _ off _ => offsetOk off.toNat
  | .bar4Read _ off len => decide (0 < len) && decide (off.toNat + len ≤ 2 ^ 41)
  | .bar4Write _ off d => decide (0 < d.length) && decide (off.toNat + d.length ≤ 2 ^ 41)
  | .stageCfg _ img => img.wf
  | .admitEntry e => entryOk e
  | .cancelEntry e => entryOk e
  | .inputEntry e _ => entryOk e
  | .bindEntry e => entryOk e
  | .inputBodyFail e => entryOk e
  | .cmdNop e => entryOk e
  | .load e _ => entryOk e
  | .store e => entryOk e
  | .fill e => entryOk e
  | .digest e => entryOk e
  | .statusMessage _ h m => h.wf && m.wf
  | .curtainMessage _ h m => h.wf && m.wf
  | .cue _ h _ _ _ _ _ => h.wf
  | .ringEntry _ h _ => h.wf
  | .wwrite _ h w => h.wf && decide (w.data.length ≤ 256)
  | .mirrorCommit _ h _ _ _ _ => h.wf
  | .hello _ h _ => h.wf
  | .heartbeat _ h _ _ _ => h.wf
  | .idleFlit _ h => h.wf
  | _ => true

end Sys2Proof
end

