-- ==== Sys2Proof/Tests/Slice0.lean ====
section
/-! SUPPORT. The model's own tests: ill-formed commands are refused by the well-formedness check, worked examples of spec/ give
their values, and every statement with hypotheses has a concrete state and operands that meet them. -/

namespace Sys2Proof.Tests.Slice0
open Sys2Proof Sys2Proof.Machine
set_option Elab.async false

def ready : State := { State.reset with glb := { Glb.reset with st := .ready }, portA := { PortSt.reset with linkUp := true } }
def fwImage : FwImage := ⟨0x4D46, 1, 1, 0, 1, 1, 2, 3, 3, [], true, true, 0, 0⟩
def cfgBody : CfgBody := { cfgNone with
  period := 250000, tickMax := 250000, proofPfa := true, proofCurtain := true, proofSpill := true, timers := [(0, 1)] }
def cfgImage : CfgImage := ⟨0x4346, 1, false, 4096, 1, true, 0, 0, true, cfgBody⟩
def staging : State := { ready with upd := { ready.upd with staging := some (.fw true fwImage) } }
def stagingCfg : State := { ready with upd := { ready.upd with staging := some (.cfg true cfgImage) } }
def goodFw : FwImage := { fwImage with
  count := 27, components := (neededComponents 1).map (fun k => ⟨BitVec.ofNat 8 k.1, BitVec.ofNat 8 k.2, 8192, 4096, 0, true⟩) }
def goodEnv : BootEnv := ⟨true, true, true, [], [], none⟩
def offState : State := { State.reset with upd := { UpdSt.reset with flash := { Flash.reset with fwA := some goodFw, cfgA := some cfgImage } } }
def booted : Chosen × State := (offState.enterBoot goodEnv).bootIdentity.choose
def bootedFw : State := booted.2.runFw goodFw booted.1
def bootedCfg : State := ((((bootedFw.bootConfig cfgImage).trainStacks []).trainLinks []).startTest none).gateUnused
def standby : State := { State.reset with glb := { Glb.reset with st := .ready }, portB := { PortSt.reset with linkUp := true } }
def withCrc (l : List Byte) : List Byte := l ++ leBytes 4 (crc32 l)
def hdr : FlitHdr := ⟨0, 1, 0, 0, true, none, 0, 0⟩
def linked : State := { ready with lnk := [(0, { LnkSt.reset with state := 3, en := true })], tick := { ready.tick with src := 2 } }
def run0 : RunTick := {
  tick := 0, group := 0, released := 0, stepM := 0, slotFail := 0, upFail := 0, freeM := 0, records := [],
  wholeFault := false, abandoned := false, once := [], hostIn := [], inbound := [], osMask := 0 }
def core0 : CoreId := ⟨0, 0, 0⟩
def coding (w : DWord) (q : SeqSt) : State := { ready with
  tick := { ready.tick with running := some run0, period := 250000, tickMax := 300000 },
  cfg := { ready.cfg with barriers := [⟨3, [⟨0, 0, 0⟩]⟩] },
  core := [(0, { CoreSt.reset with seq := { q with imem := [(0, w)], state := 1 } })] }
def atZero : SeqSt := { SeqSt.reset with s := [(1, 5)], l := [(0, 2)] }
def lowBound (allow : Bool) : Bound := {
  ord := 1, desc := if allow then BitVec.ofNat 2048 (2 ^ 191) else 0, seed := 0, rerun := false, widened := false, fast := false,
  pmode := 0, aw := 8, wpl := 8, prm := 0, split := false, part := 0, sIn := none, nIn := 0, nOut := 0, nChk := 0, reported := false,
  rowTag := none, ranges := [] }
def goodDesc : LayerDesc := BitVec.ofNat 2048 (0x4C44 * 2 ^ 1984 + crc32 (leBytes 252 (0x4C44 * 2 ^ 1984)) * 2 ^ 2016)
def holding (w : DWord) (q : SeqSt) (l : List Byte) : State := { (coding w q) with mem := Tab.setRange memDefault [] 0x40000000000 l }
def moveTile (a len : Nat) : TileDesc := BitVec.ofNat 256 (a + len * 2 ^ 88)
def moving (w : DWord) : State := coding w { atZero with t := [(0, moveTile 0x40000000000 1), (1, moveTile 0x40000001000 1)] }
def chainOp (b : Bound) : ChainOp := {
  id := 1, ord := 1, code := 0x30, acc := false, half := false, acbase := 0, tm := 1, bank := false, ct := 0, tile := 0,
  src := .mem 0x40000000000, bound := b, aw := 8, sign := false, zp := 0, started := true, sparse := false, comp := [], skip := [],
  rowsum := [], landed := [], chk := none, engines := 2, srcs := [], image := [] }
def passing (e : Nat) (x : EngineSt) (o : ChainOp) : State := { (coding 0 atZero) with
  core := [(0, { CoreSt.reset with engines := [(e, x)], chainQ := [o] })] }
def fullBuf (r : Bool) : PlaneBuf := ⟨1, 0, [], [], [], none, [], [], [], r, false⟩
def rows32 : Bound := { lowBound false with desc := BitVec.ofNat 2048 (32 * 2 ^ 43 + 32 * 2 ^ 672 + 0x40000002000 * 2 ^ 704) }
def tiled (s : State) : State := { s with mem := Tab.setRange memDefault s.mem 0x40000000000 (leBytes 8 (1 + 2 ^ 10 + 2 ^ 18 + 2 ^ 49)) }
def memTile : TileDesc := BitVec.ofNat 256 0x40000000020
def plainBound (mode : Nat) : Bound := { (lowBound true) with desc := BitVec.ofNat 2048 (mode * 2 ^ 27) }
def feeding (w : DWord) (b : Bound) (l : List Byte) : State := holding w { atZero with bound := [b], t := [(0, memTile)] } l
def goodRecord : List Byte := recordBytes 0 0 0 0 8 false 0 0 0 0

namespace StepRunsTheFrontCommand
theorem witness_EmptyQueueIdles : State.reset.pending = [] := by decide

theorem witness_MemoryFormKept : Memory.wf State.reset.mem = true ∧ step State.reset = .next State.reset := ⟨by decide, rfl⟩

theorem witness_OwnerKeyChangesOnlyByToken : ∃ t, exec .tapReset State.reset = .next t := ⟨_, rfl⟩

theorem witness_NoCommandTouchesQueueOrVariant : ∃ t, exec .tapReset State.reset = .next t := ⟨_, rfl⟩

theorem witness_StandbyWritesAreDiscarded : ownerPortOf (.park .b) = some .b ∧ standby.decodes .b = true ∧
    Port.b ≠ standby.host.owner ∧ State.reset.decodes .b = false := by decide
end StepRunsTheFrontCommand

namespace SupplyLimitsAndExcursions
theorem witness_SupplyLimitsAndExcursions :
    (((4199 : BitVec 16).toNat < 4200 ∨ 6200 < (4199 : BitVec 16).toNat) ∧ ready.upd.staging = none ∧ ready.reh.spilling = false) ∧
    (ready.glb.st ≠ .off ∧ 4200 ≤ (4200 : BitVec 16).toNat ∧ (4200 : BitVec 16).toNat < 4400 ∧ ready.pwr.excursion = false) ∧
    (6000 < (6200 : BitVec 16).toNat ∧ (6200 : BitVec 16).toNat ≤ 6200 ∧
      ({ ready with pwr := { ready.pwr with excursion := true } }).pwr.excursion = true) := by decide

theorem witness_ThermalTripAndRelease :
    (ready.glb.st ≠ .off ∧ 110 ≤ maxByte 0x006E0000 0) ∧
    (maxByte 0 0x6D < 110 ∧ ({ ready with pwr := { ready.pwr with therm := true } }).pwr.therm = true ∧ 100 ≤ maxByte 0 0x6D) ∧
    (95 ≤ maxByte 0 95 ∧ maxByte 0 94 < 95) ∧
    ({ ready with pwr := { ready.pwr with trip := true } }).pwr.trip = true := by decide

theorem witness_HoldAndMotionPins :
    (ready.glb.st ≠ .off ∧ false ≠ ready.pin.pwrHoldN ∧ false ≠ ready.pin.motionN ∧ ready.upd.staging = none) ∧
    (staging.pin.pwrHoldN = true ∧ staging.upd.staging = some (.fw true fwImage)) ∧
    (stagingCfg.pin.motionN = true ∧ stagingCfg.upd.staging = some (.cfg true cfgImage)) :=
  ⟨by decide, ⟨rfl, rfl⟩, rfl, rfl⟩

theorem witness_ConfiguredPins :
    (({ ready with pin := { ready.pin with cfg := 0x200045 } }).pinFunc 0 = 5) ∧
    (({ ready with pin := { ready.pin with cfg := 0x200045 } }).pinFunc 1 = 4) ∧
    (({ ready with pin := { ready.pin with cfg := 0x200045 } }).pinFunc 5 = 2) ∧
    (ready.pinFunc 3 ≠ 5 ∧ ready.pinFunc 3 ≠ 4) := by decide

theorem witness_ReferenceLostAndRestored : (ready.glb.st ≠ .off ∧ ready.glb.holdover = false) ∧
    ({ ready with glb := { ready.glb with holdover := true } }).glb.holdover = true := by decide

theorem witness_ParkAndWake : (ready.decodes .a = true ∧ Port.a = ready.host.owner ∧ ready.glb.st = .ready) ∧
    (let s := { ready with glb := { ready.glb with st := .park } }
     s.decodes .a = true ∧ Port.a = s.host.owner ∧ s.glb.st = .park ∧ s.glb.st ≠ .ready) ∧ ready.glb.st ≠ .park := by decide

theorem witness_GatingMachine : (ready.decodes .a = true ∧ Port.a = ready.host.owner) ∧
    (31, Gateable.cluster 63) ∈ gateFunctions 1 ∧ (1 : Fin 3) ≠ 2 ∧ (7, Gateable.link 7) ∈ gateFunctions 2 ∧
    (⟨3, true⟩ : GateSt).state = 3 := by decide
end SupplyLimitsAndExcursions

namespace SmbusReads
theorem witness_SmbusReads : ({ ready with pwr := { ready.pwr with alert := true } }).pwr.alert = true ∧
    ready.pwr.alert = false := by decide

theorem witness_TapInstructions : (ready.glb.st ≠ .off ∧ (0x100 : BitVec 32).toNat % 4 = 0) ∧
    (ready.pin.perstA = false ∧ ready.pin.perstB = false) ∧
    ({ ready with pin := { ready.pin with perstB := true } }).pin.perstB = true := by decide

theorem witness_PortResetsAndPowerStates :
    (ready.glb.st ≠ .off ∧ ready.host.run = none ∧ Port.b ≠ ready.host.owner ∧ Port.a = ready.host.owner) ∧
    ((ready.port .a).linkUp = true ∧ (ready.port .a).d3hot = false) := by decide

theorem witness_ConfigurationRequests : State.reset.glb.st = .off ∧
    ({ ready with glb := { ready.glb with st := .boot } }).glb.st = .boot ∧ ready.glb.st ≠ .off ∧ ready.glb.st ≠ .boot := by decide
end SmbusReads

namespace StartsEndInReadyOrSafe
theorem witness_StartsEndInReadyOrSafe_identity : offState.glb.st = .off ∧ offState.pwr.trip = false ∧
    ({ goodEnv with pufOk := false } : BootEnv).pufOk = false := by decide
theorem witness_StartsEndInReadyOrSafe_empty : goodEnv.pufOk = true ∧ State.reset.upd.flash.ptr.trial = false ∧
    (State.reset.upd.flash.fwSlot State.reset.upd.flash.ptr.fw).isNone = true ∧ State.reset.reh.spilling = false ∧
    State.reset.glb.st = .off := by decide
theorem witness_StartsEndInReadyOrSafe_slots : booted.1.trial = false ∧ booted.2.checkFw booted.1.fwB = .good goodFw ∧
    bootedFw.upd.flash.cfgSlot booted.1.cfgB = some cfgImage := ⟨by decide +kernel, by decide +kernel, rfl⟩
theorem witness_StartsEndInReadyOrSafe_ready : bootedFw.loaderFails (some cfgImage) = [] ∧
    (∀ k < 16, (bootedCfg.stkAt k).state ≠ 3) ∧ goodEnv.selfTestFail = none := by decide +kernel
theorem witness_StartsEndInReadyOrSafe_restart : ready.decodes .a = true ∧ Port.a = ready.host.owner ∧ ready.glb.st = .ready ∧
    ({ ready with glb := { ready.glb with st := .park } }).decodes .a = true := by decide
end StartsEndInReadyOrSafe

namespace StagingCourse
def held : State := { ready with pin := { ready.pin with pwrHoldN := true, motionN := true } }
theorem witness_StagingCourse : (held.decodes .a = true ∧ Port.a = held.host.owner ∧ (held.setUpdCmd 1).updReason = none ∧
    (held.setUpdCmd 2).updReason = none ∧ held.upd.len.toNat ≤ 0x4000000 ∧ held.upd.floor ≤ fwImage.svn ∧ held.upd.staging = none) ∧
    staging.upd.staging = some (.fw true fwImage) ∧ stagingCfg.upd.staging = some (.cfg true cfgImage) ∧
    staging.reh.spilling = false ∧ (staging.decodes .a = true ∧ Port.a = staging.host.owner) :=
  ⟨by decide, rfl, rfl, by decide, by decide⟩

def staged : State := { held with upd := { held.upd with flash := { held.upd.flash with slotState := 0x490 } } }
def onTrial : State := { ready with glb := { ready.glb with trial := true }, upd := { ready.upd with ptr := { PtrRec.slotsA with trial := true } } }
theorem witness_ActivateConfirmSave :
    (staged.decodes .a = true ∧ Port.a = staged.host.owner ∧ (staged.setUpdCmd 0).updReason = none ∧ staged.upd.ptr.trial = false ∧
      staged.upd.flash.slotCode (slotIndex false true) = 2 ∧ staged.upd.flash.slotCode (slotIndex true true) = 2 ∧
      staged.minFwBad true true = false) ∧
    (onTrial.decodes .a = true ∧ Port.a = onTrial.host.owner ∧ onTrial.trialReads = true ∧ onTrial.upd.ptr.trial = true) ∧
    (ready.trialReads = false ∧ ready.copy0Runs = true ∧ ready.upd.ptr.trial = false) ∧
    ({ ready with upd := { ready.upd with setFormat := 7 } }).copy0Runs = false := by decide

theorem witness_MailboxOperations : (ready.decodes .a = true ∧ (ready.port .a).mbxRun = none ∧ Port.a = ready.host.owner) ∧
    (ready.upd.flash.ownerKey = none ∧ ready.glb.st = .ready) ∧
    ({ ready with upd := { ready.upd with flash := { ready.upd.flash with ownerKey := some [1] } } }).upd.flash.ownerKey ≠ none ∧
    (({ ready with portA := { ready.portA with mbxRun := some (0, [7]) } }).port .a).mbxRun = some (0, [7]) := by decide
end StagingCourse

namespace HostMemoryWindows
theorem witness_HostMemoryWindows : (ready.decodes .a = true ∧ Port.a = ready.host.owner ∧ ready.glb.st = .ready) ∧
    (ready.apertureOk ((ready.port .a).apBase + 0) 40 = true ∧ (ready.readSpan ((ready.port .a).apBase + 0) 40 3).1 = true ∧
      ready.apertureOk 0x8000000000 40 = false ∧ Memory.wf ready.mem = true) ∧
    (let b := { ready with glb := { ready.glb with st := .boot } }
     b.decodes .a = true ∧ b.glb.st = .boot) ∧
    (let r := { ready with glb := { ready.glb with st := .run } }
     r.decodes .a = true ∧ r.glb.st = .run ∧ (r.place 0).isStack = true ∧ (r.place 39).isStack = true) := by decide +kernel

def ringOn : HostRingSt := ⟨0, 6, true, 0, 0⟩
def rings : State := { ready with host := { ready.host with adm := ringOn, cmd := ringOn, res := ringOn, evt := ringOn } }
theorem witness_RingRegistersAndDoorbells : (rings.decodes .a = true ∧ Port.a = rings.host.owner ∧ rings.host.adm.en = true ∧
      ((64 : Word) - rings.host.adm.head).toNat ≤ rings.host.adm.entries ∧
      ¬((65 : Word) - rings.host.adm.head).toNat ≤ rings.host.adm.entries ∧
      (rings.host.res.tail - (0 : Word)).toNat ≤ rings.host.res.entries) ∧
    ((ready.host.ring .result).en = false ∧ (rings.host.ring .result).en = true ∧ ready.decodes .a = true ∧ Port.a = ready.host.owner) ∧
    ((0x106 : Word).getLsbD 8 = true ∧ (0x106 : Word).toNat % 32 = 6 ∧ (0x110 : Word).toNat % 32 = 16 ∧
      (0x105 : Word).toNat % 32 = 5 ∧ (0x105 : Word).getLsbD 8 = true ∧ (6 : Word).getLsbD 8 = false ∧
      (rings.host.ring .result).log2n.toNat = 6) ∧ rings.host.cmd.en = true := by decide

def claimedReady : State := { standby with host := { standby.host with claimed := true } }
theorem witness_HeartbeatAndOwnership : (ready.decodes .a = true ∧ Port.a = ready.host.owner ∧ 1 ≤ ready.host.limit.toNat ∧
      ready.glb.st ≠ .off ∧ ready.glb.st ≠ .boot ∧ ready.host.age ≠ 0xFFFFFFFF ∧
      ready.host.age.toNat + 1 < ready.host.limit.toNat) ∧
    (let l := { ready with host := { ready.host with limit := 1 } }
     l.host.limit.toNat ≤ l.host.age.toNat + 1 ∧ l.host.lapsed = false ∧
       ({ l with host := { l.host with lapsed := true } }).host.lapsed = true) ∧
    (standby.decodes .b = true ∧ Port.b ≠ standby.host.owner ∧ standby.host.claimed = false ∧ standby.host.lapsed = false ∧
      standby.host.offer = false ∧ ({ standby with host := { standby.host with offer := true } }).host.offer = true) ∧
    (claimedReady.host.claimed = true ∧ claimedReady.glb.st ≠ .run ∧ claimedReady.host.run = none ∧
      claimedReady.upd.staging = none ∧ claimedReady.host.cmd.tail = claimedReady.host.cmd.head ∧ claimedReady.host.evtq = []) :=
  ⟨by decide, by decide, by decide, by decide, by decide, by decide, rfl, by decide, by decide⟩

theorem witness_RegisterWrites : (ready.decodes .a = true ∧ Port.a = ready.host.owner ∧ (300 : Word).toNat % 1024 = 300 ∧
      (600 : Word).toNat % 1024 = 600 ∧ (299 : Word).toNat % 1024 < 300 ∧ 600 < (601 : Word).toNat % 1024) ∧
    (standby.decodes .b = true ∧ Port.b ≠ standby.host.owner) ∧
    ((regAt (0x4 : BitVec 28).toNat).1 = .glb ∧ (regAt (0xF0000 : BitVec 28).toNat).1 = .hole) ∧
    ((ready.windowAt 0).state = 0 ∧ (ready.windowAt 47).pending = false) := by decide +kernel
end HostMemoryWindows

namespace AdmissionEntries
def admitOf (slot kind : Byte) : List Byte := withCrc ([1, slot, kind, 2] ++ leBytes 4 100 ++ leBytes 8 7 ++ leBytes 4 0 ++
  leBytes 4 (if kind = 1 then 0 else 3) ++ leBytes 8 0 ++ leBytes 8 0 ++ leBytes 4 64 ++ leBytes 4 1 ++ leBytes 8 9 ++ leBytes 4 0)
def opOf (op slot : Byte) : List Byte := withCrc ([op, slot, 0, 2] ++ List.replicate 36 0 ++ leBytes 4 64 ++ leBytes 4 1 ++ leBytes 12 0)
def admitting : State := { ready with
  portA := { ready.portA with linkUp := true, command := 4 },
  host := { ready.host with adm := ⟨0, 6, true, 0, 4⟩ } }
def admitted : State := { admitting with slots := [(5, { SlotSt.reset with state := 2, kind := true })] }
theorem witness_AdmissionEntries_admit : admitting.admWaiting = true ∧ byteAt (admitOf 5 1) 0 = 1 ∧ admitting.isHead = true ∧
    admitting.admitOk (admitOf 5 1) = true ∧ admitting.admitOk (admitOf 5 0) = true ∧ admitted.admitOk (admitOf 5 1) = false := by decide +kernel
theorem witness_AdmissionEntries_others : admitted.admWaiting = true ∧ entryCheckOk (opOf 2 5) = true ∧ (admitted.slot 5).state ≠ 0 ∧
    (admitted.slot 6).state = 0 ∧ entryCheckOk [2, 5] = false ∧ admitted.inputOk (opOf 3 5) = true ∧
    admitted.inputOk (opOf 3 6) = false ∧ ({ admitted with tick := { admitted.tick with cpos := 1 } }).isHead = false ∧
    admitted.bindOk (opOf 4 5) = true ∧ admitted.bindOk (opOf 4 6) = false ∧ 4 < byteAt (opOf 5 5) 0 := by decide +kernel
end AdmissionEntries

namespace HostCommands
def cmdOf (op : Byte) (daddr len : Nat) : List Byte := withCrc ([op] ++ List.replicate 7 0 ++ leBytes 8 0 ++ leBytes 8 daddr ++
  leBytes 8 len ++ List.replicate 16 1 ++ leBytes 8 77 ++ leBytes 4 0)
def commanding : State := { ready with
  portA := { ready.portA with linkUp := true, command := 4 },
  host := { ready.host with cmd := ⟨0, 6, true, 0, 4⟩ } }
def taken : State := { commanding with host := { commanding.host with cmd := ⟨0, 6, true, 1, 4⟩ } }
theorem witness_HostCommands : commanding.cmdWaiting = true ∧ byteAt (cmdOf 1 64 64) 0 = 1 ∧ entryCheckOk (cmdOf 1 64 64) = true ∧
    entryCheckOk [1] = false ∧ 4 < byteAt (cmdOf 9 0 0) 0 ∧ entryCheckOk (cmdOf 9 0 0) = true ∧ leAt (cmdOf 3 33 64) 16 8 % 32 ≠ 0 ∧
    leAt (cmdOf 1 64 64) 16 8 % 32 = 0 ∧ leAt (cmdOf 1 64 64) 24 8 = 64 ∧ commanding.cmdAllowed 1 64 = true ∧
    ({ commanding with glb := { commanding.glb with st := .safe } }).cmdAllowed 1 64 = false ∧
    taken.firstHole 64 2 = none ∧ taken.firstHole 0x8000000000 2 = some 0x8000000000 ∧
    (repeatBytes (((cmdOf 3 64 64).drop 32).take 8) 8).length = 64 ∧ (taken.readEach 64 0 2).1 = none ∧
    ({ taken with stk := [(0, { StkSt.reset with dead := List.range 256 })] }.readEach 64 0 2).1 = some 0 := by decide +kernel
theorem witness_HostCommands_done : ({ taken with host := { taken.host with run := some ⟨1, 0, 0, 7, 64, 64⟩ } }).host.run =
    some ⟨1, 0, 0, 7, 64, 64⟩ := by decide
end HostCommands

namespace ResultsEventsAndVectors
def writing : State := { ready with
  portA := { ready.portA with linkUp := true, command := 4, msixEnable := true, msixPend := 4, msixTable := [(11, 0)] },
  host := { ready.host with
    res := ⟨0, 6, true, 0, 63⟩, evt := ⟨0, 6, true, 0, 64⟩, resq := [⟨5, 0, 0, 0, 0, 0, 0, 2, true, false⟩],
    evtq := [⟨0x1006, 0xFFFF, 0, 0, 0, 0⟩] } }
theorem witness_ResultsEventsAndVectors : (writing.host.resq = [⟨5, 0, 0, 0, 0, 0, 0, 2, true, false⟩] ∧ writing.host.res.en = true ∧
      writing.ownerPort.canIssue = true ∧ (writing.host.res.tail - writing.host.res.head).toNat < writing.host.res.entries) ∧
    (writing.host.evtq = [⟨0x1006, 0xFFFF, 0, 0, 0, 0⟩] ∧
      ¬(writing.host.evt.tail - writing.host.evt.head).toNat < writing.host.evt.entries) ∧
    (ready.host.resq = [] ∧ ready.host.evtq = [] ∧ ready.host.vec0Due = false) ∧
    ((writing.port .a).msixPend.getLsbD 2 = true ∧ (writing.port .a).canMsix 2 = true ∧ (writing.port .a).msixPend.getLsbD 3 = false ∧
      (ready.port .a).canMsix 2 = false) := by decide
end ResultsEventsAndVectors

namespace CuesAreTaken
theorem witness_CuesAreTaken_timer : ready.reh.replay = none ∧ ready.tick.src = 0 ∧ ready.tick.running = none ∧ ready.tick.held = [] ∧
    ready.tick.lastTaken = none ∧ ready.pwr.holdFrom = none ∧ ready.readyOrRun = true ∧ State.reset.readyOrRun = false ∧
    State.reset.tick.held = [] ∧ ({ ready with tick := { ready.tick with lastTaken := some 0 } }).tick.lastTaken = some 0 := by decide
def edged : State := { ready with pin := { ready.pin with cfg := 0x10000 }, tick := { ready.tick with src := 1 } }
theorem witness_CuesAreTaken_edge : edged.readyOrRun = true ∧ edged.pinFunc 4 = 1 ∧ edged.tick.src = 1 ∧ edged.pin.lastTickIn = none ∧
    edged.tick.held.length < 2 ∧ edged.pwr.holdFrom = none ∧ edged.reh.replay = none ∧ edged.pwr.cut = false ∧ edged.pwr.cutRun = false ∧
    2 ≤ ({ edged with tick := { edged.tick with held := [⟨0, 0, false⟩, ⟨1, 1, false⟩] } }).tick.held.length := by decide
theorem witness_CuesAreTaken_flit : ∃ u, linked.takeFlits 0 hdr false = .here u ∧ hdr.dst = u.win.linkId ∧ u.readyOrRun = true ∧
    u.reh.replay = none ∧ u.win.bypassReg.getLsbD 0 = false ∧ u.tick.src = 2 ∧ (u.lnkAt 4).isUp = false ∧ u.tick.held.length < 2 ∧
    u.pwr.holdFrom = none := ⟨_, rfl, by decide, by decide, by decide, by decide, by decide, by decide, by decide, by decide⟩
theorem witness_CuesAreTaken_period : periodOk 200000 (250000 % 2 ^ 27) 300000 = true ∧ periodOk 200000 1 300000 = false ∧
    (ready.decodes .a = true ∧ Port.a = ready.host.owner ∧ ready.glb.st = .ready) := by decide
end CuesAreTaken

namespace CueReleaseOrHold
def cued : State := { ready with tick := { ready.tick with held := [⟨0, 0, false⟩] } }
theorem witness_CueReleaseOrHold : cued.tick.held = [⟨0, 0, false⟩] ∧ cued.readyOrRun = true ∧ cued.tick.running = none ∧
    (0 + 120 ≤ 200) ∧ cued.refetchHolds = false ∧ cued.chainHeld ⟨0, 0, false⟩ = false ∧ cued.powerHeld 200 = false ∧
    cued.twin.state ≠ 2 ∧ cued.twin.state ≠ 3 ∧ cued.reh.replay = none ∧ (cued.beforePlan ⟨0, 0, false⟩ [] 200).planTick.1.records = [] ∧
    ({ cued with tick := { cued.tick with pend := [(0, ⟨0, 0, 0, []⟩)] } }).chainHeld ⟨0, 0, false⟩ = true ∧
    ({ cued with tick := { cued.tick with lastRelease := some 0 }, pwr := { cued.pwr with exempt := false, energy := 600000, capInForce := 300 } }).powerHeld 200 = true := by
  decide +kernel
def later : State := { cued with
  tick := { cued.tick with
    cpos := 1, clenM1 := 1, held := [⟨1, 0, false⟩],
    upstream := [(0, ⟨0, 0, 0, 2, 1, 0, 0, [⟨0, true, false, true, 1, 0, 0⟩], true⟩)] }
  slots := [(0, { SlotSt.reset with local_ := some [] })] }
theorem witness_CueReleaseOrHold_later : later.tick.held = [⟨1, 0, false⟩] ∧ later.isHead = false ∧ later.chainHeld ⟨1, 0, false⟩ = false ∧
    later.powerHeld 200 = false ∧ (later.beforePlan ⟨1, 0, false⟩ [] 200).planTick.1.stepM ≠ 0 := by decide +kernel
end CueReleaseOrHold

namespace TicksEnd
def ticking : State := { ready with tick := { ready.tick with running := some run0, tickMax := 1000, period := 600 } }
theorem witness_TicksEnd : ticking.tick.running = some run0 ∧ ticking.curtainDue run0 = true ∧ run0.abandoned = false ∧
    (run0.released + ticking.tick.tickMax.toNat ≤ 1000) ∧ ready.tick.running = none ∧
    ({ ticking with prec := { ticking.prec with squash := some 0 } }).curtainDue run0 = false := by decide +kernel
def pended : State := { ready with
  tick := { ready.tick with held := [⟨0, 0, false⟩], tickMax := 1000, period := 600, pend := [(0, ⟨0, 1, 0, []⟩)] } }
theorem witness_TicksEnd_hold : pended.tick.held = [⟨0, 0, false⟩] ∧ pended.groupOf 0 = 0 ∧
    pended.tick.pend.find? (fun e => e.1 == 0) = some (0, ⟨0, 1, 0, []⟩) ∧ pended.tick.running = none ∧
    0 + (pended.tick.tickMax.toNat - pended.tick.period.toNat) ≤ 400 := by decide +kernel
theorem witness_TicksEnd_slots : (1 : BitVec 256).getLsbD 0 = true ∧ (0 : BitVec 256).getLsbD 0 = false := by decide
end TicksEnd

namespace StepMessagesInAChain
def chained : State := { linked with
  tick := { linked.tick with cpos := 1, clenM1 := 1 }
  slots := [(0, { SlotSt.reset with state := 3 })] }
def msg0 : StepMsg := ⟨0, 0, 0, 2, 1, 0, 0, [⟨0, false, false, false, 1, 0, 7⟩], true⟩
theorem witness_StepMessagesInAChain : ∃ u, chained.takeFlits 0 hdr false = .here u ∧ hdr.dst = u.win.linkId ∧
    u.win.bypassReg.getLsbD 0 = false ∧ u.isHead = false ∧ u.readyOrRun = true ∧
    u.tick.upstream.find? (fun e => e.1 == msg0.tick.toNat) = none ∧ msg0.checkOk = true ∧
    (∀ r ∈ (onlyMsg msg0 u.served).records, r.first = false → (u.slot r.slot.val).com.step = r.step) ∧
    u.pendingFor (onlyMsg msg0 u.served) = none :=
  ⟨_, rfl, by decide, by decide, by decide, by decide, by decide, by decide, by decide +kernel, by decide +kernel⟩
theorem witness_StepMessagesInAChain_fault : ∃ u, ({ chained with slots := [(0, { SlotSt.reset with state := 3, com := ⟨5, 0, 0, 0⟩ })] } : State).takeFlits 0 hdr false = .here u ∧
    hdr.dst = u.win.linkId ∧ (onlyMsg msg0 u.served).records = [⟨0, false, false, false, 1, 0, 7⟩] ∧ (u.slot 0).com.step ≠ 0 ∧
    (u.slot 0).state ≠ 6 := ⟨_, rfl, by decide, by decide +kernel, by decide +kernel, by decide +kernel⟩
def headed : State := { linked with tick := { linked.tick with
  cpos := 0, clenM1 := 1, pend := [(0, ⟨0, 1, 0, [⟨0, false, false, false, 1, 0, 0⟩]⟩)] } }
theorem witness_StepMessagesInAChain_curtain : ∃ u, headed.takeFlits 0 hdr false = .here u ∧ hdr.dst = u.win.linkId ∧
    u.isHead = true ∧ (u.pendingFor (onlyMsg { msg0 with tick := 1 } u.served)).isSome = true ∧
    (u.slot 0).com.step = 0 := ⟨_, rfl, by decide, by decide, by decide +kernel, by decide +kernel⟩
end StepMessagesInAChain

namespace ReductionsAndVerdicts
def reporting : State := { ready with
  tick := { ready.tick with running := some run0, period := 250000, tickMax := 300000 },
  prec := { ready.prec with ctrl := 4, rrbForce := 100, invs := [(1, { InvSt.reset with cores := [0], shares := [⟨0, 0, 0x3F800000, 0, 1, 4, 0, [], true, true, []⟩] })] } }
def judged (reds : List Red) (inf : Nat) (rerun : Bool) : State := { reporting with
  prec := { reporting.prec with invs := [(1, { InvSt.reset with
    cores := [0], shares := [⟨0, 0, 0x3F800000, 0, inf, 4, 0, [], true, true, []⟩], reds := reds, rerun := rerun })] } }
theorem witness_Reductions : (reporting.invAt 1).cores ≠ [] ∧ (reporting.invAt 1).reds.length < (reporting.invAt 1).parts ∧
    (reporting.invAt 1).reportedAll 0 = true ∧ reporting.tickLive = true ∧ (ready.invAt 1).cores = [] ∧
    ready.verdictDue 1 = false := by decide +kernel
theorem witness_Verdicts : (judged [⟨0, 0, 0, 8⟩] 0 false).verdictDue 1 = true ∧ (judged [⟨0, 0, 0, 8⟩] 1 true).verdictDue 1 = true := by
  decide +kernel
theorem witness_Verdicts_trip : let s := judged [⟨0, 0, 0, 8⟩] 1 false
    s.verdictDue 1 = true ∧ trips (s.invAt 1).desc (s.layerAt 0) (s.invAt 1) = 1 ∧ s.watchEnabled = true ∧ s.affords 0 = true ∧
    trips (s.invAt 1).desc (s.layerAt 0) ((judged [⟨0, 0, 0, 8⟩] 0 false).invAt 1) = 0 := by decide +kernel
end ReductionsAndVerdicts

namespace SquashesConfirmationsAndSupply
def squashing : State := { ready with
  prec := { ready.prec with squash := some 2 },
  core := [(0, { CoreSt.reset with
    rings := [(1, { RingSt.reset with marks := [⟨2, false, 8, 4, 0⟩] })],
    seq := { SeqSt.reset with ckpts := [⟨2, 5, 0, 0, [], [], []⟩] } })] }
theorem witness_Squashes : ready.prec.squash = none ∧ squashing.prec.squash = some 2 ∧ squashing.listedCores.Nodup ∧
    core0 ∈ squashing.listedCores ∧ (squashing.seqAt core0).ckptFrom 2 = some ⟨2, 5, 0, 0, [], [], []⟩ ∧
    (squashing.seqAt ⟨0, 0, 1⟩).ckptFrom 2 = none ∧
    (squashing.ringAt core0 1).marks.find? (fun m => decide (2 ≤ m.epoch.toNat)) = some ⟨2, false, 8, 4, 0⟩ := by decide +kernel
def live : State := { ready with tick := { ready.tick with running := some run0, period := 250000, tickMax := 300000 } }
theorem witness_EpochConfirm : live.tickLive = true ∧ live.settledTo 0 = true ∧ ¬(ready.tickLive = true ∧ ready.settledTo 0 = true) ∧
    [(⟨1, false, 0, 0, 0⟩ : RingMark), ⟨3, false, 8, 4, 0⟩].any (fun m => decide (m.epoch.toNat ≤ 1)) = true ∧
    [(⟨1, false, 0, 0, 0⟩ : RingMark), ⟨3, false, 8, 4, 0⟩].filter (fun m => decide (1 < m.epoch.toNat)) = [⟨3, false, 8, 4, 0⟩] := by decide +kernel
theorem witness_ClrSticky : ready.owns .a := ⟨by decide, rfl⟩
def lowReady (allow : Bool) : State := { ready with
  prec := { ready.prec with ctrl := 1 },
  core := (List.range 16).map (fun n => (n, { CoreSt.reset with seq := { SeqSt.reset with bound := [lowBound allow] } })) }
theorem witness_Supply : (lowReady true).osEnabled = true ∧
    (clusterCores (⟨0, 0⟩ : ClusterId).num).all (fun d => (lowReady true).osLayer d == some true) = true ∧
    (lowReady true).euTask ⟨0, 0⟩ = false ∧ (lowReady false).osEnabled = true ∧
    (clusterCores (⟨0, 0⟩ : ClusterId).num).any (fun d => (lowReady false).osLayer d == some false) = true ∧ { ready with prec := { ready.prec with ctrl := 0 } }.osEnabled = false := by
  decide +kernel
end SquashesConfirmationsAndSupply

namespace SequencerControl
theorem witness_Control : (coding 0 atZero).issues core0 0 = true ∧ ready.issues core0 0 = false ∧
    (coding 0x0200000000000007 atZero).issues core0 2 = true ∧ (coding 0x0300400000000001 atZero).issues core0 3 = true ∧
    (coding 0x0400000000000000 atZero).issues core0 4 = true ∧ (coding 0x5000400000000000 atZero).issues core0 0x50 = true := by
  decide +kernel
theorem witness_Synchronisation : (coding 0x1000000000000000 { atZero with cueLatched := true }).issues core0 16 = true ∧
    (coding 0x1000000000000000 atZero).issues core0 16 = true ∧ (coding 0x1130000000000000 atZero).issues core0 17 = true ∧
    (coding 0x1200000000000009 atZero).issues core0 18 = true ∧ atZero.ckptFull 9 = false ∧
    (coding 0x1200000000000009 { atZero with epoch := 10 }).issues core0 18 = true ∧
    (coding 0x1200000000000009 { atZero with epoch := 9 }).issues core0 18 = true ∧
    (coding 0x1200000000000009 { atZero with ckpts := List.replicate 8 ⟨1, 0, 0, 0, [], [], []⟩ }).issues core0 18 = true ∧
    { atZero with ckpts := List.replicate 8 ⟨1, 0, 0, 0, [], [], []⟩ }.ckptFull 9 = true ∧
    (coding 0x51FF000000000000 atZero).issues core0 0x51 = true := by decide +kernel
def gathered : State := { (coding 0 atZero) with core := [(0, { CoreSt.reset with seq := { atZero with
  imem := [(0, 0)], state := 7, waitBar := some 3, arrivals := [(3, 1)] } })] }
theorem witness_Barrier : gathered.barrierOf core0 3 = some ⟨3, [⟨0, 0, 0⟩]⟩ ∧ ((gathered.seqAt core0).waitBar == some 3) = true ∧
    [(⟨0, 0, 0⟩ : CoreId)].Nodup ∧ Tab.get 0 (gathered.seqAt core0).arrivals 3 = 1 ∧ ((coding 0 atZero).seqAt core0).waitBar = none := by
  decide +kernel
theorem witness_SequencerStops : (coding 0xFF00000000000000 atZero).mayFetch core0 = true ∧
    (coding 0xFF00000000000000 atZero).illegalAt core0 = true ∧
    ((coding 0xFF00000000000000 atZero).seqAt core0).imemBad.contains 0 = false ∧
    (coding 0 { atZero with imemBad := [0] }).mayFetch core0 = true ∧
    ((coding 0 { atZero with imemBad := [0] }).seqAt core0).imemBad.contains 0 = true := by decide +kernel
end SequencerControl

namespace ScalarInstructions
theorem witness_Scalar : atZero.s = [(1, 5)] ∧ Tab.wf (0 : Word) atZero.s = true ∧ (coding 0x0508000000000000 atZero).issues core0 5 = true ∧
    (coding 0x0508001000000000 atZero).issues core0 5 = true ∧ (coding 0x0508002000000000 atZero).issues core0 5 = true ∧
    (coding 0x0508003000000000 atZero).issues core0 5 = true ∧
    (coding 0x0508004000000000 { atZero with bound := [lowBound true] }).issues core0 5 = true ∧
    (coding 0x0608000000000000 atZero).issues core0 6 = true ∧ (coding 0x0A08000000000000 atZero).issues core0 10 = true := by
  decide +kernel
theorem witness_ScalarMemory : let s := coding 0x0708000000000000 atZero
    let u := s.sbEnter core0 [] []
    s.issues core0 7 = true ∧ s.coreReach core0 0x40000000000 = true ∧
    (s.coreAt core0).sbFree [] [] (s.sbRange 0x40000000000 4) = true ∧ (u.workRead 0x40000000000 4).1 = true ∧
    (coding 0x0800020000000000 atZero).issues core0 8 = true ∧ (coding 0x0908000000000000 atZero).issues core0 9 = true := by
  decide +kernel
end ScalarInstructions

namespace BindAndEnd
theorem witness_Bind : let s := holding 0x0B00000000000001 atZero (leBytes 256 goodDesc.toNat)
    let u := s.sbEnter core0 [] []
    s.issues core0 11 = true ∧ s.coreReach core0 0x40000000000 = true ∧ (s.liveBounds core0).length < 4 ∧ atZero.ckptFull 1 = false ∧
    (s.coreAt core0).sbFree [] [] (s.sbRange 0x40000000000 256) = true ∧ (u.workRead 0x40000000000 256).1 = true ∧
    LayerDesc.checkOk (BitVec.ofNat 2048 (leNat (u.peek 0x40000000000 256))) = true := by decide +kernel
theorem witness_Bind_bad : let s := holding 0x0B00000000000001 atZero []
    s.issues core0 11 = true ∧ LayerDesc.checkOk (BitVec.ofNat 2048 (leNat (s.peek 0x40000000000 256))) = false ∧
    (coding 0x0B00000000000000 atZero).issues core0 11 = true ∧
    (coding 0x0B00000000000001 { atZero with epoch := 2 }).issues core0 11 = true ∧
    { atZero with ckpts := List.replicate 8 ⟨2, 0, 0, 0, [], [], []⟩ }.ckptFull 1 = true := by decide +kernel
theorem witness_End : (coding 0x0100000000000000 atZero).issues core0 1 = true ∧ (coding 0x0100000000000000 atZero).allDone core0 = true := by
  decide +kernel
end BindAndEnd

namespace MatrixInstructions
theorem witness_Matrix : let s := feeding 0x3000080000000000 (plainBound 0) goodRecord
    s.issues core0 0x30 = true ∧ (s.seqAt core0).bound.getLast? = some (plainBound 0) ∧ LayerDesc.pmode (plainBound 0).desc = 0 ∧
    s.inputTile core0 (plainBound 0) memTile = some memTile ∧ s.coreReach core0 0x40000000020 = true ∧ s.coreReach core0 0x40000000000 = true ∧
    (s.coreAt core0).heldBy false false 0 1 = false ∧ (s.recordOf core0 memTile).map TRec.ok = some true ∧
    LayerDesc.ctp (plainBound 0).desc = 0 ∧ (s.coreAt core0).sbFree [] [] (s.sbRange 0x40000000000 64) = true := by decide +kernel
theorem witness_Matrix_source : (feeding 0x3000080000000000 (plainBound 0) goodRecord).source core0 memTile = .mem 0x40000000020 := rfl
theorem witness_Matrix_all : ∀ e ∈ [(0x31, 1), (0x32, 2), (0x33, 3), (0x34, 4), (0x35, 0)],
    (feeding (BitVec.ofNat 64 (e.1 * 2 ^ 56 + 2 ^ 43)) (plainBound e.2) goodRecord).issues core0 e.1 = true ∧
    LayerDesc.pmode (plainBound e.2).desc = e.2 := by decide +kernel
theorem witness_Matrix_stops : (feeding 0x3000080000000000 (plainBound 1) goodRecord).issues core0 0x30 = true ∧
    (feeding 0x303F080000000000 (plainBound 0) goodRecord).issues core0 0x30 = true ∧ bitsOf 0x303F080000000000 53 49 = 31 ∧
    bitsOf 0x303F080000000000 48 43 = 33 ∧ (feeding 0x30800A0000000000 (plainBound 0) goodRecord).issues core0 0x30 = true ∧
    ((feeding 0x3080080000000000 (plainBound 0) goodRecord).coreAt core0).formatsFit true 0 1 = false ∧
    ((feeding 0x3000080000000000 (plainBound 0) []).recordOf core0 memTile).map TRec.ok = some false := by decide +kernel
end MatrixInstructions

namespace LoadsAndMoves
theorem witness_BankLoad : let s := moving 0x2000400000000000
    s.issues core0 0x20 = true ∧ s.loadBlocks core0 (moveTile 0x40000000000 1) 1 1 = some (some [[0x40000000000]]) ∧
    s.coreReach core0 0x40000000000 = true ∧ (s.coreAt core0).sbFree [] [] (s.sbRange 0x40000000000 2048) = true ∧
    (s.coreAt core0).loadQ = [] := by decide +kernel
def loadOp : LoadOp := ⟨1, 1, false, true, [0], [], 0, 1, [[0x40000000000]], none⟩
def loading : State := { (moving 0) with core := [(0, { CoreSt.reset with loadQ := [loadOp] })] }
theorem witness_BankLoadDone : (loading.coreAt core0).loadQ = [loadOp] ∧ (loading.coreAt core0).chainQ = [] ∧
    (loading.readAll [(0x40000000000, 2048)]).1 = true := by decide +kernel
theorem witness_Dma : let s := moving 0x2101000000000000
    s.issues core0 0x21 = true ∧ s.moveLen core0 0 1 (moveTile 0x40000000000 1) = 8 ∧ s.moveRoom core0 false = true ∧
    (s.coreAt core0).sbFree (s.sbRange 0x40000001000 8) (s.sbRange 0x40000000000 8) [] = true ∧
    ((s.sbEnter core0 (s.sbRange 0x40000001000 8) (s.sbRange 0x40000000000 8)).fetchMove core0 (.mem 0x40000000000) 8).1 = true := by
  decide +kernel
theorem witness_Dma_reach : (moving 0x2101000000000000).moveReach core0 false false 0x40000000000 = .ok ∧
    (moving 0x2101000000000000).moveReach core0 false true 0x40000001000 = .ok := ⟨rfl, rfl⟩
theorem witness_BlockMoves : let s := moving 0x2200000040000000
    s.issues core0 0x22 = true ∧ (moving 0x2300000040000000).issues core0 0x23 = true ∧ s.moveRoom core0 false = true ∧
    (blockWords 0 0 0 0x40000000000 0).all (fun a => s.coreReach core0 a) = true ∧
    ((s.sbEnter core0 [] []).readWords (blockWords 0 0 0 0x40000000000 0)).1 = true := by decide +kernel
def moved : DmaOp := ⟨0x21, .core 0, 0, 0, 0, none, 0, [], false, none, false, false⟩
theorem witness_DmaDone : ({ CoreSt.reset with dmaQ := [moved] }).dmaQ = [moved] ∧ moved.bytes = [] ∧ moved.window = none ∧
    moved.ring = none ∧ moved.blocked = false := by decide +kernel
end LoadsAndMoves

namespace RingInstructions
def ringed (r : RingSt) (w : DWord) : State := { (moving w) with core := [(0, { ((moving w).coreAt core0) with rings := [(2, r)] })] }
def openRing : RingSt := { RingSt.reset with en := true, spec := true, esize := 1 }
theorem witness_RingSteps : (ringed openRing 0).hasTurn core0 2 (.core 0) = true ∧ openRing.markStep 0 0 false = .plain ∧
    openRing.fullFor 8 = false ∧ openRing.fullFor 129 = true ∧ openRing.markStep 0 1 false = .mark ⟨1, false, 0, 0, 0⟩ ∧
    { openRing with marks := [⟨2, false, 0, 0, 0⟩] }.markStep 0 1 false = .wait ∧ { openRing with tail := 8 }.readable = 8 ∧
    (ringed { openRing with nprodM1 := 1 } 0).hasTurn core0 2 (.core 0) = false := by decide +kernel
def pushTile : TileDesc := BitVec.ofNat 256 (0x40000000000 + 2 ^ 44 + 2 * 2 ^ 45)
def pushing (r : RingSt) (w : DWord) : State := { (coding w { atZero with t := [(0, pushTile), (1, moveTile 0x40000000000 1)] }) with
  core := [(0, { CoreSt.reset with
    rings := [(2, r)], seq := { atZero with t := [(0, pushTile), (1, moveTile 0x40000000000 1)], imem := [(0, w)], state := 1 } })] }
theorem witness_Push : let s := pushing openRing 0x2401000000000000
    s.issues core0 0x24 = true ∧ s.ringOwner core0 pushTile = core0 ∧ (s.ringAt core0 2).en = true ∧ s.coreReach core0 0x40000000000 = true ∧
    s.moveRoom core0 false = true ∧ (s.coreAt core0).sbFree [] [] (s.sbRange 0x40000000000 8) = true ∧
    ((s.sbEnter core0 [] []).readSource (.mem 0x40000000000) 8).1 = true ∧
    (pushing RingSt.reset 0x2401000000000000).issues core0 0x24 = true := by decide +kernel
theorem witness_Pop : let s := pushing { openRing with tail := 8, ctail := 8 } 0x2520000000000001
    s.issues core0 0x25 = true ∧ (s.coreAt core0).readsRing 2 = false ∧ s.entriesBytes core0 2 0 8 1 = some (some 8) ∧
    (s.releaseBytes core0 2 0 8).isDone = true ∧ (pushing openRing 0x2520000000000001).issues core0 0x25 = true ∧
    openRing.readable < 8 := by decide +kernel
def stalledPush : DmaOp := ⟨0x24, .core 0, 0, 0, 0, some (0, 2), 0, [1, 2, 3, 4, 5, 6, 7, 8], true, none, false, false⟩
def heldBack : State := { (pushing openRing 0) with core := [(0, { ((pushing openRing 0).coreAt core0) with dmaQ := [stalledPush] })] }
theorem witness_PushResume : heldBack.pushHeld core0 = true ∧ ready.pushHeld core0 = false ∧
    (heldBack.retryMoves [stalledPush]).1 = [{ stalledPush with bytes := [], blocked := false }] ∧
    ((heldBack.retryMoves [stalledPush]).2.coreAt core0).dieQ = [] ∧ ((heldBack.retryMoves [stalledPush]).2.coreAt core0).convOut = [] ∧
    ((heldBack.retryMoves [stalledPush]).2.coreAt core0).convQ = [] ∧
    ((heldBack.retryMoves [stalledPush]).2.cluAt 0).waiting = [] := by decide +kernel
theorem witness_PushResume_links : ∀ p, ((heldBack.retryMoves [stalledPush]).2.lnkAt p).stalled = [] := fun _ => rfl
def popWaits : State := { (pushing { openRing with tail := 8, ctail := 8 } 0x2520000000000001) with
  core := [(0, { ((pushing { openRing with tail := 8, ctail := 8 } 0x2520000000000001).coreAt core0) with
    seq := { ((pushing { openRing with tail := 8, ctail := 8 } 0x2520000000000001).seqAt core0) with state := 6 } })] }
theorem witness_ConsumerResume : (popWaits.seqAt core0).state = 6 ∧ ((popWaits.reissue core0).seqAt core0).state ≠ 6 ∧
    (ready.seqAt core0).state ≠ 6 := by decide +kernel
end RingInstructions

namespace EnginePassesAndChain
theorem witness_PlaneFill : let o := chainOp rows32
    let s := tiled (passing 1 EngineSt.reset o)
    (s.engAt core0 1).buf0 = none ∧ s.tickLive = true ∧ EngineSt.reset.nextFill 1 (s.coreAt core0).chainQ = some (o, 0) ∧
    (s.opTile o).isSome = true ∧ ready.tickLive = false := by decide +kernel
theorem witness_RowsumStep : let s := passing 1 { EngineSt.reset with buf0 := some (fullBuf true) } (chainOp (lowBound false))
    (s.engAt core0 1).front = some (fullBuf true, false) ∧ (s.coreAt core0).chainOp 1 = some (chainOp (lowBound false)) ∧
    (s.cluAt core0.cluster.num).vsup = 0 := by decide +kernel
theorem witness_PassStart : let o := chainOp rows32
    let x : EngineSt := { EngineSt.reset with buf0 := some (fullBuf false), validA := 255 }
    let s := passing 0 x o
    (s.engAt core0 0).front = some (fullBuf false, false) ∧ s.tickLive = true ∧ (o.form 0).bad (LayerDesc.gsz o.bound.desc) (LayerDesc.rows o.bound.desc) = false ∧
    (s.coreAt core0).loadsBefore 0 false 1 = false ∧ x.planesOk o (o.form 0) = true ∧ x.parityOk o (o.form 0) = true ∧
    (o.tables 0).length = 1 ∧ (s.readAll (o.tables 0)).1 = true ∧ (s.readAll (o.tables 0)).2.core = s.core ∧
    EngineSt.reset.planesOk o (o.form 0) = false ∧ ({ x with bad := [0] } : EngineSt).parityOk o (o.form 0) = false ∧
    ((chainOp { rows32 with pmode := 5 }).form 0).bad 0 32 = true := by decide +kernel
theorem witness_PassStart_waits : let s := passing 0 EngineSt.reset (chainOp rows32)
    let k : CoreSt := s.coreAt core0
    let t : State := { s with
      clu := [(0, { CluSt.reset with vsup := 1 })], core := [(0, { k with loadQ := [⟨0, 1, false, false, [], [], 0, 1, [], none⟩] })] }
    (s.engAt core0 0).front = none ∧ (EngineSt.reset.nextFill 0 (s.coreAt core0).chainQ) ≠ none ∧ (t.cluAt core0.cluster.num).vsup ≠ 0 ∧
    ((chainOp rows32).form 0).fast = false ∧ (t.coreAt core0).loadsBefore 0 false 1 = true := by decide +kernel
theorem witness_GroupSumHandoff : let o := chainOp rows32
    let x : EngineSt := { EngineSt.reset with pass := some ⟨fullBuf false, false, 0, []⟩ }
    let s := passing 0 x o
    (s.engAt core0 0).pass = some ⟨fullBuf false, false, 0, []⟩ ∧ (s.coreAt core0).chainOp 1 = some o ∧ (o.form 0).pairs.length = 1 ∧
    x.contribs.length < 8 ∧ 8 ≤ (List.replicate 8 (⟨1, 0, []⟩ : Tagged)).length ∧
    (({ o with aw := 16 } : ChainOp).form 0).pairs.length = 2 := by decide +kernel
theorem witness_ChainLinkAdd : let o := chainOp rows32
    let x : EngineSt := { EngineSt.reset with sums := [⟨1, 0, accZeros⟩], contribs := [⟨1, 0, accZeros⟩] }
    let s := passing 1 x o
    let t := passing 15 x { o with engines := 16 }
    (s.engAt core0 1).sums = [⟨1, 0, accZeros⟩] ∧ (s.engAt core0 1).contribs = [⟨1, 0, accZeros⟩] ∧ (s.coreAt core0).chainOp 1 = some o ∧
    (s.engAt core0 2).sums.length < 8 ∧ o.engines ≤ 2 ∧ 1 < o.engines ∧ (t.engAt core0 15).sums ≠ [] ∧ (t.coreAt core0).chainOp 1 ≠ none := by
  decide +kernel
end EnginePassesAndChain

namespace EuWork
def verifyBound (pmu : Nat) : Bound := { lowBound true with
  prm := 2, desc := BitVec.ofNat 2048 (32 * 2 ^ 43 + 1 * 2 ^ 64 + 2 * 2 ^ 163 + pmu * 2 ^ 171 + 0x40000003000 * 2 ^ 1024) }
def makeUpOp (pmu : Nat) : EuOp := ⟨1, 1, 0, 1, 0, false, 0, verifyBound pmu, [chainOp (verifyBound pmu)], 0, []⟩
def probed (pmu : Nat) (l : List ProbeRes) (q : List ChainOp) : State := { coding 0 atZero with
  cfg := { ready.cfg with invSlots := [(1, [3])] }, mem := [(0x40000003070, 1)],
  slots := [(3, { SlotSt.reset with kind := true, com := { SlotSt.reset.com with step := 1 } })],
  core := [(0, { CoreSt.reset with euQ := [makeUpOp pmu], probes := l, chainQ := q })] }
theorem witness_MakeUp : let s := tiled (probed 1 [⟨1, 0, 0, []⟩] [])
    (s.coreAt core0).euQ.find? (fun e => e.kind == 1) = some (makeUpOp 1) ∧ (makeUpOp 1).ops.head? = some (chainOp (verifyBound 1)) ∧
    s.needsMakeUp core0 (makeUpOp 1) = some true ∧ (s.invAt 1).muOver = false ∧
    LayerDesc.pmu (makeUpOp 1).bound.desc = 1 ∧ Tab.get 0 (s.coreAt core0).madeUp 1 = 0 ∧
    (((s.coreAt core0).euQ.filter (fun x => x.kind == 1 && x.ord == 1)).filter (fun x => s.needsMakeUp core0 x == some true)).length = 1 ∧
    (s.coreAt core0).chainOp 1 = none := by decide +kernel
theorem witness_MakeUp_tile : let s := tiled (probed 1 [⟨1, 0, 0, []⟩] [])
    (s.opTile (chainOp (verifyBound 1))).isSome = true := by decide +kernel
theorem witness_MakeUp_over : let t := probed 0 [⟨1, 0, 0, []⟩] [chainOp (verifyBound 1)]
    t.needsMakeUp core0 (makeUpOp 0) = some true ∧ LayerDesc.pmu (makeUpOp 0).bound.desc = 0 ∧
    (t.coreAt core0).chainOp 1 = some (chainOp (verifyBound 1)) ∧ (chainOp (verifyBound 1)).landed.contains 0 = false := by decide +kernel
theorem witness_MakeUp_waits : (probed 1 [] []).needsMakeUp core0 (makeUpOp 1) = none ∧
    (coding 0 atZero).needsMakeUp core0 (makeUpOp 1) = some false ∧ ((coding 0 atZero).coreAt core0).euQ = [] := by decide +kernel
def probing (prm : BitVec 2) : State :=
  feeding 0x3600080000000000 { rows32 with prm := prm } (goodRecord ++ leBytes 8 (1 + 2 ^ 10 + 2 ^ 18 + 2 ^ 49))
theorem witness_Probe : let s := probing 2
    let v := s.sbEnter core0 [] []
    s.issues core0 0x36 = true ∧ (s.seqAt core0).bound.getLast? = some { rows32 with prm := 2 } ∧
    s.coreReach core0 0x40000000020 = true ∧ s.coreReach core0 0x40000000000 = true ∧ (s.recordOf core0 memTile).map TRec.ok = some true ∧
    (s.coreAt core0).sbFree [] [] (s.sbRange 0x40000000000 56) = true ∧ v.tileLen (.mem 0x40000000020) = 24 ∧
    (v.tileRead (.mem 0x40000000020) 24).1 = true ∧ (v.tileOf (.mem 0x40000000020) 1 32 8 false).isSome = true ∧
    (probing 0).issues core0 0x36 = true := by decide +kernel
theorem witness_Probe_source : (probing 2).source core0 memTile = .mem 0x40000000020 := rfl
def sampleOp (k : Nat) (v : List (List Acc)) : EuOp := ⟨k, 1, 0, 1, 0, false, 0, lowBound true, [], 0, v⟩
def sampling (k : Nat) (v : List (List Acc)) (l : List EuOp) : State := { coding 0 atZero with core := [(0, { CoreSt.reset with euQ := l ++ [sampleOp k v] })] }
theorem witness_UsSample : let s := sampling 2 [accZeros] []
    (s.coreAt core0).euQ.find? (fun e => e.kind == 2 && !e.vals.isEmpty) = some (sampleOp 2 [accZeros]) ∧
    (s.coreAt core0).euQ.any (fun x => x.kind == 1) = false ∧ ((sampling 2 [accZeros] [makeUpOp 1]).coreAt core0).euQ.any (fun x => x.kind == 1) = true := by
  decide +kernel
theorem witness_DeltaCheck : let s := sampling 3 [accZeros] []
    (s.coreAt core0).euQ.find? (fun e => e.kind == 3 && !e.vals.isEmpty) = some (sampleOp 3 [accZeros]) ∧
    (s.coreAt core0).euQ.any (fun x => x.kind == 1 || x.kind == 2) = false ∧
    ((List.range 1).filter (fun m => s.refreshes (lowBound true).desc 1 (placeOf (lowBound true) false 0 m))).any (fun m =>
      (s.checkRow core0 (sampleOp 3 [accZeros]) m).isNone) = false := by decide +kernel
end EuWork

namespace DrainExportImport
def fedBound : Bound := { plainBound 0 with sIn := some 0x3F800000 }
def drainOp (stage : Nat) (b : Bound) (d : TileDesc) : ConvOp := ⟨1, 1, false, 0, 1, [d], 0, false, stage, b, [], [], []⟩
def draining (o : ConvOp) (l : List Red) : State := { coding 0 atZero with
  prec := { ready.prec with invs := [(1, { InvSt.reset with reds := l })] }, core := [(0, { CoreSt.reset with convQ := [o] })] }
theorem witness_Drain : let s := feeding 0x3700080000000000 fedBound []
    s.issues core0 0x37 = true ∧ (s.seqAt core0).bound.getLast? = some fedBound ∧ (s.seqAt core0).treg 0 = memTile ∧
    (s.destFault core0 memTile).isNone = true ∧ (s.coreAt core0).convQ = [] ∧
    (feeding 0x377FF80000000000 fedBound []).issues core0 0x37 = true ∧ bitsOf 0x377FF80000000000 53 49 + bitsOf 0x377FF80000000000 48 43 = 94 ∧
    (feeding 0x3700080000000000 (plainBound 0) []).issues core0 0x37 = true ∧
    ((feeding 0x3700080000000000 fedBound []).destFault core0 (moveTile 0x50000000000 1)).isSome = true := by decide +kernel
theorem witness_DrainPass1 : let o := drainOp 0 fedBound memTile
    let s := draining o []
    (s.coreAt core0).convQ.find? (fun o => o.stage == 0) = some o ∧ (s.coreAt core0).drainReady o = true ∧
    s.probesIn core0 o = true ∧ s.rotReady o = true ∧ outRanges fedBound.desc 0 = [] ∧
    LayerDesc.act fedBound.desc = false := by decide +kernel
def secondOp (b : Bound) : ConvOp := drainOp 1 b (moveTile 0x20 1)
def scaled (b : Bound) : State := draining (secondOp b) [⟨0x3F800000, 0x3F800000, 0x3F800000, 8⟩]
theorem witness_DrainPass2 : ((scaled fedBound).coreAt core0).convQ.find? (fun o => o.stage == 1) = some (secondOp fedBound) ∧
    ((scaled fedBound).invAt 1).reds.length = 1 ∧ (scaled fedBound).tickLive = true ∧ (moveTile 0x20 1).ring = false ∧
    LayerDesc.pmk fedBound.desc = false ∧ LayerDesc.dout fedBound.desc = false ∧ LayerDesc.ofmt fedBound.desc = 0 ∧
    ((scaled fedBound).destCore core0 (moveTile 0x20 1)).isNone = true ∧ ((scaled fedBound).coreAt core0).convOut = [] := by decide +kernel
def wideBound : Bound := { fedBound with desc := BitVec.ofNat 2048 (2 ^ 60) }
theorem witness_DrainPass2_wide : ((scaled wideBound).coreAt core0).convQ.find? (fun o => o.stage == 1) = some (secondOp wideBound) ∧
    LayerDesc.pmk wideBound.desc = false ∧ LayerDesc.dout wideBound.desc = false ∧ LayerDesc.ofmt wideBound.desc = 1 := by decide +kernel
theorem witness_Xport : let s := feeding 0x3800080000000000 fedBound []
    s.issues core0 0x38 = true ∧ (s.coreAt core0).formatsFit false 0 1 = true ∧ (s.destFault core0 memTile).isNone = true ∧
    (s.coreAt core0).chainOn false false 0 1 = false ∧ (s.coreAt core0).makeUpOn false false 0 1 = false ∧ (s.coreAt core0).convQ.length < 64 ∧
    LayerDesc.dlt fedBound.desc = false ∧ s.coreReach core0 memTile.addr = true ∧
    (s.coreAt core0).sbFree (s.sbRange memTile.addr (((s.coreAt core0).capture false false 0 1).flatMap (rawImage false)).length) [] [] = true := by decide +kernel
theorem witness_Import : let s := feeding 0x3980080000000000 fedBound []
    let v := s.sbEnter core0 [] []
    s.issues core0 0x39 = true ∧ (feeding 0x3900080000000000 fedBound []).issues core0 0x39 = true ∧
    (s.importRanges fedBound memTile.addr 0 1 false).all (fun r => s.coreReach core0 r.1) = true ∧ (s.coreAt core0).heldBy false false 0 1 = false ∧
    (s.coreAt core0).sbFree [] [] ((s.importRanges fedBound memTile.addr 0 1 false).flatMap (fun r => s.sbRange r.1 r.2)) = true ∧
    (v.readAll (s.importRanges fedBound memTile.addr 0 1 false)).1 = true ∧
    (v.readAll (s.importRanges fedBound memTile.addr 0 1 false)).2.core = v.core := by decide +kernel
end DrainExportImport

namespace StatisticsAndMerges
def merging (w : DWord) (n : Nat) : State := coding w { atZero with t := [(0, moveTile 0x40000000000 n)], bound := [plainBound 0] }
theorem witness_Stat : let s := merging 0x4000000000000000 1
    let z := s.sbEnter core0 [] (s.sourceRange (.mem 0x40000000000) 8)
    s.issues core0 0x40 = true ∧ s.moveLen core0 0 4 (moveTile 0x40000000000 1) = 8 ∧ s.coreReach core0 0x40000000000 = true ∧
    (s.coreAt core0).sbFree [] (s.sourceRange (.mem 0x40000000000) 8) [] = true ∧
    (z.readSource (.mem 0x40000000000) 8).1 = true ∧ ((z.readSource (.mem 0x40000000000) 8).2.issued core0).tickLive = true := by decide +kernel
theorem witness_Stat_kinds : (merging 0x4040000000000000 1).issues core0 0x40 = true ∧ (merging 0x4080000000000000 1).issues core0 0x40 = true ∧
    bitsOf 0x4040000000000000 55 54 = 1 ∧ bitsOf 0x4080000000000000 55 54 = 2 ∧ (moveTile 0x40000000000 1).ring = false := by decide +kernel
theorem witness_Merge_source : (merging 0 1).source core0 (moveTile 0x40000000000 1) = .mem 0x40000000000 := rfl
theorem witness_Svq : let s := merging 0x4800000000000000 1
    let z := s.sbEnter core0 [] []
    s.issues core0 0x48 = true ∧ (s.cluAt 0).svuQ.length < 16 ∧ (s.coreAt core0).sbFree [] [] (s.sourceRange (.mem 0x40000000000) 64) = true ∧
    (z.readSource (.mem 0x40000000000) 64).1 = true ∧ ((z.readSource (.mem 0x40000000000) 64).2.issued core0).tickLive = true := by decide +kernel
theorem witness_Topkv : let s := merging 0x4C00000000000000 1
    let z := s.sbEnter core0 [] (s.sourceRange (.mem 0x40000000000) 8)
    s.issues core0 0x4C = true ∧ (s.coreAt core0).sbFree [] (s.sourceRange (.mem 0x40000000000) 8) [] = true ∧
    (z.readSource (.mem 0x40000000000) 8).1 = true ∧ ((z.readSource (.mem 0x40000000000) 8).2.issued core0).tickLive = true := by decide +kernel
theorem witness_Scat : let s := merging 0x4D00000000000000 1
    let z := s.sbEnter core0 [] (s.sourceRange (.mem 0x40000000000) 8)
    s.issues core0 0x4D = true ∧ (s.seqAt core0).bound.getLast? = some (plainBound 0) ∧
    (s.coreAt core0).sbFree [] (s.sourceRange (.mem 0x40000000000) 8) [] = true ∧
    (z.readSource (.mem 0x40000000000) 8).1 = true ∧ ((z.readSource (.mem 0x40000000000) 8).2.issued core0).tickLive = true := by decide +kernel
def oneList (level dst : Nat) : MergeIn := ⟨1, 1, 0, level, 0, dst, 1, [⟨0x3F800000, 5⟩], true⟩
def gathering (l : List MergeIn) : State := { ready with clu := [(0, { CluSt.reset with topIn := l, scatIn := l })] }
theorem witness_Merges : let s := gathering [oneList 0 1]
    let t := gathering [oneList 1 0]
    s.nextMerge 0 (s.cluAt 0).topIn (s.allLists CluSt.topIn) s.topOpen = some ⟨oneList 0 1, [oneList 0 1], false⟩ ∧
    s.nextMerge 0 (s.cluAt 0).scatIn (s.allLists CluSt.scatIn) s.scatOpen = some ⟨oneList 0 1, [oneList 0 1], false⟩ ∧
    t.nextMerge 0 (t.cluAt 0).topIn (t.allLists CluSt.topIn) t.topOpen = some ⟨oneList 1 0, [oneList 1 0], true⟩ ∧
    t.nextMerge 0 (t.cluAt 0).scatIn (t.allLists CluSt.scatIn) t.scatOpen = some ⟨oneList 1 0, [oneList 1 0], true⟩ := by decide +kernel
end StatisticsAndMerges

namespace SvuOperations
def svuBytes (op : Nat) (ring : Nat) : List Byte := leBytes 8 (op + 2 ^ 16 + 2 * 2 ^ 32) ++ leBytes 8 0x40000000000 ++ leBytes 8 0x40000000100 ++
  leBytes 8 (0x40000000200 + ring * 2 ^ 44) ++ leBytes 8 0x40000000400 ++ leBytes 8 0 ++ leBytes 16 0
def svuHead (op ring : Nat) : SvuOp := ⟨0, 1, svuBytes op ring, some (plainBound 0)⟩
def svuState (op ring : Nat) (l : List Red) : State := { coding 0 atZero with
  prec := { ready.prec with invs := [(1, { InvSt.reset with reds := l })] }, clu := [(0, { CluSt.reset with svuQ := [svuHead op ring] })] }
def clu0 : ClusterId := ⟨0, 0⟩
theorem witness_Svu : ∀ op ∈ [1, 2, 3, 4, 5, 6, 7, 8, 9, 10], (svuState op 0 []).tickLive = true ∧ ((svuState op 0 []).cluAt 0).waiting = [] ∧
    (SvuDesc.ofBytes (svuBytes op 0)).op = op ∧ (SvuDesc.ofBytes (svuBytes op 0)).vec = 1 ∧ (SvuDesc.ofBytes (svuBytes op 0)).n = 2 := by decide +kernel
theorem witness_Svu_reads : ∀ op ∈ [1, 2, 3, 4, 5, 6, 8, 9, 10], let d := SvuDesc.ofBytes (svuBytes op 0)
    (d.rangeA ++ d.rangeB ++ d.rangeP ++ [] ++ d.rangeD).all (fun r => (svuState op 0 []).clusterReach clu0 r.1) = true ∧
    ((svuState op 0 []).readAll (d.rangeA ++ d.rangeB ++ d.rangeP ++ [])).1 = true := by decide +kernel
theorem witness_Prot_reads : let d := SvuDesc.ofBytes (svuBytes 7 0)
    let s := svuState 7 0 []
    (d.rangeA ++ d.rangeB ++ d.rangeP ++ (List.range d.vec).map (fun v => (s.protRow d v, d.n / 2 * 8)) ++ d.rangeD).all
      (fun r => s.clusterReach clu0 r.1) = true := by decide +kernel
theorem witness_Svu_bad : (SvuDesc.ofBytes (svuBytes 2 1)).ring = true ∧ (((svuState 2 1 []).ringAt core0 0).en) = false ∧
    actOk (List.replicate 528 0) = false ∧ (svuState 2 0 []).clusterReach clu0 0x50000000000 = false ∧
    ((svuState 9 0 [⟨0, 0, 0, 8⟩]).invAt 1).reds[(plainBound 0).part]?.isSome = true ∧
    ((svuState 9 0 []).invAt 1).reds[(plainBound 0).part]? = none ∧ (svuState 9 0 []).consumerDescs 0 core0 = [] := by decide +kernel
end SvuOperations

namespace RingRegistersAndScrubs
def scrubbing (m : BitVec 17) : State := { ready with clu := [(0, { CluSt.reset with scrubBusy := m, patrolEn := true })], badOne := [0x10000000000] }
theorem witness_RingRegisters : ready.decodes .a = true ∧ Port.a = ready.host.owner ∧ ready.glb.st = .ready ∧ State.reset.glb.st = .off ∧
    ({ ready with glb := { ready.glb with st := .safe } }).glb.st = .safe ∧ ({ ready with glb := { ready.glb with st := .run } }).decodes .a = true := by decide
theorem witness_Scrub : ((scrubbing 1).cluAt (regionClu (.core core0)).num).scrubBusy.getLsbD (regionBit (.core core0)) = true ∧
    ((scrubbing 0x10000).cluAt 0).scrubBusy.getLsbD (regionBit (.cluster ⟨0, 0⟩)) = true ∧
    ((scrubbing 0).cluAt 0).scrubBusy.getLsbD (regionBit (.core core0)) = false ∧ (scrubbing 0).glb.st ≠ .off ∧
    ((scrubbing 0).cluAt 0).patrolEn = true ∧
    State.reset.glb.st = .off := by decide
end RingRegistersAndScrubs

namespace LatchingReadBacks
theorem witness_LatchingReadBacks : ready.decodes .a = true ∧ ready.decodes .b = false ∧ ({ ready with glb := { ready.glb with variant := 2 } }).stkPopulated 2 = false ∧ ({ ready with glb := { ready.glb with variant := 2 } }).decodes .a = true ∧
    ready.stkPopulated 0 = true ∧
    field (0x70000000 : Word).toNat 30 28 = 7 ∧ 8 < field (0xF0000 : Word).toNat 19 16 := by decide
end LatchingReadBacks

namespace StackUpkeep
def patrolled (n : Nat) : State := { ready with stk := [(0, { StkSt.reset with state := 2, patrolEn := true, patrolAt := n })] }
def spilled (dead : List Nat) : State := { ready with
  kv := [(0, { KvSt.reset with pt := 1, spilling := [(0, 0x1000000)], freeq := [3], used := [0x1000000] })]
  mem := Tab.setRange memDefault [] 4096 (leBytes 8 (1 + 2 * 65536))
  stk := [(0, { StkSt.reset with state := 2, dead := dead })] }
theorem witness_StackUpkeep_patrol : (patrolled 0).stkPopulated 0 = true ∧ ((patrolled 0).stkAt 0).patrolEn = true ∧ ((patrolled 0).stkAt 0).state = 2 ∧
    ((patrolled 0).stkAt 0).errs = [] ∧ (ready.stkAt 0).state ≠ 2 ∧ (ready.stkAt 0).state ≠ 4 ∧ (patrolled 0).glb.st ≠ .off ∧ State.reset.glb.st = .off ∧
    stackGranules ≤ ((patrolled (stackGranules - 1)).stkAt 0).patrolAt + 1 ∧ ((patrolled 0).stkAt 0).patrolAt + 1 < stackGranules := by decide
theorem witness_StackUpkeep_spill : ((spilled []).kvAt 0).spilling = [(0, 0x1000000)] ∧ (ready.kvAt 0).spilling = [] ∧
    ((spilled []).readDev (ptePage ((spilled []).pte 0 0) * 65536) 65536).1 = true := by decide +kernel
theorem witness_StackUpkeep_spillFails :
    ((spilled [0]).readDev (ptePage ((spilled [0]).pte 0 0) * 65536) 65536).1 = false := by decide +kernel
theorem witness_StackUpkeep_free : Memory.wf (spilled []).mem = true ∧ ((spilled []).kvAt 0).freeq.take 1024 = [3] ∧
    ready.twin.refetch = none ∧ ({ ready with twin := { ready.twin with refetch := some 5 } }).twin.refetch = some 5 := by decide
end StackUpkeep

namespace LinkPortEvents
def linkIs (l : LnkSt) : State := { linked with lnk := [(0, l)] }
def upLink : LnkSt := { LnkSt.reset with state := 3, en := true, lanes := 4, width := 4, role := 1, peerId := 7 }
theorem witness_LinkPortEvents_silent : ((linkIs upLink).lnkAt 0).isUp = true ∧ (ready.lnkAt 0).isUp = false := by decide
theorem witness_LinkPortEvents_retrain : ((linkIs { upLink with state := 0 }).lnkAt 0).en = true ∧ ((linkIs { upLink with state := 0 }).lnkAt 0).state = 0 ∧
    (linkIs upLink).glb.st ≠ .off ∧ (ready.lnkAt 0).en = false := by decide
theorem witness_LinkPortEvents_up : ((linkIs { upLink with state := 1 }).lnkAt 0).state = 1 ∧ lanesLeft 4 0 = 4 ∧ lanesLeft 4 1 = 2 ∧ lanesLeft 4 5 = 0 ∧
    ((linkIs upLink).lnkAt 0).state ≠ 1 ∧ (⟨0, true, 7, BitVec.ofNat 3 (peerRoleOf 1), 0⟩ : LinkTrain).peerSeen = upLink.peerId ∧
    (⟨0, true, 7, BitVec.ofNat 3 (peerRoleOf 1), 0⟩ : LinkTrain).peerRole.toNat = peerRoleOf upLink.role.toNat ∧
    (⟨0, true, 8, 0, 0⟩ : LinkTrain).peerSeen ≠ upLink.peerId := by decide
theorem witness_LinkPortEvents_lanes : upLink.isUp = true ∧ (3 : Fin 8).val < upLink.lanes.toNat ∧ upLink.lanesFailed.getLsbD 3 = false ∧
    lanesLeft 4 ((0 : BitVec 8) ||| BitVec.ofNat 8 (2 ^ 3)).toNat = 2 ∧ lanesLeft 4 ((4 : BitVec 8) ||| BitVec.ofNat 8 (2 ^ 3)).toNat = 2 ∧
    lanesLeft 4 ((1 : BitVec 8) ||| BitVec.ofNat 8 (2 ^ 3)).toNat = 0 ∧ ({ upLink with lanesFailed := 8 }).lanesFailed.getLsbD 3 = true := by decide
theorem witness_LinkPortEvents_replay : ({ upLink with replayRun := 7, replaySeq := 5 }).replayRun + 1 ≤ 8 ∧
    8 < ({ upLink with replayRun := 8, replaySeq := 5 }).replayRun + 1 := by decide
theorem witness_LinkPortEvents_idle : hdr.checkOk = true ∧ hdr.seq = upLink.rxSeq ∧ ({ hdr with seq := 1 }).seq ≠ upLink.rxSeq ∧ upLink.isUp = true := by decide
def ringReady : State := { (linkIs upLink) with
  win := { ready.win with out0 := [(0, 0x8000)], routes := [(0, 0)] }
  core := [(0, { CoreSt.reset with rings := [(0, { RingSt.reset with en := true, esize := 1, ctail := 8, tail := 8 })] })] }
theorem witness_LinkPortEvents_outbound : ringReady.releaseOuts = ringReady ∧ ringReady.glb.st = .ready ∧ (ringReady.lnkAt 0).rr % 256 = 0 ∧ ringReady.outEn 0 = true ∧
    ringReady.outPort 0 = some 0 ∧ ringReady.outReady 0 ≠ 0 ∧ ringReady.outPath1 0 = false ∧
    ringReady.outEntry 0 = some (8, 0, [0, 0, 0, 0, 0, 0, 0, 0]) ∧ ({ upLink with credits := [64, 64, 64, 64] }).canSend (flitsFor 8) 1 = true := by decide +kernel
theorem witness_LinkPortEvents_credits : upLink.credits = [64, 64, 64, 64] ∧ ({ State.reset with lnk := [] }).glb.st = .off := by decide
end LinkPortEvents

namespace EntriesAndWindowWrites
def arrived (s : State) (h : FlitHdr) : State := match s.takeFlits 0 h false with | .lost u => u | .here u => u
def ringRow0 : RingCfg := ⟨core0, 2, 0, false, 127, 1, 0, true, false, false, true, 0, [.linkPort 0]⟩
def ringIn (r : RingSt) : State := { linked with
  cfg := { ready.cfg with rings := [ringRow0] }, core := [(0, { CoreSt.reset with rings := [(2, r)] })] }
def smallRing : RingSt := { RingSt.reset with en := true, esize := 1, sizeM1 := 127, spec := true }
def entryIn : LinkEntry := ⟨0, 2, 0, [1, 2, 3, 4, 5, 6, 7, 8]⟩
def stalledIn : State := { (ringIn smallRing) with lnk := [(0, { LnkSt.reset with state := 3, en := true, stalled := [(.linkPort 0, entryIn)] })] }
theorem witness_EntriesAndWindowWrites_ring : let u := arrived (ringIn smallRing) hdr
    (ringIn smallRing).takeFlits 0 hdr false = .here u ∧ (ready.takeFlits 0 hdr false = .lost (arrived ready hdr)) ∧
    u.linkRingOk (.linkPort 0) entryIn = true ∧ (u.lnkAt 0).role = 0 ∧ (u.lnkAt 0).stalled = [] ∧ u.glb.st ≠ .safe ∧ u.glb.st ≠ .park ∧
    (arrived linked hdr).linkRingOk (.linkPort 0) entryIn = false ∧ linked.takeFlits 0 hdr false = .here (arrived linked hdr) := by
  refine ⟨rfl, rfl, by decide, by decide, by decide, by decide, by decide, by decide, rfl⟩
theorem witness_EntriesAndWindowWrites_push : (∃ v, (arrived (ringIn smallRing) hdr).pushLink (.linkPort 0) entryIn = .done v) ∧
    (∃ v, (arrived (ringIn { smallRing with tail := 16384 }) hdr).pushLink (.linkPort 0) entryIn = .wait v) ∧
    ((arrived stalledIn hdr).lnkAt 0).stalled ≠ [] ∧ (arrived stalledIn hdr).linkRingOk (.linkPort 0) entryIn = true := by
  refine ⟨⟨_, rfl⟩, ⟨_, rfl⟩, by decide, by decide⟩
def windowed (x : WindowSt) : State := { (ringIn smallRing) with win := { ready.win with windows := [(5, x)] } }
def dataWrite : WinWrite := ⟨5, false, 1, 0, List.replicate 32 7, entryIn⟩
def openWin : WindowSt := { WindowSt.reset with state := 1, epoch := 1, base := 4096, src := 0xFFFFFF00 }
theorem witness_EntriesAndWindowWrites_window : let u := arrived (windowed openWin) hdr
    (windowed openWin).takeFlits 0 hdr false = .here u ∧ hdr.dst = u.win.linkId ∧ u.glb.st ≠ .safe ∧ (windowed openWin).glb.st ≠ .park ∧
    u.wwriteReason hdr dataWrite = none ∧ (arrived linked hdr).wwriteReason hdr dataWrite = some 0 ∧ ({ hdr with dst := 9 }).dst ≠ u.win.linkId ∧
    (windowed openWin).takeFlits 0 { hdr with dst := 9 } false = .here (arrived (windowed openWin) { hdr with dst := 9 }) := by
  refine ⟨rfl, by decide, by decide, by decide, by decide, by decide, by decide, rfl⟩
theorem witness_EntriesAndWindowWrites_checks : ((windowed openWin).windowAt 5).state = 1 ∧ ({ dataWrite with epoch := 2 }).epoch ≠ ((windowed openWin).windowAt 5).epoch ∧
    ((windowed { openWin with src := 0xFFFFFFFF }).windowAt 5).sources.contains hdr.src.toNat = false ∧
    dataWrite.epoch = ((windowed { openWin with src := 0xFFFFFFFF }).windowAt 5).epoch ∧ (linked.windowAt 5).state ≠ 1 := by decide
theorem witness_EntriesAndWindowWrites_gate : ((arrived (windowed { openWin with cmd := 1 }) hdr).wwriteReason hdr { dataWrite with ringForm := true } = some 4) ∧
    (let s := { (windowed { openWin with cmd := 1 }) with cfg := { ready.cfg with rings := [{ ringRow0 with producers := [.gate 5] }] } }
     (arrived s hdr).wwriteReason hdr { dataWrite with ringForm := true } = none ∧ s.takeFlits 0 hdr false = .here (arrived s hdr)) := by
  refine ⟨by decide, by decide, rfl⟩
theorem witness_EntriesAndWindowWrites_states : let s := { linked with glb := { ready.glb with st := .safe } }
    s.takeFlits 0 hdr false = .here (arrived s hdr) ∧ (arrived s hdr).glb.st = .safe ∧ s.glb.st ≠ .park ∧ hdr.dst = (arrived s hdr).win.linkId ∧
    ({ linked with glb := { ready.glb with st := .park } }).glb.st = .park := by
  refine ⟨rfl, by decide, by decide, by decide, by decide⟩
end EntriesAndWindowWrites

namespace WindowsAndHandles
theorem witness_WindowsAndHandles_commands : ready.decodes .a = true ∧ Port.a = ready.host.owner ∧ (ready.windowAt 5).state = 0 ∧ (ready.windowAt 5).pending = false ∧
    true ≠ ({ WindowSt.reset with state := 1 }).gate ∧ ({ WindowSt.reset with state := 1 }).state ≠ 0 := by decide
def windowIs (x : WindowSt) : State := { linked with win := { linked.win with windows := [(5, x), (49, x)], handles := [(3, { HandleSt.reset with cfg := BitVec.ofNat 32 (2 ^ 19 + 5 * 256) })] } }
theorem witness_WindowsAndHandles_states : ((windowIs { WindowSt.reset with state := 1 }).windowAt 5).state = 1 ∧ ((windowIs { WindowSt.reset with state := 2, pending := true }).windowAt 5).state = 2 ∧
    ((windowIs { WindowSt.reset with state := 2 }).windowAt 5).gate = false ∧ ((windowIs { WindowSt.reset with state := 2 }).windowAt 49).state = 2 ∧
    (windowIs .reset).twin.refetchQ = [] ∧ (windowIs .reset).host.owner = .a ∧ (windowIs .reset).decodes .a = true := by decide
theorem witness_WindowsAndHandles_messages : ∃ u, (windowIs .reset).takeFlits 0 hdr false = .here u ∧ hdr.dst = u.win.linkId ∧ u.handleOf hdr.src 5 = some 3 ∧
    u.handleOf hdr.src 6 = none ∧ u.hasWinDma 3 = false ∧ (0 : BitVec 16) = (u.handleAt 3).epoch ∧ (1 : BitVec 16) ≠ (u.handleAt 3).epoch := by
  refine ⟨_, rfl, by decide, by decide, by decide, by decide, by decide, by decide⟩
end WindowsAndHandles

namespace PairingMessages
def twinned (n : BitVec 3) : State := { linked with lnk := [(0, { LnkSt.reset with state := 3, en := true }), (2, { LnkSt.reset with state := 3, en := true, role := 2 })], twin := { ready.twin with state := n } }
theorem witness_PairingMessages_send : (twinned 1).twin.state = 1 ∧ ((twinned 1).lnkAt 2).role = 2 ∧ ((twinned 1).lnkAt 2).isUp = true ∧ (ready.lnkAt 2).role ≠ 2 := by decide
theorem witness_PairingMessages_hello : ∃ u, (twinned 1).takeFlits 0 hdr false = .here u ∧ hdr.dst = u.win.linkId ∧ u.twin.state = 1 ∧
    u.helloOk { u.helloMsg with side := !u.cfg.side } = true ∧ u.helloOk u.helloMsg = false := by
  refine ⟨_, rfl, by decide, by decide, by decide +kernel, by decide +kernel⟩
theorem witness_PairingMessages_states : ∃ u, (twinned 2).takeFlits 0 hdr false = .here u ∧ hdr.dst = u.win.linkId ∧ u.twin.state = 2 ∧ u.twin.awaiting = none ∧
    u.twin.unpacking = none ∧ u.decodes .a = true ∧ Port.a = u.host.owner := by refine ⟨_, rfl, by decide⟩
def mirror0 : Mirror := ⟨7, [], 0, 0⟩
theorem witness_PairingMessages_mirror : ∃ u, ({ (twinned 2) with twin := { (twinned 2).twin with awaiting := some mirror0, unpacking := some mirror0 } } : State).takeFlits 0 hdr false = .here u ∧
    hdr.dst = u.win.linkId ∧ u.twin.awaiting = some mirror0 ∧ u.twin.unpacking = some mirror0 ∧ mirror0.tick = 7 ∧ mirror0.tick ≠ 8 ∧ (u.lnkAt 2).isUp = true := by
  refine ⟨_, rfl, by decide⟩
theorem witness_PairingMessages_wait : ∃ u, (twinned 1).takeFlits 0 hdr false = .here u ∧ u.twin.state ≠ 2 ∧ u.twin.state ≠ 3 ∧ u.twin.state ≠ 4 ∧
    (1 : Word).getLsbD 0 = true ∧ (0 : Word).getLsbD 0 = false := by refine ⟨_, rfl, by decide⟩
theorem witness_PairingMessages_both : ∃ u, (twinned 4).takeFlits 0 hdr false = .here u ∧ u.twin.state = 4 ∧ u.cfg.side = false := by refine ⟨_, rfl, by decide⟩
theorem witness_PairingMessages_side : ∃ u, ({ (twinned 4) with cfg := { ready.cfg with side := true } } : State).takeFlits 0 hdr false = .here u ∧ u.twin.state = 4 ∧
    u.cfg.side = true := by refine ⟨_, rfl, by decide⟩
end PairingMessages

namespace RefetchMessages
def fetched (st : BitVec 2) (x : BitVec 2) (r : Option (BitVec 44)) : State := { linked with
  lnk := [(0, { LnkSt.reset with state := 3, en := true }), (2, { LnkSt.reset with state := 3, en := true, role := 2 })]
  cfg := { ready.cfg with weightRanges := [(0, 4096), (0x60000000000, 4096)] }
  win := { ready.win with handles := [(63, { HandleSt.reset with state := st })], windows := [(49, { WindowSt.reset with state := x })] }
  twin := { ready.twin with state := 2, refetch := r } }
theorem witness_RefetchMessages : ∃ u, (fetched 1 1 (some 5)).takeFlits 0 hdr false = .here u ∧ hdr.dst = u.win.linkId ∧ (u.lnkAt 2).isUp = true ∧ u.readyOrRun = true ∧
    (u.handleAt 63).state = 1 ∧ u.isWeight 0 = true ∧ u.isWeight 8192 = false ∧ (u.readDev 0 64).1 = true ∧ u.isWeight 0x60000000000 = true ∧
    (u.readDev 0x60000000000 64).1 = false ∧ u.twin.refetch = some 5 ∧ (u.windowAt 49).state = 1 ∧ u.twin.refetch ≠ some 6 := by
  refine ⟨_, rfl, by decide, by decide, by decide, by decide, by decide, by decide, by decide, by decide, by decide, by decide, by decide, by decide⟩
theorem witness_RefetchMessages_idle : ∃ u, (fetched 0 0 (some 5)).takeFlits 0 hdr false = .here u ∧ (u.handleAt 63).state ≠ 1 ∧ (u.windowAt 49).state ≠ 1 ∧
    u.twin.refetchQ = [] ∧ u.twin.refetch = some 5 := by refine ⟨_, rfl, by decide⟩
end RefetchMessages

namespace RehearsalCommands
def rehearsing (h : RehSt) : State := { ready with cfg := { ready.cfg with rehEn := true, rehSize := 4 }, reh := h }
theorem witness_RehearsalCommands_trigger : (rehearsing .reset).decodes .a = true ∧ Port.a = (rehearsing .reset).host.owner ∧ (rehearsing .reset).reh.busy = false ∧
    (rehearsing .reset).cfg.rehEn = true ∧ ready.cfg.rehEn = false ∧ (rehearsing { RehSt.reset with frozen := true }).reh.frozen = true ∧
    (rehearsing .reset).reh.frozen = false ∧ (rehearsing .reset).reh.spilling = false ∧ (rehearsing { RehSt.reset with reading := true }).reh.busy = true := by decide
def stacksUp : State := { ready with stk := (List.range 16).map (fun k => (k, { StkSt.reset with state := 2 })) }
theorem witness_RehearsalCommands_readout : stacksUp.die0Ready = true ∧ ready.die0Ready = false ∧ stacksUp.glb.st = .ready ∧ stacksUp.decodes .a = true ∧
    ({ RehSt.reset with reading := true }).reading = true ∧ (ready.place (ready.reh.rdbase.toNat * 4096)).isStack = true ∧
    (ready.place (({ RehSt.reset with rdbase := 0x80000000 }).rdbase.toNat * 4096)).isStack = false := by decide
theorem witness_RehearsalCommands_spill : ({ RehSt.reset with frozen := true, trigLeft := some 0 }).frozen = true ∧ ({ RehSt.reset with frozen := true, trigLeft := some 0 }).trigLeft = some 0 ∧
    ({ RehSt.reset with frozen := true, trigLeft := some 0 }).spilling = false ∧ ({ RehSt.reset with spilling := true }).spilling = true := by decide
def replayOf (r : List (List Byte)) : ReplaySt := ⟨r, [], none, 0, false, false, 0⟩
theorem witness_RehearsalCommands_done : (rehearsing { RehSt.reset with replay := some (replayOf []) }).reh.replay = some (replayOf []) ∧ (replayOf []).recs = [] ∧
    (rehearsing .reset).tick.running = none ∧ (rehearsing .reset).tick.held = [] ∧ (replayOf [[]]).recs ≠ [] ∧ (rehearsing .reset).reh.replay = none := by decide
def tickRecord (epoch ns : Nat) : List Byte := withCrc (leBytes 2 0x5248 ++ leBytes 2 0 ++ leBytes 4 (192 + 32 * ns) ++ List.replicate 20 0 ++ leBytes 2 ns ++ leBytes 2 0 ++
  leBytes 4 epoch ++ List.replicate (92 + 32 * ns + 60) 0)
def replaying (n : Word) (l : List Byte) : State := { ready with reh := { RehSt.reset with rcount := n }, mem := Tab.setRange memDefault [] 0 l }
def walked (s : State) : Walked × State := s.walkRecords (s.reh.rbase.toNat * 4096) ⟨[], [], false⟩ (4 * s.reh.rcount.toNat + 64)
theorem witness_RehearsalCommands_start : (walked (replaying 0 [])).1.bad = false ∧ (walked (replaying 0 [])).1.recs = [] ∧
    (walked (replaying 0 [])).2.recordsOfCfg [] = true ∧ (walked (replaying 0 [])).2.historyOk [] = true ∧ (replaying 0 []).admittedCount = 0 ∧
    (replaying 0 []).reh.busy = false ∧ (replaying 0 []).glb.st = .ready ∧ (replaying 0 []).decodes .a = true := by decide +kernel
theorem witness_RehearsalCommands_bad : (walked (replaying 1 [])).1.bad = true := by decide +kernel
theorem witness_RehearsalCommands_other : (walked (replaying 1 (tickRecord 1 0))).1.bad = false ∧ (walked (replaying 1 (tickRecord 1 0))).1.recs.length = 1 ∧
    (walked (replaying 1 (tickRecord 1 0))).2.recordsOfCfg (walked (replaying 1 (tickRecord 1 0))).1.recs = false := by decide +kernel
theorem witness_RehearsalCommands_late : (walked (replaying 1 (tickRecord 0 2))).1.bad = false ∧ (walked (replaying 1 (tickRecord 0 2))).1.recs.length = 1 ∧
    (walked (replaying 1 (tickRecord 0 2))).2.recordsOfCfg (walked (replaying 1 (tickRecord 0 2))).1.recs = true ∧
    (walked (replaying 1 (tickRecord 0 2))).2.historyOk (walked (replaying 1 (tickRecord 0 2))).1.recs = false := by decide +kernel
end RehearsalCommands

namespace ErrorsAndSelfTest
theorem witness_ErrorsAndSelfTest : ready.decodes .a = true ∧ ready.decodes .b = false ∧ Port.a = ready.host.owner ∧ (0x80000000 : Word).getLsbD 31 = true ∧
    (1 : Word).getLsbD 0 = true ∧ (3 : Word).getLsbD 1 = true ∧ ready.place ready.err.injAddr.toNat = .fast ∧ ready.injTarget true = true ∧ ready.injTarget false = false ∧
    ready.glb.st = .ready ∧ ready.admittedCount = 0 ∧ ready.reh.replay = none := by decide +kernel
def injecting : State := { ready with err := { ready.err with injAddr := 0x40000000000 } }
theorem witness_ErrorsAndSelfTest_spm : injecting.place injecting.err.injAddr.toNat = .spm (.cluster ⟨0, 0⟩) 0 ∧ (1 : Word).getLsbD 1 = false := by decide +kernel
theorem witness_ErrorsAndSelfTest_elsewhere : (({ ready with glb := { ready.glb with st := .safe } } : State).glb.st ≠ .ready) ∧ ready.err.stBusy = false ∧
    ({ ready with err := { ready.err with stBusy := true } }).err.stBusy = true ∧ ({ ready with glb := { ready.glb with st := .safe } }).decodes .a = true := by decide
end ErrorsAndSelfTest

/-! ## Ill-formed commands, one for each check of the well-formedness predicate -/

def shortEntry : List Byte := List.replicate 63 0
def manyRecords : StepMsg := ⟨0, 0, 0, 0, 0, 0, 0, List.replicate 257 ⟨0, false, false, false, 0, 0, 0⟩, true⟩
def noRecords : StepMsg := ⟨0, 0, 0, 0, 0, 0, 0, [], true⟩
def noFlits : FlitHdr := ⟨0, 0, 0, 0, true, none, 0, 0⟩
def someEntry : LinkEntry := ⟨0, 0, 0, []⟩
def ringOf (n : Nat) : RingCfg := ⟨core0, 0, 0, false, 0, 0, 0, false, false, false, false, 0, List.replicate n .hostDma⟩

/-- Registers stand at multiples of 4, and the doorbell window holds 64 KiB (R607, R609). -/
theorem test_ill_formed_registers :
    (Instr.registerWrite .a false 6 0).wf = false ∧ (Instr.registerWrite .a true 65536 0).wf = false ∧
    (Instr.registerWrite .a true 65532 0).wf = true ∧ (Instr.regrd 2).wf = false ∧
    (Instr.bar0AccessRefused .a 8 4 true).wf = false ∧ (Instr.bar0AccessRefused .a 8 2 true).wf = true ∧
    (Instr.configRequest .a 3 none).wf = false := by decide

/-- A BAR4 access names 1 or more bytes within an aperture of at most 2 TiB (R603). -/
theorem test_ill_formed_window_accesses :
    (Instr.bar4Read .a 0 0).wf = false ∧ (Instr.bar4Read .a (BitVec.ofNat 41 (2 ^ 41 - 1)) 2).wf = false ∧
    (Instr.bar4Write .a 0 []).wf = false ∧ (Instr.bar4Write .a (BitVec.ofNat 41 (2 ^ 41 - 1)) [0, 0]).wf = false ∧
    (Instr.bar4Write .a (BitVec.ofNat 41 (2 ^ 41 - 2)) [0, 0]).wf = true := by decide

/-- The configuration body (R375, R489). -/
theorem test_ill_formed_configurations :
    (Instr.stageCfg .a { cfgImage with body := { cfgBody with cpos := 2, clenM1 := 1 } }).wf = false ∧
    (Instr.stageCfg .a { cfgImage with body := { cfgBody with rings := [ringOf 0] } }).wf = false ∧
    (Instr.stageCfg .a { cfgImage with body := { cfgBody with rings := [ringOf 17] } }).wf = false ∧
    (Instr.stageCfg .a { cfgImage with body := { cfgBody with rings := [ringOf 16] } }).wf = true ∧
    (Instr.stageCfg .a { cfgImage with body := { cfgBody with usedClusters := [64] } }).wf = false ∧
    (Instr.stageCfg .a { cfgImage with body := { cfgBody with weightRanges := [(0x40000000000, 0)] } }).wf = false := by decide

/-- A host ring entry has 64 bytes (R622). -/
theorem test_ill_formed_entries :
    [Instr.admitEntry shortEntry, .cancelEntry shortEntry, .inputEntry shortEntry [], .bindEntry shortEntry, .inputBodyFail shortEntry,
      .cmdNop shortEntry, .load shortEntry .failed, .store shortEntry, .fill shortEntry, .digest shortEntry].all (fun i => !i.wf) = true ∧
    (Instr.cmdNop (0 :: shortEntry)).wf = true := by decide

/-- A link message has at least one flit, a step message at most 256 records, a window write at most 256 bytes (R495, R568). -/
theorem test_ill_formed_messages :
    [Instr.statusMessage 0 noFlits noRecords, .curtainMessage 0 noFlits noRecords, .cue 0 noFlits false 0 0 0 0,
      .ringEntry 0 noFlits someEntry, .wwrite 0 noFlits ⟨0, false, 0, 0, [], someEntry⟩, .mirrorCommit 0 noFlits 0 0 [] 0,
      .hello 0 noFlits ⟨false, 0, 0, 0, 0, 0, 0, 0⟩, .heartbeat 0 noFlits false 0 0, .idleFlit 0 noFlits,
      .statusMessage 0 hdr manyRecords, .curtainMessage 0 hdr manyRecords,
      .wwrite 0 hdr ⟨0, false, 0, 0, List.replicate 257 0, someEntry⟩].all (fun i => !i.wf) = true ∧
    (Instr.statusMessage 0 hdr noRecords).wf = true := by decide +kernel

/-! ## The worked examples of spec/ -/

/-- 18_register_index.md, the worked example: RING_STAT of ring 5 of core 11 in cluster 13 of die D3, and ENG_SKID of its EU;
02_organisation.md: the core window of D2.C9.K6. -/
theorem test_register_places :
    regAt 0x8D076BC = (.ring ⟨3, 13, 11⟩ 5, 0x1C) ∧ regAt 0x8D64030 = (.eng ⟨3, 13, 11⟩ 16, 0x030) ∧
    regAt 0x693C000 = (.eng ⟨2, 9, 6⟩ 16, 0) := by decide

/-- 02_organisation.md: the scratchpad of D2.C9.K6 runs from 0x400_2970_0000 to 0x400_2977_FFFF. -/
theorem test_scratchpad_place :
    spmPlace 0x29700000 = .spm (.core ⟨2, 9, 6⟩) 0 ∧ spmPlace 0x2977FFFF = .spm (.core ⟨2, 9, 6⟩) 0x7FFFF := by decide

/-- 11_memory_stacks.md: A = 0x05A_1234_5678 on an SPD-4016-N2, and its next chunk. -/
theorem test_stack_address :
    ready.stackMap 0x5A12345678 = ⟨2, 3, false, 72, 0xD091A78⟩ ∧ (ready.stackMap 0x5A12345678).stk = 11 ∧
    (ready.stackMap 0x5A12345778).ch = 73 := by decide

/-- 04_formats_scaling.md, nested planes and a zero point: the group value 4.125 in W144; 05_accumulation_output.md, one
promotion: 18.75 in W144 and in N72, and the code 0x0001 example. -/
theorem test_promotion :
    promote false 0x6600 2 1408 = 0x42000000000000000 ∧ promote false 0x6600 0 1600 = 0x12C000000000000000 ∧
    promote true 0x6600 0 1600 = 0x12C0000000 ∧ promote true 1 0 (-1000) = -1001 := by decide

/-- 04_formats_scaling.md: the correction entry 0x0004_003C gives C = 64 at two planes and 4 at eight; h is 32. -/
theorem test_correction : corrValue 2 0x0004003C = 64 ∧ corrValue 8 0x0004003C = 4 ∧ hOf 0 2 = 32 ∧ hOf 0 8 = 0 := by decide

/-- 04_formats_scaling.md, one block to A4: the exponent 2, the four codes, and the stochastic −3 (0xD). -/
theorem test_block_to_a4 :
    blockExp 0x40400000 0x41600000 15 = 2 ∧
    [(0x40400000 : Word), 0xBFA00000, 0x3EC00000, 0x40280000].map
      (fun y => codeOf ⟨4, true, 0, 0x41600000, 0x3F000000, false⟩ (convertLevel ⟨4, true, 0, 0x41600000, 0x3F000000, false⟩ y 2 0).1)
      = [6, 14, 1, 5] ∧
    codeOf ⟨4, true, 0, 0x41600000, 0x3F000000, true⟩ (convertLevel ⟨4, true, 0, 0x41600000, 0x3F000000, true⟩ 0xBFA00000 2 39484).1
      = 0xD := by decide +kernel

/-- 04_formats_scaling.md: the plane bytes of that block, from plane 3 down. -/
theorem test_plane_bytes :
    [3, 2, 1, 0].map (fun p => (bitBytes 1 ([6, 14, 1, 5].map (fun c => bitOf c p))).map (·.toNat)) = [[2], [11], [3], [12]] := by decide

/-- 05_accumulation_output.md, one element from entry to code: the exponent 2, the code 0x7C, and histogram bin 2. -/
theorem test_element_to_code :
    blockExp 0x40780000 0x417E0000 15 = 2 ∧
    codeOf ⟨8, true, 0, 0x417E0000, 0x41000000, false⟩ (convertLevel ⟨8, true, 0, 0x417E0000, 0x41000000, false⟩ 0x40780000 2 0).1 = 0x7C ∧
    histBin 0x417E0000 0x40780000 = 2 ∧ fpMul 0x41960000 0x3E800000 = 0x40960000 ∧ fpAdd 0x40960000 0xBF300000 = 0x40800000 ∧
    fpAdd (fpMul 0x3F700000 0x40800000) 0x3E000000 = 0x40780000 := by decide +kernel

/-- 06_sparsity_prompter.md, one RLZ block and its header. -/
theorem test_rlz_block :
    rlzPart [[0, 0, 0, 5, 0xFE] ++ List.replicate 65 0 ++ [0x40] ++ List.replicate 57 0] = [0x03, 0x00, 0x03, 0x05, 0x00, 0xFE, 0x41, 0x40] ∧
    headWord 1 8 8 true 128 133 38 = 0x002680021410141D := by decide +kernel

/-- 07_precision_watch.md, one producer over three ticks: the floor widths 8, 5 and 3. -/
theorem test_floor_widths :
    let d : LayerDesc := BitVec.ofNat 2048 (2 ^ (64 + 47) + 3 * 2 ^ (128 + 51) + 8 * 2 ^ (128 + 55) + 0x3D4CCCCD * 2 ^ 384)
    [(0x40A9999A : Word), 0x3F333333, 0x3DF5C28F].map (floorWidth d) = [8, 5, 3] := by decide +kernel

/-- The check value of the CRC-32 of R157 over the nine ASCII digits 1 to 9. -/
theorem test_crc : crc32 [0x31, 0x32, 0x33, 0x34, 0x35, 0x36, 0x37, 0x38, 0x39] = 0xCBF43926 := by decide +kernel

/-- The first eight bytes of SHAKE256 of no bytes, as its standard publishes them (R180). -/
theorem test_shake : shake256 [] 8 = [0x46, 0xB9, 0xDD, 0x2B, 0x0B, 0xA8, 0x8D, 0x13] := by decide +kernel

end Sys2Proof.Tests.Slice0
end

section
/-! What `Keeps` says of each command's meaning, over the whole of `exec`, and what follows for the queue, the variant and the
free values. -/

namespace Sys2Proof.Machine

/-- The commands that may change the owner's key or its lock: TOKEN, ENROLL and LOCK, and the REGISTER_WRITE that can be one of
them (15, R723, R724, R727, R728). -/
def actsOnOwnerKey : Instr → Bool
  | .token _ _ => true
  | .enroll _ _ => true
  | .lock _ => true
  | .registerWrite _ _ _ _ => true
  | _ => false

theorem own_eq_false_of_acts {own : Bool} {c : Instr} (hk : own = true → actsOnOwnerKey c = false)
    (hc : actsOnOwnerKey c = true) : own = false := by
  rw [Bool.eq_false_iff]
  intro ho
  rw [hk ho] at hc
  exact Bool.false_ne_true hc

/-- Every command keeps what `Keeps` says; with `own`, which is the owner's key and lock, the commands that act on them are left
out. One lemma of Laws/KeepsCommands for each constructor. -/
theorem keeps_exec {own : Bool} {s0 s : State} (c : Instr) (hk : own = true → actsOnOwnerKey c = false) (hs : Keeps own s0 s) :
    KeepsA own s0 (exec c s) := by
  cases c with
  | powerGood env => exact keeps_execPowerGood env hs
  | supplyLoss mv10 => exact keeps_execSupplyLoss mv10 hs
  | supplyRange mv10 => exact keeps_execSupplyRange mv10 hs
  | junctionSample tj tjIo => exact keeps_execJunctionSample tj tjIo hs
  | tripRelease => exact keeps_execTripRelease hs
  | powerSample watts10 mv10 auxMv => exact keeps_execPowerSample watts10 mv10 auxMv hs
  | pwrHold level => exact keeps_execPwrHold level hs
  | motion level => exact keeps_execMotion level hs
  | pwrBrake pin => exact keeps_execPwrBrake pin hs
  | clkHoldover => exact keeps_execClkHoldover hs
  | tickInEdge at_ highNs lowNs => exact keeps_execTickInEdge at_ highNs lowNs hs
  | rehTrigPin pin => exact keeps_execRehTrigPin pin hs
  | portReset p kind => exact keeps_execPortReset p kind hs
  | d3hotEntry p => exact keeps_execD3hotEntry p hs
  | d0Return p => exact keeps_execD0Return p hs
  | configRequest p off wr => exact keeps_execConfigRequest p off wr hs
  | smbState => exact keeps_execSmbState hs
  | smbTj => exact keeps_execSmbTj hs
  | smbInputPower => exact keeps_execSmbInputPower hs
  | smbVin => exact keeps_execSmbVin hs
  | smbVariant => exact keeps_execSmbVariant hs
  | smbLastEvent => exact keeps_execSmbLastEvent hs
  | smbAlertResponse => exact keeps_execSmbAlertResponse hs
  | bypass => exact keeps_execBypass hs
  | idcode => exact keeps_execIdcode hs
  | samplePreload => exact keeps_execSamplePreload hs
  | extest => exact keeps_execExtest hs
  | clamp => exact keeps_execClamp hs
  | highz => exact keeps_execHighz hs
  | regrd off => exact keeps_execRegrd off hs
  | tapReset => exact keeps_execTapReset hs
  | stageFw p img => exact keeps_execStageFw p img hs
  | stageCfg p img => exact keeps_execStageCfg p img hs
  | updStaged readOk => exact keeps_execUpdStaged readOk hs
  | activate p fw cfg => exact keeps_execActivate p fw cfg hs
  | confirm p => exact keeps_execConfirm p hs
  | restart p env => exact keeps_execRestart p env hs
  | saveSettings p => exact keeps_execSaveSettings p hs
  | abort p => exact keeps_execAbort p hs
  | cert p => exact keeps_execCert p hs
  | attest p => exact keeps_execAttest p hs
  | challenge p => exact keeps_execChallenge p hs
  | token p len => obtain rfl := own_eq_false_of_acts hk rfl; exact keeps_execToken p len hs
  | enroll p len => obtain rfl := own_eq_false_of_acts hk rfl; exact keeps_execEnroll p len hs
  | lock p => obtain rfl := own_eq_false_of_acts hk rfl; exact keeps_execLock p hs
  | registerWrite p bar2 off v => obtain rfl := own_eq_false_of_acts hk rfl; exact keeps_execRegisterWrite p bar2 off v hs
  | bar0AccessRefused p off size isWrite => exact keeps_execBar0AccessRefused p off size isWrite hs
  | bar4Read p off len => exact keeps_execBar4Read p off len hs
  | bar4Write p off data => exact keeps_execBar4Write p off data hs
  | dbAdmTail p v => exact keeps_execDbAdmTail p v hs
  | dbCmdTail p v => exact keeps_execDbCmdTail p v hs
  | dbResHead p v => exact keeps_execDbResHead p v hs
  | dbEvtHead p v => exact keeps_execDbEvtHead p v hs
  | hostRingBase p r hi v => exact keeps_execHostRingBase p r hi v hs
  | hostRingCfg p r v => exact keeps_execHostRingCfg p r v hs
  | hostHeartbeat p v => exact keeps_execHostHeartbeat p v hs
  | hbAgeAdvance => exact keeps_execHbAgeAdvance hs
  | offer p v => exact keeps_execOffer p v hs
  | claim p v => exact keeps_execClaim p v hs
  | ownerChange => exact keeps_execOwnerChange hs
  | admitEntry e => exact keeps_execAdmitEntry e hs
  | cancelEntry e => exact keeps_execCancelEntry e hs
  | inputEntry e body => exact keeps_execInputEntry e body hs
  | bindEntry e => exact keeps_execBindEntry e hs
  | ringRead cmdRing => exact keeps_execRingRead cmdRing hs
  | inputBodyFail e => exact keeps_execInputBodyFail e hs
  | cmdNop e => exact keeps_execCmdNop e hs
  | load e data => exact keeps_execLoad e data hs
  | store e => exact keeps_execStore e hs
  | fill e => exact keeps_execFill e hs
  | digest e => exact keeps_execDigest e hs
  | cmdDone => exact keeps_execCmdDone hs
  | resultWrite => exact keeps_execResultWrite hs
  | eventWrite => exact keeps_execEventWrite hs
  | msixPending p vec => exact keeps_execMsixPending p vec hs
  | park p => exact keeps_execPark p hs
  | wake p => exact keeps_execWake p hs
  | gateRequest p word v => exact keeps_execGateRequest p word v hs
  | gateStartDone f => exact keeps_execGateStartDone f hs
  | gateStopDone f => exact keeps_execGateStopDone f hs
  | timerCue at_ => exact keeps_execTimerCue at_ hs
  | cue lp h bypass tick period tickMax at_ => exact keeps_execCue lp h bypass tick period tickMax at_ hs
  | cueRelease at_ => exact keeps_execCueRelease at_ hs
  | curtain at_ results => exact keeps_execCurtain at_ results hs
  | statusMessage lp h m => exact keeps_execStatusMessage lp h m hs
  | curtainMessage lp h m => exact keeps_execCurtainMessage lp h m hs
  | chainTimeout at_ => exact keeps_execChainTimeout at_ hs
  | tickMaxExpiry at_ => exact keeps_execTickMaxExpiry at_ hs
  | tickPeriod p v => exact keeps_execTickPeriod p v hs
  | tickMax p v => exact keeps_execTickMax p v hs
  | packageReduction ord => exact keeps_execPackageReduction ord hs
  | verdict ord => exact keeps_execVerdict ord hs
  | squashResume => exact keeps_execSquashResume hs
  | epochConfirm c e => exact keeps_execEpochConfirm c e hs
  | clrSticky p v => exact keeps_execClrSticky p v hs
  | supplyLower c => exact keeps_execSupplyLower c hs
  | supplyRaise c => exact keeps_execSupplyRaise c hs
  | nop c => exact keeps_execNop c hs
  | seqEnd c => exact keeps_execSeqEnd c hs
  | jmp c => exact keeps_execJmp c hs
  | br c => exact keeps_execBr c hs
  | loop c => exact keeps_execLoop c hs
  | ldi c => exact keeps_execLdi c hs
  | alu c => exact keeps_execAlu c hs
  | lds c => exact keeps_execLds c hs
  | sts c => exact keeps_execSts c hs
  | tld c => exact keeps_execTld c hs
  | tadd c => exact keeps_execTadd c hs
  | lyr c => exact keeps_execLyr c hs
  | twait c => exact keeps_execTwait c hs
  | bar c => exact keeps_execBar c hs
  | barrierComplete c id => exact keeps_execBarrierComplete c id hs
  | epoch c => exact keeps_execEpoch c hs
  | fence c => exact keeps_execFence c hs
  | seqIllegal c => exact keeps_execSeqIllegal c hs
  | seqImemParity c => exact keeps_execSeqImemParity c hs
  | bld c => exact keeps_execBld c hs
  | bankLoadDone c => exact keeps_execBankLoadDone c hs
  | dma c => exact keeps_execDma c hs
  | dmaDone c die => exact keeps_execDmaDone c die hs
  | nrd c => exact keeps_execNrd c hs
  | nwr c => exact keeps_execNwr c hs
  | push c => exact keeps_execPush c hs
  | pop c => exact keeps_execPop c hs
  | pushResume c => exact keeps_execPushResume c hs
  | consumerResume c => exact keeps_execConsumerResume c hs
  | sbRetire c entry => exact keeps_execSbRetire c entry hs
  | mbp c => exact keeps_execMbp c hs
  | mxn c => exact keeps_execMxn c hs
  | msh1 c => exact keeps_execMsh1 c hs
  | msh2 c => exact keeps_execMsh2 c hs
  | mb24 c => exact keeps_execMb24 c hs
  | msp c => exact keeps_execMsp c hs
  | planeFill c e => exact keeps_execPlaneFill c e hs
  | rowsumStep c e => exact keeps_execRowsumStep c e hs
  | passStart c e => exact keeps_execPassStart c e hs
  | groupSumHandoff c e => exact keeps_execGroupSumHandoff c e hs
  | chainLinkAdd c e => exact keeps_execChainLinkAdd c e hs
  | probe c => exact keeps_execProbe c hs
  | makeUp c => exact keeps_execMakeUp c hs
  | usSample c => exact keeps_execUsSample c hs
  | deltaCheck c => exact keeps_execDeltaCheck c hs
  | drain c => exact keeps_execDrain c hs
  | drainPass1 c => exact keeps_execDrainPass1 c hs
  | drainPass2 c => exact keeps_execDrainPass2 c hs
  | xport c => exact keeps_execXport c hs
  | imprt c => exact keeps_execImprt c hs
  | stat c => exact keeps_execStat c hs
  | svq c => exact keeps_execSvq c hs
  | svuGate c => exact keeps_execSvuGate c hs
  | svuAdd c => exact keeps_execSvuAdd c hs
  | svuMul c => exact keeps_execSvuMul c hs
  | rmsn c => exact keeps_execRmsn c hs
  | lnrm c => exact keeps_execLnrm c hs
  | smax c => exact keeps_execSmax c hs
  | prot c => exact keeps_execProt c hs
  | cvt c => exact keeps_execCvt c hs
  | conv c => exact keeps_execConv c hs
  | samp c => exact keeps_execSamp c hs
  | topkv c => exact keeps_execTopkv c hs
  | topkMerge c => exact keeps_execTopkMerge c hs
  | scat c => exact keeps_execScat c hs
  | scatterMerge c => exact keeps_execScatterMerge c hs
  | seed c => exact keeps_execSeed c hs
  | ringBase p c q v => exact keeps_execRingBase p c q v hs
  | ringSize p c q v => exact keeps_execRingSize p c q v hs
  | ringCfg p c q v => exact keeps_execRingCfg p c q v hs
  | spmScrub p c v => exact keeps_execSpmScrub p c v hs
  | scrubDone r => exact keeps_execScrubDone r hs
  | spmPatrolRead r => exact keeps_execSpmPatrolRead r hs
  | engRbAddr p c e v => exact keeps_execEngRbAddr p c e v hs
  | seqRbAddr p c v => exact keeps_execSeqRbAddr p c v hs
  | spmIdx p c v => exact keeps_execSpmIdx p c v hs
  | stkLidx p k v => exact keeps_execStkLidx p k v hs
  | slotPidx p v => exact keeps_execSlotPidx p v hs
  | twinMidx p v => exact keeps_execTwinMidx p v hs
  | stkRefresh k temp => exact keeps_execStkRefresh k temp hs
  | stkPatrolRead k => exact keeps_execStkPatrolRead k hs
  | spareCopyDone k => exact keeps_execSpareCopyDone k hs
  | spillCopyDone d => exact keeps_execSpillCopyDone d hs
  | kvFree d => exact keeps_execKvFree d hs
  | refetchTimeout at_ => exact keeps_execRefetchTimeout at_ hs
  | ringEntry lp h e => exact keeps_execRingEntry lp h e hs
  | wwrite lp h w => exact keeps_execWwrite lp h w hs
  | replay lp seq => exact keeps_execReplay lp seq hs
  | linkSilent lp => exact keeps_execLinkSilent lp hs
  | linkRetrain lp => exact keeps_execLinkRetrain lp hs
  | linkUp t => exact keeps_execLinkUp t hs
  | laneDegrade lp lane => exact keeps_execLaneDegrade lp lane hs
  | outboundSend lp => exact keeps_execOutboundSend lp hs
  | wopen lp h window gate epoch size => exact keeps_execWopen lp h window gate epoch size hs
  | wclosed lp h window epoch => exact keeps_execWclosed lp h window epoch hs
  | wnak lp h window reason epoch => exact keeps_execWnak lp h window reason epoch hs
  | wfence lp h window epoch => exact keeps_execWfence lp h window epoch hs
  | wack lp h window epoch flits => exact keeps_execWack lp h window epoch flits hs
  | winOpen p w gate => exact keeps_execWinOpen p w gate hs
  | winClose p w gate => exact keeps_execWinClose p w gate hs
  | winCloseDone w => exact keeps_execWinCloseDone w hs
  | helloSend lp => exact keeps_execHelloSend lp hs
  | hello lp h m => exact keeps_execHello lp h m hs
  | heartbeat lp h adopted tick applied => exact keeps_execHeartbeat lp h adopted tick applied hs
  | mirrorCommit lp h tick bytes slots freed => exact keeps_execMirrorCommit lp h tick bytes slots freed hs
  | mirrorApplyDone => exact keeps_execMirrorApplyDone hs
  | mirrorApplied lp h tick => exact keeps_execMirrorApplied lp h tick hs
  | adopt p v => exact keeps_execAdopt p v hs
  | refetchRequest lp h epoch addr len => exact keeps_execRefetchRequest lp h epoch addr len hs
  | refetchDone lp h addr => exact keeps_execRefetchDone lp h addr hs
  | refetchFail lp h reason addr => exact keeps_execRefetchFail lp h reason addr hs
  | trigger p check => exact keeps_execTrigger p check hs
  | rehSpill => exact keeps_execRehSpill hs
  | rehSpilled => exact keeps_execRehSpilled hs
  | readout p check => exact keeps_execReadout p check hs
  | readoutDone => exact keeps_execReadoutDone hs
  | rehReplay p check => exact keeps_execRehReplay p check hs
  | replayDone => exact keeps_execReplayDone hs
  | errFirstClr p v => exact keeps_execErrFirstClr p v hs
  | injArm p v => exact keeps_execInjArm p v hs
  | injDisarm p v => exact keeps_execInjDisarm p v hs
  | stRun p v => exact keeps_execStRun p v hs
  | stDone fail => exact keeps_execStDone fail hs
  | referenceRestored => exact keeps_execReferenceRestored hs
  | mailboxDone p => exact keeps_execMailboxDone p hs
  | cuePulseEnd => exact keeps_execCuePulseEnd hs
  | pwrBrakeRelease pin => exact keeps_execPwrBrakeRelease pin hs
  | idleFlit lp h => exact keeps_execIdleFlit lp h hs
  | eventVectorSend => exact keeps_execEventVectorSend hs

/-- What a command keeps of the state in which it runs. -/
theorem exec_keeps {c : Instr} {s t : State} (h : exec c s = .next t) : Keeps false s t :=
  (keeps_exec c (fun e => absurd e Bool.false_ne_true) (Keeps.refl s)).out t h

/-- Settles O5: `Keeps` over the whole of `exec`. -/
theorem noCommandTouchesQueueOrVariant : Obligations.NoCommandTouchesQueueOrVariant := by
  intro c s t h
  have k := exec_keeps h
  exact ⟨k.queue, k.variant, k.free⟩

end Sys2Proof.Machine
end

section
/-! The rows that are owner's writes: each acts by `ownerOnly`, which is R615 over all of them. -/

namespace Sys2Proof.Machine

/-- BAR4_WRITE asks for the port to decode itself, which a write of the owner asks for anyway. -/
theorem ownerOnly_of_decodes (s : State) (p : Port) (f : State → State) :
    (if !s.decodes p then s else s.ownerOnly p f) = s.ownerOnly p f := by
  cases h : s.decodes p with
  | false => exact (ownerOnly_lost h).symm
  | true => rfl

theorem exec_bar4Write_ownerOnly (p : Port) (off : BitVec 41) (data : List Byte) (s : State) :
    ∃ f, exec (.bar4Write p off data) s = .next (s.ownerOnly p f) :=
  ⟨_, congrArg Host.Outcome.next (ownerOnly_of_decodes s p _)⟩

/-- Every row of the table that is an owner's write acts by `ownerOnly`. -/
theorem exec_ownerPort {c : Instr} {p : Port} (h : ownerPortOf c = some p) (s : State) :
    ∃ f, exec c s = .next (s.ownerOnly p f) := by
  unfold ownerPortOf at h
  split at h <;> cases h
  -- BAR4_WRITE, the twelfth arm of `ownerPortOf`, is the one row that is not an `ownerOnly` as it stands.
  case h_12 => exact exec_bar4Write_ownerOnly ..
  all_goals exact ⟨_, rfl⟩

/-- Settles O7: each of these rows is an `ownerOnly`, which discards from the standby and loses where nothing decodes. -/
theorem standbyWritesAreDiscarded : Obligations.StandbyWritesAreDiscarded := by
  intro c p s h
  obtain ⟨f, hf⟩ := exec_ownerPort h s
  exact ⟨fun hd hp => by rw [hf, ownerOnly_standby hd hp], fun hd => by rw [hf, ownerOnly_lost hd]⟩

end Sys2Proof.Machine
end

section
/-! Registers of each type: where they lie (18, R793 to R795) and what a write of each does (00, R9 to R13). -/

namespace Sys2Proof.Machine

/-! ## Places -/

/-- The block WIN begins at 0xB0000 (R793). -/
theorem regAt_win {x : Nat} (hx : x < 0x10000) (h4 : x % 4 = 0) : regAt (0xB0000 + x) = winAt x := by
  have hblock : (0xB0000 + x) / 0x10000 = 11 := by omega
  have hin : (0xB0000 + x) % 0x10000 = x := by omega
  rw [regAt, if_neg (by omega), if_pos (by omega), lowAt]
  simp only [hblock, hin]

/-- The offsets of the windows' registers (12, WIN). -/
theorem regAt_window {w o : Nat} (hw : w < 64) (ho : o < 0x20) (h4 : o % 4 = 0) :
    regAt (0xB0000 + (0x20 * w + o)) = (.window w, o) := by
  have hdiv : (0x20 * w + o) / 0x20 = w := by omega
  have hmod : (0x20 * w + o) % 0x20 = o := by omega
  rw [regAt_win (by omega) (by omega), winAt, if_pos (by omega), hdiv, hmod]

/-- The offsets of WIN_ROUTE (12, WIN). -/
theorem regAt_route {i : Nat} (hi : i < 255) : regAt (0xB0000 + (0x2000 + 4 * i)) = (.route i, 0) := by
  have hdiv : (0x2000 + 4 * i - 0x2000) / 4 = i := by omega
  rw [regAt_win (by omega) (by omega), winAt, if_neg (by omega), if_neg (by omega), if_neg (by omega), if_pos (by omega), hdiv]

/-! ## Writes by register -/

theorem registerWrite_pwrCap (p : Port) (v : Word) (s : State) :
    exec (.registerWrite p false 0x40004 v) s = .next (s.ownerOnly p fun s =>
      if 300 ≤ v.toNat % 1024 ∧ v.toNat % 1024 ≤ 600 then
        { s with pwr := { s.pwr with cap := BitVec.ofNat 10 (v.toNat % 1024) } } else s) := rfl

theorem registerWrite_hostErr (p : Port) (v : Word) (s : State) :
    exec (.registerWrite p false 0x30208 v) s = .next (s.via p fun s =>
      { s with host := { s.host with err := s.host.err &&& ~~~(BitVec.ofNat 4 v.toNat) } }) := rfl

/-- No register of GLB takes a write, and a hole holds none (R9, R12, R795). -/
theorem registerWrite_glb_or_hole {off : BitVec 28} (h : (regAt off.toNat).1 = .glb ∨ (regAt off.toNat).1 = .hole)
    (p : Port) (v : Word) (s : State) : exec (.registerWrite p false off v) s = .next s := by
  show writeBar0 p off.toNat v s = _
  unfold writeBar0
  rcases h with h | h <;> rw [h]

theorem registerWrite_winSize {w : Nat} (hw : w < 64) (p : Port) (v : Word) (s : State) :
    exec (.registerWrite p false (BitVec.ofNat 28 (0xB0008 + 0x20 * w)) v) s = .next (s.writeWindow p w 8 v) := by
  have hoff : (BitVec.ofNat 28 (0xB0008 + 0x20 * w)).toNat = 0xB0000 + (0x20 * w + 8) := by
    rw [BitVec.toNat_ofNat]; omega
  show writeBar0 p _ v s = _
  unfold writeBar0
  rw [hoff, regAt_window hw (by decide) (by decide)]
  rfl

theorem registerWrite_winRoute {i : Nat} (hi : i < 255) (p : Port) (v : Word) (s : State) :
    exec (.registerWrite p false (BitVec.ofNat 28 (0xB2000 + 4 * i)) v) s = .next (s.writeRoute p i v) := by
  have hoff : (BitVec.ofNat 28 (0xB2000 + 4 * i)).toNat = 0xB0000 + (0x2000 + 4 * i) := by
    rw [BitVec.toNat_ofNat]; omega
  show writeBar0 p _ v s = _
  unfold writeBar0
  rw [hoff, regAt_route hi]

/-! ## WIN_SIZE by the window that it belongs to -/

/-- A driver's window that is CLOSED without PENDING takes its setting (R586). -/
theorem writeWindow_closed {s : State} {p : Port} {w o : Nat} (hp : s.owns p) (ho : o < 0x10) (hw : w < 48)
    (hst : (s.windowAt w).state = 0) (hpd : (s.windowAt w).pending = false) (v : Word) :
    s.writeWindow p w o v = s.modWindow w (fun x => x.put o v) := by
  unfold State.writeWindow
  rw [if_neg (by omega), ownerOnly_owns hp]
  simp [hst, hpd, Nat.not_le.mpr hw]

/-- The device's own windows take none (R583). -/
theorem writeWindow_own {s : State} {p : Port} {w o : Nat} (hp : s.owns p) (ho : o < 0x10) (hw : 48 ≤ w) (v : Word) :
    s.writeWindow p w o v = s.raise 0x5012 := by
  unfold State.writeWindow
  rw [if_neg (by omega), ownerOnly_owns hp]
  exact if_pos hw

/-! ## The obligation -/

/-- The field of ten bits holds the value modulo 1,024. -/
theorem ofNat_mod_1024 (n : Nat) : BitVec.ofNat 10 (n % 1024) = BitVec.ofNat 10 n :=
  BitVec.eq_of_toNat_eq (by simp)

/-- Settles O26, register by register. -/
theorem registerWrites : Obligations.RegisterWrites := by
  refine ⟨fun p v s hp => ⟨fun hlo hhi => ?_, fun hout => ?_⟩, fun p v s hd hne => ?_, fun p v s hd => ?_,
    fun p off v s h => registerWrite_glb_or_hole h p v s, fun p w v s hp => ⟨fun hw hst hpd => ?_, fun hlo hw => ?_⟩,
    fun p i v s hp hi => ?_, fun p v s => ⟨rfl, rfl, rfl, rfl, rfl⟩⟩
  · rw [registerWrite_pwrCap, ownerOnly_owns hp, if_pos ⟨hlo, hhi⟩, ofNat_mod_1024]
  · rw [registerWrite_pwrCap, ownerOnly_owns hp, if_neg (by omega)]
  · rw [registerWrite_pwrCap, ownerOnly_standby hd hne]
  · rw [registerWrite_hostErr, via_decodes hd]
  · rw [registerWrite_winSize (by omega), writeWindow_closed hp (by decide) hw hst hpd]
    rfl
  · rw [registerWrite_winSize hw, writeWindow_own hp (by decide) hlo]
  · rw [registerWrite_winRoute hi, State.writeRoute, ownerOnly_owns hp]
    rfl

end Sys2Proof.Machine
end

section
/-! The state after reset. -/

namespace Sys2Proof.Machine

/-- Every slot is in its reset value at reset (R479). -/
theorem slot_reset (i : Nat) : State.reset.slot i = .reset := rfl

/-- Every window is in its reset value at reset (R585). -/
theorem windowAt_reset (w : Nat) : State.reset.windowAt w = .reset := rfl

/-- Settles O58, by the reset value of each field: the units' tables list nothing, so each unit reads as its reset value. -/
theorem resetState : Obligations.ResetState := by
  refine ⟨rfl, rfl, fun i => ?_, rfl, rfl, fun w => ?_, fun _ => rfl, rfl⟩
  · rw [slot_reset]; rfl
  · rw [windowAt_reset]; exact ⟨rfl, rfl, rfl⟩

end Sys2Proof.Machine
end

section
/-! The selected reference (02, R60). -/

namespace Sys2Proof.Machine

/-- The selected reference comes or goes (R59). -/
def State.setSelectedRef (s : State) (level : Bool) : State :=
  s.modPin (fun p => if s.glb.refSel then { p with refB := level } else { p with refA := level })

theorem exec_clkHoldover_of_locked {s : State} (hon : s.glb.st ≠ .off) (hlock : s.glb.holdover = false) :
    exec .clkHoldover s =
      .next ({ s.setSelectedRef false with glb := { s.glb with holdover := true } }.raise 0x9001) :=
  congrArg Host.Outcome.next (if_neg (by simp [hon, hlock]))

theorem exec_referenceRestored_of_holdover {s : State} (h : s.glb.holdover = true) :
    exec .referenceRestored s = .next { s.setSelectedRef true with glb := { s.glb with holdover := false } } :=
  congrArg Host.Outcome.next (if_pos h)

/-- Settles O12: the loss sets the pin and HOLDOVER and then raises 0x9001, which leaves ticks, cores and the device state
(`raise_tick`, `raise_core`, `raise_glb`) and shows itself on the SMBus as one of class 0x9; the return only sets the two. -/
theorem referenceLostAndRestored : Obligations.ReferenceLostAndRestored := by
  refine ⟨fun s hon hlock => ?loss, fun s h => exec_referenceRestored_of_holdover h⟩
  case loss =>
    exact ⟨_, _, exec_clkHoldover_of_locked hon hlock, rfl, rfl, rfl,
      raise_tick .., raise_core .., congrArg (·.st) (raise_glb ..), raise_class_nine _ _ _ _ _ (by decide)⟩

end Sys2Proof.Machine
end
section
/-! The latching read-backs (03, R128 to R131; 08, R403; 09, R467; 11, R555; 14, R684): each is a `via` that changes the copies of
the port that writes. -/

namespace Sys2Proof.Machine

/-! ## A change of one port -/

theorem port_modPort_other (s : State) (f : PortSt → PortSt) : ∀ {p r : Port}, r ≠ p → (s.modPort p f).port r = s.port r
  | .a, .b, _ => rfl
  | .b, .a, _ => rfl
  | .a, .a, h => absurd rfl h
  | .b, .b, h => absurd rfl h

/-- A change of one port's registers is a change of the two port records only. -/
theorem modPort_frame (s : State) (p : Port) (f : PortSt → PortSt) :
    s.modPort p f = { s with portA := (s.modPort p f).portA, portB := (s.modPort p f).portB } := by
  cases p <;> rfl

/-- The parity error that a read-back finds leaves the ports' copies (R131). -/
theorem port_readParity (s : State) (c : CoreId) (e : Nat) (p : Port) : (s.readParity c e).port p = s.port p := by
  cases p
  · exact raise_portA ..
  · exact raise_portB ..

/-! ## Words that are not there -/

theorem engineWord_target_seven (k : CoreSt) (x : EngineSt) (off : Nat) : k.engineWord x 7 off = (none, none) := rfl

/-- SEQ_RB_ADDR has the targets 0 to 8 (R468). -/
theorem seqWord_of_target_gt (k : CoreSt) {target : Nat} (h : 8 < target) (off : Nat) : k.seqWord target off = none := by
  obtain ⟨n, rfl⟩ : ∃ n, target = n + 9 := ⟨target - 9, by omega⟩
  rfl

theorem laneWord_of_lt (s : State) (k : Nat) {ch : Nat} (h : ch < 160) :
    s.laneWord k ch = word ((Tab.get 0 (s.stkAt k).laneMap ch).toNat + 512) := if_pos h

/-! ## What each write does through a port that decodes -/

section
variable {s : State} {p : Port}

/-- The latch of an engine word (R129, R130): the copy of the port that wrote takes it, whatever the parity check then raises. -/
theorem exec_engRbAddr_port (hd : s.decodes p = true) (c : CoreId) (e : Fin 17) (v : Word) :
    ∃ t, exec (.engRbAddr p c e v) s = .next t ∧ ∀ r, t.port r = (s.modPort p (fun q => { q with
      engRb := Tab.set .reset q.engRb (engKey c e.val) (s.latchOf v 0x70003FFF
        ((s.coreAt c).engineWord (s.engAt c e.val) (field v.toNat 30 28) (field v.toNat 13 0)).1) })).port r := by
  refine ⟨_, congrArg Host.Outcome.next (via_decodes hd), fun r => ?_⟩
  dsimp only
  split
  · split
    · exact port_readParity ..
    · rfl
  · rfl

theorem exec_seqRbAddr_decodes (hd : s.decodes p = true) (c : CoreId) (v : Word) :
    exec (.seqRbAddr p c v) s = .next (s.modPort p (fun q => { q with
      seqRb := Tab.set .reset q.seqRb c.num (s.latchOf v 0xFFFFF ((s.coreAt c).seqWord (field v.toNat 19 16) (field v.toNat 15 0))) })) :=
  congrArg Host.Outcome.next (via_decodes hd)

theorem exec_spmIdx_decodes (hd : s.decodes p = true) (c : ClusterId) (v : Word) {w : Word × Word × Word}
    (hw : w = (s.coreAt (ClusterId.core c (field v.toNat 3 0))).idxWords v.toNat) :
    exec (.spmIdx p c v) s = .next (s.modPort p (fun q => { q with
      spmIdx := Tab.set .reset q.spmIdx c.num ⟨v &&& 0xFFF, w.1, w.2.1, w.2.2, s.stamp false⟩ })) :=
  hw ▸ congrArg Host.Outcome.next (via_decodes hd)

theorem exec_stkLidx_unpopulated (hd : s.decodes p = true) {k : Fin 16} (hk : s.stkPopulated k.val = false) (v : Word) :
    exec (.stkLidx p k v) s = .next s :=
  congrArg Host.Outcome.next ((via_decodes hd).trans (if_pos (by rw [hk]; rfl)))

theorem exec_stkLidx_populated (hd : s.decodes p = true) {k : Fin 16} (hk : s.stkPopulated k.val = true) (v : Word) :
    exec (.stkLidx p k v) s = .next (s.modPort p (fun q => { q with
      stkL := Tab.set .reset q.stkL k.val ⟨word (v.toNat % 256), s.laneWord k.val (v.toNat % 256), 0⟩ })) :=
  congrArg Host.Outcome.next ((via_decodes hd).trans (if_neg (by simp [hk])))

theorem exec_slotPidx_decodes (hd : s.decodes p = true) (v : Word) :
    exec (.slotPidx p v) s = .next (s.modPort p (fun q => { q with
      slotP := ⟨BitVec.ofNat 8 (v.toNat % 256), s.pendingWords (v.toNat % 256), s.stamp⟩ })) :=
  congrArg Host.Outcome.next (via_decodes hd)

theorem exec_twinMidx_decodes (hd : s.decodes p = true) (v : Word) :
    exec (.twinMidx p v) s = .next (s.modPort p (fun q => { q with
      twinM := ⟨BitVec.ofNat 8 (v.toNat % 256), s.mirrorWords (v.toNat % 256), Tab.get 0 s.twin.mirrorTicks (v.toNat % 256)⟩ })) :=
  congrArg Host.Outcome.next (via_decodes hd)

end

/-! ## The obligation -/

/-- Settles O48: where the port does not decode `via` loses the write; where it does, each write is a `modPort` of the port that
wrote, and ENG_RB_ADDR may raise a parity error after it. -/
theorem latchingReadBacks : Obligations.LatchingReadBacks := by
  intro s p
  refine ⟨fun hd => ?lost, fun hd => ⟨fun c e v => ?eng, fun c v => ?seq, fun c v => ?spm, fun k v => ⟨fun hk => ?stkNone, fun hk => ?stk⟩,
    fun v => ?slot, fun v => ?twin⟩⟩
  case lost =>
    simp only [List.mem_cons, List.not_mem_nil, or_false, forall_eq_or_imp, forall_eq]
    exact ⟨fun c e v => congrArg Host.Outcome.next (via_lost hd), fun c e v => congrArg Host.Outcome.next (via_lost hd),
      fun c e v => congrArg Host.Outcome.next (via_lost hd), fun c e v => congrArg Host.Outcome.next (via_lost hd),
      fun c e v => congrArg Host.Outcome.next (via_lost hd), fun c e v => congrArg Host.Outcome.next (via_lost hd)⟩
  case eng =>
    obtain ⟨t, ht, hport⟩ := exec_engRbAddr_port hd c e v
    refine ⟨t, _, ht, by rw [hport, State.port_modPort], rfl, fun _ hf => by subst hf; exact ⟨rfl, rfl⟩, fun h7 => ?_,
      fun r hr => (hport r).trans (port_modPort_other _ _ hr)⟩
    rw [h7, engineWord_target_seven]
    exact ⟨rfl, rfl⟩
  case seq =>
    refine ⟨_, _, exec_seqRbAddr_decodes hd c v, by rw [State.port_modPort], rfl, fun _ hf => by subst hf; exact ⟨rfl, rfl⟩, fun h8 => ?_,
      modPort_frame .., fun r hr => port_modPort_other _ _ hr⟩
    rw [seqWord_of_target_gt _ h8]
    exact ⟨rfl, rfl⟩
  case spm =>
    exact ⟨_, _, exec_spmIdx_decodes hd c v rfl, by rw [State.port_modPort], rfl, rfl, modPort_frame .., fun r hr => port_modPort_other _ _ hr⟩
  case stkNone => exact exec_stkLidx_unpopulated hd hk v
  case stk =>
    exact ⟨_, _, exec_stkLidx_populated hd hk v, by rw [State.port_modPort], rfl, laneWord_of_lt _ _, modPort_frame ..,
      fun r hr => port_modPort_other _ _ hr⟩
  case slot =>
    exact ⟨_, exec_slotPidx_decodes hd v, by rw [State.port_modPort], modPort_frame .., fun r hr => port_modPort_other _ _ hr⟩
  case twin =>
    exact ⟨_, exec_twinMidx_decodes hd v, by rw [State.port_modPort], modPort_frame .., fun r hr => port_modPort_other _ _ hr⟩

end Sys2Proof.Machine
end
section
/-! The engine (03, R77 to R118; 05, R203): plane buffers, row sums, passes, hand-off and the chain, one rule for each way that an
instruction goes. -/

namespace Sys2Proof.Machine

/-! ## Engines of a core -/

/-- A change of a core that leaves its engines. -/
theorem engAt_modCore_of_engines (s : State) (c d : CoreId) (g : Nat) {f : CoreSt → CoreSt}
    (h : (f (s.coreAt c)).engines = (s.coreAt c).engines) : (s.modCore c f).engAt d g = s.engAt d g := by
  unfold State.engAt
  rw [coreAt_modCore]
  split
  · next hd => rw [h, hd]
  · rfl

@[simp] theorem engAt_modOcv (s : State) (c d : CoreId) (g : Nat) (f : OcvSt → OcvSt) :
    (s.modOcv c f).engAt d g = s.engAt d g := engAt_modCore_of_engines s c d g rfl

/-- A change of one engine leaves the others. -/
theorem engAt_modEng_other (s : State) (c : CoreId) {e g : Nat} (f : EngineSt → EngineSt) (h : g ≠ e) :
    (s.modEng c e f).engAt c g = s.engAt c g := by
  rw [engAt_modEng, if_neg (fun x => h x.2)]

@[simp] theorem coreAt_modEng (s : State) (c : CoreId) (e : Nat) (f : EngineSt → EngineSt) :
    (s.modEng c e f).coreAt c = { (s.coreAt c) with engines := Tab.upd .reset (s.coreAt c).engines e f } := by
  rw [State.modEng, coreAt_modCore, if_pos rfl]

@[simp] theorem coreAt_modOcv (s : State) (c : CoreId) (f : OcvSt → OcvSt) :
    (s.modOcv c f).coreAt c = { (s.coreAt c) with ocv := f (s.coreAt c).ocv } := by
  rw [State.modOcv, coreAt_modCore, if_pos rfl]

/-- Engines of equal cores are equal. -/
theorem engAt_of_core_eq {s u : State} (h : u.core = s.core) (c : CoreId) (g : Nat) : u.engAt c g = s.engAt c g := by
  unfold State.engAt State.coreAt
  rw [h]

section
variable {s : State} {c : CoreId} {e : Fin 16}

/-! ## Plane buffers (R80 to R85) -/

theorem exec_planeFill_idle (h : ((s.engAt c e.val).buf0 ≠ none ∧ (s.engAt c e.val).buf1 ≠ none) ∨ s.tickLive = false ∨
    (s.engAt c e.val).nextFill e.val (s.coreAt c).chainQ = none) : exec (.planeFill c e) s = .next s := by
  show execPlaneFill c e s = _
  unfold execPlaneFill
  rcases h with ⟨h0, h1⟩ | hlive | hnext
  · simp [Option.isSome_iff_ne_none.mpr h0, Option.isSome_iff_ne_none.mpr h1]
  · simp [hlive]
  · simp [hnext]

/-- The free buffer takes the planes of the next vector of an instruction whose tile's unit has started. -/
theorem exec_planeFill_fills (hfree : (s.engAt c e.val).buf0 = none ∨ (s.engAt c e.val).buf1 = none) (hlive : s.tickLive = true)
    {o : ChainOp} {u : Nat} {t : TileData} {b : PlaneBuf} (hnext : (s.engAt c e.val).nextFill e.val (s.coreAt c).chainQ = some (o, u))
    (hstarted : o.started = true) (htile : s.opTile o = some t)
    (hb : b = if o.sparse then sparseBuf o t e.val u else denseBuf o t e.val u) :
    exec (.planeFill c e) s = .next (s.modEng c e.val (fun x => { x with
      buf0 := if x.buf0.isNone then some b else x.buf0
      buf1 := if x.buf0.isNone then x.buf1 else some b
      nextOp := o.id
      nextVec := u + 1
      skipped := bump x.skipped (if o.bound.pmode = 1 then 0 else o.aw - (b.active.length + b.activeLo.length)) })) := by
  subst hb
  show execPlaneFill c e s = _
  have hroom : ((s.engAt c e.val).buf0.isSome && (s.engAt c e.val).buf1.isSome) = false := by
    rcases hfree with h | h <;> simp [h]
  simp only [execPlaneFill, hroom, hnext, hstarted, hlive, htile, Bool.not_true, Bool.or_false, Bool.false_eq_true, if_false, if_true]

/-! ## Row sums (R109 to R111) -/

theorem exec_rowsumStep_idle {b : PlaneBuf} {second : Bool} {o : ChainOp} (hfront : (s.engAt c e.val).front = some (b, second))
    (hop : (s.coreAt c).chainOp b.op = some o) (h : b.rowsum = false ∨ (s.engAt c e.val).pass ≠ none) :
    exec (.rowsumStep c e) s = .next s := by
  show execRowsumStep c e s = _
  have hidle : (!b.rowsum) = true ∨ (s.engAt c e.val).pass.isSome = true := by
    simpa [Option.isSome_iff_ne_none] using h
  simp only [execRowsumStep, hfront, hop, if_pos hidle]

/-- Outside mode 4 a buffer's row sums are one value per register (R110). -/
theorem exec_rowsumStep_sums {b : PlaneBuf} {o : ChainOp} (hfront : (s.engAt c e.val).front = some (b, false))
    (hop : (s.coreAt c).chainOp b.op = some o) (hrow : b.rowsum = true) (hpass : (s.engAt c e.val).pass = none)
    (hv : (s.cluAt c.cluster.num).vsup = 0) (hmode : o.bound.pmode ≠ 4) :
    exec (.rowsumStep c e) s = .next ((s.modEng c e.val (fun x => { x with
        buf0 := some { b with rowsum := false }, state := 2, rowsums := bump x.rowsums })).modCore c (fun k => { k with
        rowsums := Tab.setRange 0 k.rowsums (b.vec * 128 + e.val * 8)
          ((List.range (o.form e.val).regs).map (fun g => rowSum (o.form e.val) ((s.engAt c e.val).weights o) b g 0)) })) := by
  show execRowsumStep c e s = _
  have hform : (o.form e.val).mode ≠ 4 := fun h => hmode (BitVec.eq_of_toNat_eq h)
  simp [execRowsumStep, hfront, hop, hrow, hpass, hv, hform]

/-! ## The start of a pass (R77 to R80, R86, R122, R125) -/

/-- With no planes in its buffers the engine waits for them (R80). -/
theorem exec_passStart_waits_planes (hpass : (s.engAt c e.val).pass = none) (hlive : s.tickLive = true)
    (hfront : (s.engAt c e.val).front = none) (hnext : (s.engAt c e.val).nextFill e.val (s.coreAt c).chainQ ≠ none) :
    exec (.passStart c e) s = .next (s.modEng c e.val (fun y => { y with state := 3 })) := by
  show execPassStart c e s = _
  simp [execPassStart, hpass, hlive, hfront, Option.isSome_iff_ne_none.mpr hnext]

section
variable {b : PlaneBuf} {o : ChainOp} (hfront : (s.engAt c e.val).front = some (b, false))
  (hop : (s.coreAt c).chainOp b.op = some o) (hrow : b.rowsum = false) (hpass : (s.engAt c e.val).pass = none) (hlive : s.tickLive = true)

/-- A bank that the pass reads still waits for an older load (R72, R75). -/
def CoreSt.passLate (k : CoreSt) (o : ChainOp) (e : Nat) : Bool :=
  k.loadsBefore e o.bank o.id || (((o.form e).wpl == 16 || o.sparse) && k.loadsBefore e (!o.bank) o.id)

include hfront hop hrow hpass hlive

theorem exec_passStart_bad (hbad : (o.form e.val).bad (LayerDesc.gsz o.bound.desc) (LayerDesc.rows o.bound.desc) = true) :
    exec (.passStart c e) s = .next (s.engFault c e.val 0x2121 2) := by
  show execPassStart c e s = _
  simp [execPassStart, hfront, hop, hrow, hpass, hlive, hbad]

variable (hbad : (o.form e.val).bad (LayerDesc.gsz o.bound.desc) (LayerDesc.rows o.bound.desc) = false)
include hbad

theorem exec_passStart_waits_supply (hv : (s.cluAt c.cluster.num).vsup ≠ 0) (hfast : (o.form e.val).fast = false) :
    exec (.passStart c e) s = .next (s.modEng c e.val (fun y => { y with state := 6 })) := by
  show execPassStart c e s = _
  have hwait : (s.cluAt c.cluster.num).vsup ≠ 0 ∧ (((!(o.form e.val).fast) = true) ∨ ((!(LayerDesc.osAllow o.bound.desc)) = true)) :=
    ⟨hv, .inl (by rw [hfast]; rfl)⟩
  simp only [execPassStart, hfront, hop, hrow, hpass, hlive, hbad, if_pos hwait, Option.isSome_none, Bool.not_true, Bool.or_self,
    Bool.false_eq_true, if_false]

variable (hv : (s.cluAt c.cluster.num).vsup = 0)
include hv

theorem exec_passStart_waits_bank (hlate : (s.coreAt c).passLate o e.val = true) :
    exec (.passStart c e) s = .next (s.drawWord.2.modEng c e.val (fun y =>
      { y with state := 4, bankWait := y.bankWait + s.drawWord.1 })) := by
  show execPassStart c e s = _
  unfold CoreSt.passLate at hlate
  simp only [execPassStart, hfront, hop, hrow, hpass, hlive, hbad, hv, hlate, Option.isSome_none, Bool.not_true, Bool.or_self,
    Bool.false_eq_true, ne_eq, not_true_eq_false, false_and, if_false, if_true]

variable (hlate : (s.coreAt c).passLate o e.val = false) (hdense : o.sparse = false)
include hlate hdense

theorem exec_passStart_missing_plane (hplanes : (s.engAt c e.val).planesOk o (o.form e.val) = false) :
    exec (.passStart c e) s = .next (s.engFault c e.val 0x2120 0) := by
  show execPassStart c e s = _
  simp only [CoreSt.passLate, hdense] at hlate
  simp only [execPassStart, hfront, hop, hrow, hpass, hlive, hbad, hv, hlate, hdense, hplanes, Option.isSome_none, Bool.not_true,
    Bool.not_false, Bool.or_self, Bool.false_eq_true, ne_eq, not_true_eq_false, false_and, if_false, if_true]

variable (hplanes : (s.engAt c e.val).planesOk o (o.form e.val) = true)
include hplanes

theorem exec_passStart_bad_parity (hparity : (s.engAt c e.val).parityOk o (o.form e.val) = false) :
    exec (.passStart c e) s = .next (s.engFault c e.val 0x4130 1) := by
  show execPassStart c e s = _
  simp only [CoreSt.passLate, hdense] at hlate
  simp only [execPassStart, hfront, hop, hrow, hpass, hlive, hbad, hv, hlate, hdense, hplanes, hparity, Option.isSome_none,
    Bool.not_true, Bool.not_false, Bool.or_self, Bool.false_eq_true, ne_eq, not_true_eq_false, false_and, if_false, if_true]

/-- The first slice pair runs once the pass's tables are read; only they and the z × C products change before it. -/
theorem exec_passStart_starts (hparity : (s.engAt c e.val).parityOk o (o.form e.val) = true) {u : State}
    (hread : s.readAll (o.tables e.val) = (true, u)) :
    ∃ g : EngineSt → EngineSt, exec (.passStart c e) s = .next ((u.modCore c (fun k => u.corrProducts o e.val k)).modEng c e.val g) ∧
      ∀ x : EngineSt, (g x).state = 1 ∧ (g x).pass = some ⟨b, false, 0, []⟩ ∧
        (g x).gsum = (x.setSums (o.form e.val) (x.weights o) b ((o.form e.val).pairs.headD (false, false))).gsum ∧
        (g x).govf = (x.setSums (o.form e.val) (x.weights o) b ((o.form e.val).pairs.headD (false, false))).govf ∧
        (g x).vec = BitVec.ofNat 5 b.vec ∧ (g x).pmode = BitVec.ofNat 3 (o.form e.val).mode ∧
        (g x).aw = BitVec.ofNat 5 (o.form e.val).aw ∧ (g x).activeBank = (o.bank != o.sparse) := by
  simp only [CoreSt.passLate, hdense] at hlate
  apply Exists.intro
  constructor
  · show execPassStart c e s = _
    simp only [execPassStart, hfront, hop, hrow, hpass, hlive, hbad, hv, hlate, hdense, hplanes, hparity, hread, Option.isSome_none,
      Bool.not_true, Bool.or_self, Bool.false_eq_true, ne_eq, not_true_eq_false, false_and, if_false]
    rfl
  · exact fun x => ⟨rfl, rfl, rfl, rfl, rfl, rfl, rfl, by rw [hdense]⟩

end

/-- The z × C products are in no engine. -/
theorem corrProducts_engines (u : State) (o : ChainOp) (e : Nat) (k : CoreSt) : (u.corrProducts o e k).engines = k.engines := by
  unfold State.corrProducts
  dsimp only
  split <;> rfl

/-! ## The hand-off of a slice pair (R92 to R95, R116) -/

theorem exec_groupSumHandoff_idle (hpass : (s.engAt c e.val).pass = none) : exec (.groupSumHandoff c e) s = .next s := by
  show execGroupSumHandoff c e s = _
  simp only [execGroupSumHandoff, hpass]

section
variable {p : PassSt} {o : ChainOp} (hpass : (s.engAt c e.val).pass = some p) (hop : (s.coreAt c).chainOp p.buf.op = some o)
  (hdense : o.sparse = false)

/-- A dense pass gives the contribution of its one vector. -/
theorem vectors_of_dense (p : PassSt) {o : ChainOp} (hdense : o.sparse = false) : p.vectors o = [p.buf.vec] :=
  if_neg (by simp [hdense])

/-- The contribution of a dense pass after its slice pair. -/
def State.denseContrib (s : State) (c : CoreId) (o : ChainOp) (p : PassSt) (e : Nat) : Tagged :=
  ⟨o.id, p.buf.vec, (s.pairContrib c o p e p.buf.vec (p.sofar p.buf.vec)).1⟩

/-- Promotion has taken the registers of a dense pass: its new infinities are counted, and over-scaled sums have drawn their free
bits (R119, R237). -/
def State.densePromoted (s : State) (c : CoreId) (o : ChainOp) (p : PassSt) (e : Nat) : State :=
  ({ s with free := s.free + if (s.cluAt c.cluster.num).vsup = 0 then 0 else 1024 } : State).modOcv c (fun q =>
    { q with promInf := bump q.promInf (s.pairContrib c o p e p.buf.vec (p.sofar p.buf.vec)).2 })

theorem engAt_densePromoted (s : State) (c : CoreId) (o : ChainOp) (p : PassSt) (e g : Nat) :
    (s.densePromoted c o p e).engAt c g = s.engAt c g :=
  engAt_modOcv ..

include hpass hop hdense

/-- With the skid full the last slice pair stays in the registers (R116). -/
theorem exec_groupSumHandoff_full (hlast : (o.form e.val).pairs.length ≤ p.pair + 1) (hfull : 8 ≤ (s.engAt c e.val).contribs.length) :
    exec (.groupSumHandoff c e) s = .next (s.drawWord.2.modEng c e.val (fun x =>
      { x with state := 5, skidStall := x.skidStall + s.drawWord.1 })) := by
  show execGroupSumHandoff c e s = _
  have hwait : (o.form e.val).pairs.length ≤ p.pair + 1 ∧ 8 < (s.engAt c e.val).contribs.length + [p.buf.vec].length :=
    ⟨hlast, Nat.lt_succ_of_le hfull⟩
  simp only [execGroupSumHandoff, hpass, hop, vectors_of_dense p hdense, decide_eq_true_eq, if_pos hwait]

/-- The last slice pair ends the pass: its buffer is free and the link has its contribution. -/
theorem exec_groupSumHandoff_last (hlast : (o.form e.val).pairs.length ≤ p.pair + 1) (hroom : (s.engAt c e.val).contribs.length < 8) :
    exec (.groupSumHandoff c e) s = .next ((s.densePromoted c o p e.val).modEng c e.val (fun x => { x with
      gsumOvf := bump x.gsumOvf x.govf.length, gsum := [], govf := [], contribs := x.contribs ++ [s.denseContrib c o p e.val]
      pass := none, passes := bump x.passes, state := 0, readingA := false, readingB := false
      buf0 := if p.second then x.buf0 else none, buf1 := if p.second then none else x.buf1 })) := by
  show execGroupSumHandoff c e s = _
  have hgo : ¬((o.form e.val).pairs.length ≤ p.pair + 1 ∧ 8 < (s.engAt c e.val).contribs.length + [p.buf.vec].length) :=
    fun h => absurd h.2 (Nat.not_lt.mpr (Nat.succ_le_of_lt hroom))
  simp only [execGroupSumHandoff, hpass, hop, vectors_of_dense p hdense, decide_eq_true_eq, if_neg hgo, if_pos hlast]
  rfl

/-- Before the last slice pair the registers take the next one's sums. -/
theorem exec_groupSumHandoff_next (hmore : p.pair + 1 < (o.form e.val).pairs.length) : ∃ g : EngineSt → EngineSt,
    exec (.groupSumHandoff c e) s = .next ((s.densePromoted c o p e.val).modEng c e.val g) ∧ ∀ x : EngineSt,
      (g x).contribs = x.contribs ∧ (g x).pass = some ⟨p.buf, p.second, p.pair + 1, [s.denseContrib c o p e.val]⟩ := by
  apply Exists.intro
  constructor
  · show execGroupSumHandoff c e s = _
    have hmore' : ¬(o.form e.val).pairs.length ≤ p.pair + 1 := Nat.not_le.mpr hmore
    simp only [execGroupSumHandoff, hpass, hop, vectors_of_dense p hdense, decide_eq_true_eq, hmore', false_and, if_false]
    rfl
  · exact fun x => ⟨rfl, rfl⟩

end

/-! ## The chain (R112 to R118, R203) -/

/-- Link e has summed: the new infinities are counted, the running sum and n contributions have left the skid. -/
def State.linkTake (s : State) (c : CoreId) (e inf n : Nat) : State :=
  (s.modOcv c (fun q => { q with promInf := bump q.promInf inf })).modEng c e (fun x =>
    { x with contribs := x.contribs.drop n, sums := x.sums.drop 1 })

/-- Link e's running sum goes into the skid of link e + 1. -/
def State.linkHand (s : State) (c : CoreId) (e : Nat) (t : Tagged) : State :=
  s.modEng c (e + 1) (fun x => { x with sums := x.sums ++ [t] })

theorem engAt_linkTake (s : State) (c : CoreId) (e inf n : Nat) : (s.linkTake c e inf n).engAt c e =
    { (s.engAt c e) with contribs := (s.engAt c e).contribs.drop n, sums := (s.engAt c e).sums.drop 1 } := by
  rw [State.linkTake, State.engAt_modEng, engAt_modOcv]

theorem engAt_linkTake_other (s : State) (c : CoreId) {e g : Nat} (inf n : Nat) (h : g ≠ e) :
    (s.linkTake c e inf n).engAt c g = s.engAt c g := by
  rw [State.linkTake, engAt_modEng_other _ _ _ h, engAt_modOcv]

theorem engAt_linkHand (s : State) (c : CoreId) (e : Nat) (t : Tagged) : (s.linkHand c e t).engAt c e = s.engAt c e :=
  engAt_modEng_other _ _ _ (Nat.ne_of_lt (Nat.lt_succ_self e))

theorem sums_linkHand (s : State) (c : CoreId) (e : Nat) (t : Tagged) :
    ((s.linkHand c e t).engAt c (e + 1)).sums = (s.engAt c (e + 1)).sums ++ [t] := by
  rw [State.linkHand, State.engAt_modEng]

/-- The accumulator bank after a running sum has reached it: its vector and its instruction's end are not in the bank. -/
theorem acb_acbLand (s : State) (c : CoreId) (o : ChainOp) (t : Tagged) : ((s.acbLand c o t).coreAt c).acb =
    (if o.acc then (s.coreAt c).acbAdd o.bound.fast o.half (o.acbase + t.vec) t.vals
      else (s.coreAt c).acbOver o.bound.fast o.half (o.acbase + t.vec) t.vals).acb := by
  unfold State.acbLand State.modChain
  dsimp only
  split <;> simp only [State.coreAt_modCore]

/-- A value on its way into the accumulator bank leaves the engines. -/
theorem engines_acbWrite (k : CoreSt) (acc fast half : Bool) (j : Nat) (v : List Acc) :
    (if acc then k.acbAdd fast half j v else k.acbOver fast half j v).engines = k.engines := by
  split <;> rfl

theorem engAt_acbLand (s : State) (c : CoreId) (o : ChainOp) (t : Tagged) (g : Nat) : (s.acbLand c o t).engAt c g = s.engAt c g := by
  unfold State.acbLand State.modChain
  dsimp only
  split
  all_goals
    rw [engAt_modCore_of_engines _ _ _ _ (by rfl), engAt_modCore_of_engines]
    exact engines_acbWrite ..

/-- What the accumulator bank takes depends on its entries and format bits alone. -/
theorem acb_acbWrite_linkTake (s : State) (c : CoreId) (e inf n : Nat) (acc fast half : Bool) (j : Nat) (v : List Acc) :
    (if acc then ((s.linkTake c e inf n).coreAt c).acbAdd fast half j v else ((s.linkTake c e inf n).coreAt c).acbOver fast half j v).acb =
      (if acc then (s.coreAt c).acbAdd fast half j v else (s.coreAt c).acbOver fast half j v).acb := by
  rw [State.linkTake, coreAt_modEng, coreAt_modOcv]
  cases acc <;> rfl

/-- A link after the first does nothing without a running sum. -/
theorem exec_chainLinkAdd_no_sum (he : e.val ≠ 0) (hsums : (s.engAt c e.val).sums = []) : exec (.chainLinkAdd c e) s = .next s := by
  show execChainLinkAdd c e s = _
  simp only [execChainLinkAdd, if_neg he, hsums, List.head?_nil]

section
variable {h : Tagged} {l : List Tagged} {o : ChainOp} (he : e.val ≠ 0) (hsums : (s.engAt c e.val).sums = h :: l)
  (hop : (s.coreAt c).chainOp h.op = some o)
include he hsums hop

/-- A full skid at the next link holds the sum back (R116). -/
theorem exec_chainLinkAdd_full (hlt : e.val < 15) (hfull : 8 ≤ (s.engAt c (e.val + 1)).sums.length) :
    exec (.chainLinkAdd c e) s = .next s := by
  show execChainLinkAdd c e s = _
  simp only [execChainLinkAdd, if_neg he, hsums, List.head?_cons, hop, if_pos (And.intro hlt hfull), ite_self]

/-- A sum waits for the contribution of an engine in use (R115). -/
theorem exec_chainLinkAdd_no_contrib (huse : e.val < o.engines) (hcontribs : (s.engAt c e.val).contribs = []) :
    exec (.chainLinkAdd c e) s = .next s := by
  show execChainLinkAdd c e s = _
  simp [execChainLinkAdd, he, hsums, hop, hcontribs, Nat.not_le.mpr huse]

/-- A gated engine's link passes the sum on (R117). -/
theorem exec_chainLinkAdd_gated (hlt : e.val < 15) (hroom : (s.engAt c (e.val + 1)).sums.length < 8) (hgated : o.engines ≤ e.val) :
    exec (.chainLinkAdd c e) s = .next ((s.linkTake c e.val (accAddRow o.bound.fast h.vals accZeros).2 0).linkHand c e.val
      ⟨h.op, h.vec, (accAddRow o.bound.fast h.vals accZeros).1⟩) := by
  show execChainLinkAdd c e s = _
  have hne : e.val ≠ 15 := Nat.ne_of_lt hlt
  have hgo : ¬(e.val < 15 ∧ 8 ≤ (s.engAt c (e.val + 1)).sums.length) := fun h => absurd h.2 (Nat.not_le.mpr hroom)
  simp [execChainLinkAdd, he, hsums, hop, hgated, hgo, hne, State.linkTake, State.linkHand]

variable {m : Tagged} {n : List Tagged} (huse : e.val < o.engines) (hcontribs : (s.engAt c e.val).contribs = m :: n)
  (hmop : m.op = h.op) (hmvec : m.vec = h.vec)
include huse hcontribs hmop hmvec

/-- The contribution of the sum's tag is added and the sum goes on to the next link. -/
theorem exec_chainLinkAdd_adds (hlt : e.val < 15) (hroom : (s.engAt c (e.val + 1)).sums.length < 8) :
    exec (.chainLinkAdd c e) s = .next ((s.linkTake c e.val (accAddRow o.bound.fast h.vals m.vals).2 1).linkHand c e.val
      ⟨h.op, h.vec, (accAddRow o.bound.fast h.vals m.vals).1⟩) := by
  show execChainLinkAdd c e s = _
  have hne : e.val ≠ 15 := Nat.ne_of_lt hlt
  have hgo : ¬(e.val < 15 ∧ 8 ≤ (s.engAt c (e.val + 1)).sums.length) := fun h => absurd h.2 (Nat.not_le.mpr hroom)
  simp [execChainLinkAdd, he, hsums, hop, hcontribs, hmop, hmvec, Nat.not_le.mpr huse, hgo, hne, State.linkTake, State.linkHand]

omit he in
/-- Link 15 delivers to the accumulator bank (R203). -/
theorem exec_chainLinkAdd_delivers (h15 : e.val = 15) :
    exec (.chainLinkAdd c e) s = .next ((s.linkTake c e.val (accAddRow o.bound.fast h.vals m.vals).2 1).acbLand c o
      ⟨h.op, h.vec, (accAddRow o.bound.fast h.vals m.vals).1⟩) := by
  show execChainLinkAdd c e s = _
  rw [h15] at huse hsums hcontribs
  simp [execChainLinkAdd, h15, hsums, hop, hcontribs, hmop, hmvec, Nat.not_le.mpr huse, State.linkTake]

end

end

/-! ## The obligation -/

/-- Settles O42, by the rule of each case: a rule gives the state, and reading the engine that it changed gives the clause. -/
theorem enginePassesAndChain : Obligations.EnginePassesAndChain := by
  intro s c e x hx
  subst hx
  refine ⟨exec_planeFill_idle, fun hfree hlive o u t b hnext hstarted htile hb => ?fill,
    fun b o hfront hop => ⟨exec_rowsumStep_idle hfront hop, fun hrow hpass hv hmode => ?rowsum, fun hrow hpass hlive k f late hk hf hlate => ?start⟩,
    exec_passStart_waits_planes, exec_groupSumHandoff_idle, fun p o f hpass hop hf hdense => ?handoff,
    fun he _ hsums => exec_chainLinkAdd_no_sum he hsums, fun h l o he hlt hsums hop => ?link,
    fun h m l n o h15 hsums hcontribs hop huse hmop hmvec v k hv hk => ?deliver⟩
  case fill =>
    refine ⟨_, _, exec_planeFill_fills hfree hlive hnext hstarted htile hb, State.engAt_modEng .., rfl, rfl, fun h0 => ?_, fun h0 => ?_,
      fun hmode => ?_, rfl, rfl⟩
    · simp [h0]
    · simp [h0]
    · exact congrArg (bump (s.engAt c e.val).skipped ·) (if_neg hmode)
  case rowsum =>
    refine ⟨_, _, exec_rowsumStep_sums hfront hop hrow hpass hv hmode,
      (engAt_modCore_of_engines _ _ _ _ rfl).trans (State.engAt_modEng ..), rfl, rfl, rfl, rfl, ?_⟩
    rw [State.coreAt_modCore, coreAt_modEng]
  case start =>
    subst hk hf hlate
    refine ⟨exec_passStart_bad hfront hop hrow hpass hlive, fun hbad =>
      ⟨exec_passStart_waits_supply hfront hop hrow hpass hlive hbad, fun hv hlate => ?_, fun hv hlate hdense =>
        ⟨exec_passStart_missing_plane hfront hop hrow hpass hlive hbad hv hlate hdense,
          exec_passStart_bad_parity hfront hop hrow hpass hlive hbad hv hlate hdense, fun hplanes hparity u hread hcore => ?_⟩⟩⟩
    · exact ⟨_, _, exec_passStart_waits_bank hfront hop hrow hpass hlive hbad hv hlate, State.engAt_modEng .., rfl, hpass⟩
    · obtain ⟨g, hexec, hg⟩ := exec_passStart_starts hfront hop hrow hpass hlive hbad hv hlate hdense hplanes hparity hread
      have heng : (u.modCore c (fun k => u.corrProducts o e.val k)).engAt c e.val = s.engAt c e.val :=
        (engAt_modCore_of_engines _ _ _ _ (corrProducts_engines ..)).trans (engAt_of_core_eq hcore ..)
      exact ⟨_, _, hexec, by rw [State.engAt_modEng, heng], hg _⟩
  case handoff =>
    subst hf
    refine ⟨fun hlast hfull => ?_, fun hlast hroom => ?_, fun hmore => ?_⟩
    · exact ⟨_, _, exec_groupSumHandoff_full hpass hop hdense hlast hfull, State.engAt_modEng .., rfl, hpass⟩
    · refine ⟨_, _, exec_groupSumHandoff_last hpass hop hdense hlast hroom, by rw [State.engAt_modEng, engAt_densePromoted],
        rfl, rfl, rfl, rfl, rfl, rfl, rfl, fun hsecond => ?_, fun hsecond => ?_⟩
      · simp [hsecond]
      · simp [hsecond]
    · obtain ⟨g, hexec, hg⟩ := exec_groupSumHandoff_next hpass hop hdense hmore
      exact ⟨_, _, hexec, by rw [State.engAt_modEng, engAt_densePromoted], hg _⟩
  case link =>
    refine ⟨exec_chainLinkAdd_full he hsums hop hlt, fun hroom hgated => ?_, exec_chainLinkAdd_no_contrib he hsums hop,
      fun hroom huse m n hcontribs hmop hmvec => ?_⟩
    · refine ⟨_, _, exec_chainLinkAdd_gated he hsums hop hlt hroom hgated, (engAt_linkHand ..).trans (engAt_linkTake ..),
        by rw [hsums]; rfl, rfl, ?_⟩
      rw [sums_linkHand, engAt_linkTake_other _ _ _ _ (Nat.succ_ne_self _)]
    · refine ⟨_, _, exec_chainLinkAdd_adds he hsums hop huse hcontribs hmop hmvec hlt hroom, (engAt_linkHand ..).trans (engAt_linkTake ..),
        by rw [hsums]; rfl, by rw [hcontribs]; rfl, ?_⟩
      rw [sums_linkHand, engAt_linkTake_other _ _ _ _ (Nat.succ_ne_self _)]
  case deliver =>
    subst hv hk
    refine ⟨_, _, exec_chainLinkAdd_delivers hsums hop (h15 ▸ huse) hcontribs hmop hmvec h15, (engAt_acbLand ..).trans (engAt_linkTake ..),
      by rw [hsums]; rfl, by rw [hcontribs]; rfl, ?_⟩
    rw [acb_acbLand, acb_acbWrite_linkTake, hmvec]

end Sys2Proof.Machine
end
section
/-! Bank loads and moves (03, R68 to R73; 09, R417, R428 to R432; 08, R354, R362, R378; 12, R589, R590): one rule for each way that
BLD, BANK_LOAD_DONE, DMA, DMA_DONE, NRD and NWR go. -/

namespace Sys2Proof.Machine

/-! ## Questions with a negated answer -/

theorem ite_not_of_true {α : Sort _} {b : Bool} (h : b = true) (x y : α) : (if !b then x else y) = y := if_neg (by simp [h])

theorem ite_not_of_false {α : Sort _} {b : Bool} (h : b = false) (x y : α) : (if !b then x else y) = x := if_pos (by simp [h])

/-! ## What an issue gives the sequencer and leaves in the core -/

theorem pc_issued (s : State) (c : CoreId) : ((s.issued c).seqAt c).pc = (s.seqAt c).pc + 1 := by
  obtain ⟨t, rfl, _, _, x, hx, hpc, _⟩ := issued_at s c
  rw [hx, hpc]

theorem state_issued (s : State) (c : CoreId) : ((s.issued c).seqAt c).state = 1 := by
  obtain ⟨t, rfl, _, _, x, hx, _, hstate, _⟩ := issued_at s c
  rw [hx, hstate]

theorem loadQ_issued (s : State) (c : CoreId) : ((s.issued c).coreAt c).loadQ = (s.coreAt c).loadQ := by
  obtain ⟨t, rfl, _, _, x, _, _, _, _, _, _, _, _, _, _, _, _, hcore⟩ := issued_at s c
  rw [hcore]

/-! ## The scoreboard -/

theorem withSb_free {s : State} {c : CoreId} {wr rd ck : List SbRange} (f : State → State)
    (h : (s.coreAt c).sbFree wr rd ck = true) : s.withSb c wr rd ck f = f (s.sbEnter c wr rd) := if_pos h

theorem withSb_held {s : State} {c : CoreId} {wr rd ck : List SbRange} (f : State → State)
    (h : (s.coreAt c).sbFree wr rd ck = false) : s.withSb c wr rd ck f = s.modSeq c (fun x => { x with state := 4 }) :=
  if_neg (by simp [h])

theorem loadQ_sbEnter (s : State) (c : CoreId) (wr rd : List SbRange) : ((s.sbEnter c wr rd).coreAt c).loadQ = (s.coreAt c).loadQ := by
  rw [State.sbEnter, State.coreAt_modCore]

theorem seqAt_sbEnter (s : State) (c : CoreId) (wr rd : List SbRange) : (s.sbEnter c wr rd).seqAt c = s.seqAt c := by
  rw [State.sbEnter, seqAt_modCore, if_pos rfl, State.seqAt]

/-! ## Changes of several engines of a core -/

/-- They leave the rest of the core. -/
theorem coreAt_foldl_modEng (c : CoreId) (k : Nat → Nat) (f : Nat → EngineSt → EngineSt) : ∀ (l : List Nat) (s : State),
    ∃ es, (l.foldl (fun s i => s.modEng c (k i) (f i)) s).coreAt c = { (s.coreAt c) with engines := es }
  | [], s => ⟨(s.coreAt c).engines, rfl⟩
  | i :: l, s => by
    obtain ⟨es, h⟩ := coreAt_foldl_modEng c k f l (s.modEng c (k i) (f i))
    exact ⟨es, h.trans (by rw [coreAt_modEng])⟩

/-- Both banks of two engines and their valid planes are the same. -/
def EngineSt.SameBanks (x y : EngineSt) : Prop :=
  x.bankA = y.bankA ∧ x.bankB = y.bankB ∧ x.validA = y.validA ∧ x.validB = y.validB

theorem EngineSt.SameBanks.refl (x : EngineSt) : x.SameBanks x := ⟨rfl, rfl, rfl, rfl⟩

theorem EngineSt.SameBanks.trans {x y z : EngineSt} (h : x.SameBanks y) (k : y.SameBanks z) : x.SameBanks z := by
  obtain ⟨hA, hB, hvA, hvB⟩ := h
  obtain ⟨kA, kB, kvA, kvB⟩ := k
  exact ⟨hA.trans kA, hB.trans kB, hvA.trans kvA, hvB.trans kvB⟩

/-- The bit that says that a bank loads is not in the bank. -/
theorem sameBanks_loading (bank m : Bool) (x : EngineSt) :
    (if bank then { x with loadingB := m } else { x with loadingA := m }).SameBanks x := by
  cases bank <;> exact .refl x

theorem sameBanks_foldl_modEng {c : CoreId} {k : Nat → Nat} {f : Nat → EngineSt → EngineSt} (hf : ∀ i x, (f i x).SameBanks x)
    (e : Nat) : ∀ (l : List Nat) (s : State), ((l.foldl (fun s i => s.modEng c (k i) (f i)) s).engAt c e).SameBanks (s.engAt c e)
  | [], _ => .refl _
  | i :: l, s => by
    refine (sameBanks_foldl_modEng hf e l (s.modEng c (k i) (f i))).trans ?_
    rw [engAt_modEng]
    split
    · next he => rw [he.2]; exact hf i _
    · exact .refl _

/-! ## A plane of a bank (R68) -/

section
variable (x : EngineSt) (p : Nat) (l : List Byte)

theorem bankA_putPlane : (x.putPlane false p l).bankA = Tab.setRange 0 x.bankA (p * 512) (leWords 512 l) := by
  simp only [EngineSt.putPlane, Bool.false_eq_true, if_false]

theorem validA_putPlane : (x.putPlane false p l).validA = x.validA ||| BitVec.ofNat 8 (2 ^ p) := by
  simp only [EngineSt.putPlane, Bool.false_eq_true, if_false]

theorem bankB_putPlane_false : (x.putPlane false p l).bankB = x.bankB := by
  simp only [EngineSt.putPlane, Bool.false_eq_true, if_false]

theorem bankB_putPlane : (x.putPlane true p l).bankB = Tab.setRange 0 x.bankB (p * 512) (leWords 512 l) := by
  simp only [EngineSt.putPlane, if_true]

theorem validB_putPlane : (x.putPlane true p l).validB = x.validB ||| BitVec.ofNat 8 (2 ^ p) := by
  simp only [EngineSt.putPlane, if_true]

theorem bankA_putPlane_true : (x.putPlane true p l).bankA = x.bankA := by
  simp only [EngineSt.putPlane, if_true]

end

section
variable {s : State} {c : CoreId} {w : DWord}

/-! ## BLD (R68, R69, R429) -/

/-- A load enters a core's queue: `f` queues it and notes its sources, the engines' bank is marked as loading and the instruction
issues. -/
def State.enterLoad (s : State) (c : CoreId) (o : LoadOp) (f : CoreSt → CoreSt) : State :=
  (((List.range o.n).foldl (fun s i => s.modEng c (o.first + i) (fun x =>
    if o.bank then { x with loadingB := true } else { x with loadingA := true })) (s.modCore c f)).modSeq c
      (fun q => { q with opSeq := q.opSeq + 1 })).issued c

theorem enterLoad_at {s : State} {c : CoreId} {o : LoadOp} {f : CoreSt → CoreSt}
    (hq : (f (s.coreAt c)).loadQ = (s.coreAt c).loadQ ++ [o]) (hseq : (f (s.coreAt c)).seq = (s.coreAt c).seq) :
    ((s.enterLoad c o f).coreAt c).loadQ = (s.coreAt c).loadQ ++ [o] ∧
    ((s.enterLoad c o f).seqAt c).pc = (s.seqAt c).pc + 1 ∧ ((s.enterLoad c o f).seqAt c).state = 1 := by
  obtain ⟨es, hcore⟩ := coreAt_foldl_modEng c (fun i => o.first + i)
    (fun _ x => if o.bank then { x with loadingB := true } else { x with loadingA := true }) (List.range o.n) (s.modCore c f)
  rw [State.coreAt_modCore] at hcore
  refine ⟨?_, ?_, state_issued ..⟩
  · rw [State.enterLoad, loadQ_issued, State.modSeq, State.coreAt_modCore, hcore]
    exact hq
  · rw [State.enterLoad, pc_issued, State.seqAt_modSeq]
    simp only [State.seqAt, hcore, hseq]

/-- The load that BLD asks for. -/
def State.loadOf (s : State) (c : CoreId) (w : DWord) (td : TileDesc) (bs : List (List Nat)) : LoadOp :=
  ⟨(s.seqAt c).opSeq + 1, (s.seqAt c).lastOrd, bitOf w.toNat 55, bitOf w.toNat 54, maskDown 8 (bitsOf w 53 46), maskDown 2 (bitsOf w 45 44),
    if bitOf w.toNat 43 then 16 else bitsOf w 42 39, if bitOf w.toNat 43 then 1 else bitsOf w 38 35 + 1, bs,
    if td.ring then some td.q else none⟩

/-- The block addresses of the load that BLD asks for. -/
def State.bldBlocks (s : State) (c : CoreId) (w : DWord) (td : TileDesc) : Option (Option (List (List Nat))) :=
  s.loadBlocks c td ((maskDown 8 (bitsOf w 53 46)).length + (maskDown 2 (bitsOf w 45 44)).length)
    (if bitOf w.toNat 43 then 1 else bitsOf w 38 35 + 1)

/-- The scratchpad ranges that BLD checks (R378). -/
def State.bldChecks (s : State) (td : TileDesc) (bs : List (List Nat)) : List SbRange :=
  if td.ring then [] else bs.flatMap (fun l => l.flatMap (fun a => s.sbRange a 2048))

section
variable {td : TileDesc} (hw : (s.seqAt c).word = w) (htd : td = (s.seqAt c).treg (bitsOf w 34 31)) (hissue : s.issues c 0x20 = true)
  (hring : td.ring = true → (s.ringAt (s.ringOwner c td) td.q).en = true ∧ (s.ringAt (s.ringOwner c td) td.q).stopped = false)
include hw htd hissue hring

omit hw htd hissue in
/-- A ring that is enabled and not stopped faults no load. -/
theorem bld_ring_runs : ¬(td.ring = true ∧
    ((!(s.ringAt (s.ringOwner c td) td.q).en) = true ∨ (s.ringAt (s.ringOwner c td) td.q).stopped = true)) := by
  rintro ⟨h, hstop⟩
  obtain ⟨hen, hstopped⟩ := hring h
  simp [hen, hstopped] at hstop

theorem exec_bld_no_block (hb : s.bldBlocks c w td = some none) : exec (.bld c) s = .next (s.modSeq c (fun x => { x with state := 6 })) := by
  have hgo := bld_ring_runs hring
  subst htd hw
  unfold State.bldBlocks at hb
  show execBld c s = _
  simp only [execBld, runSeq_issues hissue, if_neg hgo, hb]
  rfl

theorem exec_bld_bad_entry (hb : s.bldBlocks c w td = none) : exec (.bld c) s = .next (s.ringFault (s.ringOwner c td) td.q) := by
  have hgo := bld_ring_runs hring
  subst htd hw
  unfold State.bldBlocks at hb
  show execBld c s = _
  simp only [execBld, runSeq_issues hissue, if_neg hgo, hb]

variable {bs : List (List Nat)} (hb : s.bldBlocks c w td = some (some bs))
include hb

/-- With its blocks there BLD asks for reach, room and the scoreboard, in this order. -/
theorem exec_bld_blocks : ∃ f : State → CoreSt → CoreSt,
    exec (.bld c) s = .next (
      if !bs.all (fun l => l.all (fun a => s.coreReach c a)) then s.reachFault c
      else if 4 ≤ (s.coreAt c).loadQ.length then s.waitAt c seqWaitQueue
      else s.withSb c [] [] (s.bldChecks td bs) fun s => s.enterLoad c (s.loadOf c w td bs) (f s)) ∧
    ∀ s k, (f s k).loadQ = k.loadQ ++ [s.loadOf c w td bs] ∧ (f s k).seq = k.seq := by
  have hgo := bld_ring_runs hring
  subst htd hw
  unfold State.bldBlocks at hb
  apply Exists.intro
  constructor
  · show execBld c s = _
    simp only [execBld, runSeq_issues hissue, if_neg hgo, hb]
    rfl
  · exact fun _ _ => ⟨rfl, rfl⟩

end

/-! ## BANK_LOAD_DONE (R68, R73) -/

/-- The marks of engine e once a load into a bank has left `rest` in the queue. -/
def EngineSt.markLoading (bank : Bool) (rest : List LoadOp) (e : Nat) (x : EngineSt) : EngineSt :=
  let more := rest.any (fun l => l.bank == bank && decide (l.first ≤ e) && decide (e < l.first + l.n))
  if bank then { x with loadingB := more } else { x with loadingA := more }

/-- The load has left the queue and its engines' marks follow the rest of it. -/
def State.loadLeaves (s : State) (c : CoreId) (o : LoadOp) (rest : List LoadOp) : State :=
  ((List.range o.n).map (fun i => o.first + i)).foldl (fun s e => s.modEng c e (EngineSt.markLoading o.bank rest e))
    (s.modCore c (fun k => { k with loadQ := rest }))

theorem loadQ_loadLeaves (s : State) (c : CoreId) (o : LoadOp) (rest : List LoadOp) :
    ((s.loadLeaves c o rest).coreAt c).loadQ = rest := by
  obtain ⟨es, hcore⟩ := coreAt_foldl_modEng c (fun e => e) (EngineSt.markLoading o.bank rest) ((List.range o.n).map (fun i => o.first + i))
    (s.modCore c (fun k => { k with loadQ := rest }))
  rw [State.loadLeaves, hcore, State.coreAt_modCore]

theorem sameBanks_loadLeaves (s : State) (c : CoreId) (o : LoadOp) (rest : List LoadOp) (e : Nat) :
    ((s.loadLeaves c o rest).engAt c e).SameBanks (s.engAt c e) := by
  refine (sameBanks_foldl_modEng (k := fun e => e) (fun e x => sameBanks_loading o.bank _ x) e _ _).trans ?_
  rw [engAt_modCore_of_engines _ _ _ _ rfl]
  exact .refl _

/-- An earlier instruction has passes to run that read the load's bank (R73). -/
def State.loadBusy (s : State) (c : CoreId) (o : LoadOp) : Bool :=
  (s.coreAt c).chainQ.any (fun p => decide (p.id < o.id) && p.readsBank o.bank &&
    (List.range o.n).any (fun i => !(s.engAt c (o.first + i)).doneWith (o.first + i) p))

theorem exec_bankLoadDone_empty (hq : (s.coreAt c).loadQ = []) : exec (.bankLoadDone c) s = .next s := by
  show execBankLoadDone c s = _
  simp only [execBankLoadDone, hq]

section
variable {o : LoadOp} {rest : List LoadOp} (hq : (s.coreAt c).loadQ = o :: rest)
include hq

/-- The first load of the queue waits for its bank, then for its blocks, and then is carried out. -/
theorem exec_bankLoadDone_first : exec (.bankLoadDone c) s = .next (
    if s.loadBusy c o then s
    else if !(s.readAll (o.blocks.flatMap (fun l => l.map (fun a => (a, 2048))))).1 then
      (s.readAll (o.blocks.flatMap (fun l => l.map (fun a => (a, 2048))))).2
    else ((List.range o.n).foldl (fun s i => s.loadEngine c o i)
      (s.readAll (o.blocks.flatMap (fun l => l.map (fun a => (a, 2048))))).2).loadLeaves c o rest) := by
  show execBankLoadDone c s = _
  simp only [execBankLoadDone, hq, List.any_map]
  rfl

end

/-! ## DMA (R431, R588 to R590) -/

/-- A source that names a place is in memory or in a ring. -/
theorem source_of_tile {x : Source} {src : TileSrc} (h : x.tile = some src) : (∃ a, x = .mem a) ∨ ∃ d q p len, x = .ring d q p len := by
  cases x with
  | mem a => exact .inl ⟨a, rfl⟩
  | ring d q p len => exact .inr ⟨d, q, p, len, rfl⟩
  | wait => cases h
  | bad => cases h

/-- The move that DMA queues; its bytes are those that a ring still has to take. -/
def State.dmaOp (s : State) (c : CoreId) (die : Bool) (td : TileDesc) (l : List Byte) (window : Option Nat) : DmaOp :=
  { code := 0x21, prod := moveProducer c die, ord := (s.seqAt c).lastOrd, conv := 0, epoch := (s.seqAt c).epoch
    ring := if td.ring then some ((s.ringOwner c td).num, td.q) else none, kind := BitVec.ofNat 4 td.kind
    bytes := if td.ring then l else [], blocked := false, window := if td.ring then none else window, acked := false, failed := false }

/-- What DMA does once it has issued with the bytes that it read. -/
def State.dmaGoes (u : State) (c : CoreId) (die : Bool) (td : TileDesc) (l : List Byte) (o : DmaOp) : State :=
  if !u.tickLive then u else (if td.ring || l.isEmpty then u else u.deliver c td.addr l).queueMove c die o

theorem dmaGoes_live {u : State} (hlive : u.tickLive = true) (c : CoreId) (die : Bool) (td : TileDesc) (l : List Byte) (o : DmaOp) :
    u.dmaGoes c die td l o = (if td.ring || l.isEmpty then u else u.deliver c td.addr l).queueMove c die o := ite_not_of_true hlive ..

section
variable {ts td : TileDesc} {die : Bool} {n : Nat} {x : Source} {src : TileSrc} (hw : (s.seqAt c).word = w) (hissue : s.issues c 0x21 = true)
  (hts : ts = (s.seqAt c).treg (bitsOf w 55 52)) (htd : td = (s.seqAt c).treg (bitsOf w 51 48)) (hdie : die = bitOf w.toNat 47)
  (hn : n = s.moveLen c (bitsOf w 46 42) 1 ts) (hx : s.source c ts = x) (hsrc : x.tile = some src)
  (hfrom : ts.ring = false → s.moveReach c die false ts.addr = .ok) (hto : td.ring = false → s.moveReach c die true td.addr = .ok)
  (hen : td.ring = true → (s.ringAt (s.ringOwner c td) td.q).en = true)
include hw hissue hts htd hdie hn hx hsrc hfrom hto hen

/-- Within reach DMA asks for room and the scoreboard, and then moves what its source delivers. -/
theorem exec_dma_reaches : exec (.dma c) s = .next (
    if !s.moveRoom c die then s.waitAt c seqWaitQueue
    else s.withSb c (if td.ring then [] else s.sbRange td.addr n) (s.sourceRange x n) [] fun v =>
      let r := v.fetchMove c x n
      let l := if r.1 then r.2.1 else []
      (r.2.2.issued c).dmaGoes c die td l (s.dmaOp c die td l ((r.2.2.issued c).windowOf td.addr))) := by
  have hreachS : (if ts.ring then Reach.ok else s.moveReach c die false ts.addr) = .ok := by
    split
    · rfl
    · next h => exact hfrom (by simpa using h)
  have hreachD : (if td.ring then Reach.ok else s.moveReach c die true td.addr) = .ok := by
    split
    · rfl
    · next h => exact hto (by simpa using h)
  have hring : (td.ring && !(s.ringAt (s.ringOwner c td) td.q).en) = false := by
    cases h : td.ring with
    | false => rfl
    | true => rw [hen h]; rfl
  show execDma c s = _
  subst hw hn hts htd hdie
  rcases source_of_tile hsrc with ⟨a, rfl⟩ | ⟨d, q, p, len, rfl⟩ <;>
  · simp only [execDma, runSeq_issues hissue, hx, hreachS, hreachD, hring]
    rfl

/-- A DMA whose bytes are read in a tick that still runs delivers them and enters its queue. -/
theorem exec_dma_moves (hroom : s.moveRoom c die = true)
    (hfree : (s.coreAt c).sbFree (if td.ring then [] else s.sbRange td.addr n) (s.sourceRange x n) [] = true) {u : State} {l : List Byte}
    (hread : (s.sbEnter c (if td.ring then [] else s.sbRange td.addr n) (s.sourceRange x n)).fetchMove c x n = (true, l, u))
    (hlive : (u.issued c).tickLive = true) : exec (.dma c) s = .next (
      (if td.ring || l.isEmpty then u.issued c else (u.issued c).deliver c td.addr l).queueMove c die
        (s.dmaOp c die td l ((u.issued c).windowOf td.addr))) := by
  rw [exec_dma_reaches hw hissue hts htd hdie hn hx hsrc hfrom hto hen, ite_not_of_true hroom, withSb_free _ hfree, hread]
  exact congrArg Host.Outcome.next (dmaGoes_live hlive ..)

end

/-! ## Unit queues (R417, R590) -/

/-- A move that pushes nothing enters its queue as it is. -/
theorem queueMove_no_ring (u : State) (c : CoreId) (die : Bool) {o : DmaOp} (hring : o.ring = none) (hblocked : o.blocked = false) :
    u.queueMove c die o = u.modCore c (fun k => if die then { k with dieQ := k.dieQ ++ [o] } else { k with dmaQ := k.dmaQ ++ [o] }) := by
  have hsame : { o with blocked := o.ring.isSome } = o := by
    simp only [hring, Option.isSome_none, ← hblocked]
    rw [← hring]
  have hpush : u.pushMove o (o.bytes.length + 1) = (o, u) := by
    simp only [State.pushMove, hring]
  simp only [State.queueMove, hsame, hpush, ite_self]

theorem finished_iff (o : DmaOp) : o.finished = true ↔ o.bytes = [] ∧ (o.window = none ∨ o.acked = true) := by
  simp [DmaOp.finished]

theorem exec_dmaDone_empty {die : Bool} (hq : (if die then (s.coreAt c).dieQ else (s.coreAt c).dmaQ) = []) :
    exec (.dmaDone c die) s = .next s := by
  show execDmaDone c die s = _
  simp only [execDmaDone, hq]

theorem exec_dmaDone_first {die : Bool} {o : DmaOp} {rest : List DmaOp}
    (hq : (if die then (s.coreAt c).dieQ else (s.coreAt c).dmaQ) = o :: rest) : exec (.dmaDone c die) s = .next (
      if o.finished then s.modCore c (fun k => if die then { k with dieQ := rest } else { k with dmaQ := rest }) else s) := by
  show execDmaDone c die s = _
  simp only [execDmaDone, hq]

/-! ## NRD and NWR (R354, R432) -/

/-- The local rows of a block move. -/
def State.blockBase (s : State) (c : CoreId) (w : DWord) : Nat := clusterAddr c ((s.seqAt c).sreg (bitsOf w 29 25)) 128

/-- The words of a block move's far region. -/
def State.farWords (s : State) (c : CoreId) (w : DWord) : List Nat :=
  (List.range (bitsOf w 41 30)).flatMap (fun k => blockWords (bitsOf w 51 50) (bitsOf w 49 47) ((s.seqAt c).sreg (bitsOf w 46 42))
    (TileDesc.addr ((s.seqAt c).treg (bitsOf w 55 52))) k)

/-- The words of a block move's local rows. -/
def State.nearWords (s : State) (c : CoreId) (w : DWord) : List Nat :=
  (List.range (bitsOf w 41 30)).flatMap (fun k => blockWords 0 0 0 (s.blockBase c w) k)

/-- The scratchpad range that spans words. -/
def State.spanRange (s : State) (l : List Nat) : List SbRange :=
  s.sbRange (l.foldl min (l.headD 0)) (l.foldl max 0 + 4 - l.foldl min (l.headD 0))

/-- The move that NRD or NWR queues. -/
def State.blockOp (s : State) (c : CoreId) (write : Bool) : DmaOp :=
  ⟨BitVec.ofNat 8 (if write then 0x23 else 0x22), moveProducer c false, (s.seqAt c).lastOrd, 0, (s.seqAt c).epoch, none, 0, [], false, none,
    false, false⟩

/-- What a block move does once it has read its source words: `ok` says that all were delivered. -/
def State.blockGoes (u : State) (c : CoreId) (write ok : Bool) (far near : List Nat) (o : DmaOp) : State :=
  if !ok || !u.tickLive then u else (if write then u.copyWords near far else u.copyWords far near).queueMove c false o

theorem blockGoes_live {u : State} (hlive : u.tickLive = true) (c : CoreId) (write : Bool) (far near : List Nat) (o : DmaOp) :
    u.blockGoes c write true far near o = (if write then u.copyWords near far else u.copyWords far near).queueMove c false o :=
  if_neg (by simp [hlive])

/-- A block move asks for reach, room and the scoreboard, in this order. -/
theorem blockMove_course (s : State) (c : CoreId) (w : DWord) (write : Bool) : s.blockMove c w write =
    if !(s.farWords c w ++ s.nearWords c w).all (fun a => s.coreReach c a) then s.reachFault c
    else if !s.moveRoom c false then s.waitAt c seqWaitQueue
    else s.withSb c (if write then s.spanRange (s.farWords c w) else s.sbRange (s.blockBase c w) (128 * bitsOf w 41 30))
      (if write then s.sbRange (s.blockBase c w) (128 * bitsOf w 41 30) else [])
      (if write then [] else s.spanRange (s.farWords c w)) fun v =>
        let r := v.readWords (if write then s.nearWords c w else s.farWords c w)
        (r.2.issued c).blockGoes c write r.1 (s.farWords c w) (s.nearWords c w) (s.blockOp c write) := rfl

/-- NRD reads, NWR writes the far region. -/
theorem exec_blockMove {write : Bool} {i : Instr} (hi : (write, i) = (false, .nrd c) ∨ (write, i) = (true, .nwr c))
    (hissue : s.issues c (if write then 0x23 else 0x22) = true) : exec i s = .next (s.blockMove c (s.seqAt c).word write) := by
  rcases hi with hi | hi <;>
  · obtain ⟨rfl, rfl⟩ := Prod.mk.inj hi
    exact congrArg Host.Outcome.next (runSeq_issues hissue)

end

/-! ## The obligation -/

/-- Settles O40: each instruction's course is one chain of questions, and each clause answers them. -/
theorem loadsAndMoves : Obligations.LoadsAndMoves := by
  intro c s w hw
  refine ⟨fun hissue td first n planes idx bank htd hbank hfirst hn hplanes hidx hring => ?bld, exec_bankLoadDone_empty,
    fun o rest busy hq hbusy => ?done,
    fun x p l => ⟨bankA_putPlane .., validA_putPlane .., bankB_putPlane_false .., bankB_putPlane .., validB_putPlane ..,
      bankA_putPlane_true .., rfl, rfl⟩,
    fun hissue ts td die n x src hts htd hdie hn hx hsrc hfrom hto hen => ?dma,
    fun o die u hring hblocked => queueMove_no_ring u c die hring hblocked, fun die o rest hq => ?dmaDone, fun die => exec_dmaDone_empty,
    fun write i hi hissue nb base far near hnb hbase hfar hnear => ?block⟩
  case bld =>
    subst hbank hfirst hn hplanes hidx
    refine ⟨exec_bld_no_block hw htd hissue hring, exec_bld_bad_entry hw htd hissue hring, fun bs hb => ?_⟩
    obtain ⟨f, hexec, hf⟩ := exec_bld_blocks hw htd hissue hring hb
    rw [hexec]
    refine ⟨fun hfar => by rw [ite_not_of_false hfar], fun hreach => ?_⟩
    rw [ite_not_of_true hreach]
    refine ⟨fun hfull => by rw [if_pos hfull]; rfl, fun hroom ck hck => ?_⟩
    subst hck
    rw [if_neg (Nat.not_le.mpr hroom)]
    refine ⟨fun hheld => congrArg Host.Outcome.next (withSb_held _ hheld), fun hfree => ?_⟩
    obtain ⟨hload, hseq⟩ := hf (s.sbEnter c [] []) ((s.sbEnter c [] []).coreAt c)
    obtain ⟨hloadQ, hpc, hstate⟩ := enterLoad_at hload hseq
    rw [loadQ_sbEnter] at hloadQ
    rw [seqAt_sbEnter] at hpc
    exact ⟨_, _, congrArg Host.Outcome.next (withSb_free _ hfree), hloadQ, rfl, rfl, rfl, rfl, rfl, rfl, rfl, hpc, hstate⟩
  case done =>
    subst hbusy
    rw [exec_bankLoadDone_first hq]
    refine ⟨fun hbusy => congrArg Host.Outcome.next (if_pos hbusy), fun hfree r hr => ?_⟩
    subst hr
    rw [if_neg (by rw [State.loadBusy, hfree]; exact Bool.false_ne_true)]
    refine ⟨fun hlost => by rw [ite_not_of_false hlost], fun hread => ?_⟩
    rw [ite_not_of_true hread]
    exact ⟨_, _, rfl, rfl, loadQ_loadLeaves .., fun e => ⟨_, rfl, sameBanks_loadLeaves ..⟩⟩
  case dma =>
    have hcourse := exec_dma_reaches hw hissue hts htd hdie hn hx hsrc hfrom hto hen
    refine ⟨fun hfull => by rw [hcourse, ite_not_of_false hfull]; rfl, fun hroom wr rd hwr hrd => ?_⟩
    subst hwr hrd
    refine ⟨fun hheld => by rw [hcourse, ite_not_of_true hroom, withSb_held _ hheld], fun hfree u l hread hlive => ?_⟩
    refine ⟨_, s.dmaOp c die td l ((u.issued c).windowOf td.addr),
      exec_dma_moves hw hissue hts htd hdie hn hx hsrc hfrom hto hen hroom hfree hread hlive, rfl, rfl, rfl, rfl,
      fun hring => ?_, fun hring => ?_⟩
    · simp [State.dmaOp, hring]
    · simp [State.dmaOp, hring]
  case dmaDone =>
    rw [exec_dmaDone_first hq]
    refine ⟨fun h => congrArg Host.Outcome.next (if_pos ((finished_iff o).mpr h)),
      fun h => congrArg Host.Outcome.next (if_neg fun hfin => ?_)⟩
    obtain ⟨hbytes, hack⟩ := (finished_iff o).mp hfin
    rcases h with h | ⟨hwin, hnack⟩
    · exact h hbytes
    · rcases hack with hnone | hack
      · exact hwin hnone
      · exact Bool.false_ne_true (hnack.symm.trans hack)
  case block =>
    subst hw hnb hbase
    have hf : far = s.farWords c (s.seqAt c).word := hfar
    have hn : near = s.nearWords c (s.seqAt c).word := hnear
    rw [exec_blockMove hi hissue, blockMove_course, ← hf, ← hn]
    refine ⟨fun hout => by rw [ite_not_of_false hout], fun hreach => ?_⟩
    rw [ite_not_of_true hreach]
    refine ⟨fun hfull => by rw [ite_not_of_false hfull]; rfl, fun hroom rf rn hrf hrn wr rd ck hwr hrd hck => ?_⟩
    subst hrf hrn hwr hrd hck
    rw [ite_not_of_true hroom]
    refine ⟨fun hheld => congrArg Host.Outcome.next (withSb_held _ hheld), fun hfree u hread hlive => ?_⟩
    refine ⟨s.blockOp c write, rfl, rfl, rfl, rfl, congrArg Host.Outcome.next ((withSb_free _ hfree).trans ?_)⟩
    dsimp only
    rw [hread, blockGoes_live hlive]

end Sys2Proof.Machine
end
section
/-! Statistics and merges (05, R226 to R234, R804; 06, R269 to R273; 09, R443 to R445, R801): the course that STAT, SVQ, TOPKV and SCAT
share, and the rounds of the two merge trees. -/

namespace Sys2Proof.Machine

section
variable {s : State} {c : CoreId} {ts : TileDesc}

/-! ## The source of an instruction (R412, R413, R443) -/

/-- An instruction waits for its source's ring, faults on a bad ring or beyond reach, and goes on with `f` where the source is there. -/
def State.withSource (s : State) (c : CoreId) (ts : TileDesc) (f : Source → State) : State :=
  match s.source c ts with
  | .wait => s.waitAt c seqWaitRing
  | .bad d r => s.ringFault d r
  | x => if !ts.ring && !s.coreReach c ts.addr then s.reachFault c else f x

theorem withSource_wait (f : Source → State) (h : s.source c ts = .wait) :
    s.withSource c ts f = s.modSeq c (fun x => { x with state := 6 }) := by
  simp only [State.withSource, h]; rfl

theorem withSource_bad (f : Source → State) {d : CoreId} {r : Nat} (h : s.source c ts = .bad d r) :
    s.withSource c ts f = s.ringFault d r := by
  simp only [State.withSource, h]

theorem withSource_far (f : Source → State) {a : Nat} (h : s.source c ts = .mem a) (hring : ts.ring = false)
    (hfar : s.coreReach c ts.addr = false) : s.withSource c ts f = s.reachFault c := by
  simp [State.withSource, h, hring, hfar]

theorem withSource_mem (f : Source → State) {a : Nat} (h : s.source c ts = .mem a)
    (hreach : ts.ring = false → s.coreReach c ts.addr = true) : s.withSource c ts f = f (.mem a) := by
  simp only [State.withSource, h]
  refine if_neg fun hfar => ?_
  obtain ⟨hring, hunreached⟩ : ts.ring = false ∧ s.coreReach c ts.addr = false := by simpa using hfar
  exact Bool.false_ne_true (hunreached.symm.trans (hreach hring))

/-! ## Room in the queue of the cluster's SVU (R443) -/

/-- SVQ, TOPKV and SCAT wait while the queue of 16 is full. -/
def State.withRoom (s : State) (c : CoreId) (u : State) : State :=
  if 16 ≤ (s.cluAt c.cluster.num).svuQ.length then s.waitAt c seqWaitQueue else u

theorem withRoom_full (u : State) (h : 16 ≤ (s.cluAt c.cluster.num).svuQ.length) :
    s.withRoom c u = s.modSeq c (fun x => { x with state := 5 }) := if_pos h

theorem withRoom_free (u : State) (h : (s.cluAt c.cluster.num).svuQ.length < 16) : s.withRoom c u = u :=
  if_neg (Nat.not_le.mpr h)

/-! ## The operands of an instruction that issues -/

/-- The instruction reads its source and issues; `f` follows where the words are delivered in a tick that still runs. -/
def State.withRead (v : State) (c : CoreId) (x : Source) (n : Nat) (f : State → State) : State :=
  let g := v.readSource x n
  let u := g.2.issued c
  if !g.1 || !u.tickLive then u else f u

theorem withRead_live {v u : State} {x : Source} {n : Nat} (f : State → State) (hread : v.readSource x n = (true, u))
    (hlive : (u.issued c).tickLive = true) : v.withRead c x n f = f (u.issued c) := by
  simp only [State.withRead, hread]
  exact if_neg (by simp [hlive])

/-! ## STAT (R226, R227, R444) -/

/-- A destination in memory within reach does not fault. -/
theorem destFault_of_reach {td : TileDesc} (hring : td.ring = false) (hreach : s.coreReach c td.addr = true) :
    s.destFault c td = none := by
  simp [State.destFault, hring, hreach]

/-- The statistic that STAT's KIND asks for goes to S[RD] or to its destination; `q` is the sequencer before the issue. -/
def State.statWrites (z : State) (c : CoreId) (q : SeqSt) (td : TileDesc) (vals : List Word) : State :=
  match bitsOf q.word 55 54 with
  | 0 => z.modSeq c (fun y => y.setS (bitsOf q.word 52 48) ((Share.new 0 0).tap (finiteOf vals)).amax.toNat)
  | 2 => z.modSeq c (fun y => y.setS (bitsOf q.word 52 48) ((Share.new 0 0).tap (finiteOf vals)).norm.toNat)
  | _ =>
    let l := (binsOf vals).flatMap (fun b => leBytes 4 b)
    if td.ring then z.pushConv c 0 q.epoch (z.ringOwner c td) td.q 4 l else z.writeDev td.addr l

/-- With PKG the statistic enters the core's share of its invocation, which the core then reports. -/
def State.statReports (u : State) (c : CoreId) (q : SeqSt) (vals : List Word) : State :=
  match bitOf q.word.toNat 53, (u.seqAt c).last with
  | true, some b =>
    let u := u.modShare b.ord.toNat c.num b.part (fun p => match bitsOf q.word 55 54 with
      | 0 => { p with amax := ((Share.new 0 0).tap (finiteOf vals)).amax }
      | 2 => { p with norm := ((Share.new 0 0).tap (finiteOf vals)).norm }
      | _ => { p with hist := ((binsOf vals).zipIdx.filter (fun e => e.1 != 0)).map (fun e => (e.2, e.1)) })
    (u.modLast c (fun b => { b with reported := true })).report c b.ord.toNat b.part
  | _, _ => u

section
variable {q : SeqSt} {td : TileDesc} {vals : List Word} (z : State)

theorem statWrites_amax (hkind : bitsOf q.word 55 54 = 0) : z.statWrites c q td vals =
    z.modSeq c (fun y => y.setS (bitsOf q.word 52 48) ((Share.new 0 0).tap (finiteOf vals)).amax.toNat) := by
  simp only [State.statWrites, hkind]

theorem statWrites_norm (hkind : bitsOf q.word 55 54 = 2) : z.statWrites c q td vals =
    z.modSeq c (fun y => y.setS (bitsOf q.word 52 48) ((Share.new 0 0).tap (finiteOf vals)).norm.toNat) := by
  simp only [State.statWrites, hkind]

theorem statWrites_bins (hkind : bitsOf q.word 55 54 = 1) (hring : td.ring = false) :
    z.statWrites c q td vals = z.writeDev td.addr ((binsOf vals).flatMap (fun b => leBytes 4 b)) := by
  simp only [State.statWrites, hkind, hring]
  rfl

theorem statReports_no_pkg (hpkg : bitOf q.word.toNat 53 = false) : z.statReports c q vals = z := by
  simp only [State.statReports, hpkg]

end

/-- STAT asks for its source, its destination and the scoreboard, and then writes and reports. -/
theorem exec_stat {td : TileDesc} {n : Nat} (hissue : s.issues c 0x40 = true) (hts : ts = (s.seqAt c).treg (bitsOf (s.seqAt c).word 47 44))
    (htd : td = (s.seqAt c).treg (bitsOf (s.seqAt c).word 43 40)) (hn : n = s.moveLen c (bitsOf (s.seqAt c).word 39 35) 4 ts / 4) :
    exec (.stat c) s = .next (s.withSource c ts fun x =>
      match if bitsOf (s.seqAt c).word 55 54 = 1 then s.destFault c td else none with
      | some u => u
      | none => s.withSb c (if bitsOf (s.seqAt c).word 55 54 = 1 ∧ !td.ring then s.sbRange td.addr 256 else []) (s.sourceRange x (4 * n)) []
          fun v => v.withRead c x (4 * n) fun z =>
            let vals := leWords n (z.sourceBytes x (4 * n))
            (z.statWrites c (s.seqAt c) td vals).statReports c (s.seqAt c) vals) := by
  subst hts htd hn
  exact congrArg Host.Outcome.next (runSeq_issues hissue)

/-! ## SVQ (R447) -/

/-- SVQ asks for its source, for room and for the ranges of the descriptor that it finds there. -/
theorem exec_svq (hissue : s.issues c 0x48 = true) (hts : ts = (s.seqAt c).treg (bitsOf (s.seqAt c).word 55 52)) :
    exec (.svq c) s = .next (s.withSource c ts fun x =>
      let l := s.sourceBytes x 64
      let d := SvuDesc.ofBytes l
      s.withRoom c (s.withSb c (d.rangeD.flatMap (fun e => s.sbRange e.1 e.2))
        ((d.rangeA ++ d.rangeB ++ d.rangeP).flatMap (fun e => s.sbRange e.1 e.2)) (s.sourceRange x 64) fun v =>
          v.withRead c x 64 fun z => z.modClu c.cluster.num (fun k => { k with
            svuQ := k.svuQ ++ [⟨c.core.val, (s.seqAt c).epoch, l, (s.seqAt c).last⟩] }))) := by
  subst hts
  exact congrArg Host.Outcome.next (runSeq_issues hissue)

/-! ## The lists of the merges (R228, R230, R270, R445) -/

/-- With LAST a core counts one more closed list under a key. -/
def State.closeList (s : State) (c : CoreId) (last : Bool) (key v : Nat) : State :=
  if last then s.modCore c (fun k => { k with merged := Tab.set 0 k.merged key (v + 1) }) else s

theorem merged_closeList (s : State) (c : CoreId) (last : Bool) (key v : Nat) : ((s.closeList c last key v).coreAt c).merged =
    if last then Tab.set 0 (s.coreAt c).merged key (v + 1) else (s.coreAt c).merged := by
  cases last
  · rfl
  · exact congrArg CoreSt.merged (State.coreAt_modCore ..)

theorem cluAt_closeList (s : State) (c : CoreId) (last : Bool) (key v n : Nat) :
    (s.closeList c last key v).cluAt n = s.cluAt n := by
  cases last <;> rfl

/-- A list joins a merge tree in its cluster's registers only. -/
theorem coreAt_addTop (s : State) (c d : CoreId) (m : MergeIn) : (s.addTop c m).coreAt d = s.coreAt d := rfl

theorem coreAt_addScat (s : State) (c d : CoreId) (m : MergeIn) : (s.addScat c m).coreAt d = s.coreAt d := rfl

/-- Candidates that join a list leave the count of those dropped as infinite or NaN. -/
theorem mrgInf_addTop (s : State) (c : CoreId) (m : MergeIn) :
    ((s.addTop c m).cluAt c.cluster.num).mrgInf = (s.cluAt c.cluster.num).mrgInf := by
  rw [State.addTop, State.cluAt_modClu]
  dsimp only
  split <;> rfl

/-- The finite values of a list with their positions from `pos` on (R228). -/
def topRecs (pos : Nat) (vals : List Word) : List Rec :=
  vals.zipIdx.filterMap (fun e => if fpFinite e.1 then some (⟨e.1, word (pos + e.2)⟩ : Rec) else none)

/-- TOPKV's list in the cluster's tree: its records, the count of those dropped, the count of closed lists and of kept values. -/
def State.topEnters (z : State) (c : CoreId) (m : MergeIn) (key lost : Nat) : State :=
  (((z.addTop c m).modClu c.cluster.num (fun k => { k with mrgInf := bump k.mrgInf lost })).closeList c m.last key m.vec).modOcv c
    (fun o => { o with topk := bump o.topk (min m.k m.recs.length) })

theorem topIn_topEnters (z : State) (c : CoreId) (m : MergeIn) (key lost : Nat) :
    ((z.topEnters c m key lost).cluAt c.cluster.num).topIn = ((z.addTop c m).cluAt c.cluster.num).topIn := by
  show ((State.closeList _ _ _ _ _).cluAt _).topIn = _
  rw [cluAt_closeList, State.cluAt_modClu]

theorem mrgInf_topEnters (z : State) (c : CoreId) (m : MergeIn) (key lost : Nat) :
    ((z.topEnters c m key lost).cluAt c.cluster.num).mrgInf = bump (z.cluAt c.cluster.num).mrgInf lost := by
  show ((State.closeList _ _ _ _ _).cluAt _).mrgInf = _
  rw [cluAt_closeList, State.cluAt_modClu, mrgInf_addTop]

theorem merged_topEnters (z : State) (c : CoreId) (m : MergeIn) (key lost : Nat) : ((z.topEnters c m key lost).coreAt c).merged =
    if m.last then Tab.set 0 (z.coreAt c).merged key (m.vec + 1) else (z.coreAt c).merged := by
  rw [State.topEnters, coreAt_modOcv]
  exact merged_closeList ..

/-- TOPKV asks for its source, for room and for the scoreboard (R445). -/
theorem exec_topkv {n : Nat} (hissue : s.issues c 0x4C = true) (hts : ts = (s.seqAt c).treg (bitsOf (s.seqAt c).word 48 45))
    (hn : n = s.moveLen c (bitsOf (s.seqAt c).word 29 25) 4 ts / 4) :
    exec (.topkv c) s = .next (s.withSource c ts fun x => s.withRoom c (s.withSb c [] (s.sourceRange x (4 * n)) [] fun v =>
      v.withRead c x (4 * n) fun z =>
        let w := (s.seqAt c).word
        let ord := (s.seqAt c).mergeOrd
        let recs := topRecs ((s.seqAt c).sreg (bitsOf w 34 30)) (leWords n (z.sourceBytes x (4 * n)))
        let key := topKey ord.toNat (bitsOf w 40 35)
        z.topEnters c ⟨ord, ord, Tab.get 0 (z.coreAt c).merged key, 0, c.num, bitsOf w 40 35, bitsOf w 55 49, recs, bitOf w.toNat 24⟩
          key (n - recs.length))) := by
  subst hts hn
  exact congrArg Host.Outcome.next (runSeq_issues hissue)

/-- SCAT asks for the same under its bound invocation (R270). -/
theorem exec_scat {b : Bound} {n : Nat} (hissue : s.issues c 0x4D = true) (hb : (s.seqAt c).bound.getLast? = some b)
    (hts : ts = (s.seqAt c).treg (bitsOf (s.seqAt c).word 55 52)) (hn : n = s.moveLen c (bitsOf (s.seqAt c).word 51 47) 8 ts / 8) :
    exec (.scat c) s = .next (s.withSource c ts fun x => s.withRoom c (s.withSb c [] (s.sourceRange x (8 * n)) [] fun v =>
      v.withRead c x (8 * n) fun z =>
        let last := bitOf (s.seqAt c).word.toNat 46
        let key := scatKey b.ord.toNat
        let m := Tab.get 0 (z.coreAt c).merged key
        (z.addScat c ⟨b.ord, b.ord, m, 0, c.num, LayerDesc.sg b.desc, 0, recsOf n (z.sourceBytes x (8 * n)), last⟩).closeList c last key m)) := by
  subst hts hn
  have hlast : (s.seqAt c).last = some b := hb
  show execScat c s = _
  simp only [execScat, runSeq_issues hissue, hlast]
  rfl

/-- The four instructions begin with their source; those that go to the SVU's queue then ask for room. -/
theorem exec_reader {e : Instr × Nat × Nat}
    (he : e ∈ [(Instr.stat c, 0x40, 44), (.svq c, 0x48, 52), (.topkv c, 0x4C, 45)] ∨ (e = (.scat c, 0x4D, 52) ∧ (s.seqAt c).bound ≠ []))
    (hissue : s.issues c e.2.1 = true) (hts : ts = (s.seqAt c).treg (bitsOf (s.seqAt c).word (e.2.2 + 3) e.2.2)) :
    ∃ f : Source → State, exec e.1 s = .next (s.withSource c ts f) ∧ (e.2.1 ≠ 0x40 → ∀ x, ∃ u, f x = s.withRoom c u) := by
  simp only [List.mem_cons, List.not_mem_nil, or_false] at he
  rcases he with (rfl | rfl | rfl) | ⟨rfl, hbound⟩
  · exact ⟨_, exec_stat hissue hts rfl rfl, fun h => absurd rfl h⟩
  · exact ⟨_, exec_svq hissue hts, fun _ _ => ⟨_, rfl⟩⟩
  · exact ⟨_, exec_topkv hissue hts rfl, fun _ _ => ⟨_, rfl⟩⟩
  · obtain ⟨b, hb⟩ := Option.isSome_iff_exists.mp (List.getLast?_isSome.mpr hbound)
    exact ⟨_, exec_scat hissue hb hts rfl, fun _ _ => ⟨_, rfl⟩⟩

end

/-! ## Rounds of the merges (R230 to R233, R270 to R272, R804) -/

section
variable {c : ClusterId} {s : State} {x : NextMerge} {rest own opn : Bool}

/-- A round sends its list on while others of its vector stand, or from a cluster that does not gather it. -/
theorem round_goes_on {dst n : Nat} (h : rest = true ∨ (x.gather = false ∧ dst ≠ n)) :
    (rest || !(x.gather || dst == n && opn)) = true := by
  rcases h with rfl | ⟨hgather, hdst⟩
  · rfl
  · simp [hgather, hdst]

/-- A gathering round that leaves no other list of the vector is its last. -/
theorem round_is_last (hrest : rest = false) (hgather : x.gather = true) : ¬(rest || !(x.gather || own)) = true := by
  simp [hrest, hgather]

theorem exec_topkMerge_idle (h : s.nextMerge c.num (s.cluAt c.num).topIn (s.allLists CluSt.topIn) s.topOpen = none) :
    exec (.topkMerge c) s = .next s := by
  show execTopkMerge c s = _
  simp only [execTopkMerge, h]

theorem exec_scatterMerge_idle (h : s.nextMerge c.num (s.cluAt c.num).scatIn (s.allLists CluSt.scatIn) s.scatOpen = none) :
    exec (.scatterMerge c) s = .next s := by
  show execScatterMerge c s = _
  simp only [execScatterMerge, h]

/-- One round of the top-k tree: `u` is the state without the round's lists, `r` the list of their K first records. -/
theorem exec_topkMerge_round {r : MergeIn} {u : State}
    (h : s.nextMerge c.num (s.cluAt c.num).topIn (s.allLists CluSt.topIn) s.topOpen = some x)
    (hr : r = x.result c.num (topK x.key.k (x.lists.flatMap (fun m => m.recs))))
    (hu : u = s.modClu c.num (fun k => { k with
      topIn := k.topIn.filter (fun m => !x.lists.contains m), mrgK := BitVec.ofNat 7 x.key.k, mrgTkg := BitVec.ofNat 6 x.key.dst,
      mrgRounds := if x.gather && x.lists.length == 1 then k.mrgRounds else bump k.mrgRounds })) :
    exec (.topkMerge c) s = .next (
      if (u.allLists CluSt.topIn).any (fun m => m.sameKey r) ||
          !(x.gather || x.key.dst == c.num && !u.listedCores.any (fun d => u.topOpen d r)) then
        u.modClu x.key.dst (fun k => { k with topIn := k.topIn ++ [r] })
      else u.pushMerged c.num r.ord r.epoch (recBytes (padRecs x.key.k r.recs))) := by
  subst hr hu
  show execTopkMerge c s = _
  simp only [execTopkMerge, h]

/-- One round of the scatter tree: `z` is the state without the round's lists and with the event of dropped records, `r` the list of the
sums by position. -/
theorem exec_scatterMerge_round {d : LayerDesc} {all ok : List Rec} {lost : Nat} {r : MergeIn} {u z : State}
    (h : s.nextMerge c.num (s.cluAt c.num).scatIn (s.allLists CluSt.scatIn) s.scatOpen = some x)
    (hd : d = (s.invAt x.key.ord.toNat).desc) (hall : all = x.lists.flatMap (fun m => m.recs))
    (hok : ok = all.filter (fun p => decide (p.pos.toNat < d.span)))
    (hlost : lost = all.length - ok.length + ((scatSum ok).length - 16384)) (hr : r = x.result c.num ((scatSum ok).take 16384))
    (hu : u = s.modClu c.num (fun k => { k with
      scatIn := k.scatIn.filter (fun m => !x.lists.contains m), mrgTkg := BitVec.ofNat 6 x.key.dst, scatRecs := bump k.scatRecs all.length,
      scatOor := bump k.scatOor lost, oorRaised := if lost = 0 then k.oorRaised else addKey k.oorRaised x.key.ord.toNat }))
    (hz : z = if lost = 0 ∨ (s.cluAt c.num).oorRaised.contains x.key.ord.toNat = true then u
      else u.raise 0x3160 none none (posOfCluster c)) :
    exec (.scatterMerge c) s = .next (
      if (z.allLists CluSt.scatIn).any (fun m => m.sameKey r) ||
          !(x.gather || x.key.dst == c.num && !z.listedCores.any (fun e => z.scatOpen e r)) then
        z.modClu x.key.dst (fun k => { k with scatIn := k.scatIn ++ [r] })
      else z.pushMerged c.num r.ord r.epoch (if d.sform then denseRecs d.span r.recs else recBytes r.recs)) := by
  subst hd hall hok hr hu hz
  show execScatterMerge c s = _
  simp only [execScatterMerge, h, ← hlost]

end

/-! ## The obligation -/

/-- Settles O45: each instruction's course is one chain of questions that the clauses answer, and a round of either tree goes on or is the
last of its vector. -/
theorem statisticsAndMerges : Obligations.StatisticsAndMerges := by
  refine ⟨fun c s w q hq hw => ⟨fun e ts he hissue hts => ?reader, fun ts td n x a hissue hts htd hn hx ha hreach hto sb hsb => ?stat,
    fun ts x a l d hissue hts hx ha hreach hroom hl hd wr rd hwr hrd => ?svq,
    fun ts x a n dst pos k hissue hts hx ha hreach hroom hn hdst hpos hk => ?topkv,
    fun b ts x a n hissue hb hts hx ha hreach hroom hn => ?scat⟩,
    fun c s => ⟨exec_topkMerge_idle, exec_scatterMerge_idle, fun x r u h hr hu => ?topRound,
      fun x d all ok lost r u z h hd hall hok hlost hr hu hz => ?scatRound⟩⟩
  case reader =>
    subst hq hw
    obtain ⟨f, hexec, hf⟩ := exec_reader he hissue hts
    rw [hexec]
    refine ⟨fun hwait => by rw [withSource_wait f hwait], fun d r hbad => by rw [withSource_bad f hbad],
      fun a hmem hring hfar => by rw [withSource_far f hmem hring hfar], fun a hmem hreach hop hfull => ?_⟩
    obtain ⟨u, hu⟩ := hf hop (.mem a)
    rw [withSource_mem f hmem hreach, hu, withRoom_full u hfull]
  case stat =>
    subst hq hw ha hsb
    have hdest : (if bitsOf (s.seqAt c).word 55 54 = 1 then s.destFault c td else none) = none := by
      split
      · next hkind =>
        obtain ⟨hring, hfound⟩ := hto hkind
        exact destFault_of_reach hring hfound
      · rfl
    have hwrites : (if bitsOf (s.seqAt c).word 55 54 = 1 ∧ (!td.ring) = true then s.sbRange td.addr 256 else []) =
        if bitsOf (s.seqAt c).word 55 54 = 1 then s.sbRange td.addr 256 else [] := by
      by_cases hkind : bitsOf (s.seqAt c).word 55 54 = 1
      · obtain ⟨hring, _⟩ := hto hkind
        rw [if_pos hkind, if_pos ⟨hkind, by rw [hring]; rfl⟩]
      · rw [if_neg hkind, if_neg fun hboth => hkind hboth.1]
    rw [exec_stat hissue hts htd hn, withSource_mem _ hx hreach]
    simp only [hdest, hwrites]
    refine ⟨fun hheld => by rw [withSb_held _ hheld], fun hfree hpkg v u z vals h hv hread hz hlive hvals hh => ?_⟩
    subst hv hz hvals hh
    rw [withSb_free _ hfree, withRead_live _ hread hlive, statReports_no_pkg _ hpkg]
    exact ⟨fun hkind => by rw [statWrites_amax _ hkind], fun hkind => by rw [statWrites_norm _ hkind],
      fun hkind => by rw [statWrites_bins _ hkind (hto hkind).1]⟩
  case svq =>
    subst hq hw ha hl hd hwr hrd
    rw [exec_svq hissue hts, withSource_mem _ hx hreach]
    dsimp only
    rw [withRoom_free _ hroom]
    refine ⟨fun hheld => by rw [withSb_held _ hheld], fun hfree v u hv hread hlive => ?_⟩
    subst hv
    rw [withSb_free _ hfree, withRead_live _ hread hlive]
  case topkv =>
    subst hq hw ha hdst hpos hk
    rw [exec_topkv hissue hts hn, withSource_mem _ hx hreach, withRoom_free _ hroom]
    refine ⟨fun hheld => by rw [withSb_held _ hheld], fun hfree v u z recs key m hv hread hz hlive hkey hm hrecs => ?_⟩
    subst hv hz hm hkey hrecs
    rw [withSb_free _ hfree, withRead_live _ hread hlive]
    exact ⟨_, rfl, topIn_topEnters .., mrgInf_topEnters .., merged_topEnters ..⟩
  case scat =>
    subst hq hw ha
    rw [exec_scat hissue hb hts hn, withSource_mem _ hx hreach, withRoom_free _ hroom]
    refine ⟨fun hheld => by rw [withSb_held _ hheld], fun hfree v u z key m hv hread hz hlive hkey hm => ?_⟩
    subst hv hz hm hkey
    rw [withSb_free _ hfree, withRead_live _ hread hlive]
    exact ⟨_, rfl, by rw [cluAt_closeList], merged_closeList ..⟩
  case topRound =>
    rw [exec_topkMerge_round h hr hu]
    exact ⟨fun hgoes => by rw [if_pos (round_goes_on hgoes)], fun hrest hgather => by rw [if_neg (round_is_last hrest hgather)]⟩
  case scatRound =>
    rw [exec_scatterMerge_round h hd hall hok hlost hr hu hz]
    exact ⟨fun hgoes => by rw [if_pos (round_goes_on hgoes)], fun hrest hgather => by rw [if_neg (round_is_last hrest hgather)]⟩

end Sys2Proof.Machine
end
section
/-! EU's work (06, R282 to R293; 07, R336 to R342; 09, R442): one rule for each way that PROBE, MAKE_UP, US_SAMPLE and DELTA_CHECK
go. -/

namespace Sys2Proof.Machine

/-! ## A core after a change of its parts or an event -/

@[simp] theorem coreAt_modSparse (s : State) (c : CoreId) (f : SparseSt → SparseSt) :
    (s.modSparse c f).coreAt c = { (s.coreAt c) with sparse := f (s.coreAt c).sparse } := by
  rw [State.modSparse, State.coreAt_modCore]

@[simp] theorem coreAt_raise (s : State) (c : CoreId) (code : Nat) (a b : Option Nat) (pos : Nat) :
    (s.raise code a b pos).coreAt c = s.coreAt c := by
  rw [State.coreAt, raise_core, State.coreAt]

/-- A change of the newest bound invocation is one of the sequencer. -/
theorem probes_modLast (s : State) (c : CoreId) (f : Bound → Bound) :
    ((s.modLast c f).coreAt c).probes = (s.coreAt c).probes := by
  rw [State.modLast, State.modSeq, State.coreAt_modCore]

/-! ## PROBE (R282, R283, R442) -/

/-- One result per vector of a probed tile, numbered on from those that the column tile has; a vector without a neuron predicted
inactive has an empty one. -/
def State.probeResults (z : State) (c : CoreId) (b : Bound) (r : TRec) (d : TileData) (tm ct : Nat) : List ProbeRes :=
  (List.range tm).map (fun m =>
    let k := ((z.coreAt c).probes.filter (fun p => p.ord == b.ord && p.ct == ct)).length + m
    ⟨b.ord, ct, k, if z.predicted c.cluster b ct k = 0 then [] else z.probeRow c b r d ct m⟩)

/-- PROBE once the scoreboard has let it go: it reads its tile, issues and leaves its results. -/
def State.probeRuns (v : State) (c : CoreId) (b : Bound) (src : TileSrc) (r : TRec) (tm ct : Nat) : State :=
  let g := v.tileRead src (v.tileLen src)
  let z := g.2.issued c
  if !g.1 then z
  else match z.tileOf src tm (LayerDesc.rows b.desc) r.width r.sign with
    | none => z.inputFault c 0x3161
    | some d => (z.modCore c (fun k => { k with probes := k.probes ++ z.probeResults c b r d tm ct })).modLast c (fun b => b.take r)

theorem probes_probeRuns {v u : State} {c : CoreId} {b : Bound} {src : TileSrc} {r : TRec} {d : TileData} {tm ct : Nat}
    (hread : v.tileRead src (v.tileLen src) = (true, u))
    (htile : (u.issued c).tileOf src tm (LayerDesc.rows b.desc) r.width r.sign = some d) :
    ((v.probeRuns c b src r tm ct).coreAt c).probes = ((u.issued c).coreAt c).probes ++ (u.issued c).probeResults c b r d tm ct := by
  simp [State.probeRuns, hread, htile, probes_modLast]

section
variable {s : State} {c : CoreId} {w : DWord} {b : Bound} (hissue : s.issues c 0x36 = true) (hw : (s.seqAt c).word = w)
  (hb : (s.seqAt c).bound.getLast? = some b)
include hissue hb

/-- Without a VERIFY prompter in force PROBE only issues. -/
theorem exec_probe_unverified (hprm : b.prm ≠ 2) : exec (.probe c) s = .next (s.issued c) := by
  have hlast : (s.seqAt c).last = some b := hb
  show execProbe c s = _
  simp only [execProbe, runSeq_issues hissue, hlast, if_pos hprm]

include hw

/-- Under a VERIFY prompter PROBE asks for its tile and the tile's record, for the record's CHECK and for the scoreboard, in this
order. -/
theorem exec_probe_verified (hprm : b.prm = 2) {td : TileDesc} {x : Source} {src : TileSrc}
    (htd : td = (s.seqAt c).treg (bitsOf w 42 39)) (hx : s.source c td = x) (hsrc : x.tile = some src) :
    exec (.probe c) s = .next (
      if !td.ring && !(s.coreReach c td.addr && s.coreReach c (td.addr - 32)) then s.reachFault c
      else match s.recordOf c td with
        | some r =>
          if !r.ok then s.inputFault c 0x2141
          else s.withSb c [] [] (if td.ring then [] else s.sbRange (td.addr - 32) (32 + s.tileLen src))
            (fun v => v.probeRuns c b src r (bitsOf w 48 43) ((s.seqAt c).sreg (bitsOf w 37 33)))
        | none => s.inputFault c 0x2141) := by
  have hlast : (s.seqAt c).last = some b := hb
  subst hw htd hx
  show execProbe c s = _
  obtain ⟨a, ha⟩ | ⟨d, q, p, len, ha⟩ := source_of_tile hsrc <;>
  · rw [ha] at hsrc
    simp only [execProbe, runSeq_issues hissue, hlast, hprm, ha, hsrc, ne_eq, not_true_eq_false, if_false]
    cases s.recordOf c ((s.seqAt c).treg (bitsOf (s.seqAt c).word 42 39)) <;> rfl

end

/-! ## MAKE_UP (R285, R286) -/

section
variable {s : State} {c : CoreId}

theorem exec_makeUp_idle (hnone : (s.coreAt c).euQ.find? (fun e => e.kind == 1) = none) : exec (.makeUp c) s = .next s := by
  show execMakeUp c s = _
  simp only [execMakeUp, hnone]

/-- A piece of work leaves EU's queue. -/
def State.euDrops (s : State) (c : CoreId) (e : EuOp) : State := s.modCore c (fun k => { k with euQ := k.euQ.erase e })

/-- The make-ups that an invocation has had and those that its candidates still need. -/
def State.makeUps (s : State) (c : CoreId) (e : EuOp) : Nat :=
  Tab.get 0 (s.coreAt c).madeUp e.ord.toNat +
    (((s.coreAt c).euQ.filter (fun x => x.kind == 1 && x.ord == e.ord)).filter (fun x => s.needsMakeUp c x == some true)).length

/-- EU adds the recomputed row of a candidate to its accumulator entry and counts it. -/
def State.makesUp (s : State) (c : CoreId) (e : EuOp) (o : ChainOp) (d : TileData) : State :=
  (((s.euDrops c e).euRan c o d e.vec).modCore c (fun k =>
    let k := k.acbAdd e.bound.fast o.half e.acbase (s.euRow o d e.vec true false)
    { k with madeUp := Tab.set 0 k.madeUp e.ord.toNat (Tab.get 0 k.madeUp e.ord.toNat + 1) })).modSparse c
      (fun x => { x with prmMakeup := bump x.prmMakeup })

theorem coreAt_makesUp (s : State) (c : CoreId) (e : EuOp) (o : ChainOp) (d : TileData) : ∃ es,
    (s.makesUp c e o d).coreAt c = { (s.coreAt c).acbAdd e.bound.fast o.half e.acbase (s.euRow o d e.vec true false) with
      engines := es
      euQ := (s.coreAt c).euQ.erase e
      madeUp := Tab.set 0 (s.coreAt c).madeUp e.ord.toNat (Tab.get 0 (s.coreAt c).madeUp e.ord.toNat + 1)
      sparse := { (s.coreAt c).sparse with prmMakeup := bump (s.coreAt c).sparse.prmMakeup } } := by
  simp only [State.makesUp, State.euDrops, State.euRan, coreAt_modSparse, State.coreAt_modCore, coreAt_modEng]
  exact ⟨_, rfl⟩

section
variable {e : EuOp} {o : ChainOp} (hfind : (s.coreAt c).euQ.find? (fun e => e.kind == 1) = some e) (hop : e.ops.head? = some o)
include hfind hop

/-- The candidate waits for its probe sum (R283 to R285). -/
theorem exec_makeUp_unprobed (hneed : s.needsMakeUp c e = none) : exec (.makeUp c) s = .next s := by
  show execMakeUp c s = _
  simp only [execMakeUp, hfind, hop, hneed]

/-- A candidate that needs none, or whose invocation is past its limit, is dropped. -/
theorem exec_makeUp_drops (hdrop : s.needsMakeUp c e = some false ∨
    (s.needsMakeUp c e = some true ∧ (s.invAt e.ord.toNat).muOver = true)) : exec (.makeUp c) s = .next (s.euDrops c e) := by
  show execMakeUp c s = _
  rcases hdrop with hneed | ⟨hneed, hover⟩
  · simp only [execMakeUp, hfind, hop, hneed, Bool.not_false, if_true]
    rfl
  · simp only [execMakeUp, hfind, hop, hneed, hover, Bool.not_true, Bool.false_eq_true, if_false, if_true]
    rfl

variable (hneed : s.needsMakeUp c e = some true) (hunder : (s.invAt e.ord.toNat).muOver = false)
include hneed hunder

/-- Past the descriptor's limit every candidate of the invocation is dropped (R286). -/
theorem exec_makeUp_over (hlimit : LayerDesc.pmu e.bound.desc < s.makeUps c e) : exec (.makeUp c) s = .next
    (((s.modCore c (fun k => { k with euQ := k.euQ.filter (fun x => !(x.kind == 1 && x.ord == e.ord)) })).modInv e.ord.toNat
      (fun x => { x with muOver := true })).raise 0x3163 none none (posOf c 16)) := by
  show execMakeUp c s = _
  unfold State.makeUps at hlimit
  simp only [execMakeUp, hfind, hop, hneed, hunder, hlimit, Bool.not_true, Bool.false_eq_true, if_false, if_true]

variable (hlimit : s.makeUps c e ≤ LayerDesc.pmu e.bound.desc)
include hlimit

/-- The candidate waits for the chain pass of its vector (R285). -/
theorem exec_makeUp_unlanded {q : ChainOp} (hq : (s.coreAt c).chainOp o.id = some q) (hland : q.landed.contains e.vec = false) :
    exec (.makeUp c) s = .next s := by
  show execMakeUp c s = _
  have hwithin := Nat.not_lt.mpr hlimit
  unfold State.makeUps at hwithin
  simp only [execMakeUp, hfind, hop, hneed, hunder, hwithin, hq, hland, Bool.not_true, Bool.not_false, Bool.false_eq_true, if_false,
    if_true]

/-- With its pass out of the chain the candidate is made up. -/
theorem exec_makeUp_adds (hq : (s.coreAt c).chainOp o.id = none) {d : TileData} (hd : s.opTile o = some d) :
    exec (.makeUp c) s = .next (s.makesUp c e o d) := by
  show execMakeUp c s = _
  have hwithin := Nat.not_lt.mpr hlimit
  unfold State.makeUps at hwithin
  simp only [execMakeUp, hfind, hop, hneed, hunder, hwithin, hq, hd, Bool.not_true, Bool.false_eq_true, if_false]
  rfl

end

/-! ## US_SAMPLE (R290, R291, R338 to R342) -/

/-- A sampled tile by vectors: the neurons held inactive, EU's values and the chain's captured ones. -/
def State.sampleRows (s : State) (c : CoreId) (e : EuOp) : List (BitVec 128 × List Acc × List Acc) :=
  (List.range e.tm).map (fun m => (s.heldOff c e m,
    (e.ops.foldl (fun a o => s.euApply o (e.acbase + m) a) accZeros).take (realCols e.bound.desc e.ct),
    (e.vals.getD m []).take (realCols e.bound.desc e.ct)))

/-- A value that is not held inactive differs beyond the tolerance (R340, R341). -/
def rowsMismatch (b : Bound) (rows : List (BitVec 128 × List Acc × List Acc)) : Bool :=
  rows.any (fun r => (r.2.1.zip r.2.2).zipIdx.any (fun x =>
    !r.1.getLsbD x.2 && mismatch b.desc b.fast (accExact b.fast x.1.2) x.1.1))

/-- The sample leaves the queue, the counters change by `f`, and EU counts its passes. -/
def State.takesSample (s : State) (c : CoreId) (e : EuOp) (f : SparseSt → SparseSt) : State :=
  ((s.drawWord.2.euDrops c e).modSparse c f).modEng c 16 (fun x => { x with passes := bump x.passes e.ops.length })

theorem coreAt_takesSample (s : State) (c : CoreId) (e : EuOp) (f : SparseSt → SparseSt) : ∃ es,
    (s.takesSample c e f).coreAt c =
      { (s.coreAt c) with engines := es, euQ := (s.coreAt c).euQ.erase e, sparse := f (s.coreAt c).sparse } := by
  have hdraw : s.drawWord.2.coreAt c = s.coreAt c := rfl
  simp only [State.takesSample, State.euDrops, coreAt_modSparse, State.coreAt_modCore, coreAt_modEng, hdraw]
  exact ⟨_, rfl⟩

theorem exec_usSample_idle (hnone : (s.coreAt c).euQ.find? (fun e => e.kind == 2 && !e.vals.isEmpty) = none) :
    exec (.usSample c) s = .next s := by
  show execUsSample c s = _
  simp only [execUsSample, hnone]

section
variable {e : EuOp} (hfind : (s.coreAt c).euQ.find? (fun e => e.kind == 2 && !e.vals.isEmpty) = some e)
include hfind

/-- Make-ups go first (R293). -/
theorem exec_usSample_behind (hbusy : (s.coreAt c).euQ.any (fun x => x.kind == 1) = true) : exec (.usSample c) s = .next s := by
  show execUsSample c s = _
  simp only [execUsSample, hfind, hbusy, true_or, if_true]

/-- Without a prompter the sample needs no format: it is counted, and a mismatch is counted, marks the invocation and is reported. -/
theorem exec_usSample_compares (hfree : (s.coreAt c).euQ.any (fun x => x.kind == 1) = false) (hprm : e.bound.prm = 0) :
    ∃ f : SparseSt → SparseSt, exec (.usSample c) s = .next (
        if rowsMismatch e.bound (s.sampleRows c e) then
          ((s.takesSample c e f).modInv e.ord.toNat (fun x => { x with understudy := true })).raise 0x2206 none none (posOf c 16)
        else s.takesSample c e f) ∧
      ∀ x, (f x).usSamples = bump x.usSamples ∧
        (f x).usMismatch = if rowsMismatch e.bound (s.sampleRows c e) then bump x.usMismatch else x.usMismatch := by
  apply Exists.intro
  constructor
  · show execUsSample c s = _
    simp only [execUsSample, hfind, hfree, hprm, Bool.false_eq_true, ne_eq, not_true_eq_false, false_and, or_self, if_false]
    rfl
  · exact fun x => ⟨rfl, rfl⟩

end

/-! ## DELTA_CHECK (R336) -/

/-- The refreshed vectors of a checked tile: EU's values, none while a check tile is missing, and the chain's captured ones. -/
def State.refreshRows (s : State) (c : CoreId) (e : EuOp) : List (Option (List Acc) × List Acc) :=
  ((List.range e.tm).filter (fun m => s.refreshes e.bound.desc e.ord.toNat (placeOf e.bound e.half e.acbase m))).map (fun m =>
    (s.checkRow c e (e.acbase + m), (e.vals.getD m []).take (realCols e.bound.desc e.ct)))

theorem exec_deltaCheck_idle (hnone : (s.coreAt c).euQ.find? (fun e => e.kind == 3 && !e.vals.isEmpty) = none) :
    exec (.deltaCheck c) s = .next s := by
  show execDeltaCheck c s = _
  simp only [execDeltaCheck, hnone]

section
variable {e : EuOp} (hfind : (s.coreAt c).euQ.find? (fun e => e.kind == 3 && !e.vals.isEmpty) = some e)
include hfind

/-- Make-ups and samples go first (R293), and every check tile has to be there. -/
theorem exec_deltaCheck_behind (hwait : (s.coreAt c).euQ.any (fun x => x.kind == 1 || x.kind == 2) = true ∨
    (s.refreshRows c e).any (fun r => r.1.isNone) = true) : exec (.deltaCheck c) s = .next s := by
  show execDeltaCheck c s = _
  unfold State.refreshRows at hwait
  simp only [execDeltaCheck, hfind, if_pos hwait]

/-- The check is counted; a failure is counted and reported too. -/
theorem exec_deltaCheck_compares (hfree : (s.coreAt c).euQ.any (fun x => x.kind == 1 || x.kind == 2) = false)
    (hthere : (s.refreshRows c e).any (fun r => r.1.isNone) = false) {bad : Bool}
    (hbad : bad = (s.refreshRows c e).any (fun r =>
      ((r.1.getD []).zip r.2).any (fun x => mismatch e.bound.desc e.bound.fast (accExact e.bound.fast x.2) x.1))) {u : State}
    (hu : u = (s.euDrops c e).modSparse c (fun x => { x with
      deltaChk := bump x.deltaChk, deltaChkFail := if bad then bump x.deltaChkFail else x.deltaChkFail })) :
    exec (.deltaCheck c) s = .next (if bad then u.raise 0x2207 none none (posOf c 16) else u) := by
  subst hbad hu
  show execDeltaCheck c s = _
  unfold State.refreshRows at hthere
  simp only [execDeltaCheck, hfind, hfree, hthere, Bool.false_eq_true, or_self, if_false]
  rfl

end

end

/-! ## The obligation -/

/-- Settles O43: each of EU's works asks one chain of questions, and each clause is the rule of one of their answers. -/
theorem euWork : Obligations.EuWork := by
  intro c s
  refine ⟨fun hissue w b hw hb => ⟨exec_probe_unverified hissue hb, fun hprm td x src htd hx hsrc => ?probe⟩, exec_makeUp_idle,
    fun e o k hk hfind hop => ?makeUp, exec_usSample_idle,
    fun e hfind => ⟨exec_usSample_behind hfind, fun hfree hprm n rows hn hrows => ?sample⟩, exec_deltaCheck_idle,
    fun e hfind n rows hn hrows => ?check⟩
  case probe =>
    rw [exec_probe_verified hissue hw hb hprm htd hx hsrc]
    refine ⟨fun hring hfar => ?_, fun hreach r hrec => ?_⟩
    · have hbeyond : (!td.ring && !(s.coreReach c td.addr && s.coreReach c (td.addr - 32))) = true := by
        rcases hfar with hfar | hfar <;> simp [hring, hfar]
      rw [if_pos hbeyond]
    · have hnear : ¬(!td.ring && !(s.coreReach c td.addr && s.coreReach c (td.addr - 32))) = true := by
        cases hring : td.ring
        · obtain ⟨htile, hhead⟩ := hreach hring
          simp [htile, hhead]
        · simp
      simp only [if_neg hnear, hrec]
      refine ⟨fun hbad => by rw [ite_not_of_false hbad], fun hok ck hck => ?_⟩
      subst hck
      rw [ite_not_of_true hok]
      refine ⟨fun hheld => by rw [withSb_held _ hheld], fun hfree v u z d tm ct hv hread hz htm hct htile => ?_⟩
      subst hv hz htm hct
      exact ⟨_, congrArg Host.Outcome.next (withSb_free _ hfree), probes_probeRuns hread htile⟩
  case makeUp =>
    subst hk
    refine ⟨exec_makeUp_unprobed hfind hop, exec_makeUp_drops hfind hop, fun hneed hunder n hn => ?_⟩
    subst hn
    refine ⟨exec_makeUp_over hfind hop hneed hunder, fun hlimit q => exec_makeUp_unlanded hfind hop hneed hunder hlimit,
      fun hlimit hq d hd => ?_⟩
    obtain ⟨es, hcore⟩ := coreAt_makesUp s c e o d
    exact ⟨_, exec_makeUp_adds hfind hop hneed hunder hlimit hq hd, by rw [hcore], by rw [hcore], by rw [hcore], by rw [hcore], rfl⟩
  case sample =>
    subst hn
    obtain rfl : rows = s.sampleRows c e := hrows
    obtain ⟨f, hexec, hf⟩ := exec_usSample_compares hfind hfree hprm
    obtain ⟨hcount, hmiss⟩ := hf (s.coreAt c).sparse
    obtain ⟨es, hcore⟩ := coreAt_takesSample s c e f
    refine ⟨_, (s.takesSample c e f).coreAt c, hexec, ?_, by rw [hcore], by rw [hcore]; exact hcount, by rw [hcore],
      fun hgood => ?_, fun hbad => ?_⟩
    · split
      · exact coreAt_raise ..
      · rfl
    · have hsame : rowsMismatch e.bound (s.sampleRows c e) = false := hgood
      rw [if_neg (by simp [hsame]), hcore]
      exact ⟨hmiss.trans (if_neg (by simp [hsame])), rfl, rfl, rfl⟩
    · rw [hcore]
      exact ⟨hmiss.trans (if_pos hbad), _, if_pos hbad, by rw [State.invAt_modInv]⟩
  case check =>
    subst hn
    obtain rfl : rows = s.refreshRows c e := hrows
    refine ⟨exec_deltaCheck_behind hfind, fun hfree hthere bad u hbad hu => ?_⟩
    rw [exec_deltaCheck_compares hfind hfree hthere hbad hu]
    exact ⟨fun h => by rw [if_pos h], fun h => by rw [if_neg (by simp [h])]⟩

end Sys2Proof.Machine
end
section
/-! Squashes, confirmations, sticky widens and the array supply (07, R323, R326, R327; 08, R382, R387, R388; 09, R455): what
SQUASH_RESUME and EPOCH_CONFIRM make of a ring and of a core, and when a cluster's supply moves. -/

namespace Sys2Proof.Machine

/-- A change of every listed value that leaves the default is read at every key. -/
theorem tab_get_map {β : Type} {d : β} {f : β → β} (hf : f d = d) : ∀ (t : Tab β) (j : Nat),
    Tab.get d (t.map (fun e => (e.1, f e.2))) j = f (Tab.get d t j)
  | [], _ => hf.symm
  | (k, v) :: t, j => by
    rw [List.map_cons, Tab.get, Tab.get, tab_get_map hf t j]
    split <;> rfl

/-! ## Rings (R387, R388) -/

theorem squash_of_mark {r : RingSt} {m : RingMark} {v : Nat} (h : r.marks.find? (fun m => decide (v ≤ m.epoch.toNat)) = some m) :
    r.squash v = { r with
      head := m.head, tail := m.tail, turn := m.turn, marks := r.marks.filter (fun x => decide (x.epoch.toNat < v)),
      pwait := false, cwait := false } := by
  have hbelow : (fun x : RingMark => !decide (v ≤ x.epoch.toNat)) = fun x => decide (x.epoch.toNat < v) := by
    funext x; simp [← decide_not]
  simp only [RingSt.squash, h, hbelow]

theorem confirm_of_mark_left {r : RingSt} {m : RingMark} {rest : List RingMark} {e : Nat}
    (hgone : r.marks.any (fun m => decide (m.epoch.toNat ≤ e)) = true)
    (hleft : r.marks.filter (fun m => decide (e < m.epoch.toNat)) = m :: rest) :
    r.confirm e = { r with marks := m :: rest, ctail := m.tail, free := m.head, pwait := false, cwait := false } := by
  have habove : (fun x : RingMark => !decide (x.epoch.toNat ≤ e)) = fun x => decide (e < x.epoch.toNat) := by
    funext x; simp [← decide_not]
  have hsome : (r.marks.filter (fun m => decide (m.epoch.toNat ≤ e))).isEmpty = false := by
    rw [List.any_eq_true] at hgone
    obtain ⟨x, hx, hxe⟩ := hgone
    exact List.isEmpty_eq_false_iff_exists_mem.mpr ⟨x, List.mem_filter.mpr ⟨hx, hxe⟩⟩
  simp only [RingSt.confirm, habove, hleft, hsome, Bool.false_eq_true, if_false]

/-! ## SQUASH_RESUME on the rings (R388) -/

/-- The rings of a core at the last step of a squash. -/
def CoreSt.squashRings (k : CoreSt) (v : Nat) : CoreSt :=
  { k with rings := k.rings.map (fun e => (e.1, { e.2.squash v with resv := [] })) }

theorem ring_squashRings (k : CoreSt) (v q : Nat) : Tab.get .reset (k.squashRings v).rings q =
    { (Tab.get .reset k.rings q).squash v with resv := [] } :=
  tab_get_map (f := fun r : RingSt => { r.squash v with resv := [] }) rfl k.rings q

theorem coreAt_squashRings (s : State) (c d : CoreId) (v : Nat) :
    (s.squashRings c v).coreAt d = if d = c then (s.coreAt c).squashRings v else s.coreAt d :=
  coreAt_modCore s c d (fun k => k.squashRings v)

/-- The rings of each listed core are restored once. -/
theorem coreAt_foldl_squashRings (v : Nat) (d : CoreId) : ∀ (l : List CoreId) (s : State), l.Nodup →
    (l.foldl (fun s c => s.squashRings c v) s).coreAt d = if d ∈ l then (s.coreAt d).squashRings v else s.coreAt d
  | [], _, _ => rfl
  | c :: l, s, h => by
    obtain ⟨hc, hl⟩ := List.nodup_cons.mp h
    rw [List.foldl_cons, coreAt_foldl_squashRings v d l _ hl, coreAt_squashRings]
    by_cases hd : d = c
    · subst hd; simp [hc]
    · simp [hd]

theorem foldl_squashRings_frame (v : Nat) : ∀ (l : List CoreId) (s : State), ∃ k m,
    l.foldl (fun s c => s.squashRings c v) s = { s with core := k, clu := m }
  | [], s => ⟨s.core, s.clu, rfl⟩
  | c :: l, s => foldl_squashRings_frame v l (s.squashRings c v)

/-! ## SQUASH_RESUME on the cores (R455) -/

theorem squashRestore_none {k : CoreSt} {v : Nat} (h : k.seq.ckptFrom v = none) : k.squashRestore v = k := by
  simp only [CoreSt.squashRestore, h]

theorem squashRestore_some {k : CoreSt} {v : Nat} {x : Ckpt} (h : k.seq.ckptFrom v = some x) :
    k.squashRestore v = { k with seq := k.seq.restore v, rowsums := [] } := by
  simp only [CoreSt.squashRestore, h]

theorem rings_squashRestore (k : CoreSt) (v : Nat) : (k.squashRestore v).rings = k.rings := by
  unfold CoreSt.squashRestore
  split <;> rfl

/-- SQUASH_RESUME of a squash of v. -/
def State.squashResumed (s : State) (v : Nat) : State :=
  let u := s.listedCores.foldl (fun s c => s.squashRings c v) s
  { u with
    core := u.core.map (fun e => (e.1, e.2.squashRestore v)),
    prec := { u.prec with
      squash := none,
      invs := (u.prec.invs.filter (fun e => decide (e.1 ≤ v))).map (fun e =>
        if e.1 = v then (v, { InvSt.reset with rerun := e.2.rerun, promptOff := e.2.promptOff }) else e) } }

section
variable {s : State} {v : Nat}

theorem exec_squashResume_none (h : s.prec.squash = none) : exec .squashResume s = .next s := by
  show execSquashResume s = _
  simp only [execSquashResume, h]

theorem exec_squashResume_some (h : s.prec.squash = some v) : exec .squashResume s = .next (s.squashResumed v) := by
  show execSquashResume s = _
  simp only [execSquashResume, h]
  rfl

theorem squashResumed_frame (s : State) (v : Nat) : s.squashResumed v =
    { s with core := (s.squashResumed v).core, clu := (s.squashResumed v).clu, prec := (s.squashResumed v).prec } := by
  unfold State.squashResumed
  obtain ⟨k, m, h⟩ := foldl_squashRings_frame v s.listedCores s
  rw [h]

theorem invs_squashResumed_le {e : Nat × InvSt} (he : e ∈ (s.squashResumed v).prec.invs) : e.1 ≤ v := by
  obtain ⟨x, hx, rfl⟩ := List.mem_map.mp he
  have hle : x.1 ≤ v := of_decide_eq_true (List.mem_filter.mp hx).2
  dsimp only
  split
  · exact Nat.le_refl v
  · exact hle

/-- A core's rings are restored where the core is listed, then its sequencer from its checkpoint. -/
theorem coreAt_squashResumed (hn : s.listedCores.Nodup) (c : CoreId) : (s.squashResumed v).coreAt c =
    (if c ∈ s.listedCores then (s.coreAt c).squashRings v else s.coreAt c).squashRestore v := by
  rw [← coreAt_foldl_squashRings v c s.listedCores s hn]
  exact tab_get_map (f := fun k : CoreSt => k.squashRestore v) rfl _ c.num

theorem ringAt_squashResumed (hn : s.listedCores.Nodup) {c : CoreId} (hc : c ∈ s.listedCores) (q : Nat) :
    (s.squashResumed v).ringAt c q = { (s.ringAt c q).squash v with resv := [] } := by
  rw [State.ringAt, coreAt_squashResumed hn, if_pos hc, rings_squashRestore, ring_squashRings, State.ringAt]

/-- Whether its rings were restored or not, a core's sequencer is restored from its own state before. -/
theorem coreAt_squashResumed_seq (hn : s.listedCores.Nodup) (c : CoreId) : ∃ k : CoreSt, k.seq = s.seqAt c ∧
    (s.squashResumed v).coreAt c = k.squashRestore v := by
  refine ⟨_, ?_, coreAt_squashResumed hn c⟩
  split <;> rfl

end

/-! ## EPOCH_CONFIRM (R382, R387, R454) -/

/-- The confirmation of an epoch on a core. -/
def CoreSt.confirm (k : CoreSt) (e : Nat) : CoreSt :=
  { k with
    conf := max k.conf e, rings := k.rings.map (fun r => (r.1, r.2.confirm e)),
    seq := { k.seq with ckpts := k.seq.ckpts.filter (fun x => decide (e < x.key.toNat)) } }

theorem ring_confirm (k : CoreSt) (e q : Nat) :
    Tab.get .reset (k.confirm e).rings q = (Tab.get .reset k.rings q).confirm e :=
  tab_get_map (f := fun r : RingSt => r.confirm e) rfl k.rings q

section
variable {s : State} {c : CoreId} {e : BitVec 16}

theorem exec_epochConfirm_settled (h : s.tickLive = true ∧ s.settledTo e.toNat = true) :
    exec (.epochConfirm c e) s = .next (s.modCore c (fun k => k.confirm e.toNat)) :=
  congrArg Host.Outcome.next (if_neg (by simp [h.1, h.2]))

theorem exec_epochConfirm_unsettled (h : ¬(s.tickLive = true ∧ s.settledTo e.toNat = true)) :
    exec (.epochConfirm c e) s = .next s :=
  congrArg Host.Outcome.next (if_pos (by
    cases hlive : s.tickLive with
    | false => exact .inl rfl
    | true =>
      cases hsettled : s.settledTo e.toNat with
      | false => exact .inr rfl
      | true => exact absurd ⟨hlive, hsettled⟩ h))

end

/-! ## The array supply (R326, R327) -/

/-- What lets a cluster's array run at 0.48 V: over-scaling on, every core's bound layer permits it, no EU task waits. -/
def State.mayOverscale (s : State) (c : ClusterId) : Prop :=
  s.osEnabled = true ∧ (clusterCores c.num).all (fun d => s.osLayer d == some true) = true ∧ s.euTask c = false

section
variable {s : State} {c : ClusterId}

theorem exec_supplyLower_permitted (h : s.mayOverscale c) :
    ∃ t, exec (.supplyLower c) s = .next t ∧ (t.cluAt c.num).vsup = 2 := by
  obtain ⟨hon, hall, heu⟩ := h
  refine ⟨_, congrArg Host.Outcome.next (if_pos ⟨hon, hall, by simp [heu]⟩), ?_⟩
  exact congrArg CluSt.vsup (State.cluAt_modClu s c.num (fun k => { k with vsup := 2 }))

theorem exec_supplyLower_barred (h : ¬s.mayOverscale c) : exec (.supplyLower c) s = .next s := by
  refine congrArg Host.Outcome.next (if_neg fun hgo => h ?_)
  obtain ⟨hon, hall, heu⟩ := hgo
  exact ⟨hon, hall, by simpa using heu⟩

/-- A cluster of which every core permits over-scaling has none that forbids it. -/
theorem any_forbids_of_all_permit (h : (clusterCores c.num).all (fun d => s.osLayer d == some true) = true) :
    (clusterCores c.num).any (fun d => s.osLayer d == some false) = false := by
  rw [List.all_eq_true] at h
  rw [List.any_eq_false]
  intro d hd
  simp [eq_of_beq (h d hd)]

theorem exec_supplyRaise_permitted (h : s.mayOverscale c) : exec (.supplyRaise c) s = .next s := by
  obtain ⟨hon, hall, heu⟩ := h
  exact congrArg Host.Outcome.next (if_neg (by simp [hon, any_forbids_of_all_permit hall, heu]))

theorem vsup_raiseSupply (s : State) (n : Nat) : ((s.raiseSupply n).cluAt n).vsup = 0 := by
  unfold State.raiseSupply
  split
  · next h => exact h
  · rw [State.cluAt_modClu]

theorem exec_supplyRaise_ended
    (h : s.osEnabled = false ∨ (clusterCores c.num).any (fun d => s.osLayer d == some false) = true ∨ s.euTask c = true) :
    ∃ t, exec (.supplyRaise c) s = .next t ∧ (t.cluAt c.num).vsup = 0 :=
  ⟨_, congrArg Host.Outcome.next (if_pos (by simpa using h)), vsup_raiseSupply s c.num⟩

end

/-! ## The obligation -/

/-- Settles O35: SQUASH_RESUME and EPOCH_CONFIRM by what they make of one core, CLR_STICKY as an owner's write, the supply by its
conditions. -/
theorem squashesConfirmationsAndSupply : Obligations.SquashesConfirmationsAndSupply := by
  refine ⟨fun s => exec_squashResume_none, fun v s hv hn => ?squash, fun r m v => squash_of_mark,
    fun c e s => ⟨fun h => ?confirm, exec_epochConfirm_unsettled⟩, fun r m rest e => confirm_of_mark_left,
    fun p v s hp => congrArg Host.Outcome.next (ownerOnly_owns hp),
    fun c s => ⟨fun h => ⟨exec_supplyRaise_permitted h, exec_supplyLower_permitted h⟩, exec_supplyLower_barred,
      exec_supplyRaise_ended⟩⟩
  case squash =>
    refine ⟨_, exec_squashResume_some hv, rfl, fun e => invs_squashResumed_le, squashResumed_frame s v,
      fun c hc q => ringAt_squashResumed hn hc q, fun c x hx => ?_, fun c hnone => ?_⟩ <;>
      obtain ⟨k, hseq, hcore⟩ := coreAt_squashResumed_seq (v := v) hn c
    · rw [← hseq] at hx
      rw [State.seqAt, hcore, squashRestore_some hx, ← hseq]
      refine ⟨rfl, _, rfl, ?_⟩
      simp [SeqSt.restore, hx, seqRun]
    · rw [State.seqAt, hcore, squashRestore_none (by rw [hseq]; exact hnone), hseq]
  case confirm =>
    refine ⟨_, exec_epochConfirm_settled h, rfl, ?_, ?_, fun q => ?_, fun d hd => ?_⟩
    · rw [State.coreAt_modCore]; rfl
    · rw [seqAt_modCore, if_pos rfl]; rfl
    · rw [State.ringAt, State.coreAt_modCore, ring_confirm, State.ringAt]
    · rw [coreAt_modCore, if_neg hd]

end Sys2Proof.Machine
end
section
/-! LYR and END (07, R337; 08, R363, R378; 09, R421, R427, R446, R452 to R454, R463, R464, R801): the questions that LYR asks before
it binds, what a binding leaves in the sequencer and in the invocation, and how a core's tick work ends. -/

namespace Sys2Proof.Machine

/-! ## Reports and engines leave the sequencer -/

theorem seqAt_modClu (s : State) (c : CoreId) (n : Nat) (f : CluSt → CluSt) : (s.modClu n f).seqAt c = s.seqAt c := rfl

theorem seqAt_modOcv (s : State) (c : CoreId) (f : OcvSt → OcvSt) : (s.modOcv c f).seqAt c = s.seqAt c := by
  rw [State.seqAt, coreAt_modOcv, State.seqAt]

theorem seqAt_report (s : State) (c : CoreId) (ord part : Nat) : (s.report c ord part).seqAt c = s.seqAt c := by
  unfold State.report
  dsimp only
  split
  · rfl
  · rw [seqAt_modClu, seqAt_modOcv]
    rfl

theorem seqAt_modLast (s : State) (c : CoreId) (f : Bound → Bound) : ∃ l, (s.modLast c f).seqAt c = { s.seqAt c with bound := l } :=
  ⟨_, State.seqAt_modSeq s c _⟩

/-- What a bound descriptor's end changes in the sequencer is that descriptor's entry. -/
theorem seqAt_endBound (s : State) (c : CoreId) : ∃ l, (s.endBound c).seqAt c = { s.seqAt c with bound := l } := by
  unfold State.endBound
  split
  · exact ⟨_, rfl⟩
  · next b _ =>
    split
    · exact ⟨_, rfl⟩
    · obtain ⟨l, hl⟩ := seqAt_modLast (s.report c b.ord.toNat b.part) c (fun x => { x with reported := true })
      rw [seqAt_report] at hl
      refine ⟨l, ?_⟩
      dsimp only
      split
      · rw [seqAt_report, hl]
      · exact hl

theorem seqAt_gateEngines (s : State) (c : CoreId) (d : LayerDesc) (mode : Nat) : (s.gateEngines c d mode).seqAt c = s.seqAt c := by
  obtain ⟨es, h⟩ := coreAt_foldl_modEng c (fun e => e)
    (fun e x => { x with state := if enginesUsed d mode ≤ e then 7 else if x.state = 7 then 0 else x.state }) (List.range 16) s
  have hseq := congrArg CoreSt.seq h
  exact hseq

theorem prec_foldl_modEng (c : CoreId) (f : Nat → EngineSt → EngineSt) : ∀ (l : List Nat) (s : State),
    (l.foldl (fun s e => s.modEng c e (f e)) s).prec = s.prec
  | [], _ => rfl
  | e :: l, s => prec_foldl_modEng c f l (s.modEng c e (f e))

theorem prec_gateEngines (s : State) (c : CoreId) (d : LayerDesc) (mode : Nat) : (s.gateEngines c d mode).prec = s.prec :=
  prec_foldl_modEng c _ (List.range 16) s

/-! ## Checkpoints (R452, R456) -/

theorem takeCkpt_frame (q : SeqSt) (key : Nat) : ∃ l, q.takeCkpt key = { q with ckpts := l } := by
  unfold SeqSt.takeCkpt
  split
  · exact ⟨q.ckpts, rfl⟩
  · exact ⟨_, rfl⟩

/-- A checkpoint of the key is held: one taken before, or the one taken now. -/
theorem exists_ckpt_takeCkpt (q : SeqSt) {key : Nat} (h : key ≤ 65535) : ∃ k ∈ (q.takeCkpt key).ckpts, k.key.toNat = key := by
  unfold SeqSt.takeCkpt
  split
  · next hany =>
    obtain ⟨k, hk, he⟩ := List.any_eq_true.mp hany
    exact ⟨k, hk, eq_of_beq he⟩
  · refine ⟨q.mkCkpt key, by simp, ?_⟩
    rw [SeqSt.mkCkpt, BitVec.toNat_ofNat]
    omega

theorem contains_addKey (l : List Nat) (k : Nat) : (addKey l k).contains k = true := by
  unfold addKey
  split
  · assumption
  · simp

/-! ## The binding (R446, R452, R453) -/

/-- The sequencer under a descriptor that it has just bound, before LYR issues. -/
def SeqSt.binding (q : SeqSt) (live : List Bound) (b : Bound) (ord : Nat) : SeqSt :=
  let q := q.takeCkpt ord
  { q with
    bound := live ++ [b], epoch := if q.epoch < b.ord then b.ord else q.epoch, part1 := none, invOrd := b.ord,
    invLix := BitVec.ofNat 10 (LayerDesc.lix b.desc), invWide := b.widened, rerun := b.rerun }

theorem binding_frame (q : SeqSt) (live : List Bound) (b : Bound) (ord : Nat) :
    (q.binding live b ord).pc = q.pc ∧ (q.binding live b ord).epoch = (if q.epoch < b.ord then b.ord else q.epoch) ∧
    (q.binding live b ord).bound.getLast? = some b := by
  obtain ⟨l, h⟩ := takeCkpt_frame q ord
  simp [SeqSt.binding, h]

/-- A binding puts its descriptor last in the sequencer and the core into the invocation, gates the engines and issues. -/
theorem bind_course (s : State) (c : CoreId) (d : LayerDesc) (ord : Nat) : ∃ (live : List Bound) (b : Bound) (v : State) (m : Nat),
    s.bind c d ord = (v.gateEngines c d m).issued c ∧ v.seqAt c = (s.seqAt c).binding live b ord ∧
    (v.invAt ord).cores.contains c.num = true ∧ b.ord = BitVec.ofNat 16 ord ∧ b.desc = d ∧ b.seed = (s.seqAt c).seed := by
  unfold State.bind
  extract_lets f q o b live s1 s2
  have hseq : s2.seqAt c = (s.seqAt c).binding live b ord := State.seqAt_modSeq s c (fun q => q.binding live b ord)
  have hinv : (s2.invAt ord).cores.contains c.num = true := by
    rw [State.invAt_modInv]
    exact contains_addKey _ _
  exact ⟨live, b, s2, f.form.pmode, rfl, hseq, hinv, rfl, rfl, rfl⟩

/-- What a binding leaves: the descriptor under its ordinal and seed, the epoch, the checkpoint, PC and the invocation's cores. -/
theorem bind_at (s : State) (c : CoreId) (d : LayerDesc) {ord : Nat} (h : ord ≤ 65535) : ∃ (x : SeqSt) (b : Bound),
    (s.bind c d ord).seqAt c = x ∧ x.bound.getLast? = some b ∧ b.ord = BitVec.ofNat 16 ord ∧ b.desc = d ∧
    b.seed = (s.seqAt c).seed ∧
    x.epoch = (if (s.seqAt c).epoch < BitVec.ofNat 16 ord then BitVec.ofNat 16 ord else (s.seqAt c).epoch) ∧
    (∃ k ∈ x.ckpts, k.key.toNat = ord) ∧ x.pc = (s.seqAt c).pc + 1 ∧ x.state = 1 ∧
    ((s.bind c d ord).invAt ord).cores.contains c.num = true := by
  obtain ⟨live, b, v, m, hbind, hv, hinv, hord, hdesc, hseed⟩ := bind_course s c d ord
  obtain ⟨t, ht, hframe, _, x, hx, hpc, hstate, _, _, _, _, hepoch, _, hckpts, hbound, _⟩ := issued_at (v.gateEngines c d m) c
  obtain ⟨hbpc, hbepoch, hblast⟩ := binding_frame (s.seqAt c) live b ord
  rw [seqAt_gateEngines, hv] at hpc hepoch hckpts hbound
  have hprec : t.prec = v.prec := by rw [hframe, prec_gateEngines]
  have hcores : (t.invAt ord).cores.contains c.num = true := by rw [State.invAt, hprec]; exact hinv
  rw [hbind, ht]
  refine ⟨x, b, hx, by rw [hbound, hblast], hord, hdesc, hseed, by rw [hepoch, hbepoch, hord], ?_, by rw [hpc, hbpc], hstate, hcores⟩
  rw [hckpts]
  exact exists_ckpt_takeCkpt _ h

/-! ## LYR (R421, R427, R454, R463, R464) -/

/-- LYR once the scoreboard has let it go: it reads the descriptor, checks it, ends the bound one and binds. -/
def State.lyrBinds (u : State) (c : CoreId) (a ord : Nat) : State :=
  let r := u.workRead a 256
  let d : LayerDesc := BitVec.ofNat 2048 (leNat (u.peek a 256))
  if !r.1 then r.2
  else if !d.checkOk then r.2.seqStop c 0x2111 1
  else (r.2.endBound c).bind c d ord

section
variable {s : State} {c : CoreId} {w : DWord} {a ord : Nat}

/-- LYR asks for reach, a right ordinal, a free descriptor, a free checkpoint and the scoreboard, in this order. -/
theorem exec_lyr (hissue : s.issues c 11 = true) (hw : (s.seqAt c).word = w)
    (ha : a = clusterAddr c ((s.seqAt c).sreg (fA w) + bitsOf w 31 16 * 256) 256)
    (hord : ord = ((s.seqAt c).sreg (fB w) + bitsOf w 15 0) % 2 ^ 32) : exec (.lyr c) s = .next (
      if !s.coreReach c a then s.reachFault c
      else if ord = 0 ∨ 65535 < ord ∨ ord < (s.seqAt c).epoch.toNat then s.seqStop c 0x2112 2
      else if 4 ≤ (s.liveBounds c).length then s.waitAt c seqWaitDesc
      else if (s.seqAt c).ckptFull ord then s.waitAt c seqWaitCkpt
      else s.withSb c [] [] (s.sbRange a 256) (fun u => u.lyrBinds c a ord)) := by
  subst hw ha hord
  show execLyr c s = _
  rw [execLyr, runSeq_issues hissue]
  rfl

theorem lyrBinds_stops {u : State} (hread : (u.workRead a 256).1 = true)
    (hbad : LayerDesc.checkOk (BitVec.ofNat 2048 (leNat (u.peek a 256))) = false) :
    u.lyrBinds c a ord = (u.workRead a 256).2.seqStop c 0x2111 1 := by
  simp only [State.lyrBinds, ite_not_of_true hread, ite_not_of_false hbad]

theorem lyrBinds_binds {u : State} (hread : (u.workRead a 256).1 = true)
    (hok : LayerDesc.checkOk (BitVec.ofNat 2048 (leNat (u.peek a 256))) = true) :
    u.lyrBinds c a ord = ((u.workRead a 256).2.endBound c).bind c (BitVec.ofNat 2048 (leNat (u.peek a 256))) ord := by
  simp only [State.lyrBinds, ite_not_of_true hread, ite_not_of_true hok]

/-- The sequencer that LYR binds under is the one that issued it, but for the entries of its bound descriptors. -/
theorem seqAt_endBound_workRead {u : State} (hread : (u.workRead a 256).1 = true) :
    ∃ l, ((u.workRead a 256).2.endBound c).seqAt c = { u.seqAt c with bound := l } := by
  obtain ⟨l, hl⟩ := seqAt_endBound (u.workRead a 256).2 c
  refine ⟨l, hl.trans ?_⟩
  simp only [State.seqAt, State.coreAt, (workRead_read hread).core]

end

/-! ## END (R337, R421) -/

/-- EU's unfinished refresh checks are counted and leave its queue. -/
def State.abandonsChecks (v : State) (c : CoreId) : State :=
  let n := ((v.coreAt c).euQ.filter (fun e => e.kind == 3)).length
  (v.modSparse c (fun x => { x with deltaChkSkip := bump x.deltaChkSkip n })).modCore c
    (fun k => { k with euQ := k.euQ.filter (fun e => e.kind != 3) })

theorem kind_abandonsChecks {v : State} {c : CoreId} {e : EuOp} (he : e ∈ ((v.abandonsChecks c).coreAt c).euQ) : e.kind ≠ 3 := by
  rw [State.abandonsChecks, State.coreAt_modCore] at he
  simpa using (List.mem_filter.mp he).2

theorem euQ_issued (s : State) (c : CoreId) : ((s.issued c).coreAt c).euQ = (s.coreAt c).euQ := by
  obtain ⟨t, rfl, _, _, x, _, _, _, _, _, _, _, _, _, _, _, _, hcore⟩ := issued_at s c
  rw [hcore]

section
variable {s : State} {c : CoreId} (hissue : s.issues c 1 = true)
include hissue

theorem exec_seqEnd_busy (hbusy : s.allDone c = false) :
    exec (.seqEnd c) s = .next (s.modSeq c (fun x => { x with state := 5 })) := by
  show execSeqEnd c s = _
  rw [execSeqEnd, runSeq_issues hissue, ite_not_of_false hbusy]
  rfl

theorem exec_seqEnd_done (hdone : s.allDone c = true) : exec (.seqEnd c) s = .next
    ((((s.endBound c).abandonsChecks c).issued c).modSeq c (fun q => { q with state := 0, pc := 0, ended := true })) := by
  show execSeqEnd c s = _
  rw [execSeqEnd, runSeq_issues hissue, ite_not_of_true hdone]
  rfl

end

/-! ## The obligation -/

/-- Settles O38: LYR by the answer to each of its questions and the course of a binding, END by whether the core's work is done. -/
theorem bindAndEnd : Obligations.BindAndEnd := by
  intro c s q w hq hw
  subst hq
  refine ⟨fun hissue a ord hord ha => ?lyr, fun hissue => ⟨exec_seqEnd_busy hissue, fun hdone => ?done⟩⟩
  case lyr =>
    rw [exec_lyr hissue hw ha hord]
    refine ⟨fun hfar => by rw [ite_not_of_false hfar], fun hreach hbad => by rw [ite_not_of_true hreach, if_pos hbad],
      fun hreach hpos htop hepoch => ?_⟩
    have hgood : ¬(ord = 0 ∨ 65535 < ord ∨ ord < (s.seqAt c).epoch.toNat) := by omega
    rw [ite_not_of_true hreach, if_neg hgood]
    refine ⟨fun hfull => by rw [if_pos hfull]; rfl, fun hroom hfull => by rw [if_neg (by omega), if_pos hfull]; rfl,
      fun hroom hckpt hheld => ?_, fun hroom hckpt hfree u d hu hd hread => ?_⟩ <;>
      rw [if_neg (by omega), if_neg (by simp [hckpt])]
    · rw [withSb_held _ hheld]
    · rw [withSb_free _ hfree, ← hu]
      subst hd
      refine ⟨fun hbad => by rw [lyrBinds_stops hread hbad], fun hok => ?_⟩
      obtain ⟨l, hl⟩ := seqAt_endBound_workRead (c := c) hread
      rw [hu, seqAt_sbEnter, ← hu] at hl
      obtain ⟨x, b, hx, hlast, hbord, hdesc, hseed, hxepoch, hkey, hpc, hstate, hcores⟩ :=
        bind_at ((u.workRead a 256).2.endBound c) c (BitVec.ofNat 2048 (leNat (u.peek a 256))) htop
      rw [hl] at hseed hxepoch hpc
      rw [lyrBinds_binds hread hok]
      refine ⟨_, b, rfl, ?_⟩
      rw [hx]
      exact ⟨hlast, hbord, hdesc, hseed, hxepoch, hkey, hpc, hstate, hcores⟩
  case done =>
    refine ⟨_, exec_seqEnd_done hissue hdone, ?_⟩
    rw [State.seqAt_modSeq]
    refine ⟨rfl, rfl, rfl, fun e he => ?_⟩
    rw [State.modSeq, State.coreAt_modCore, euQ_issued] at he
    exact kind_abandonsChecks he

end Sys2Proof.Machine
end
section
/-! The form of device memory (08, R395; log 13): what one step is, and that it keeps the form. -/

namespace Sys2Proof.Machine

/-- A step that goes on idles with an empty queue, or is the front command's effect with the rest of the queue (log 1). -/
theorem step_next_cases {s t : State} (h : step s = .next t) :
    t = s ∨ ∃ (c : Instr) (rest : List Instr), s.pending = c :: rest ∧ exec c { s with pending := rest } = .next t := by
  unfold step at h
  split at h
  · cases h
    exact .inl rfl
  · next c rest hp => exact .inr ⟨c, rest, hp, h⟩

/-- Settles O3: an idle step changes nothing, and every command keeps memory's form (`exec_keeps`). -/
theorem memoryFormKept : Obligations.MemoryFormKept := by
  intro s t hform hstep
  rcases step_next_cases hstep with rfl | ⟨c, rest, -, hexec⟩
  · exact hform
  · exact (exec_keeps hexec).mem hform

end Sys2Proof.Machine
end

section
/-! Scalar instructions (09, R406, R407, R411, R418, R421 to R423; 08, R362, R363, R378): the S registers, what LDI, ALU and TADD write,
and the course that LDS and TLD share with STS. -/

namespace Sys2Proof.Machine

/-! ## S registers (R406) -/

theorem sreg_zero (q : SeqSt) : q.sreg 0 = 0 := rfl

theorem setS_zero (q : SeqSt) (v : Nat) : q.setS 0 v = q := rfl

theorem sreg_setS {q : SeqSt} (hform : Tab.wf (0 : Word) q.s = true) {i : Nat} (hi : i ≠ 0) (v j : Nat) :
    (q.setS i v).sreg j = if j = i then v % 2 ^ 32 else q.sreg j := by
  simp only [SeqSt.setS, SeqSt.sreg, if_neg hi, tab_get_set 0 q.s i j (word v) hform]
  by_cases hj : j = i
  · simp [hj, hi, word]
  · simp [hj]

/-! ## The value of LDI (R423) -/

section
variable {s : State} {c : CoreId} {w : DWord}

theorem ldiValue_imm (hfn : fFN w = 0 ∨ fFN w = 1) : s.ldiValue c w = fIMM w := by
  rcases hfn with hfn | hfn <;> simp only [State.ldiValue, hfn]

theorem ldiValue_tick (hfn : fFN w = 2) : s.ldiValue c w = s.tick.count.toNat % 2 ^ 32 := by
  simp only [State.ldiValue, hfn]

theorem ldiValue_place (hfn : fFN w = 3) : s.ldiValue c w = c.die.val * 2 ^ 14 + c.cl.val * 2 ^ 10 + c.core.val * 2 ^ 6 := by
  simp only [State.ldiValue, hfn, posOf, Nat.zero_mod, Nat.add_zero]

theorem ldiValue_form (hfn : fFN w = 4) {b : Bound} (hb : (s.seqAt c).bound.getLast? = some b) : s.ldiValue c w =
    bitAt b.rerun 0 + bitAt (s.layerAt (LayerDesc.lix b.desc)).sticky 1 + b.aw.toNat * 4 + b.wpl.toNat * 128 + bitAt b.fast 12 := by
  simp only [State.ldiValue, hfn, SeqSt.last, hb, formWord]

end

section
variable {s : State} {c : CoreId} {w : DWord} (hw : (s.seqAt c).word = w)
include hw

/-! ## LDI, ALU, TADD (R421 to R423) -/

theorem exec_ldi (hissue : s.issues c 5 = true) : exec (.ldi c) s = .next ((s.issued c).modSeq c (fun q =>
    if fFN w = 1 then { q with l := Tab.set 0 q.l (fD w % 8) (word (s.ldiValue c w)) } else q.setS (fD w) (s.ldiValue c w))) := by
  subst hw
  exact congrArg Host.Outcome.next (runSeq_issues hissue)

/-- Every form of LDI but the second writes S. -/
theorem exec_ldi_S (hissue : s.issues c 5 = true) (hfn : fFN w ≠ 1) :
    exec (.ldi c) s = .next ((s.issued c).modSeq c (fun q => q.setS (fD w) (s.ldiValue c w))) := by
  simp only [exec_ldi hw hissue, if_neg hfn]

theorem exec_alu (hissue : s.issues c 6 = true) : exec (.alu c) s = .next ((s.issued c).modSeq c (fun q =>
    q.setS (fD w) (aluValue (fFN w) ((s.seqAt c).sreg (fA w)) (if fI w then fIMM w else (s.seqAt c).sreg (fB w))))) := by
  subst hw
  exact congrArg Host.Outcome.next (runSeq_issues hissue)

theorem exec_tadd (hissue : s.issues c 10 = true) {t : TileDesc} (ht : t = (s.seqAt c).treg (fD w % 16)) :
    exec (.tadd c) s = .next ((s.issued c).modSeq c (fun q => q.setT (fD w % 16) (t.setAddr
      (unsigned 44 ((t.addr : Int) + ((s.seqAt c).sreg (fA w) : Int) + signed 32 (fIMM w) * t.stride))))) := by
  subst hw ht
  exact congrArg Host.Outcome.next (runSeq_issues hissue)

end

/-! ## LDS, TLD, STS (R362, R363, R378, R411, R418) -/

/-- What LDS and TLD do at an address: beyond reach they fault, while the scoreboard holds the word they wait, and then they issue
and, where the word is delivered, put its value in place by `f`. -/
def State.seqLoad (s : State) (c : CoreId) (a g : Nat) (f : Nat → SeqSt → SeqSt) : State :=
  if !s.coreReach c a then s.reachFault c
  else s.withSb c [] [] (s.sbRange a g) fun u =>
    let r := u.workRead a g
    if r.1 then (r.2.issued c).modSeq c (f (leNat (u.peek a g))) else r.2.issued c

section
variable {s : State} {c : CoreId} {a g : Nat} {f : Nat → SeqSt → SeqSt}

/-- An instruction whose course is `seqLoad`: what it does with the word delivered, with the word held, and beyond reach. -/
theorem exec_seqLoad {i : Instr} (hexec : exec i s = .next (s.seqLoad c a g f)) (u : State) :
    (s.coreReach c a = true → (s.coreAt c).sbFree [] [] (s.sbRange a g) = true → u = s.sbEnter c [] [] → (u.workRead a g).1 = true →
      exec i s = .next (((u.workRead a g).2.issued c).modSeq c (f (leNat (u.peek a g))))) ∧
    (s.coreReach c a = true → (s.coreAt c).sbFree [] [] (s.sbRange a g) = false →
      exec i s = .next (s.modSeq c (fun x => { x with state := 4 }))) ∧
    (s.coreReach c a = false → exec i s = .next (s.reachFault c)) := by
  rw [hexec, State.seqLoad]
  refine ⟨fun hreach hfree hu hread => ?_, fun hreach hheld => ?_, fun hfar => ?_⟩
  · rw [ite_not_of_true hreach, withSb_free _ hfree, ← hu]
    exact congrArg Host.Outcome.next (if_pos hread)
  · rw [ite_not_of_true hreach, withSb_held _ hheld]
  · rw [ite_not_of_false hfar]

section
variable {w : DWord} (hw : (s.seqAt c).word = w)
include hw

theorem exec_lds (hissue : s.issues c 7 = true) (ha : a = clusterAddr c ((s.seqAt c).sreg (fA w) + fIMM w) 4) :
    exec (.lds c) s = .next (s.seqLoad c a 4 (fun v q => q.setS (fD w) v)) := by
  subst hw ha
  exact congrArg Host.Outcome.next (runSeq_issues hissue)

theorem exec_tld (hissue : s.issues c 9 = true) (ha : a = clusterAddr c ((s.seqAt c).sreg (fA w) + fIMM w) 32) :
    exec (.tld c) s = .next (s.seqLoad c a 32 (fun v q => q.setT (fD w % 16) (BitVec.ofNat 256 v))) := by
  subst hw ha
  exact congrArg Host.Outcome.next (runSeq_issues hissue)

theorem exec_sts (hissue : s.issues c 8 = true) (ha : a = clusterAddr c ((s.seqAt c).sreg (fA w) + fIMM w) 4) :
    exec (.sts c) s = .next (
      if !s.coreReach c a then s.reachFault c
      else s.withSb c (s.sbRange a 4) [] [] fun u => (u.writeDev a (leBytes 4 ((u.seqAt c).sreg (fB w)))).issued c) := by
  subst hw ha
  exact congrArg Host.Outcome.next (runSeq_issues hissue)

end

end

/-! ## The obligation -/

/-- Settles O37: S registers by reading after writing, the instructions by what each writes and by the course of a load or store. -/
theorem scalarInstructions : Obligations.ScalarInstructions := by
  refine ⟨fun q i v => ⟨sreg_zero q, setS_zero q v, fun hi hform => ?sregs⟩, fun c s q w hq hw => ?instructions⟩
  case sregs => exact ⟨by rw [sreg_setS hform hi, if_pos rfl], fun j hj => by rw [sreg_setS hform hi, if_neg hj]⟩
  case instructions =>
    subst hq
    refine ⟨fun hissue => ?ldi, fun hissue a b ha hb => ?alu, fun hissue t ht => exec_tadd hw hissue ht, fun g a ha r u hr => ?memory⟩
    case ldi =>
      refine ⟨fun hfn => ?_, fun hfn => ?_, fun hfn => ?_, fun hfn => ?_, fun hfn b hb => ?_⟩
      · rw [exec_ldi_S hw hissue (by omega), ldiValue_imm (.inl hfn)]
      · simp only [exec_ldi hw hissue, if_pos hfn, ldiValue_imm (.inr hfn)]
      · rw [exec_ldi_S hw hissue (by omega), ldiValue_tick hfn]
      · rw [exec_ldi_S hw hissue (by omega), ldiValue_place hfn]
      · rw [exec_ldi_S hw hissue (by omega), ldiValue_form hfn hb]
    case alu =>
      subst ha hb
      intro e he hfn
      have hvalue : aluValue e.1 ((s.seqAt c).sreg (fA w)) (if fI w then fIMM w else (s.seqAt c).sreg (fB w)) = e.2 := by
        simp only [List.mem_cons, List.not_mem_nil, or_false] at he
        rcases he with rfl | rfl | rfl | rfl | rfl | rfl | rfl | rfl | rfl | rfl | rfl | rfl | rfl <;> rfl
      rw [exec_alu hw hissue, hfn, hvalue]
    case memory =>
      subst hr
      refine ⟨fun hissue hg => ?lds, fun hissue hg => ?sts, fun hissue hg => ?tld⟩ <;> subst hg
      case lds => exact exec_seqLoad (exec_lds hw hissue ha) u
      case tld => exact exec_seqLoad (exec_tld hw hissue ha) u
      case sts =>
        rw [exec_sts hw hissue ha]
        refine ⟨fun hreach hfree hu => ?_, fun hreach hheld => ?_, fun hfar => ?_⟩
        · rw [ite_not_of_true hreach, withSb_free _ hfree, ← hu]
          exact ⟨rfl, by rw [hu, seqAt_sbEnter]⟩
        · rw [ite_not_of_true hreach, withSb_held _ hheld]
        · rw [ite_not_of_false hfar]

end Sys2Proof.Machine
end

section
/-! Pushes, releases, PUSH, POP and the resumption of producers and consumers (08, R366 to R370, R374 to R377, R384 to R386, R798,
R800; 09, R433, R434). -/

namespace Sys2Proof.Machine

/-! ## Rings of a core -/

/-- A change of a core that leaves its rings. -/
theorem ringAt_modCore_of_rings (s : State) (c d : CoreId) (q : Nat) {f : CoreSt → CoreSt}
    (h : (f (s.coreAt c)).rings = (s.coreAt c).rings) : (s.modCore c f).ringAt d q = s.ringAt d q := by
  unfold State.ringAt
  rw [coreAt_modCore]
  split
  · next hd => rw [h, hd]
  · rfl

theorem coreAt_modClu (s : State) (n : Nat) (f : CluSt → CluSt) (c : CoreId) : (s.modClu n f).coreAt c = s.coreAt c := rfl

theorem ringAt_modClu (s : State) (n : Nat) (f : CluSt → CluSt) (c : CoreId) (q : Nat) : (s.modClu n f).ringAt c q = s.ringAt c q := rfl

theorem ringAt_of_core_eq {s u : State} (h : u.core = s.core) (c : CoreId) (q : Nat) : u.ringAt c q = s.ringAt c q := by
  unfold State.ringAt State.coreAt
  rw [h]

theorem core_writeDev (s : State) (a : Nat) (l : List Byte) : (s.writeDev a l).core = s.core := by
  rw [(writeDev_only s a l).2]

/-- The bytes of an entry are memory; the ring's pointers stay. -/
theorem ringAt_ringPut (s : State) (c d : CoreId) (q k p : Nat) (l : List Byte) : (s.ringPut c q p l).ringAt d k = s.ringAt d k :=
  ringAt_of_core_eq ((core_writeDev ..).trans (core_writeDev ..)) d k

/-! ## Marks (R384 to R387) -/

/-- A mark that a push or release takes is of its epoch, the tick's parity and the pointers now. -/
theorem mark_of_markStep {r : RingSt} {conf : Nat} {e : BitVec 16} {tp : Bool} {k : RingMark} (h : r.markStep conf e tp = .mark k) :
    k = ⟨e, tp, r.head, r.tail, r.turn⟩ := by
  unfold RingSt.markStep at h
  split at h
  · split at h
    · cases h
    · split at h
      · cases h
      · split at h <;> cases h
        rfl
  · split at h <;> cases h
    rfl

theorem addMark_frame (r : RingSt) (m : MarkStep) : r.addMark m = { r with marks := (r.addMark m).marks } := by
  cases m <;> rfl

theorem settle_frame (r : RingSt) : r.settle = { r with ctail := r.settle.ctail, free := r.settle.free } := by
  unfold RingSt.settle
  split <;> rfl

/-! ## Pushes (R367 to R369, R374 to R376) -/

/-- The ring after an entry of n bytes. -/
def RingSt.pushed (r : RingSt) (m : MarkStep) (n : Nat) : RingSt :=
  ({ r.addMark m with
      tail := r.adv r.tail n, full := false, pwait := false, resv := r.resv.filter (fun i => !(i == r.turn.toNat)),
      turn := if r.nprodM1 = 0 then r.turn else BitVec.ofNat 4 ((r.turn.toNat + 1) % (r.nprodM1.toNat + 1)) }).settle

theorem pushed_frame (r : RingSt) (m : MarkStep) (n : Nat) : ∃ ctail free, r.pushed m n = { r with
    tail := r.adv r.tail n, full := false, pwait := false, resv := r.resv.filter (fun i => !(i == r.turn.toNat)),
    turn := if r.nprodM1 = 0 then r.turn else BitVec.ofNat 4 ((r.turn.toNat + 1) % (r.nprodM1.toNat + 1)),
    marks := (r.addMark m).marks, ctail := ctail, free := free } := by
  rw [RingSt.pushed, settle_frame, addMark_frame]
  exact ⟨_, _, rfl⟩

section
variable {s : State} {c : CoreId} {q : Nat} {p : Producer} {e : BitVec 16} {l : List Byte} {r : RingSt} {m : MarkStep} (hr : r = s.ringAt c q)
  (hm : m = r.markStep (s.coreAt c).conf e (s.tick.count.getLsbD 0))
include hr hm

/-- A push asks for its turn, for its mark and for room, in this order. -/
theorem pushBytes_course : s.pushBytes c q p e l =
    if !s.hasTurn c q p then .wait (s.modRing c q (fun r => r.queueResv (s.producerIndex c q p)))
    else if m = .wait then .wait (s.modRing c q (fun r => { r with pwait := true }))
    else if r.fullFor l.length then .wait (s.modRing c q (fun r => { r with full := true }))
    else .done ((s.ringPut c q r.tail l).modRing c q (fun r => r.pushed m l.length)) := by
  subst hr hm
  rfl

theorem pushBytes_done (hturn : s.hasTurn c q p = true) (hmark : m ≠ .wait) (hroom : r.fullFor l.length = false) :
    ∃ t : State, s.pushBytes c q p e l = .done t ∧ t.ringAt c q = r.pushed m l.length ∧ t.mem = (s.ringPut c q r.tail l).mem := by
  rw [pushBytes_course hr hm, ite_not_of_true hturn, if_neg hmark, if_neg (by simp [hroom])]
  refine ⟨_, rfl, ?_, rfl⟩
  rw [State.ringAt_modRing, ringAt_ringPut, ← hr]

/-! ## Releases (R370) -/

/-- A release asks for readable bytes and for its mark, in this order. -/
theorem releaseBytes_course (n : Nat) : s.releaseBytes c q e n =
    if r.readable < n then .wait s
    else if m = .wait then .wait (s.modRing c q (fun r => { r with cwait := true }))
    else .done (s.modRing c q (fun r => ({ r.addMark m with head := r.adv r.head n, cwait := false }).settle)) := by
  subst hr hm
  rfl

theorem releaseBytes_done {n : Nat} (hread : n ≤ r.readable) (hmark : m ≠ .wait) : ∃ (t : State) (x : RingSt),
    s.releaseBytes c q e n = .done t ∧ t.ringAt c q = x ∧ x.head = r.adv r.head n ∧ x.tail = r.tail ∧ t = { s with core := t.core } := by
  rw [releaseBytes_course hr hm, if_neg (by omega), if_neg hmark]
  refine ⟨_, _, rfl, State.ringAt_modRing .., ?_, ?_, rfl⟩ <;> rw [settle_frame, addMark_frame, ← hr]

end

/-! ## PUSH (R433, R798) -/

section
variable {s : State} {c : CoreId} {w : DWord} (hw : (s.seqAt c).word = w)
include hw

/-- The move that PUSH queues. -/
def State.pushOp (s : State) (c : CoreId) (w : DWord) (d : CoreId) (q : Nat) (l : List Byte) : DmaOp :=
  ⟨0x24, .core c.num, (s.seqAt c).lastOrd, 0, (s.seqAt c).epoch, some (d.num, q), BitVec.ofNat 4 (bitsOf w 47 44), l, false, none, false, false⟩

/-- PUSH asks for its ring, its reach, room in its queue and the scoreboard, in this order; then its bytes enter the queue. -/
theorem exec_push (hissue : s.issues c 0x24 = true) {td ts : TileDesc} {d : CoreId} {n : Nat} {x : Source} {src : TileSrc}
    (htd : td = (s.seqAt c).treg (bitsOf w 55 52)) (hts : ts = (s.seqAt c).treg (bitsOf w 51 48)) (hd : d = s.ringOwner c td)
    (hx : s.source c ts = x) (hsrc : x.tile = some src)
    (hn : n = (if (s.ringAt d td.q).esize = 0 then s.moveLen c (bitsOf w 43 39) 8 ts else (s.ringAt d td.q).esize.toNat * 8)) :
    exec (.push c) s = .next (
      if !(s.ringAt d td.q).en then s.ringFault d td.q
      else if !ts.ring && !s.coreReach c ts.addr then s.reachFault c
      else if !s.moveRoom c false then s.waitAt c seqWaitQueue
      else s.withSb c [] [] (s.sourceRange x n) fun v =>
        v.withRead c x n fun u => u.queueMove c false (s.pushOp c w d td.q (v.sourceBytes x n))) := by
  show execPush c s = _
  subst hw htd hts hd hn
  rcases source_of_tile hsrc with ⟨a, rfl⟩ | ⟨d, q, p, len, rfl⟩ <;>
  · simp only [execPush, runSeq_issues hissue, hx]
    rfl

/-! ## POP (R434) -/

/-- What POP does with the bytes of the entries that it names: a bad frame faults, an entry that is not there yet makes it wait, and
otherwise it releases them. -/
def State.popFound (s : State) (c : CoreId) (q : Nat) : Option (Option Nat) → State
  | none => s.ringFault c q
  | some none => s.waitAt c seqWaitRing
  | some (some k) =>
    match s.releaseBytes c q (s.seqAt c).epoch k with
    | .done t => t.issued c
    | .wait t => t.waitAt c seqWaitRing

/-- POP asks whether its ring is enabled, whether issued work reads it, and whether its entries are there, in this order. -/
theorem exec_pop (hissue : s.issues c 0x25 = true) {q n : Nat} {r : RingSt} (hq : q = bitsOf w 55 52) (hr : r = s.ringAt c q)
    (hn : n = ((s.seqAt c).sreg (bitsOf w 51 47) + fIMM w) % 2 ^ 32) : exec (.pop c) s = .next (
      if !r.en then s.ringFault c q
      else if (s.coreAt c).readsRing q ∨ r.stopped then s.waitAt c seqWaitRing
      else if r.readable < n * 8 ∧ n * 8 ≠ 0 then s.waitAt c seqWaitRing
      else s.popFound c q (s.entriesBytes c q r.head r.readable n)) := by
  show execPop c s = _
  subst hw hr hq hn
  simp only [execPop, runSeq_issues hissue]
  rfl

end

/-! ## PUSH_RESUME (R368, R800) -/

section
variable {s : State} {c : CoreId}

theorem exec_pushResume_idle (hheld : s.pushHeld c = false) : exec (.pushResume c) s = .next s :=
  congrArg Host.Outcome.next (ite_not_of_false hheld ..)

theorem retryMoves_nil (s : State) : s.retryMoves [] = ([], s) := rfl

theorem cluAt_modCore (s : State) (c : CoreId) (f : CoreSt → CoreSt) (n : Nat) : (s.modCore c f).cluAt n = s.cluAt n := rfl

theorem lnkAt_modCore (s : State) (c : CoreId) (f : CoreSt → CoreSt) (p : Nat) : (s.modCore c f).lnkAt p = s.lnkAt p := rfl

theorem lnkAt_modClu (s : State) (n : Nat) (f : CluSt → CluSt) (p : Nat) : (s.modClu n f).lnkAt p = s.lnkAt p := rfl

/-- A fold whose every step leaves the state leaves it. -/
theorem foldl_idle {α : Type} {f : State → α → State} {z : State} (h : ∀ x, f z x = z) : ∀ l : List α, l.foldl f z = z
  | [] => rfl
  | x :: l => by rw [List.foldl_cons, h x, foldl_idle h l]

/-- Where nothing but the core DMA holds back a push, PUSH_RESUME is its queue's retry. -/
theorem exec_pushResume_core_dma (hheld : s.pushHeld c = true) {l : List DmaOp} {u : State} (hretry : s.retryMoves (s.coreAt c).dmaQ = (l, u))
    (hdie : (u.coreAt c).dieQ = []) (hout : (u.coreAt c).convOut = []) (hconv : (u.coreAt c).convQ = [])
    (htree : (u.cluAt c.cluster.num).waiting = []) (hlinks : ∀ p, (u.lnkAt p).stalled = []) :
    exec (.pushResume c) s = .next ((((u.modCore c (fun k => { k with dmaQ := l })).modCore c (fun k => { k with dieQ := [] })).modCore c
      (fun k => { k with convOut := [] })).modClu c.cluster.num (fun k => { k with waiting := [] })) := by
  show execPushResume c s = _
  simp only [execPushResume, ite_not_of_true hheld, hretry, State.coreAt_modCore, hdie, hout, hconv, retryMoves_nil, List.filter_nil,
    List.foldl_nil, State.retryCluster, cluAt_modCore, htree]
  refine congrArg Host.Outcome.next (foldl_idle (fun p => ?_) _)
  simp only [lnkAt_modClu, lnkAt_modCore, hlinks]

section
variable {o : DmaOp}

theorem retryMoves_free (hfree : o.blocked = false) (l : List DmaOp) :
    s.retryMoves (o :: l) = (o :: (s.retryMoves l).1, (s.retryMoves l).2) := ite_not_of_false hfree ..

variable (hblocked : o.blocked = true) {r : DmaOp × State} (hr : r = s.pushMove { o with blocked := false } (o.bytes.length + 1))
include hblocked hr

/-- A move that stays blocked holds back the moves behind it. -/
theorem retryMoves_stays_blocked (hstill : r.1.blocked = true) (l : List DmaOp) : s.retryMoves (o :: l) = (r.1 :: l, r.2) := by
  subst hr
  exact (ite_not_of_true hblocked ..).trans (if_pos hstill)

theorem retryMoves_goes_on (hdone : r.1.blocked = false) (l : List DmaOp) :
    s.retryMoves (o :: l) = (r.1 :: (r.2.retryMoves l).1, (r.2.retryMoves l).2) := by
  subst hr
  exact (ite_not_of_true hblocked ..).trans (if_neg (by simp [hdone]))

end

/-! ## CONSUMER_RESUME (R800) -/

theorem exec_consumerResume_goes (hwait : (s.seqAt c).state = 6) (hgoes : ((s.reissue c).seqAt c).state ≠ 6) :
    exec (.consumerResume c) s = .next (s.drawWord.2.modSeq c (fun q => { q with state := seqRun, rwait := q.rwait + s.drawWord.1 })) :=
  congrArg Host.Outcome.next (if_pos ⟨hwait, hgoes⟩)

theorem exec_consumerResume_idle (h : (s.seqAt c).state ≠ 6 ∨ ((s.reissue c).seqAt c).state = 6) :
    exec (.consumerResume c) s = .next s :=
  congrArg Host.Outcome.next (if_neg (fun hgo => h.elim (absurd hgo.1) (fun hstill => hgo.2 hstill)))

end

/-! ## The obligation -/

/-- Settles O41: pushes and releases by their questions in order, PUSH and POP likewise, the resumptions by what is tried again. -/
theorem ringInstructions : Obligations.RingInstructions := by
  refine ⟨fun s c q p e l r m hr hm => ⟨fun hturn hmark hroom => ?push, fun hturn => ?noTurn, fun hturn hmark => ?pushMark,
      fun hturn hmark hfull => ?full, fun n => ⟨fun hshort => ?short, fun hread hmark => ?releaseMark, releaseBytes_done hr hm⟩⟩,
    fun c s w hw => ⟨fun hissue td ts d n x src htd hts hd hx hsrc hn => ?pushInstr, fun hissue q n r hq hr hn => ?pop,
      exec_pushResume_idle, fun hheld l u hretry hdie hout hconv htree hlinks => ?resume,
      fun o l => ⟨retryMoves_nil s, fun hfree => retryMoves_free hfree l, fun hblocked r hr =>
        ⟨fun hstill => retryMoves_stays_blocked hblocked hr hstill l, fun hdone => retryMoves_goes_on hblocked hr hdone l⟩⟩,
      fun hwait hgoes => ⟨_, exec_consumerResume_goes hwait hgoes, ?_, ?_⟩, exec_consumerResume_idle, fun i => rfl⟩⟩
  case push =>
    obtain ⟨t, hdone, hring, hmem⟩ := pushBytes_done (p := p) (l := l) hr hm hturn hmark hroom
    obtain ⟨ctail, free, hpushed⟩ := pushed_frame r m l.length
    refine ⟨t, _, hdone, hring.trans hpushed, rfl, rfl, rfl, rfl, fun hmany => if_neg hmany, fun k hk => ?_, fun hplain => ?_, hmem⟩
    · rw [hk]
      exact ⟨rfl, mark_of_markStep (hm.symm.trans hk)⟩
    · rw [hplain]
      rfl
  case noTurn => rw [pushBytes_course hr hm, ite_not_of_false hturn]
  case pushMark => rw [pushBytes_course hr hm, ite_not_of_true hturn, if_pos hmark]
  case full => rw [pushBytes_course hr hm, ite_not_of_true hturn, if_neg hmark, if_pos hfull]
  case short => rw [releaseBytes_course hr hm, if_pos hshort]
  case releaseMark => rw [releaseBytes_course hr hm, if_neg (by omega), if_pos hmark]
  case pushInstr =>
    rw [exec_push hw hissue htd hts hd hx hsrc hn]
    refine ⟨fun hoff => by rw [ite_not_of_false hoff], fun hen hmem hfar => ?_, fun hen hreach => ?_⟩ <;> rw [ite_not_of_true hen]
    · rw [if_pos (by simp [hmem, hfar])]
    · rw [if_neg (by simpa using hreach)]
      refine ⟨fun hfull => by rw [ite_not_of_false hfull]; rfl, fun hroom rd hrd => ?_⟩
      subst hrd
      rw [ite_not_of_true hroom]
      refine ⟨fun hheld => by rw [withSb_held _ hheld], fun hfree u v hv hread hlive => ?_⟩
      rw [withSb_free _ hfree, ← hv, withRead_live _ hread hlive]
      rfl
  case pop =>
    rw [exec_pop hw hissue hq hr hn]
    refine ⟨fun hoff => by rw [ite_not_of_false hoff], fun hen hbusy => ?_, fun hen hfree hruns hthere => ?_⟩ <;> rw [ite_not_of_true hen]
    · rcases hbusy with hreads | hstopped | ⟨hshort, hsome⟩
      · rw [if_pos (.inl hreads)]
        rfl
      · rw [if_pos (.inr hstopped)]
        rfl
      · rw [if_pos (c := r.readable < n * 8 ∧ n * 8 ≠ 0) ⟨hshort, by omega⟩, ite_self]
        rfl
    · rw [if_neg (by simp [hfree, hruns]), if_neg (by omega)]
      refine ⟨fun hbad => by rw [hbad]; rfl, fun hlate => by rw [hlate]; rfl, fun k t hfound => ?_⟩
      rw [hfound]
      exact ⟨fun hdone => by simp only [State.popFound, hdone], fun hwait => by simp only [State.popFound, hwait]; rfl⟩
  case resume =>
    refine ⟨_, exec_pushResume_core_dma hheld hretry hdie hout hconv htree hlinks, ?_, fun d q => ?_⟩
    · rw [coreAt_modClu, State.coreAt_modCore, State.coreAt_modCore, State.coreAt_modCore]
    · rw [ringAt_modClu, ringAt_modCore_of_rings _ _ _ _ rfl, ringAt_modCore_of_rings _ _ _ _ rfl, ringAt_modCore_of_rings _ _ _ _ rfl]
  all_goals
    rw [State.seqAt_modSeq]
    rfl

end Sys2Proof.Machine
end

section
/-! Ring registers, scrubs and the patrol (08, R395, R396, R398, R400, R402). -/

namespace Sys2Proof.Machine

/-! ## Ring registers (R402) -/

theorem ringWrite_ready {s : State} {p : Port} (hp : s.owns p) (hst : s.glb.st = .ready) (c : CoreId) (q : Nat) (f : RingSt → RingSt) :
    s.ringWrite p c q f = s.modRing c q (fun r => (f r).clear) := (ownerOnly_owns hp).trans (if_pos hst)

theorem ringWrite_not_ready {s : State} {p : Port} (hp : s.owns p) (hst : s.glb.st ≠ .ready) (c : CoreId) (q : Nat) (f : RingSt → RingSt) :
    s.ringWrite p c q f = s.raise 0x4143 none none (posOf c 0) := (ownerOnly_owns hp).trans (if_neg hst)

/-! ## Scrubs (R395, R396) -/

theorem execSpmScrub_owns {s : State} {p : Port} (hp : s.owns p) (c : ClusterId) (v : Word) : exec (.spmScrub p c v) s = .next (
    if s.glb.st = .ready ∨ s.glb.st = .safe then s.modClu c.num (fun k => { k with
      scrub := BitVec.ofNat 17 v.toNat, scrubBusy := k.scrubBusy ||| BitVec.ofNat 17 v.toNat })
    else s.raise 0x4143 none none (posOfCluster c)) := congrArg Host.Outcome.next (ownerOnly_owns hp)

/-- The table reads as the default in a cleared range, as before elsewhere. -/
theorem tab_get_clearRange {β : Type} (d : β) (lo n j : Nat) : ∀ t : Tab β,
    Tab.get d (Tab.clearRange t lo n) j = if lo ≤ j ∧ j < lo + n then d else Tab.get d t j
  | [] => by simp [Tab.clearRange, Tab.get]
  | (k, v) :: t => by
    have ih := tab_get_clearRange d lo n j t
    rw [Tab.clearRange] at ih ⊢
    rw [List.filter_cons]
    by_cases hk : lo ≤ k ∧ k < lo + n
    · rw [if_neg (by simp [hk]), ih, Tab.get]
      by_cases hkj : k = j
      · rw [← hkj, if_pos hk, if_pos hk]
      · rw [if_neg hkj]
    · rw [if_pos (by simpa using by omega), Tab.get, Tab.get, ih]
      by_cases hkj : k = j
      · rw [if_pos hkj, if_pos hkj, if_neg (hkj ▸ hk)]
      · rw [if_neg hkj, if_neg hkj]

/-- The rings of a core after the scrub of a region (R395). -/
def CoreSt.clearRings (k : CoreSt) (r : Region) : CoreSt :=
  { k with rings := k.rings.map (fun e => (e.1, if e.2.liesIn r then e.2.clear else e.2)) }

theorem ring_clearRings (k : CoreSt) (r : Region) (q : Nat) : Tab.get .reset (k.clearRings r).rings q =
    if (Tab.get .reset k.rings q).liesIn r then (Tab.get .reset k.rings q).clear else Tab.get .reset k.rings q :=
  tab_get_map (f := fun x : RingSt => if x.liesIn r then x.clear else x) (ite_self _) k.rings q

/-- Clearing the rings of several cores changes cores only. -/
theorem foldl_clearRings_frame (r : Region) : ∀ (l : List CoreId) (s : State), ∃ k,
    l.foldl (fun s c => s.modCore c (fun x => x.clearRings r)) s = { s with core := k }
  | [], s => ⟨s.core, rfl⟩
  | c :: l, s => foldl_clearRings_frame r l (s.modCore c (fun x => x.clearRings r))

/-- Outside the cores a scrub is zeros in the region and no word in error there. -/
theorem zeroRegion_frame (s : State) (r : Region) : ∃ k out, s.zeroRegion r = { s with
      mem := Tab.clearRange s.mem (regionBase r) (regionBytes r), core := k, badOne := s.badOne.filter out, badTwo := s.badTwo.filter out } ∧
    ∀ w, regionBase r / 4 ≤ w → w < (regionBase r + regionBytes r) / 4 → out w = false := by
  obtain ⟨k, hk⟩ := foldl_clearRings_frame r (regionCores r) _
  exact ⟨k, _, hk, fun w hlo hhi => by simp [hlo, hhi]⟩

/-- A ring in a core region that was scrubbed is cleared. -/
theorem ringAt_zeroRegion_core (s : State) (c : CoreId) (q : Nat) : (s.zeroRegion (.core c)).ringAt c q =
    if (s.ringAt c q).loc then s.ringAt c q else (s.ringAt c q).clear := by
  show Tab.get .reset ((State.modCore _ c (fun x => x.clearRings (.core c))).coreAt c).rings q = _
  rw [State.coreAt_modCore, ring_clearRings]
  show (if (!(s.ringAt c q).loc) = true then (s.ringAt c q).clear else s.ringAt c q) = _
  cases (s.ringAt c q).loc <;> rfl

theorem exec_scrubDone_idle {s : State} {r : Region} (h : (s.cluAt (regionClu r).num).scrubBusy.getLsbD (regionBit r) = false) :
    exec (.scrubDone r) s = .next s := congrArg Host.Outcome.next (if_neg (by simp [h]))

theorem exec_scrubDone_busy {s : State} {r : Region} (h : (s.cluAt (regionClu r).num).scrubBusy.getLsbD (regionBit r) = true) :
    exec (.scrubDone r) s = .next ((s.zeroRegion r).modClu (regionClu r).num (fun k => { k with
      scrubBusy := k.scrubBusy &&& ~~~(BitVec.ofNat 17 (2 ^ regionBit r)) })) := congrArg Host.Outcome.next (if_pos h)

/-! ## The patrol (R398, R400) -/

theorem patrolAt_modClu (s : State) (m n : Nat) {f : CluSt → CluSt} (h : ∀ k, (f k).patrolAt = k.patrolAt) :
    ((s.modClu m f).cluAt n).patrolAt = (s.cluAt n).patrolAt := by
  rw [cluAt_modClu]
  split
  · next hn => rw [h, hn]
  · rfl

/-- t comes from s by a read that has corrected the words that `inside` names: the patrol's places are no part of its counts. -/
structure Corrected (inside : Nat → Bool) (s t : State) : Prop where
  badOne : t.badOne = s.badOne.filter (fun w => !inside w)
  patrolAt : ∀ n, (t.cluAt n).patrolAt = (s.cluAt n).patrolAt

section
variable {inside : Nat → Bool} {s t : State}

theorem Corrected.modClu (h : Corrected inside s t) (m : Nat) {f : CluSt → CluSt} (hf : ∀ k, (f k).patrolAt = k.patrolAt) :
    Corrected inside s (t.modClu m f) := ⟨h.badOne, fun n => (patrolAt_modClu t m n hf).trans (h.patrolAt n)⟩

theorem Corrected.raise (h : Corrected inside s t) (code : Nat) (x y : Option Nat) (pos : Nat) :
    Corrected inside s (t.raise code x y pos) :=
  ⟨(raise_badOne ..).trans h.badOne, fun n => (by rw [State.cluAt, raise_clu]; exact h.patrolAt n)⟩

theorem Corrected.injFire (h : Corrected inside s t) : Corrected inside s t.injFire := by
  have harm : ∀ f, Corrected inside s (t.modErr f) := fun _ => ⟨h.badOne, h.patrolAt⟩
  exact (harm _).raise ..

end

/-- The words of a range of n bytes. -/
def wordsOf (a n w : Nat) : Bool := decide (a / 4 ≤ w) && decide (w ≤ (a + n - 1) / 4)

/-- Every read of scratchpad words corrects the words that it reads. -/
theorem readSpm_corrected (s : State) (r : Region) (off n : Nat) (live : Bool) :
    Corrected (wordsOf (regionBase r + off) n) s (s.readSpm r off n live).2 := by
  unfold State.readSpm
  extract_lets a inR ones s1 s2 bad inj at_ s3 s4
  have h1 : Corrected (wordsOf a n) s s1 := ⟨rfl, fun _ => rfl⟩
  have h2 : Corrected (wordsOf a n) s s2 := by
    unfold s2
    split
    · exact h1
    · exact h1.modClu _ fun _ => rfl
  have h3 : Corrected (wordsOf a n) s s3 := h2.modClu _ fun _ => rfl
  have h4 : Corrected (wordsOf a n) s s4 := h3.raise ..
  split
  · exact h2
  · dsimp only
    split
    · exact h4.injFire
    · exact h4

theorem exec_spmPatrolRead_off {s : State} {r : Region} (h : s.glb.st = .off ∨ (s.cluAt (regionClu r).num).patrolEn = false) :
    exec (.spmPatrolRead r) s = .next s := congrArg Host.Outcome.next (if_pos (by simpa using h))

theorem exec_spmPatrolRead_on {s : State} {r : Region} (hst : s.glb.st ≠ .off) (hen : (s.cluAt (regionClu r).num).patrolEn = true) {row : Nat}
    (hrow : row = Tab.get 0 (s.cluAt (regionClu r).num).patrolAt (regionBit r)) : exec (.spmPatrolRead r) s = .next (
      (s.readSpm r (row * 128) 128 false).2.modClu (regionClu r).num (fun k => { k with
        patrolAt := Tab.set 0 k.patrolAt (regionBit r) ((row + 1) % (regionBytes r / 128)) })) := by
  subst hrow
  exact congrArg Host.Outcome.next (if_neg (by simp [hst, hen]))

/-! ## The obligation -/

/-- Settles O47: ring registers and SPM_SCRUB as owner's writes, the end of a scrub by what it makes of memory, of words in error and of
rings, the patrol by the read that it makes. -/
theorem ringRegistersAndScrubs : Obligations.RingRegistersAndScrubs := by
  refine ⟨fun s p c q v hp e he => ?ring, fun s p c v hp => ⟨fun hst => ?_, fun hready hsafe => ?_⟩,
    fun s r => ⟨exec_scrubDone_idle, fun hbusy => ?scrub, exec_spmPatrolRead_off, fun hst hen row hrow => ?patrol⟩⟩
  case ring =>
    have hexec : exec e.1 s = .next (s.ringWrite p c q.val e.2) := by
      simp only [List.mem_cons, List.not_mem_nil, or_false] at he
      rcases he with rfl | rfl | rfl <;> rfl
    rw [hexec]
    refine ⟨fun hst => ?_, fun hst => congrArg Host.Outcome.next (ringWrite_not_ready hp hst ..)⟩
    rw [ringWrite_ready hp hst]
    refine ⟨_, _, rfl, State.ringAt_modRing .., rfl, rfl, rfl, rfl, rfl, rfl, rfl, rfl, rfl, rfl, rfl, rfl, rfl, rfl, rfl, rfl,
      fun d k hother => ?_, rfl⟩
    rw [ringAt_modRing, if_neg fun hsame => hother.elim (absurd hsame.1) (absurd hsame.2)]
  · rw [execSpmScrub_owns hp, if_pos hst]
  · rw [execSpmScrub_owns hp, if_neg (by simp [hready, hsafe])]
  case scrub =>
    obtain ⟨k, out, hzero, hout⟩ := zeroRegion_frame s r
    refine ⟨_, exec_scrubDone_busy hbusy, fun a hlo hhi => ?_, fun a ha => ?_, fun w hlo hhi => ?_, ?_, fun c hr q hloc => ?_⟩
    · rw [State.modClu_mem, hzero, tab_get_clearRange, if_pos ⟨hlo, hhi⟩, memDefault]
    · rw [State.modClu_mem, hzero, tab_get_clearRange, if_neg (by omega)]
    · rw [State.modClu_badOne, State.modClu_badTwo, hzero]
      simp [hout w hlo hhi]
    · rw [State.cluAt_modClu, hzero]
      rfl
    · subst hr
      rw [ringAt_modClu, ringAt_zeroRegion_core] at hloc ⊢
      split at hloc
      · next h => exact absurd (h.symm.trans hloc) (by decide)
      · next h => rw [if_neg h]; exact ⟨rfl, rfl, rfl⟩
  case patrol =>
    have hread := readSpm_corrected s r (row * 128) 128 false
    refine ⟨_, exec_spmPatrolRead_on hst hen hrow, fun w hlo hhi => ?_, ?_⟩
    · rw [State.modClu_badOne, hread.badOne]
      simp [wordsOf, hlo, hhi]
    · rw [State.cluAt_modClu]
      dsimp only
      rw [hread.patrolAt]

end Sys2Proof.Machine
end

section
/-! Sequencer control (09, R408, R416, R420 to R427, R452, R454): one equation per instruction where it issues, the members that a
barrier lets go, and the stops. -/

namespace Sys2Proof.Machine

/-! ## Rows of the instruction tables (R416) -/

/-- The instructions that `Obligations.SequencerControl` lists, each with the opcode of its row. -/
def sequencerRows (c : CoreId) : List (Instr × Nat) :=
  [(.nop c, 0), (.seqEnd c, 1), (.jmp c, 2), (.br c, 3), (.loop c, 4), (.ldi c, 5), (.alu c, 6), (.lds c, 7), (.sts c, 8),
    (.tld c, 9), (.tadd c, 10), (.lyr c, 11), (.twait c, 16), (.bar c, 17), (.epoch c, 18), (.bld c, 0x20), (.dma c, 0x21),
    (.nrd c, 0x22), (.nwr c, 0x23), (.push c, 0x24), (.pop c, 0x25), (.mbp c, 0x30), (.mxn c, 0x31), (.msh1 c, 0x32),
    (.msh2 c, 0x33), (.mb24 c, 0x34), (.msp c, 0x35), (.seed c, 0x50), (.fence c, 0x51)]

/-- Each of these rows is run under its own opcode. -/
theorem exec_sequencerRow {c : CoreId} {p : Instr × Nat} (hp : p ∈ sequencerRows c) (s : State) :
    ∃ f, exec p.1 s = .next (s.runSeq c p.2 f) := by
  simp only [sequencerRows, List.mem_cons, List.not_mem_nil, or_false] at hp
  rcases hp with rfl | rfl | rfl | rfl | rfl | rfl | rfl | rfl | rfl | rfl | rfl | rfl | rfl | rfl | rfl | rfl | rfl | rfl |
    rfl | rfl | rfl | rfl | rfl | rfl | rfl | rfl | rfl | rfl | rfl <;> exact ⟨_, rfl⟩

theorem exec_sequencerRow_not {c : CoreId} {p : Instr × Nat} (hp : p ∈ sequencerRows c) {s : State} (hissue : s.issues c p.2 = false) :
    exec p.1 s = .next s := by
  obtain ⟨f, hf⟩ := exec_sequencerRow hp s
  rw [hf, runSeq_not hissue]

/-! ## The conditions of BR (R422) -/

theorem brHolds_eq_iff (a b : Nat) : brHolds 0 a b = true ↔ a = b := beq_iff_eq

theorem brHolds_ne_iff (a b : Nat) : brHolds 1 a b = true ↔ a ≠ b := bne_iff_ne

theorem brHolds_signedLt_iff (a b : Nat) : brHolds 2 a b = true ↔ signed 32 a < signed 32 b := decide_eq_true_iff

theorem brHolds_signedGe_iff (a b : Nat) : brHolds 3 a b = true ↔ signed 32 b ≤ signed 32 a := decide_eq_true_iff

theorem brHolds_lt_iff (a b : Nat) : brHolds 4 a b = true ↔ a < b := decide_eq_true_iff

theorem brHolds_ge_iff (a b : Nat) : brHolds 5 a b = true ↔ b ≤ a := decide_eq_true_iff

/-! ## Checkpoints of EPOCH (R452) -/

/-- A change of a sequencer depends on what it makes of that sequencer alone. -/
theorem modSeq_congr {s : State} {c : CoreId} {f g : SeqSt → SeqSt} (h : f (s.seqAt c) = g (s.seqAt c)) :
    s.modSeq c f = s.modSeq c g := by
  have hcore : ({ s.coreAt c with seq := f (s.coreAt c).seq } : CoreSt) = { s.coreAt c with seq := g (s.coreAt c).seq } :=
    congrArg (fun q => ({ s.coreAt c with seq := q } : CoreSt)) h
  exact congrArg (fun k => ({ s with core := Tab.put s.core c.num k } : State)) hcore

theorem takeCkpt_new {q : SeqSt} {key : Nat} (h : ∀ k ∈ q.ckpts, k.key.toNat ≠ key) :
    q.takeCkpt key = { q with ckpts := q.ckpts ++ [q.mkCkpt key] } := by
  have hnone : ¬q.ckpts.any (fun k => k.key.toNat == key) = true := by
    intro hany
    obtain ⟨k, hk, hkey⟩ := List.any_eq_true.mp hany
    exact h k hk (eq_of_beq hkey)
  exact if_neg hnone

/-! ## One equation per instruction (R421 to R427) -/

section
variable {s : State} {c : CoreId}

theorem exec_nop (hissue : s.issues c 0 = true) : exec (.nop c) s = .next (s.issued c) :=
  congrArg Host.Outcome.next (runSeq_issues hissue)

theorem exec_twait (hissue : s.issues c 16 = true) : exec (.twait c) s = .next (
    if (s.seqAt c).cueLatched then (s.issued c).modSeq c (fun x => { x with cueLatched := false, epoch := 0, ckpts := [] })
    else s.modSeq c (fun x => { x with state := 2 })) :=
  congrArg Host.Outcome.next (runSeq_issues hissue)

variable {w : DWord} (hw : (s.seqAt c).word = w)
include hw

theorem exec_jmp (hissue : s.issues c 2 = true) : exec (.jmp c) s = .next ((s.issued c).modSeq c (fun x => { x with
    pc := BitVec.ofNat 12 (if fI w then ((s.seqAt c).sreg (fA w) + fIMM w) % 2 ^ 32
      else ((s.seqAt c).pc.toNat + fIMM w) % 2 ^ 32) })) := by
  subst hw
  exact congrArg Host.Outcome.next (runSeq_issues hissue)

theorem exec_br (hissue : s.issues c 3 = true) : exec (.br c) s = .next (
    if brHolds (fFN w) ((s.seqAt c).sreg (fA w)) ((s.seqAt c).sreg (fB w)) then
      (s.issued c).modSeq c (fun x => { x with pc := BitVec.ofNat 12 (((s.seqAt c).pc.toNat + fIMM w) % 2 ^ 32) })
    else s.issued c) := by
  subst hw
  exact congrArg Host.Outcome.next (runSeq_issues hissue)

theorem exec_loop (hissue : s.issues c 4 = true) {i v : Nat} (hi : i = fD w % 8) (hv : v = (Tab.get 0 (s.seqAt c).l i).toNat)
    {u : State} (hu : u = (s.issued c).modSeq c (fun x => { x with l := Tab.set 0 x.l i (word (v - 1)) })) :
    exec (.loop c) s = .next (if 1 < v
      then u.modSeq c (fun x => { x with pc := BitVec.ofNat 12 (((s.seqAt c).pc.toNat + fIMM w) % 2 ^ 32) }) else u) := by
  subst hw hi hv hu
  exact congrArg Host.Outcome.next (runSeq_issues hissue)

theorem exec_bar (hissue : s.issues c 17 = true) {id : Nat} (hid : id = bitsOf w 55 52) :
    exec (.bar c) s = .next (s.modSeq c (fun x => { x with
      state := 7, waitBar := some id, arrivals := Tab.set 0 x.arrivals id (Tab.get 0 x.arrivals id + 1) })) := by
  subst hw hid
  exact congrArg Host.Outcome.next (runSeq_issues hissue)

theorem exec_epoch (hissue : s.issues c 18 = true) {v : Nat} (hv : v = ((s.seqAt c).sreg (fA w) + bitsOf w 15 0) % 2 ^ 32) :
    exec (.epoch c) s = .next (
      if v = (s.seqAt c).epoch.toNat then s.issued c
      else if v < (s.seqAt c).epoch.toNat ∨ 65535 < v then s.seqStop c 0x2112 2
      else if (s.seqAt c).ckptFull v then s.modSeq c (fun x => { x with state := 8 })
      else (s.modSeq c (fun x => { x.takeCkpt v with epoch := BitVec.ofNat 16 v })).issued c) := by
  subst hw hv
  exact congrArg Host.Outcome.next (runSeq_issues hissue)

theorem exec_fence (hissue : s.issues c 0x51 = true) : exec (.fence c) s = .next (
    if (List.range 8).all (fun i => !bitOf (bitsOf w 55 48) i || s.classDone c i) then s.issued c else s) := by
  subst hw
  exact congrArg Host.Outcome.next (runSeq_issues hissue)

theorem exec_seed (hissue : s.issues c 0x50 = true) : exec (.seed c) s = .next ((s.issued c).modSeq c (fun x => { x with
    seed := BitVec.ofNat 64 ((s.seqAt c).sreg (fB w) * 2 ^ 32 + (s.seqAt c).sreg (fA w)) })) := by
  subst hw
  exact congrArg Host.Outcome.next (runSeq_issues hissue)

/-! ## The cases of EPOCH (R427, R452, R454) -/

section
variable (hissue : s.issues c 18 = true) {v : Nat} (hv : v = ((s.seqAt c).sreg (fA w) + bitsOf w 15 0) % 2 ^ 32)
include hissue hv

theorem exec_epoch_current (h : v = (s.seqAt c).epoch.toNat) : exec (.epoch c) s = .next (s.issued c) := by
  rw [exec_epoch hw hissue hv, if_pos h]

theorem exec_epoch_stops (h : v < (s.seqAt c).epoch.toNat ∨ 65535 < v ∧ v ≠ (s.seqAt c).epoch.toNat) :
    exec (.epoch c) s = .next (s.seqStop c 0x2112 2) := by
  rw [exec_epoch hw hissue hv, if_neg (by omega), if_pos (by omega)]

variable (hlarger : (s.seqAt c).epoch.toNat < v) (hmax : v ≤ 65535)
include hlarger hmax

theorem exec_epoch_waits (hfull : (s.seqAt c).ckptFull v = true) :
    exec (.epoch c) s = .next (s.modSeq c (fun x => { x with state := 8 })) := by
  rw [exec_epoch hw hissue hv, if_neg (by omega), if_neg (by omega), if_pos hfull]

theorem exec_epoch_sets (hfull : (s.seqAt c).ckptFull v = false) (hnew : ∀ k ∈ (s.seqAt c).ckpts, k.key.toNat ≠ v) :
    exec (.epoch c) s = .next ((s.modSeq c (fun x => { x with
      ckpts := x.ckpts ++ [⟨BitVec.ofNat 16 v, x.pc, x.epoch, x.seed, x.s, x.l, x.t⟩], epoch := BitVec.ofNat 16 v })).issued c) := by
  rw [exec_epoch hw hissue hv, if_neg (by omega), if_neg (by omega), if_neg (by simp [hfull])]
  refine congrArg (fun t : State => Host.Outcome.next (t.issued c)) (modSeq_congr ?_)
  dsimp only
  rw [takeCkpt_new hnew]
  rfl

end

end

/-! ## Barriers (R426) -/

theorem seqAt_issued_other (s : State) {c d : CoreId} (h : d ≠ c) : (s.issued c).seqAt d = s.seqAt d := by
  obtain ⟨t, rfl, _, hother, _⟩ := issued_at s c
  exact congrArg CoreSt.seq (hother d h)

/-- A member that waited goes on behind its BAR. -/
def State.leaveBarrier (s : State) (d : CoreId) : State := (s.issued d).modSeq d (fun q => { q with waitBar := none })

/-- What a sequencer is once it has left a barrier at which it was q. -/
structure LeftBarrier (q x : SeqSt) : Prop where
  waitBar : x.waitBar = none
  state : x.state = 1
  pc : x.pc = q.pc + 1

theorem seqAt_leaveBarrier (s : State) (d : CoreId) : LeftBarrier (s.seqAt d) ((s.leaveBarrier d).seqAt d) := by
  rw [State.leaveBarrier, State.seqAt_modSeq]
  exact ⟨rfl, state_issued s d, pc_issued s d⟩

theorem seqAt_leaveBarrier_other (s : State) {c d : CoreId} (h : d ≠ c) : (s.leaveBarrier c).seqAt d = s.seqAt d := by
  rw [State.leaveBarrier, seqAt_modSeq, if_neg h, seqAt_issued_other s h]

theorem seqAt_foldl_leaveBarrier_other {d : CoreId} : ∀ (l : List CoreId) (s : State), d ∉ l →
    (l.foldl State.leaveBarrier s).seqAt d = s.seqAt d
  | [], _, _ => rfl
  | c :: l, s, h => by
    obtain ⟨hc, hl⟩ := List.ne_and_not_mem_of_not_mem_cons h
    rw [List.foldl_cons, seqAt_foldl_leaveBarrier_other l _ hl, seqAt_leaveBarrier_other s hc]

/-- Each listed core leaves once. -/
theorem seqAt_foldl_leaveBarrier {d : CoreId} : ∀ (l : List CoreId) (s : State), l.Nodup → d ∈ l →
    LeftBarrier (s.seqAt d) ((l.foldl State.leaveBarrier s).seqAt d)
  | [], _, _, hd => absurd hd List.not_mem_nil
  | c :: l, s, hl, hd => by
    obtain ⟨hc, hrest⟩ := List.nodup_cons.mp hl
    rw [List.foldl_cons]
    by_cases hcd : d = c
    · subst hcd
      rw [seqAt_foldl_leaveBarrier_other l _ hc]
      exact seqAt_leaveBarrier s d
    · rw [← seqAt_leaveBarrier_other s hcd]
      exact seqAt_foldl_leaveBarrier l _ hrest (List.mem_of_ne_of_mem hcd hd)

/-- Core d waits at barrier id, having arrived n times. -/
def State.waitsAt (s : State) (id n : Nat) (d : CoreId) : Bool :=
  (s.seqAt d).waitBar == some id && Tab.get 0 (s.seqAt d).arrivals id == n

theorem exec_barrierComplete {s : State} {c : CoreId} {id : Fin 16} {b : BarrierCfg} (hb : s.barrierOf c id.val = some b)
    {n : Nat} (hn : n = Tab.get 0 (s.seqAt c).arrivals id.val) : exec (.barrierComplete c id) s = .next (
      if s.waitsAt id.val n c && b.members.all (fun d => decide (n ≤ Tab.get 0 (s.seqAt d).arrivals id.val))
      then (b.members.filter (s.waitsAt id.val n)).foldl State.leaveBarrier s else s) := by
  subst hn
  change execBarrierComplete c id s = _
  rw [execBarrierComplete, hb]
  rfl

section
variable {s : State} {c : CoreId} {id : Fin 16} {b : BarrierCfg} (hb : s.barrierOf c id.val = some b)
  {n : Nat} (hn : n = Tab.get 0 (s.seqAt c).arrivals id.val)
include hb hn

theorem exec_barrierComplete_all (hc : s.waitsAt id.val n c = true) (hall : ∀ d ∈ b.members, n ≤ Tab.get 0 (s.seqAt d).arrivals id.val) :
    exec (.barrierComplete c id) s = .next ((b.members.filter (s.waitsAt id.val n)).foldl State.leaveBarrier s) := by
  rw [exec_barrierComplete hb hn, if_pos (by simpa [hc] using hall)]

theorem exec_barrierComplete_idle
    (h : s.waitsAt id.val n c = false ∨ ∃ d ∈ b.members, Tab.get 0 (s.seqAt d).arrivals id.val < n) :
    exec (.barrierComplete c id) s = .next s := by
  rw [exec_barrierComplete hb hn]
  refine congrArg Host.Outcome.next (if_neg fun hgo => ?_)
  obtain ⟨hc, hall⟩ := (Bool.and_eq_true_iff).mp hgo
  rcases h with hno | ⟨d, hd, hfewer⟩
  · exact Bool.false_ne_true (hno.symm.trans hc)
  · exact absurd (of_decide_eq_true (List.all_eq_true.mp hall d hd)) (by omega)

end

/-! ## Illegal words and parity errors (R408, R420) -/

theorem exec_seqIllegal {s : State} {c : CoreId} (hfetch : s.mayFetch c = true)
    (hparity : (s.seqAt c).imemBad.contains (s.seqAt c).pc.toNat = false) (hillegal : s.illegalAt c = true) :
    exec (.seqIllegal c) s = .next (s.seqStop c 0x2110 0) :=
  congrArg Host.Outcome.next (if_pos (by rw [hfetch, hparity, hillegal]; rfl))

theorem exec_seqImemParity {s : State} {c : CoreId} (hfetch : s.mayFetch c = true)
    (hparity : (s.seqAt c).imemBad.contains (s.seqAt c).pc.toNat = true) :
    exec (.seqImemParity c) s = .next (s.seqStop c 0x4131 4) :=
  congrArg Host.Outcome.next (if_pos (by rw [hfetch, hparity]; rfl))

/-! ## The obligation -/

/-- Settles O36: each instruction by its equation where it issues, a barrier by induction over the members it lets go. -/
theorem sequencerControl : Obligations.SequencerControl := by
  intro c s q w hq hw
  subst hq
  refine ⟨issued_at s c, fun p hp => exec_sequencerRow_not hp, exec_nop, exec_jmp hw, fun hissue a b ha hb => ?br,
    fun hissue i v u hi hv hu => ?loop, fun hissue => ?twait, fun hissue id => exec_bar hw hissue, fun hissue v hv => ?epoch,
    fun hissue => ?fence, exec_seed hw, fun id b n hb hn waits hwaits => ?barrier, exec_seqIllegal, exec_seqImemParity,
    fun code e => rfl⟩
  case br =>
    rw [exec_br hw hissue, ← ha, ← hb]
    refine ⟨brHolds (fFN w) a b = true, fun hfn => ?_, fun hfn => ?_, fun hfn => ?_, fun hfn => ?_, fun hfn => ?_, fun hfn => ?_,
      fun hy => by rw [if_pos hy], fun hy => by rw [if_neg hy]⟩ <;> rw [hfn]
    · exact brHolds_eq_iff a b
    · exact brHolds_ne_iff a b
    · exact brHolds_signedLt_iff a b
    · exact brHolds_signedGe_iff a b
    · exact brHolds_lt_iff a b
    · exact brHolds_ge_iff a b
  case loop =>
    rw [exec_loop hw hissue hi hv hu]
    exact ⟨fun hmore => by rw [if_pos hmore], fun hlast => by rw [if_neg (by omega)]⟩
  case twait =>
    rw [exec_twait hissue]
    exact ⟨fun hcue => by rw [if_pos hcue], fun hcue => by rw [if_neg (by simp [hcue])]⟩
  case epoch =>
    exact ⟨exec_epoch_current hw hissue hv, exec_epoch_stops hw hissue hv, exec_epoch_waits hw hissue hv,
      exec_epoch_sets hw hissue hv⟩
  case fence =>
    rw [exec_fence hw hissue]
    exact ⟨fun hfree => by rw [if_pos hfree], fun hbusy => by rw [if_neg (by simp only [hbusy]; decide)]⟩
  case barrier =>
    subst hwaits
    refine ⟨fun hc hall hmembers => ⟨_, exec_barrierComplete_all hb hn hc hall, fun d hd hwait => ?_⟩,
      exec_barrierComplete_idle hb hn⟩
    obtain ⟨hbar, hstate, hpc⟩ := seqAt_foldl_leaveBarrier (b.members.filter (s.waitsAt id.val n)) s (hmembers.filter _)
      (List.mem_filter.mpr ⟨hd, hwait⟩)
    exact ⟨hbar, hstate, hpc⟩

end Sys2Proof.Machine
end

section
/-! Admission entries (10, R476, R481, R488, R490, R509; 13, R633 to R635, R637, R806): one equation per command, for an entry that waits. -/

namespace Sys2Proof.Machine

/-- The slot under the bindings of a BIND entry. -/
def SlotSt.rebound (x : SlotSt) (e : List Byte) : SlotSt :=
  { x with
    vec := BitVec.ofNat 8 (byteAt e 3), ploc := bitOf (byteAt e 2) 1, oloc := bitOf (byteAt e 2) 2,
    promptAddr := BitVec.ofNat 64 (leAt e 24 8), outBase := BitVec.ofNat 64 (leAt e 32 8),
    outStride := word (leAt e 40 4), outN := word (leAt e 44 4), tag := BitVec.ofNat 64 (leAt e 48 8),
    entry := mergeEntry x.entry e, unbound := false }

/-- The slot that a CANCEL entry leaves, while a step is pending and else (R488). -/
def SlotSt.cancelled (x : SlotSt) (pending : Bool) : SlotSt := if pending then { x with cancel := true } else { x with state := 5 }

/-- The frame that an INPUT entry adds to its slot (R509, R636). -/
def State.inputFrame (s : State) (e : List Byte) (body : List Byte) : InputFrame :=
  ⟨some s.host.admRead, BitVec.ofNat 2 (byteAt e 2 / 4 % 4), if bitOf (byteAt e 2) 1 then s.peek (leAt e 8 8) (leAt e 4 4) else body⟩

/-- The slot with one frame more that waits (R509). -/
def SlotSt.addInput (x : SlotSt) (f : InputFrame) : SlotSt := { x with inputs := x.inputs ++ [f] }

/-- The chain head takes an accepted ADMIT entry (R481, R634); RUN is still to be entered. -/
def State.admits (s : State) (e : List Byte) : State :=
  ((s.admTake.2.modSlot (byteAt e 1) (fun _ => slotFrom e s.host.admSeq)).modHost (fun h =>
    { h with admits := bump h.admits, admSeq := h.admSeq + 1 })).admRelease s.host.admRead

section
variable {s : State} {e : List Byte} (hwait : s.admWaiting = true)
include hwait

/-- R476, R481, R482: ADMIT at the chain head. -/
theorem exec_admitEntry_head (hop : byteAt e 0 = 1) (hhead : s.isHead = true) : exec (.admitEntry e) s = .next (
    if s.admitOk e then (s.admits e).enterRun else s.admTake.2.admReject s.host.admRead 0x1006) :=
  congrArg Host.Outcome.next (by simp only [hwait, hop, hhead]; rfl)

/-- R488, R490: CANCEL at the chain head. -/
theorem exec_cancelEntry_head (hop : byteAt e 0 = 2) (hhead : s.isHead = true) : exec (.cancelEntry e) s = .next (
    if entryCheckOk e = false ∨ (s.slot (byteAt e 1)).state = 0 then s.admTake.2.admReject s.host.admRead 0x1006
    else (s.admTake.2.modSlot (byteAt e 1) (fun x => x.cancelled (s.slotPending (byteAt e 1)))).admRelease s.host.admRead) := by
  refine congrArg Host.Outcome.next ?_
  simp only [hwait, hop, hhead]
  cases entryCheckOk e
  · rfl
  · by_cases hfree : (s.slot (byteAt e 1)).state = 0
    · exact (if_pos hfree).trans (if_pos (.inr hfree)).symm
    · refine (if_neg hfree).trans (Eq.trans ?_ (if_neg (not_or.mpr ⟨Bool.noConfusion, hfree⟩)).symm)
      unfold SlotSt.cancelled
      cases s.slotPending (byteAt e 1) <;> rfl

/-- R509, R633, R635: INPUT. -/
theorem exec_inputEntry (hop : byteAt e 0 = 3) (body : List Byte) : exec (.inputEntry e body) s = .next (
    if s.isHead = false then (s.admTake.2.raise 0x6006).admRelease s.host.admRead
    else if s.inputOk e then s.admTake.2.modSlot (byteAt e 1) (fun x => x.addInput (s.inputFrame e body))
    else s.admTake.2.admReject s.host.admRead 0x6006) := by
  refine congrArg Host.Outcome.next ?_
  simp only [hwait, hop]
  cases s.isHead <;> rfl

/-- R806. -/
theorem exec_inputBodyFail (hop : byteAt e 0 = 3) :
    exec (.inputBodyFail e) s = .next (s.admTake.2.admReject s.host.admRead 0x6006) :=
  congrArg Host.Outcome.next (if_neg (by simp [hwait, hop]))

/-- R633, R637: BIND. -/
theorem exec_bindEntry (hop : byteAt e 0 = 4) : exec (.bindEntry e) s = .next (
    if s.bindOk e then (s.admTake.2.modSlot (byteAt e 1) (fun x => x.rebound e)).admRelease s.host.admRead
    else s.admTake.2.admReject s.host.admRead 0x6006) :=
  congrArg Host.Outcome.next (by simp only [hwait, hop]; rfl)

/-- R633: an OP that is none of the ring's, for the row of every OP. -/
theorem exec_badOp (hop : byteAt e 0 = 0 ∨ 4 < byteAt e 0) {i : Instr}
    (hi : i = .admitEntry e ∨ i = .cancelEntry e ∨ i = .inputEntry e [] ∨ i = .bindEntry e) :
    exec i s = .next (s.admTake.2.admReject s.host.admRead 0x6006) := by
  have hbad : 4 < byteAt e 0 ∨ byteAt e 0 = 0 := hop.symm
  have hrow (z : State) : (if (!s.admWaiting) = true then s else if 4 < byteAt e 0 ∨ byteAt e 0 = 0 then s.badOp else z) =
      s.admTake.2.admReject s.host.admRead 0x6006 := by rw [if_neg (by simp [hwait]), if_pos hbad]; rfl
  obtain rfl | rfl | rfl | rfl := hi <;> exact congrArg Host.Outcome.next (hrow _)

end

theorem slots_enterRun (s : State) : s.enterRun.slots = s.slots := by
  unfold State.enterRun
  split <;> rfl

/-- R476: READY becomes RUN. -/
theorem st_enterRun (s : State) : s.enterRun.glb.st = if s.glb.st = .ready then .run else s.glb.st := by
  unfold State.enterRun
  split <;> rfl

/-- Reading slots after a state's slots were updated at one place, whatever else of the state changed. -/
theorem slot_of_slots_upd (s : State) {t : State} {i : Nat} (f : SlotSt → SlotSt) (h : t.slots = Tab.upd .reset s.slots i f) :
    (∀ j, j ≠ i → t.slot j = s.slot j) ∧ t.slot i = f (s.slot i) := by
  have hget (j : Nat) : t.slot j = if j = i then f (s.slot i) else s.slot j := by
    unfold State.slot
    rw [h, tab_get_upd]
  exact ⟨fun j hj => (hget j).trans (if_neg hj), (hget i).trans (if_pos rfl)⟩

/-! ## The obligation -/

/-- Settles O27: each entry by its command's equation. -/
theorem admissionEntries : Obligations.AdmissionEntries := by
  intro e s w r hwait i hw hr
  subst hw hr
  refine ⟨fun hop hhead => ⟨fun hok => ?admission, fun hbad => ?admitRejected⟩,
    fun hop hhead => ⟨fun hcheck hst => ?cancel, fun hbad => ?cancelRejected⟩,
    fun hop body => ⟨fun hhead hok => ?input, fun hhead hbad => ?inputRejected, fun hhead => ?inputElsewhere, exec_inputBodyFail hwait hop⟩,
    fun hop => ⟨fun hok => ?bind, fun hbad => ?bindRejected⟩,
    fun hop => ⟨exec_badOp hwait hop (.inl rfl), exec_badOp hwait hop (.inr (.inl rfl)),
      exec_badOp hwait hop (.inr (.inr (.inl rfl))), exec_badOp hwait hop (.inr (.inr (.inr rfl)))⟩⟩
  case admission =>
    rw [exec_admitEntry_head hwait hop hhead, if_pos hok]
    obtain ⟨hothers, hslot⟩ := slot_of_slots_upd s (i := i) (fun _ => slotFrom e s.host.admSeq) (slots_enterRun (s.admits e))
    refine ⟨_, _, rfl, rfl, rfl, hothers, ?_, st_enterRun _⟩
    dsimp only
    rw [hslot]
    exact ⟨rfl, rfl, rfl, BitVec.toNat_ofNat _ _, rfl, BitVec.toNat_ofNat _ _, BitVec.toNat_ofNat _ _⟩
  case cancel =>
    rw [exec_cancelEntry_head hwait hop hhead, if_neg (not_or.mpr ⟨by simp [hcheck], hst⟩)]
    exact ⟨_, _, rfl, rfl, rfl, slot_of_slots_upd s (fun x => x.cancelled (s.slotPending i)) rfl⟩
  case input =>
    rw [exec_inputEntry hwait hop, if_neg (by simp [hhead]), if_pos hok]
    obtain ⟨hothers, hslot⟩ := slot_of_slots_upd s (t := s.admTake.2.modSlot i (fun x => x.addInput (s.inputFrame e body)))
      (fun x => x.addInput (s.inputFrame e body)) rfl
    exact ⟨_, rfl, rfl, hothers, congrArg SlotSt.inputs hslot⟩
  case bind =>
    rw [exec_bindEntry hwait hop, if_pos hok]
    obtain ⟨hothers, hslot⟩ := slot_of_slots_upd s (t := (s.admTake.2.modSlot i (fun x => x.rebound e)).admRelease s.host.admRead)
      (fun x => x.rebound e) rfl
    refine ⟨_, _, rfl, rfl, rfl, hothers, ?_⟩
    dsimp only
    rw [hslot]
    exact ⟨BitVec.toNat_ofNat _ _, BitVec.toNat_ofNat _ _, BitVec.toNat_ofNat _ _, rfl, rfl, BitVec.toNat_ofNat _ _, rfl, rfl, rfl, rfl⟩
  case admitRejected => rw [exec_admitEntry_head hwait hop hhead, if_neg (by simp [hbad])]; rfl
  case cancelRejected => rw [exec_cancelEntry_head hwait hop hhead, if_pos hbad]; rfl
  case inputRejected => rw [exec_inputEntry hwait hop, if_neg (by simp [hhead]), if_neg (by simp [hbad])]; rfl
  case inputElsewhere => rw [exec_inputEntry hwait hop, if_pos hhead]; rfl
  case bindRejected => rw [exec_bindEntry hwait hop, if_neg (by simp [hbad])]; rfl

end Sys2Proof.Machine
end

section
/-! Taking cues (10, R471, R473 to R475, R494; 17, R768, R783, R785) and the writes of TICK_PERIOD and TICK_MAX (10, R518). -/

namespace Sys2Proof.Machine

/-! ## TIMER_CUE (R471) -/

theorem takeCue_not_readyOrRun {s : State} (h : s.readyOrRun = false) (n : DWord) (at_ : Nat) (bad : Bool) : s.takeCue n at_ bad = s :=
  if_pos (by simp [h])

theorem exec_timerCue_due {s : State} {at_ : Nat} (hdue : s.timerDue at_ = true) (hreplay : s.reh.replay = none) (hsrc : s.tick.src = 0) :
    exec (.timerCue at_) s = .next (s.takeCue s.cueNumber at_ false) := by
  refine congrArg Host.Outcome.next ?_
  rw [if_neg (by simp [hdue]), hreplay]
  exact if_pos hsrc

theorem exec_timerCue_not_due {s : State} {at_ : Nat} (hdue : s.timerDue at_ = false) : exec (.timerCue at_) s = .next s :=
  congrArg Host.Outcome.next (if_pos (by simp [hdue]))

theorem timerDue_idle {s : State} {at_ : Nat} (hrun : s.tick.running = none) (hheld : s.tick.held = [])
    (hlast : ∀ t, s.tick.lastTaken = some t → t + s.tick.period.toNat ≤ at_) : s.timerDue at_ = true := by
  unfold State.timerDue
  rw [hrun, hheld]
  cases hl : s.tick.lastTaken with
  | none => rfl
  | some t => simpa using hlast t hl

theorem timerDue_early {s : State} {at_ t : Nat} (hlast : s.tick.lastTaken = some t) (hearly : at_ < t + s.tick.period.toNat) :
    s.timerDue at_ = false := by
  unfold State.timerDue
  rw [hlast]
  simp [hearly]

/-! ## TICK_IN_EDGE (R471, R768) -/

section
variable {s : State} {at_ hi lo : Nat} (hstate : s.readyOrRun = true) (hpin : s.pinFunc 4 = 1) (hhi : 50 ≤ hi) (hlo : 50 ≤ lo)
include hstate hpin hhi hlo

theorem tickInEdge_counts : ¬((s.modPin (fun p => { p with tickIn := false })).glb.st = .off ∨
    (s.modPin (fun p => { p with tickIn := false })).pinFunc 4 ≠ 1 ∨ hi < 50 ∨ lo < 50) := by
  have hon : s.glb.st ≠ .off := by
    intro hoff
    simp [State.readyOrRun, hoff] at hstate
  rintro (hoff | hfunc | hshort | hshort)
  · exact hon hoff
  · exact hfunc hpin
  · omega
  · omega

theorem exec_tickInEdge_soon {t : Nat} (hlast : s.pin.lastTickIn = some t) (hsoon : at_ < t + 200000) :
    exec (.tickInEdge at_ hi lo) s = .next ((s.modPin (fun p => { p with tickIn := false })).modPin (fun p =>
      { p with tickRej := bump p.tickRej })) :=
  congrArg Host.Outcome.next ((if_neg (tickInEdge_counts hstate hpin hhi hlo)).trans (if_pos (by
    show (match s.pin.lastTickIn with | none => false | some t => decide (at_ < t + 200000)) = true
    rw [hlast]
    exact decide_eq_true hsoon)))

theorem exec_tickInEdge_accepted (hlast : ∀ t, s.pin.lastTickIn = some t → t + 200000 ≤ at_) (hsrc : s.tick.src = 1)
    (hreplay : s.reh.replay = none) : exec (.tickInEdge at_ hi lo) s = .next (((s.modPin (fun p => { p with tickIn := false })).modPin
      (fun p => { p with lastTickIn := some at_ })).takeCue s.cueNumber at_ false) := by
  refine congrArg Host.Outcome.next ((if_neg (tickInEdge_counts hstate hpin hhi hlo)).trans ((if_neg ?_).trans (if_pos ⟨hsrc, ?_⟩)))
  · show ¬(match s.pin.lastTickIn with | none => false | some t => decide (at_ < t + 200000)) = true
    cases hl : s.pin.lastTickIn with
    | none => simp
    | some t => simpa using hlast t hl
  · show s.reh.replay.isNone = true
    rw [hreplay]
    rfl

end

/-! ## CUE on the chain (R494) -/

/-- R494: a cue flit of the chain in READY or RUN, of a bond once both copies have come, goes on to the comparison. -/
theorem exec_cue_chain {lp : Fin 8} {h : FlitHdr} {n : DWord} {per mx : Word} {at_ : Nat} {s u : State}
    (hflits : s.takeFlits lp.val h false = .here u) (hdst : h.dst = u.win.linkId) (hstate : u.readyOrRun = true)
    (hreplay : u.reh.replay = none) (hbypass : u.win.bypassReg.getLsbD 0 = false) (hsrc : u.tick.src = 2)
    (hbond : u.isN4 = true → (u.lnkAt 0).isUp = true → (u.lnkAt 4).isUp = true → u.tick.bondCue.contains n = true) :
    exec (.cue lp h false n per mx at_) s = .next
      ((u.modTick (fun t => { t with bondCue := t.bondCue.filter (fun x => x != n) })).chainCue n per mx at_) := by
  refine congrArg Host.Outcome.next ((recvCtrl_here hflits hdst).trans ?_)
  rw [if_neg (by simp [hstate, hreplay]), if_neg Bool.false_ne_true,
    if_neg (not_or.mpr ⟨Bool.eq_false_iff.mp hbypass, not_not_intro hsrc⟩), if_neg]
  rintro ⟨hn4, h0, h4, hfirst⟩
  rw [hbond hn4 h0 h4] at hfirst
  exact Bool.false_ne_true hfirst

theorem chainCue_same {s : State} {per mx : Word} (hper : per.toNat = s.tick.period.toNat) (hmx : mx.toNat = s.tick.tickMax.toNat)
    (n : DWord) (at_ : Nat) : s.chainCue n per mx at_ = s.takeCue n at_ false := by
  unfold State.chainCue
  simp [hper, hmx]

/-- R494: a period or limit that differs. -/
theorem chainCue_differs {s : State} {per mx : Word} (h : per.toNat ≠ s.tick.period.toNat ∨ mx.toNat ≠ s.tick.tickMax.toNat)
    (n : DWord) (at_ : Nat) : s.chainCue n per mx at_ = (s.raise 0x1003).takeCue n at_ true := by
  unfold State.chainCue
  have hdiff : (decide (per.toNat ≠ s.tick.period.toNat) || decide (mx.toNat ≠ s.tick.tickMax.toNat)) = true := by simpa using h
  simp only [hdiff, if_true]

/-! ## TICK_PERIOD and TICK_MAX (R518) -/

theorem setPeriod_accepted {s : State} {per : BitVec 27} {mx : BitVec 28} (hst : s.glb.st = .ready)
    (hok : periodOk s.tick.proven.toNat per.toNat mx.toNat = true) : s.setPeriod per mx = { s with
      tick := { s.tick with period := per, tickMax := mx }
      prec := { s.prec with rrbMax := BitVec.ofNat 10 (rrbMaxOf s.tick.proven.toNat per.toNat) } } :=
  if_pos ⟨hst, hok⟩

theorem setPeriod_refused {s : State} {per : BitVec 27} {mx : BitVec 28}
    (h : s.glb.st ≠ .ready ∨ periodOk s.tick.proven.toNat per.toNat mx.toNat = false) : s.setPeriod per mx = s.raise 0x1009 :=
  if_neg (fun ⟨hst, hok⟩ => h.elim (fun k => k hst) (fun k => by simp [hok] at k))

/-! ## The obligation -/

/-- Settles O30: each source of a cue comes down to `takeCue`, whose cases are those of Laws/Ticks. -/
theorem cuesAreTaken : Obligations.CuesAreTaken := by
  unfold Obligations.CuesAreTaken
  intro take
  refine ⟨fun at_ s hreplay hsrc hrun hheld hlast hhold => ?timer, fun at_ t s hlast hearly => exec_timerCue_not_due (timerDue_early hlast hearly),
    fun at_ hi lo s u v hstate hpin hhi hlo hv hu => ?edge,
    fun lp h n per mx at_ s u v hflits hdst hstate hreplay hbypass hsrc hbond hheld hhold hv => ?chain, fun p v s hp => ?period⟩
  case timer =>
    rw [exec_timerCue_due (timerDue_idle hrun hheld hlast) hreplay hsrc]
    exact ⟨fun hstate => congrArg Host.Outcome.next (takeCue_holds s _ at_ false hstate (by simp [hheld]) hhold),
      fun hstate => congrArg Host.Outcome.next (takeCue_not_readyOrRun hstate _ _ _)⟩
  case edge =>
    subst hv hu
    refine ⟨fun t hlast hsoon => exec_tickInEdge_soon hstate hpin hhi hlo hlast hsoon, fun hlast hsrc hreplay => ?_⟩
    rw [exec_tickInEdge_accepted hstate hpin hhi hlo hlast hsrc hreplay]
    exact ⟨fun hheld hhold => congrArg Host.Outcome.next (takeCue_holds _ _ at_ false hstate hheld hhold),
      fun hheld hhold hcut hrun => congrArg Host.Outcome.next (takeCue_cuts _ _ at_ false hstate hheld hhold hcut hrun),
      fun hheld hhold => congrArg Host.Outcome.next (takeCue_third _ _ at_ false hstate hheld hhold)⟩
  case chain =>
    subst hv
    rw [exec_cue_chain hflits hdst hstate hreplay hbypass hsrc hbond]
    refine ⟨fun hper hmx => ?_, fun hdiff => ?_⟩
    · rw [chainCue_same (s := u.modTick _) hper hmx]
      exact congrArg Host.Outcome.next (takeCue_holds _ _ at_ false hstate hheld hhold)
    · rw [chainCue_differs (s := u.modTick _) hdiff]
      refine congrArg Host.Outcome.next (takeCue_holds _ _ at_ true ?_ ?_ ?_)
      · unfold State.readyOrRun
        rw [raise_glb]
        exact hstate
      · rw [raise_tick]
        exact hheld
      · exact (raise_eventOnly _ _ _ _ _).pwr_holdFrom.trans hhold
  case period =>
    have hper : (BitVec.ofNat 27 v.toNat).toNat = v.toNat % 2 ^ 27 := BitVec.toNat_ofNat _ _
    have hmx : (BitVec.ofNat 28 v.toNat).toNat = v.toNat % 2 ^ 28 := BitVec.toNat_ofNat _ _
    have hperiod : exec (.tickPeriod p v) s = .next (s.setPeriod (BitVec.ofNat 27 v.toNat) s.tick.tickMax) :=
      congrArg Host.Outcome.next (ownerOnly_owns hp)
    have hmax : exec (.tickMax p v) s = .next (s.setPeriod s.tick.period (BitVec.ofNat 28 v.toNat)) :=
      congrArg Host.Outcome.next (ownerOnly_owns hp)
    rw [hperiod, hmax, ← hper, ← hmx]
    exact ⟨fun hst hok => congrArg Host.Outcome.next (setPeriod_accepted hst hok), fun hbad => congrArg Host.Outcome.next (setPeriod_refused hbad),
      fun hst hok => congrArg Host.Outcome.next (setPeriod_accepted hst hok), fun hbad => congrArg Host.Outcome.next (setPeriod_refused hbad)⟩

end Sys2Proof.Machine
end

section
/-! Releasing a cue (10, R472, R477, R506, R515; 12, R572, R576, R597; 14, R679; 17, R784): what holds it, what it settles before the
plan, and the tick that starts. -/

namespace Sys2Proof.Machine

/-! ## What a release settles before the plan (R472, R576, R597) -/

theorem twinInterval_unpaired {s : State} (h2 : s.twin.state ≠ 2) (h3 : s.twin.state ≠ 3) : s.twinInterval = s := if_pos ⟨h2, h3⟩

theorem adoptAtCue_unpaired {s : State} (h2 : s.twin.state ≠ 2) (h3 : s.twin.state ≠ 3) : s.adoptAtCue = s :=
  if_neg (fun h => h.1.elim h2 h3)

/-- The held cue leaves the queue, and the hold and the cap interval end (R472, R783, R785). -/
def State.opensCue (s : State) (rest : List HeldCue) (at_ : Nat) : State :=
  (s.modTick (fun t => { t with
    held := rest, holdFrom := none,
    holdUs := match t.holdFrom with | none => t.holdUs | some x => bump t.holdUs ((at_ - x) / 1000) })).modPwr (fun p => p.atCue at_)

/-- What takes effect at a cue that serves group g (R304, R325, R472, R572, R576, R597). -/
def State.settlesCue (s : State) (c : HeldCue) (g at_ : Nat) : State :=
  let s := (s.linksAtCue.modPrec PrecSt.atCue).modTick (fun t => { t with
    count := c.tick, group := BitVec.ofNat 4 g, lastRelease := some at_ })
  { s with clu := s.clu.map (fun e => (e.1, { e.2 with oorRaised := [] })) }

theorem settlesCue_parts (s : State) (c : HeldCue) (g at_ : Nat) :
    (s.settlesCue c g at_).tick = { s.tick with count := c.tick, group := BitVec.ofNat 4 g, lastRelease := some at_ } ∧
    (s.settlesCue c g at_).win = { s.win with
      routes := s.win.routesNext, out0 := s.win.out0Next, out1 := s.win.out1Next, bypassIn := s.win.bypassReg.getLsbD 0,
      bypassOut := s.win.bypassReg.getLsbD 1, bondDown := s.bondsDown } ∧
    (s.settlesCue c g at_).prec = s.prec.atCue ∧ (s.settlesCue c g at_).reh = s.reh := ⟨rfl, rfl, rfl, rfl⟩

theorem beforePlan_unpaired {s : State} (h2 : s.twin.state ≠ 2) (h3 : s.twin.state ≠ 3) (c : HeldCue) (rest : List HeldCue) (at_ : Nat) :
    s.beforePlan c rest at_ = ((s.opensCue rest at_).applyStep.coolCue.settlesCue c (s.groupOf c.tick) at_).safeModeCue := by
  have hinterval : (s.opensCue rest at_).twinInterval = s.opensCue rest at_ := twinInterval_unpaired h2 h3
  have hadopt : (s.opensCue rest at_).adoptAtCue = s.opensCue rest at_ := adoptAtCue_unpaired h2 h3
  show (let u := (s.opensCue rest at_).twinInterval.adoptAtCue
    (u.applyStep.coolCue.settlesCue c (u.groupOf c.tick) at_).safeModeCue) = _
  rw [hinterval, hadopt]
  rfl

/-- R472, R572, R576, R597: on a device that is not paired a release changes these parts as follows before its plan. -/
theorem beforePlan_parts {s : State} (h2 : s.twin.state ≠ 2) (h3 : s.twin.state ≠ 3) (c : HeldCue) (rest : List HeldCue) (at_ : Nat) :
    ∃ us downs, (s.beforePlan c rest at_).tick = { s.tick with
        held := rest, holdFrom := none, holdUs := us, count := c.tick, group := BitVec.ofNat 4 (s.groupOf c.tick), lastRelease := some at_ } ∧
      (s.beforePlan c rest at_).win = { s.win with
        routes := s.win.routesNext, out0 := s.win.out0Next, out1 := s.win.out1Next, bypassIn := s.win.bypassReg.getLsbD 0,
        bypassOut := s.win.bypassReg.getLsbD 1, bondDown := downs } ∧
      (s.beforePlan c rest at_).prec = s.prec.atCue ∧ (s.beforePlan c rest at_).reh.replay = s.reh.replay := by
  obtain ⟨stepTick, stepWin, stepPrec, stepReh⟩ := applyStep_parts (s.opensCue rest at_)
  obtain ⟨coolTick, coolWin, coolPrec, coolReh⟩ := coolCue_parts (s.opensCue rest at_).applyStep
  obtain ⟨tick, win, prec, reh⟩ := settlesCue_parts (s.opensCue rest at_).applyStep.coolCue c (s.groupOf c.tick) at_
  obtain ⟨safeTick, safeWin, safePrec, safeReh⟩ :=
    safeModeCue_parts ((s.opensCue rest at_).applyStep.coolCue.settlesCue c (s.groupOf c.tick) at_)
  rw [beforePlan_unpaired h2 h3, safeTick, tick, coolTick, stepTick, safeWin, win, coolWin, stepWin, safePrec, prec, coolPrec, stepPrec,
    safeReh, reh, coolReh, stepReh]
  exact ⟨_, _, rfl, rfl, rfl, rfl⟩

/-! ## The plan and the inputs leave the device in its place -/

/-- t stands where s stands in the chain, and runs a replay where s runs one. -/
def SamePlace (s t : State) : Prop := t.tick.cpos = s.tick.cpos ∧ t.reh.replay = s.reh.replay

theorem SamePlace.trans {s t u : State} (h : SamePlace s t) (k : SamePlace t u) : SamePlace s u :=
  ⟨k.1.trans h.1, k.2.trans h.2⟩

theorem SamePlace.isHead {s t : State} (h : SamePlace s t) : t.isHead = s.isHead := by
  unfold State.isHead State.chainPos
  rw [h.1]

theorem raise_samePlace (s : State) (c : Nat) (a b : Option Nat) (p : Nat) : SamePlace s (s.raise c a b p) :=
  ⟨congrArg TickSt.cpos (raise_tick s c a b p), (raise_eventOnly s c a b p).reh_replay⟩

theorem startSlot_samePlace (s : State) (i : Nat) : SamePlace s (s.startSlot i).2 := by
  unfold State.startSlot
  split
  · exact ⟨rfl, rfl⟩
  · split
    · exact ⟨rfl, rfl⟩
    · exact raise_samePlace s _ _ _ _

theorem foldl_samePlace {α β : Type} {f : β × State → α → β × State} (h : ∀ a r, SamePlace a.2 (f a r).2) :
    ∀ (l : List α) (a : β × State), SamePlace a.2 (l.foldl f a).2
  | [], _ => ⟨rfl, rfl⟩
  | r :: l, a => (h a r).trans (foldl_samePlace h l _)

theorem headPlan_samePlace (s : State) (g : Nat) : SamePlace s (s.headPlan g).2 := by
  unfold State.headPlan
  dsimp only
  split
  · exact ⟨rfl, rfl⟩
  · refine SamePlace.trans ?_ (raise_samePlace _ _ _ _ _)
    exact ⟨rfl, rfl⟩

theorem laterPlan_samePlace (s : State) (n : DWord) (g : Nat) : SamePlace s (s.laterPlan n g).2 := by
  unfold State.laterPlan
  dsimp only
  split
  · exact ⟨rfl, rfl⟩
  · refine SamePlace.trans ?_ (foldl_samePlace ?_ _ _)
    · exact ⟨rfl, rfl⟩
    · exact fun a r => startSlot_samePlace a.2 r.slot.val

theorem planTick_samePlace {s : State} (hreplay : s.reh.replay = none) : SamePlace s s.planTick.2 := by
  unfold State.planTick
  rw [hreplay]
  dsimp only
  split
  · exact headPlan_samePlace _ _
  · exact laterPlan_samePlace _ _ _

theorem enterRun_samePlace (s : State) : SamePlace s s.enterRun := by
  unfold State.enterRun
  split <;> exact ⟨rfl, rfl⟩

/-- Above position 0, and for a step of no slot, no input is fed (R509). -/
theorem feedTick_idle {s : State} {p : Plan} (h : s.isHead = false ∨ s.reh.replay = none ∧ p.records = []) : (s.feedTick p).2 = s := by
  unfold State.feedTick
  by_cases hhead : s.isHead = false
  · rw [hhead]
    rfl
  · obtain ⟨hreplay, hnone⟩ := h.resolve_left hhead
    rw [if_neg (by simpa using hhead), hreplay, hnone]
    rfl

/-! ## The start of the tick (R477) -/

/-- The tick starts with the record of its plan, unless its inputs failed slots of it. -/
theorem releaseCue_starts {s b : State} {c : HeldCue} {rest : List HeldCue} {at_ : Nat} (hb : b = s.beforePlan c rest at_)
    (hreplay : b.reh.replay = none) : ∃ (v : State) (r : RunTick), s.releaseCue c rest at_ = v.startTick r at_ ∧
      (b.isHead = false ∨ b.planTick.1.records = [] → r.tick = c.tick ∧ r.released = at_ ∧ r.stepM = b.planTick.1.stepM ∧
        r.records = b.planTick.1.records ∧ r.abandoned = false) := by
  unfold State.releaseCue
  rw [← hb]
  lift_lets
  intro b' p s1 m r0 s2 f s3 r1 r2
  refine ⟨(s3.sendCue c.tick).twinBeat c.tick, r2, rfl, fun hidle => ?_⟩
  have hplan : SamePlace b p.2 := planTick_samePlace hreplay
  have hrun : SamePlace b s1 := by
    unfold s1
    split
    · exact hplan.trans (enterRun_samePlace _)
    · exact hplan
  have hfeed : f.2 = s2 := feedTick_idle (hidle.imp hrun.isHead.trans (fun h => ⟨hrun.2.trans hreplay, h⟩))
  have hr1 : r1 = r0 := by
    show (match f.2.tick.running with | some x => x | none => r0) = r0
    rw [hfeed]
    rfl
  show r1.tick = _ ∧ r1.released = _ ∧ r1.stepM = _ ∧ r1.records = _ ∧ r1.abandoned = _
  rw [hr1]
  exact ⟨rfl, rfl, rfl, rfl, rfl⟩

/-! ## The holds (R472, R515, R679, R784) -/

section
variable {s : State} {c : HeldCue} {rest : List HeldCue} {at_ : Nat} (hheld : s.tick.held = c :: rest)
include hheld

theorem tryRelease_waits (h : s.readyOrRun = false ∨ s.tick.running.isSome = true ∨ at_ < c.taken + 120 ∨ s.refetchHolds = true) :
    s.tryRelease at_ = s := by
  unfold State.tryRelease
  rw [hheld]
  exact if_pos (by simpa using h)

/-- A cue that no tick, no 120 ns and no re-fetch holds waits for the chain hold and the power hold alone. -/
theorem tryRelease_due (hstate : s.readyOrRun = true) (hrun : s.tick.running = none) (htime : c.taken + 120 ≤ at_)
    (hrefetch : s.refetchHolds = false) : s.tryRelease at_ =
      if s.chainHeld c then s.modTick (fun t => { t with holdFrom := some (t.holdFrom.getD at_) })
      else if s.powerHeld at_ then
        (if s.pwr.holdFrom.isSome then s else s.modPwr (fun p => { p with holds := bump p.holds, holdFrom := some at_ }))
      else s.releaseCue c rest at_ := by
  unfold State.tryRelease
  rw [hheld]
  exact if_neg (by simp [hstate, hrun, htime, hrefetch])

end

/-! ## The obligation -/

/-- Settles O31: the holds by the cases of `tryRelease`, the release by what it settles first and the tick that it starts. -/
theorem cueReleaseOrHold : Obligations.CueReleaseOrHold := by
  refine ⟨fun at_ s hnone => ?none, fun at_ c rest s hheld => ⟨fun hwait => congrArg Host.Outcome.next (tryRelease_waits hheld hwait),
    fun hstate hrun htime hrefetch => ?due⟩⟩
  case none =>
    refine congrArg Host.Outcome.next ?_
    unfold State.tryRelease
    rw [hnone]
  case due =>
    have hexec := congrArg (fun u => (Host.Outcome.next u : Answer)) (tryRelease_due hheld hstate hrun htime hrefetch)
    refine ⟨fun hchain => hexec.trans ?_, fun hchain hpower => ⟨fun hfirst => hexec.trans ?_, fun hagain => hexec.trans ?_⟩,
      fun hchain hpower h2 h3 hreplay => ?released⟩
    · rw [if_pos hchain]
      rfl
    · rw [if_neg (by simp [hchain]), if_pos hpower, if_neg (by simp [hfirst])]
      rfl
    · rw [if_neg (by simp [hchain]), if_pos hpower, if_pos (Option.isSome_iff_ne_none.mpr hagain)]
    case released =>
      rw [if_neg (by simp [hchain]), if_neg (by simp [hpower])] at hexec
      obtain ⟨us, downs, htick, hwin, hprec, hreh⟩ := beforePlan_parts h2 h3 c rest at_
      obtain ⟨v, r, hstarts, hrecord⟩ := releaseCue_starts rfl (hreh.trans hreplay)
      obtain ⟨hempty, hruns⟩ := startTick_end v r at_
      rw [hstarts] at hexec
      have hhead : (s.beforePlan c rest at_).isHead = s.isHead := SamePlace.isHead ⟨(congrArg TickSt.cpos htick).trans rfl, hreh⟩
      refine ⟨_, _, hexec, rfl, congrArg TickSt.held htick, congrArg TickSt.count htick, congrArg TickSt.group htick,
        congrArg TickSt.lastRelease htick, congrArg WinSt.routes hwin, congrArg WinSt.out0 hwin, congrArg WinSt.out1 hwin,
        congrArg WinSt.bypassIn hwin, congrArg WinSt.bypassOut hwin, congrArg PrecSt.rrbForce hprec, fun hnone => ?_, fun hlater hstep => ?_, ?_⟩
      · obtain ⟨-, -, hstepM, -, -⟩ := hrecord (.inr hnone)
        refine hempty (hstepM.trans ?_)
        unfold Plan.stepM
        rw [hnone]
        rfl
      · obtain ⟨hn, hat, hstepM, hrecords, hgoes⟩ := hrecord (.inl (hhead.trans hlater))
        exact ⟨r, (hruns (by rw [hstepM]; exact hstep)).1, hn, hat, hstepM, hrecords, hgoes⟩
      · by_cases hstep : r.stepM = 0
        · exact .inl (hempty hstep)
        · obtain ⟨hrunning, hcores⟩ := hruns hstep
          exact .inr ⟨by rw [hrunning]; rfl, hcores⟩

end Sys2Proof.Machine
end

section
/-! The ends of ticks (10, R479, R485, R487, R488, R501, R505, R509, R510, R515): the curtain, TICK_MAX, the chain hold's timeout, and
what a confirmation or a rollback makes of a slot. -/

namespace Sys2Proof.Machine

/-! ## CURTAIN and TICK_MAX_EXPIRY (R505, R510) -/

section
variable {s : State} {r : RunTick} (hrun : s.tick.running = some r)
include hrun

theorem exec_curtain_running (at_ : Nat) (l : List StepResult) :
    exec (.curtain at_ l) s = .next (if s.curtainDue r then s.curtain r at_ l else s) := by
  refine congrArg Host.Outcome.next ?_
  rw [hrun]

theorem exec_tickMaxExpiry_running (at_ : Nat) : exec (.tickMaxExpiry at_) s = .next (
    if r.abandoned ∨ at_ < r.released + s.tick.tickMax.toNat then s else s.abandonTick.raise 0x1001) := by
  refine congrArg Host.Outcome.next ?_
  rw [hrun]

/-- R505: an abandoned tick's whole step will roll back, and every core's queued work is cancelled. -/
theorem abandonTick_running (hlive : r.abandoned = false) : s.abandonTick = { s with
    tick := { s.tick with running := some { r with wholeFault := true, abandoned := true }, abandoned := bump s.tick.abandoned }
    core := s.core.map (fun e => (e.1, e.2.cancelWork))
    clu := s.clu.map (fun e => (e.1, { e.2 with svuQ := [], waiting := [], topIn := [], scatIn := [] }))
    prec := { s.prec with squash := none } } := by
  unfold State.abandonTick
  rw [hrun]
  exact if_neg (by simp [hlive])

end

/-! ## Rolling back a pending step (R501, R515) -/

/-- R488: no step is pending any more, and a latched cancel has acted. -/
theorem unpend_at (x : SlotSt) : x.unpend = { x with pend := false, cancel := false, state := if x.cancel then 5 else x.state } := by
  obtain ⟨state, kind, cancel, pend, com, new, order⟩ := x
  cases cancel <;> rfl

theorem rollback_at (x : SlotSt) : x.rollback = { x with
    new := x.com, inputs := x.fed.toList ++ x.inputs, fed := none, pend := false, cancel := false, state := if x.cancel then 5 else x.state } :=
  unpend_at _

/-- Several slots are rolled back. -/
def State.rollbackSlots (s : State) (l : List SlotRec) : State := l.foldl (fun s r => s.modSlot r.slot.val SlotSt.rollback) s

/-- R501: a rollback of several slots leaves every committed pointer, and these slots' pending copies are their committed ones. -/
theorem rollbackSlots_at : ∀ (l : List SlotRec) (s : State),
    (s.rollbackSlots l).tick = s.tick ∧
    (∀ i, ((s.rollbackSlots l).slot i).com = (s.slot i).com) ∧
    (∀ i, (s.slot i).new = (s.slot i).com ∨ (∃ r ∈ l, r.slot.val = i) →
      ((s.rollbackSlots l).slot i).new = (s.slot i).com)
  | [], s => ⟨rfl, fun _ => rfl, fun i h => h.elim id (fun ⟨_, hr, _⟩ => absurd hr List.not_mem_nil)⟩
  | r :: l, s => by
    obtain ⟨htick, hcom, hnew⟩ := rollbackSlots_at l (s.modSlot r.slot.val SlotSt.rollback)
    have hkeeps (i : Nat) : ((s.modSlot r.slot.val SlotSt.rollback).slot i).com = (s.slot i).com := by
      rw [slot_modSlot]
      split
      case isTrue h => rw [rollback_at, h]
      case isFalse => rfl
    refine ⟨htick, fun i => (hcom i).trans (hkeeps i), fun i h => (hnew i ?_).trans (hkeeps i)⟩
    by_cases hi : i = r.slot.val
    · left
      rw [slot_modSlot, if_pos hi, rollback_at]
    · rw [slot_modSlot, if_neg hi]
      exact h.imp id (fun ⟨x, hx, hslot⟩ => ⟨x, (List.mem_cons.mp hx).resolve_left (fun e => hi (by rw [← hslot, e])), hslot⟩)

theorem slot_of_slots_eq {s t : State} (h : t.slots = s.slots) (i : Nat) : t.slot i = s.slot i := by
  unfold State.slot
  rw [h]

theorem upload_tick_slots (s : State) (off : Nat) (r : List Byte) : (s.upload off r).tick = s.tick ∧ (s.upload off r).slots = s.slots := by
  unfold State.upload
  split
  · exact ⟨rfl, rfl⟩
  · split
    · exact ⟨(sendTwin_msg _ _ _).tick, (sendTwin_msg _ _ _).slots⟩
    · exact ⟨rfl, rfl⟩

/-- A record that is written changes no slot and nothing of the tick controller (R741, R751). -/
theorem putRecord_tick_slots (s : State) (r : List Byte) (b : Bool) :
    (s.putRecord r b).tick = s.tick ∧ (s.putRecord r b).slots = s.slots := by
  obtain ⟨htick, hslots⟩ := upload_tick_slots (s.rehWrite r true) s.reh.wpos r
  exact ⟨htick.trans (rehWrite_eventOnly s r true).tick, hslots.trans (rehWrite_eventOnly s r true).slots⟩

theorem recordConf_tick_slots (s : State) (p : PendStep) (g : Nat) (failM : BitVec 256) :
    (s.recordConf p g failM).tick = s.tick ∧ (s.recordConf p g failM).slots = s.slots := by
  unfold State.recordConf
  split
  · exact putRecord_tick_slots _ _ _
  · exact ⟨rfl, rfl⟩

/-- R501, R515: the pending step goes, its slots are rolled back, and no committed pointer changes. -/
theorem rollbackPending_at (s : State) (g : Nat) (p : PendStep) :
    (s.rollbackPending g p).tick = { s.tick with pend := Tab.erase s.tick.pend g, slotRb := bump s.tick.slotRb p.records.length } ∧
    (∀ r ∈ p.records, ((s.rollbackPending g p).slot r.slot.val).new = ((s.rollbackPending g p).slot r.slot.val).com) ∧
    (∀ i, ((s.rollbackPending g p).slot i).com = (s.slot i).com) := by
  obtain ⟨htick, hcom, hnew⟩ := rollbackSlots_at p.records s
  obtain ⟨hrec, hslots⟩ := recordConf_tick_slots ((s.rollbackSlots p.records).modTick (fun t => { t with
    pend := Tab.erase t.pend g, slotRb := bump t.slotRb p.records.length })) p g p.stepM
  have hslot (i : Nat) : (s.rollbackPending g p).slot i = (s.rollbackSlots p.records).slot i := slot_of_slots_eq hslots i
  refine ⟨hrec.trans ?_, fun r hr => ?_, fun i => ?_⟩
  · rw [← htick]
    rfl
  · rw [hslot, hnew _ (.inr ⟨r, hr, rfl⟩), hcom]
  · rw [hslot, hcom]

/-! ## CHAIN_TIMEOUT (R515) -/

theorem exec_chainTimeout_pending {s : State} {c : HeldCue} {rest : List HeldCue} {g : Nat} {p : PendStep} (at_ : Nat)
    (hheld : s.tick.held = c :: rest) (hg : s.groupOf c.tick = g) (hpend : s.tick.pend.find? (fun e => e.1 == g) = some (g, p))
    (hrun : s.tick.running = none) : exec (.chainTimeout at_) s = .next (
      if at_ < c.taken + (s.tick.tickMax.toNat - s.tick.period.toNat) then s
      else ((((s.rollbackPending g p).modTick (fun t => { t with chainTimeouts := bump t.chainTimeouts })).raise 0x1004).tryRelease at_)) := by
  subst hg
  refine congrArg Host.Outcome.next ?_
  rw [hheld]
  dsimp only
  rw [hpend, hrun]
  simp only [Option.isSome_none, Bool.false_eq_true, false_or]

/-! ## A slot at a confirmation (R487, R488, R501, R509) -/

theorem settleSlot_failed {failM : BitVec 256} {r : SlotRec} (h : failM.getLsbD r.slot.val = true) (s : State) (freeM : BitVec 256) :
    s.settleSlot failM freeM r = s.modSlot r.slot.val SlotSt.rollback := if_pos h

theorem slots_foldl_admRelease : ∀ (l : List Word) (s : State), (l.foldl (fun s n => s.admRelease n) s).slots = s.slots
  | [], _ => rfl
  | n :: l, s => slots_foldl_admRelease l (s.admRelease n)

/-- A step that stands, of a slot that is not freed, commits its slot. -/
theorem slots_settleSlot_committed {failM freeM : BitVec 256} {r : SlotRec} (hstands : failM.getLsbD r.slot.val = false)
    (hkept : freeM.getLsbD r.slot.val = false) (s : State) :
    (s.settleSlot failM freeM r).slots = Tab.upd .reset s.slots r.slot.val (fun x => x.commit r) := by
  unfold State.settleSlot
  dsimp only
  rw [if_neg (Bool.eq_false_iff.mp hstands), if_neg (Bool.eq_false_iff.mp hkept), State.modSlot_slots, slots_foldl_admRelease]

theorem commit_at (x : SlotSt) (r : SlotRec) : x.commit r = { x with
    com := { x.new with lastToken := if x.samples r then r.token else x.com.lastToken }
    new := { x.new with lastToken := if x.samples r then r.token else x.com.lastToken }
    fed := none, pend := false, cancel := false, state := if x.cancel then 5 else x.stateAfter r } := unpend_at _

/-! ## The obligation -/

/-- Settles O32: each command by its equation for a running tick or a pending step, each slot by `rollback_at` and `commit_at`. -/
theorem ticksEnd : Obligations.TicksEnd := by
  refine ⟨fun at_ l r s hrun => ?running, fun at_ l s hidle => ⟨?noCurtain, ?noExpiry⟩, fun at_ g c rest p s hheld hg hpend hrun => ?timeout,
    fun failM freeM r s => ?slot⟩
  case running =>
    rw [exec_curtain_running hrun, exec_tickMaxExpiry_running hrun]
    refine ⟨fun hdue => ?_, fun hwaits => ?_, fun hlive hlate => ?_, fun hwaits => ?_⟩
    · rw [if_pos hdue]
      exact ⟨_, rfl, curtain_end s r at_ l⟩
    · rw [if_neg (by simp [hwaits])]
    · rw [if_neg (by simp [hlive, hlate]), abandonTick_running hrun hlive]
      exact ⟨_, _, rfl, rfl, rfl, rfl, rfl⟩
    · rw [if_pos hwaits]
  case noCurtain =>
    refine congrArg Host.Outcome.next ?_
    rw [hidle]
  case noExpiry =>
    refine congrArg Host.Outcome.next ?_
    rw [hidle]
  case timeout =>
    rw [exec_chainTimeout_pending at_ hheld hg hpend hrun]
    obtain ⟨htick, hnew, hcom⟩ := rollbackPending_at s g p
    refine ⟨fun hlate => ?_, fun hearly => by rw [if_pos hearly]⟩
    rw [if_neg (Nat.not_lt.mpr hlate)]
    exact ⟨_, _, rfl, rfl, congrArg TickSt.pend htick, congrArg TickSt.slotRb htick, hnew, hcom⟩
  case slot =>
    intro i x
    refine ⟨fun hfail => ?_, fun hstands hkept => ?_, fun j hj hkept => ?_⟩
    · rw [settleSlot_failed hfail, (slot_of_slots_upd s SlotSt.rollback rfl).2, rollback_at]
      exact ⟨rfl, rfl, rfl, rfl, rfl, rfl, rfl⟩
    · rw [(slot_of_slots_upd s _ (slots_settleSlot_committed hstands hkept s)).2, commit_at]
      exact ⟨rfl, rfl, rfl, rfl, rfl, rfl, rfl⟩
    · cases hfail : failM.getLsbD i with
      | true =>
        rw [settleSlot_failed hfail]
        exact (slot_of_slots_upd s SlotSt.rollback rfl).1 j hj
      | false => exact (slot_of_slots_upd s _ (slots_settleSlot_committed hfail hkept s)).1 j hj

end Sys2Proof.Machine
end

section
/-! Step messages of the chain (10, R496, R497, R513, R514, R516, R517): which a device takes, what it keeps, and what a curtain message
confirms. -/

namespace Sys2Proof.Machine

/-! ## Slots whose step number differs (R517) -/

theorem mismatched_eq_nil {s : State} {l : List SlotRec} (h : ∀ r ∈ l, (s.slot r.slot.val).com.step = r.step) : s.mismatched l = [] := by
  unfold State.mismatched
  rw [List.map_eq_nil_iff, List.filter_eq_nil_iff]
  intro r hr
  simp [h r hr]

theorem mismatched_singleton {s : State} {r : SlotRec} (hstep : (s.slot r.slot.val).com.step ≠ r.step)
    (hstate : (s.slot r.slot.val).state ≠ 6) : s.mismatched [r] = [r.slot.val] := by
  unfold State.mismatched
  rw [List.filter_eq_self.mpr (fun x hx => by
    rw [List.mem_singleton.mp hx]
    exact Bool.and_eq_true_iff.mpr ⟨bne_iff_ne.mpr hstate, bne_iff_ne.mpr hstep⟩)]
  rfl

theorem tick_faultMismatched : ∀ (l : List Nat) (s : State), (s.faultMismatched l).tick = s.tick
  | [], _ => rfl
  | _ :: l, _ => (tick_faultMismatched l _).trans (raise_tick _ _ _ _ _)

theorem or_maskOf_nil (m : BitVec 256) : m ||| maskOf [] = m := BitVec.or_zero

/-! ## What a message does to the tick controller (R496, R513, R514, R516) -/

/-- A status message is kept for the cue after its tick (R496). -/
def State.keepStatus (s : State) (m : StepMsg) : State :=
  s.modTick (fun t => { t with upstream := Tab.put t.upstream m.tick.toNat m })

/-- The records of a pending step with the tokens of a curtain message (R514). -/
def PendStep.withTokens (p : PendStep) (m : StepMsg) : List SlotRec :=
  p.records.map (fun r => match m.records.find? (fun x => x.slot == r.slot) with | some x => { r with token := x.token } | none => r)

/-- The pending step of a group goes, and the slots that only the curtain message fails are counted (R513). -/
def State.takePending (s : State) (p : PendStep) (m : StepMsg) : State :=
  s.modTick (fun t => { t with
    pend := Tab.erase t.pend (m.group.toNat % 16),
    slotRb := bump t.slotRb ((maskList (m.failM &&& p.stepM)).filter (fun i => !p.failM.getLsbD i)).length })

/-- The pending step is confirmed where the message does not fail it (R513). -/
def State.confirmPending (s : State) (p : PendStep) (m : StepMsg) : State :=
  (((s.takePending p m).confirmStep (m.group.toNat % 16) (m.failM &&& p.stepM) (m.freeM &&& p.stepM) (p.withTokens m)).recordConf p
    (m.group.toNat % 16) (m.failM &&& p.stepM)).leaveRun

/-- The message goes on to the next device but one before the last (R516). -/
def State.passOn (s : State) (m : StepMsg) : State := (if s.chainPos + 2 < s.chainLen then s.sendStep 2 m else s).stageMirror

/-- Without the bypass a device takes what comes on NORTH, for the slots that it serves (R496, R597). -/
theorem stepSource_north {u : State} {lp : Fin 8} (hlp : lp ≠ 7) (hbypass : u.win.bypassReg.getLsbD 0 = false) (m : StepMsg) :
    u.stepSource lp.val m = some (onlyMsg m u.served) :=
  (if_neg (fun e => hlp (Fin.ext e))).trans (if_neg (Bool.eq_false_iff.mp hbypass))

/-! ## STATUS_MESSAGE (R496, R497, R517) -/

section
variable {lp : Fin 8} {h : FlitHdr} {m n : StepMsg} {s u : State} (hflits : s.takeFlits lp.val h false = .here u)
  (hdst : h.dst = u.win.linkId) (hlp : lp ≠ 7) (hbypass : u.win.bypassReg.getLsbD 0 = false) (hn : n = onlyMsg m u.served)
include hflits hdst hlp hbypass hn

/-- R481: the head keeps no status message. -/
theorem exec_statusMessage_head (hhead : u.isHead = true) : exec (.statusMessage lp h m) s = .next u := by
  refine congrArg Host.Outcome.next ((recvCtrl_here hflits hdst).trans ?_)
  rw [stepSource_north hlp hbypass m, ← hn]
  exact if_pos (.inl hhead)

/-- R496, R497, R517: above position 0 a status message is kept, with the slots that differ among its failed ones. -/
theorem exec_statusMessage_later (hlater : u.isHead = false) (hstate : u.readyOrRun = true)
    (hfirst : u.tick.upstream.find? (fun e => e.1 == m.tick.toNat) = none) {bad : List Nat} {q : StepMsg}
    (hbad : bad = if n.checkOk then u.mismatched (n.records.filter (fun r => !r.first)) else [])
    (hq : q = { n with failM := n.failM ||| maskOf bad }) : exec (.statusMessage lp h m) s = .next
      ((if n.checkOk then u.faultMismatched bad else u.raise 0x1004).keepStatus q) := by
  have hnew : (if n.checkOk then u.faultMismatched bad else u.raise 0x1004).tick.upstream.find? (fun e => e.1 == n.tick.toNat) = none := by
    have htick : (if n.checkOk then u.faultMismatched bad else u.raise 0x1004).tick = u.tick := by
      split
      · exact tick_faultMismatched _ _
      · exact raise_tick _ _ _ _ _
    rw [htick, hn]
    exact hfirst
  subst hq hbad
  refine congrArg Host.Outcome.next ((recvCtrl_here hflits hdst).trans ?_)
  rw [stepSource_north hlp hbypass m, ← hn]
  dsimp only
  rw [if_neg (by simp [hlater, hstate]), hnew]
  rfl

/-! ## CURTAIN_MESSAGE (R513, R514, R516, R517) -/

/-- R516: without its pending step a curtain message is discarded. -/
theorem exec_curtainMessage_stale (hnone : u.pendingFor n = none) : exec (.curtainMessage lp h m) s = .next u := by
  refine congrArg Host.Outcome.next ((recvCtrl_here hflits hdst).trans ?_)
  rw [stepSource_north hlp hbypass m, ← hn]
  dsimp only
  rw [hnone]

/-- R513, R517: the message's fails are those of its own, or every slot where its CHECK fails. -/
theorem exec_curtainMessage_pending {p : PendStep} (hp : u.pendingFor n = some p) {bad : List Nat} {q : StepMsg}
    (hbad : bad = if n.checkOk then u.mismatched (n.records.filter (fun r => p.stepM.getLsbD r.slot.val)) else [])
    (hq : q = { n with failM := if n.checkOk then n.failM ||| maskOf bad else n.stepM ||| p.stepM, checkOk := true }) :
    exec (.curtainMessage lp h m) s = .next
      (((if n.checkOk then u.faultMismatched bad else u.raise 0x1004).confirmPending p q).passOn q) := by
  subst hbad hq
  refine congrArg Host.Outcome.next ((recvCtrl_here hflits hdst).trans ?_)
  rw [stepSource_north hlp hbypass m, ← hn]
  dsimp only
  rw [hp]
  rfl

theorem exec_curtainMessage_agrees {p : PendStep} (hp : u.pendingFor n = some p) (hok : n.checkOk = true)
    (hsame : u.mismatched (n.records.filter (fun r => p.stepM.getLsbD r.slot.val)) = []) :
    exec (.curtainMessage lp h m) s = .next ((u.confirmPending p n).passOn n) := by
  have hq : n = { n with failM := if n.checkOk then n.failM ||| maskOf [] else n.stepM ||| p.stepM, checkOk := true } := by
    rw [if_pos hok, or_maskOf_nil, ← hok]
  rw [exec_curtainMessage_pending hflits hdst hlp hbypass hn hp (by rw [if_pos hok, hsame]) hq, if_pos hok]
  rfl

theorem exec_curtainMessage_badCheck {p : PendStep} (hp : u.pendingFor n = some p) (hfails : n.checkOk = false) {q : StepMsg}
    (hq : q = { n with failM := n.stepM ||| p.stepM, checkOk := true }) :
    exec (.curtainMessage lp h m) s = .next (((u.raise 0x1004).confirmPending p q).passOn q) := by
  have hbad : ¬n.checkOk = true := Bool.eq_false_iff.mp hfails
  rw [exec_curtainMessage_pending hflits hdst hlp hbypass hn hp rfl (q := q) (by rw [hq, if_neg hbad]), if_neg hbad]

end

theorem or_and_self_right (a b : BitVec 256) : (a ||| b) &&& b = b := by
  ext i hi
  rw [BitVec.getElem_and, BitVec.getElem_or]
  cases a[i] <;> cases b[i] <;> rfl

/-! ## The obligation -/

/-- Settles O33: a message by the way that it is taken, kept or confirmed. -/
theorem stepMessagesInAChain : Obligations.StepMessagesInAChain := by
  refine ⟨fun lp h m n s u hflits hdst hlp hbypass hn => ⟨exec_statusMessage_head hflits hdst hlp hbypass hn,
    fun hlater hstate hfirst => ?status⟩, fun lp h m n s u hflits hdst hlp hbypass hn =>
    ⟨exec_curtainMessage_stale hflits hdst hlp hbypass hn, fun p hp => ?curtain⟩⟩
  case status =>
    have hexec := fun bad hbad => exec_statusMessage_later hflits hdst hlp hbypass hn hlater hstate hfirst (bad := bad) hbad rfl
    have hcheck : n.checkOk = m.checkOk := by rw [hn]; rfl
    have htick : n.tick = m.tick := by rw [hn]; rfl
    refine ⟨fun hok hsteps => ?_, fun r q hq hok hrecords hmid hstep hst => ?_, fun hbad => ?_⟩
    · have hnone : u.mismatched (n.records.filter (fun r => !r.first)) = [] := mismatched_eq_nil (fun r hr => by
        obtain ⟨hmem, hmid⟩ := List.mem_filter.mp hr
        exact hsteps r hmem (by simpa using hmid))
      rw [hexec [] (by rw [hnone, ite_self]), if_pos (hcheck.trans hok), or_maskOf_nil, ← htick]
      rfl
    · have hone : u.mismatched (n.records.filter (fun r => !r.first)) = [r.slot.val] := by
        rw [hrecords, List.filter_cons_of_pos (by simp [hmid])]
        exact mismatched_singleton hstep hst
      rw [hexec [r.slot.val] (by rw [if_pos (hcheck.trans hok), hone]), if_pos (hcheck.trans hok)]
      refine ⟨_, _, rfl, rfl, ?_⟩
      rw [hq, ← htick, ← tick_faultMismatched [r.slot.val] u]
      rfl
    · have hfails : ¬n.checkOk = true := Bool.eq_false_iff.mp (hcheck.trans hbad)
      rw [hexec [] (by rw [if_neg hfails]), if_neg hfails, or_maskOf_nil]
      refine ⟨_, _, rfl, rfl, ?_, rfl⟩
      rw [← htick, ← raise_tick u 0x1004 none none 0xFFFF]
      rfl
  case curtain =>
    have hcheck : n.checkOk = m.checkOk := by rw [hn]; rfl
    have hgroup : n.group = m.group := by rw [hn]; rfl
    intro g records
    have hg : n.group.toNat % 16 = g := by rw [hgroup]
    refine ⟨fun hok hsteps => ?_, fun hbad => ?_⟩
    · have hsame := mismatched_eq_nil (s := u) (l := n.records.filter (fun r => p.stepM.getLsbD r.slot.val)) (fun r hr => by
        obtain ⟨hmem, hin⟩ := List.mem_filter.mp hr
        exact hsteps r hmem hin)
      refine ⟨_, u.takePending p n, _, exec_curtainMessage_agrees hflits hdst hlp hbypass hn hp (hcheck.trans hok) hsame, ?_, ?_, rfl⟩
      · rw [← hg]
        rfl
      · rw [← hg]
        rfl
    · obtain ⟨q, hq⟩ : ∃ q : StepMsg, q = { n with failM := n.stepM ||| p.stepM, checkOk := true } := ⟨_, rfl⟩
      have hfail : q.failM &&& p.stepM = p.stepM := by
        rw [hq]
        exact or_and_self_right _ _
      have hqg : q.group.toNat % 16 = g := by
        rw [hq]
        exact hg
      have hfree : q.freeM = n.freeM := by rw [hq]
      have hrecords : p.withTokens q = records := by rw [hq]; rfl
      refine ⟨_, (u.raise 0x1004).takePending p q, ((u.raise 0x1004).confirmPending p q),
        exec_curtainMessage_badCheck hflits hdst hlp hbypass hn hp (hcheck.trans hbad) hq, ?_, rfl, ?_, ?_⟩
      · show Tab.erase (u.raise 0x1004).tick.pend (q.group.toNat % 16) = _
        rw [hqg, raise_tick]
      · unfold State.confirmPending
        rw [hqg, hfail, hfree, hrecords]
      · rw [hq]
        rfl

end Sys2Proof.Machine
end

section
/-! The stacks' own work and the hold of a re-fetch (11, R524, R531, R536, R538, R547, R549; 14, R679): one equation per command and way
it goes, and what the freeing of page table entries leaves in the table and in the KV registers. -/

namespace Sys2Proof.Machine

/-! ## Refresh and patrol (R524, R547) -/

/-- A read of a granule of a stack without errors changes nothing, whether it delivers or not. -/
theorem granuleRead_clean {s : State} {k : Nat} (herrs : (s.stkAt k).errs = []) (chan off : Nat) :
    (s.granuleRead k chan off).2 = s := by
  simp only [State.granuleRead, herrs, List.find?_nil]
  split <;> rfl

section
variable {s : State} {k : Fin 16}

theorem exec_stkRefresh_idle {x : BitVec 8} (h : s.glb.st = .off ∨ s.stkPopulated k.val = false) :
    exec (.stkRefresh k x) s = .next s :=
  congrArg Host.Outcome.next (if_pos (by simpa using h))

theorem exec_stkRefresh_samples {x : BitVec 8} (hon : s.glb.st ≠ .off) (hpop : s.stkPopulated k.val = true) :
    exec (.stkRefresh k x) s = .next (s.modStk k.val (fun t => { t with
      tempNow := x, tempPeak := if t.tempPeak < x then x else t.tempPeak, hot := decide (85 < x.toNat) })) :=
  congrArg Host.Outcome.next (if_neg (by simp [hon, hpop]))

theorem exec_stkPatrolRead_idle (h : s.stkPopulated k.val = false ∨ (s.stkAt k.val).patrolEn = false ∨
    ((s.stkAt k.val).state ≠ 2 ∧ (s.stkAt k.val).state ≠ 4)) : exec (.stkPatrolRead k) s = .next s :=
  congrArg Host.Outcome.next (if_pos (by simpa [or_assoc] using h))

section
variable (hpop : s.stkPopulated k.val = true) (hen : (s.stkAt k.val).patrolEn = true)
  (hstate : (s.stkAt k.val).state = 2 ∨ (s.stkAt k.val).state = 4)
include hpop hen hstate

/-- A patrol read is a granule read of the round's next place, then a step of the round. -/
theorem exec_stkPatrolRead_runs {g : Nat × Nat} (hg : g = patrolPlace (s.stkAt k.val).patrolAt) :
    exec (.stkPatrolRead k) s = .next (
      if (s.stkAt k.val).patrolAt + 1 < stackGranules then
        (s.granuleRead k.val g.1 g.2).2.modStk k.val (fun t => { t with patrolAt := t.patrolAt + 1, patrolOn := true })
      else (s.granuleRead k.val g.1 g.2).2.modStk k.val (fun t => { t with
        patrolAt := 0, patrolOn := false, rounds := bump t.rounds, laneHits := [], rowHits := [] })) := by
  subst hg
  have hstate' : ((s.stkAt k.val).state == 2 || (s.stkAt k.val).state == 4) = true := by
    rw [Bool.or_eq_true, beq_iff_eq, beq_iff_eq]
    exact hstate
  refine congrArg Host.Outcome.next (if_neg ?_)
  rw [hpop, hen, hstate']
  decide

/-- What a patrol read leaves, and where the round goes on. -/
theorem exec_stkPatrolRead_round : ∃ t : State, exec (.stkPatrolRead k) s = .next t ∧
    t.tick = s.tick ∧ t.slots = s.slots ∧ t.kv = s.kv ∧ t.core = s.core ∧
    ((s.stkAt k.val).patrolAt + 1 < stackGranules → (t.stkAt k.val).patrolOn = true) ∧
    (stackGranules ≤ (s.stkAt k.val).patrolAt + 1 → (t.stkAt k.val).patrolAt = 0 ∧ (t.stkAt k.val).patrolOn = false) ∧
    ((s.stkAt k.val).errs = [] → t.mem = s.mem ∧ (t.stkAt k.val).patrolAt =
      if (s.stkAt k.val).patrolAt + 1 < stackGranules then (s.stkAt k.val).patrolAt + 1 else 0) := by
  refine ⟨_, exec_stkPatrolRead_runs hpop hen hstate rfl, ?_⟩
  generalize patrolPlace (s.stkAt k.val).patrolAt = g
  have hread := granuleRead_read s k.val g.1 g.2
  split
  case isTrue hmore =>
    refine ⟨hread.tick, hread.slots, hread.kv, hread.core, fun _ => ?_, fun hlast => absurd hmore (Nat.not_lt.mpr hlast), fun herrs => ?_⟩
    · rw [State.stkAt_modStk]
    · rw [State.stkAt_modStk, granuleRead_clean herrs]
      exact ⟨rfl, rfl⟩
  case isFalse hlast =>
    refine ⟨hread.tick, hread.slots, hread.kv, hread.core, fun hmore => absurd hmore hlast, fun _ => ?_, fun herrs => ?_⟩
    · rw [State.stkAt_modStk]
      exact ⟨rfl, rfl⟩
    · rw [State.stkAt_modStk, granuleRead_clean herrs]
      exact ⟨rfl, rfl⟩

end

end

/-! ## Spill copies (R536) -/

theorem kv_writeDev (s : State) (a : Nat) (l : List Byte) : (s.writeDev a l).kv = s.kv := by
  rw [(writeDev_only s a l).2]

theorem tick_writeDev (s : State) (a : Nat) (l : List Byte) : (s.writeDev a l).tick = s.tick := by
  rw [(writeDev_only s a l).2]

theorem slots_writeDev (s : State) (a : Nat) (l : List Byte) : (s.writeDev a l).slots = s.slots := by
  rw [(writeDev_only s a l).2]

theorem kvAt_of_kv_eq {s u : State} (h : u.kv = s.kv) (d : Nat) : u.kvAt d = s.kvAt d := by
  unfold State.kvAt
  rw [h]

theorem not_mem_dropKey (l : List Nat) (k : Nat) : k ∉ dropKey l k := by
  simp [dropKey]

section
variable {s : State} {d : Fin 4}

theorem exec_spillCopyDone_idle (h : (s.kvAt d.val).spilling = []) : exec (.spillCopyDone d) s = .next s := by
  show execSpillCopyDone d s = _
  simp only [execSpillCopyDone, h]

variable {n p : Nat} {rest : List (Nat × Nat)} {x : Nat} (hspill : (s.kvAt d.val).spilling = (n, p) :: rest)
  (hx : x = ptePage (s.pte d.val n) * 65536)
include hspill hx

theorem exec_spillCopyDone_lands (hread : (s.readDev x 65536).1 = true) : exec (.spillCopyDone d) s =
    .next (((s.readDev x 65536).2.writeDev (p * 65536) (s.peek x 65536)).modKv d.val (fun k => { k with
      spilling := rest, landed := k.landed ++ [(n, p)] })) := by
  show execSpillCopyDone d s = _
  simp only [execSpillCopyDone, hspill, ← hx, if_pos hread]

theorem exec_spillCopyDone_unread (hread : (s.readDev x 65536).1 = false) : exec (.spillCopyDone d) s =
    .next ((s.readDev x 65536).2.modKv d.val (fun k => { k with spilling := rest, used := dropKey k.used p })) := by
  show execSpillCopyDone d s = _
  simp only [execSpillCopyDone, hspill, ← hx, hread, Bool.false_eq_true, if_false]

end

/-! ## Freeing page table entries (R531, R538) -/

/-- A read of consecutive keys depends on those keys alone. -/
theorem tab_range_congr {β : Type} {d : β} {t u : Tab β} : ∀ {n lo : Nat},
    (∀ j, lo ≤ j → j < lo + n → Tab.get d t j = Tab.get d u j) → Tab.range d t lo n = Tab.range d u lo n
  | 0, _, _ => rfl
  | n + 1, lo, h => by
    unfold Tab.range
    rw [h lo (by omega) (by omega), tab_range_congr fun j hlo hhi => h j (by omega) (by omega)]

section
variable (s : State) (d n : Nat)

theorem mem_kvFreePage : (s.kvFreePage d n).mem = Tab.setRange memDefault s.mem (s.pteAddr d n) (leBytes 8 0) :=
  (writeDev_only ..).1

theorem wf_kvFreePage (hwf : Memory.wf s.mem = true) : Memory.wf (s.kvFreePage d n).mem = true := by
  rw [mem_kvFreePage]
  exact tab_setRange_wf memDefault _ _ _ hwf

/-- Freeing a page leaves the tick controller, the slots and the cores. -/
theorem kvFreePage_frame : (s.kvFreePage d n).tick = s.tick ∧ (s.kvFreePage d n).slots = s.slots ∧
    (s.kvFreePage d n).core = s.core :=
  ⟨tick_writeDev .., slots_writeDev .., core_writeDev ..⟩

/-- What freeing a page changes in the KV registers of its die, of those that say which pages are mapped and queued. -/
theorem kvAt_kvFreePage : ((s.kvFreePage d n).kvAt d).pt = (s.kvAt d).pt ∧
    ((s.kvFreePage d n).kvAt d).freeq = dropKey (s.kvAt d).freeq n ∧ ((s.kvFreePage d n).kvAt d).tlb = dropKey (s.kvAt d).tlb n := by
  have hkv : (s.setPte d n 0).kvAt d = s.kvAt d := kvAt_of_kv_eq (kv_writeDev ..) d
  rw [State.kvFreePage, kvAt_modKv, if_pos rfl, hkv]
  exact ⟨rfl, rfl, rfl⟩

/-- The entry of the freed page reads 0; every other entry, 8 bytes apart (R531), reads as before. -/
theorem pte_kvFreePage (hwf : Memory.wf s.mem = true) (m : Nat) :
    (s.kvFreePage d n).pte d m = if m = n then 0 else s.pte d m := by
  have haddr : (s.kvFreePage d n).pteAddr d m = s.pteAddr d m := by
    unfold State.pteAddr
    rw [(kvAt_kvFreePage s d n).1]
  unfold State.pte State.peek
  rw [haddr, mem_kvFreePage]
  split
  case isTrue h =>
    subst h
    exact congrArg leNat (tab_range_setRange memDefault (leBytes 8 0) s.mem (s.pteAddr d m) hwf)
  case isFalse h =>
    refine congrArg leNat (tab_range_congr fun j hlo hhi => tab_get_setRange_out memDefault _ _ _ j hwf ?_)
    have hlen : (leBytes 8 0).length = 8 := rfl
    rw [hlen]
    unfold State.pteAddr at hlo hhi ⊢
    omega

end

/-- Dropping keys one after another keeps the members that are none of them. -/
theorem foldl_dropKey : ∀ l q : List Nat, l.foldl dropKey q = q.filter (fun n => !l.contains n)
  | [], q => (List.filter_eq_self.mpr fun _ _ => rfl).symm
  | k :: l, q => by
    rw [List.foldl_cons, foldl_dropKey l, dropKey, List.filter_filter]
    refine List.filter_congr fun n _ => ?_
    rw [List.contains_cons, Bool.not_or, Bool.and_comm]

section
variable (d : Nat)

theorem foldl_kvFreePage_frame : ∀ (l : List Nat) (s : State), (l.foldl (fun s n => s.kvFreePage d n) s).tick = s.tick ∧
    (l.foldl (fun s n => s.kvFreePage d n) s).slots = s.slots ∧ (l.foldl (fun s n => s.kvFreePage d n) s).core = s.core
  | [], _ => ⟨rfl, rfl, rfl⟩
  | n :: l, s => by
    obtain ⟨htick, hslots, hcore⟩ := kvFreePage_frame s d n
    obtain ⟨htick', hslots', hcore'⟩ := foldl_kvFreePage_frame l (s.kvFreePage d n)
    exact ⟨htick'.trans htick, hslots'.trans hslots, hcore'.trans hcore⟩

theorem freeq_foldl_kvFreePage (l : List Nat) (s : State) : ((l.foldl (fun s n => s.kvFreePage d n) s).kvAt d).freeq =
    (s.kvAt d).freeq.filter (fun n => !l.contains n) := by
  rw [← foldl_dropKey]
  exact (List.foldl_hom (fun s : State => (s.kvAt d).freeq) fun s n => (kvAt_kvFreePage s d n).2.1.symm).symm

theorem tlb_foldl_kvFreePage (l : List Nat) (s : State) : ((l.foldl (fun s n => s.kvFreePage d n) s).kvAt d).tlb =
    (s.kvAt d).tlb.filter (fun n => !l.contains n) := by
  rw [← foldl_dropKey]
  exact (List.foldl_hom (fun s : State => (s.kvAt d).tlb) fun s n => (kvAt_kvFreePage s d n).2.2.symm).symm

/-- After a run of frees the entries of the freed pages read 0 and the others as before. -/
theorem pte_foldl_kvFreePage (m : Nat) : ∀ (l : List Nat) (s : State), Memory.wf s.mem = true →
    (l.foldl (fun s n => s.kvFreePage d n) s).pte d m = if m ∈ l then 0 else s.pte d m
  | [], _, _ => (if_neg List.not_mem_nil).symm
  | n :: l, s, hwf => by
    rw [List.foldl_cons, pte_foldl_kvFreePage m l _ (wf_kvFreePage s d n hwf), pte_kvFreePage s d n hwf]
    by_cases h : m = n <;> simp [h]

end

/-! ## The obligation -/

/-- Settles O49: the equations of the commands above; what a spill's read leaves is `ReadOnly`, and the freed entries are the
induction over the frees of `pte_foldl_kvFreePage`. -/
theorem stackUpkeep : Obligations.StackUpkeep := by
  unfold Obligations.StackUpkeep
  refine ⟨fun s k x => ⟨exec_stkRefresh_idle, exec_stkRefresh_samples, rfl, exec_stkPatrolRead_idle, exec_stkPatrolRead_round⟩,
    fun s d => ⟨exec_spillCopyDone_idle, fun n p rest x hspill hx => ?_, ?_⟩, fun s n => ⟨fun h => ?_, fun b h => ?_⟩⟩
  · have hread := readDev_read s x 65536
    have hkv : (s.readDev x 65536).2.kvAt d.val = s.kvAt d.val := kvAt_of_kv_eq hread.kv d.val
    refine ⟨fun hok => ⟨_, exec_spillCopyDone_lands hspill hx hok, (writeDev_only ..).1, ?_, ?_,
        (tick_writeDev ..).trans hread.tick, (slots_writeDev ..).trans hread.slots⟩,
      fun hbad => ⟨_, exec_spillCopyDone_unread hspill hx hbad, rfl, ?_, ?_, ?_⟩⟩
    · rw [State.kvAt_modKv]
    · rw [State.kvAt_modKv, kvAt_of_kv_eq (kv_writeDev ..), hkv]
    · rw [State.kvAt_modKv]
    · rw [State.kvAt_modKv, hkv]
    · rw [State.kvAt_modKv]
      exact not_mem_dropKey _ p
  · refine ⟨_, rfl, freeq_foldl_kvFreePage .., fun hwf n hn => ⟨?_, ?_⟩, foldl_kvFreePage_frame ..⟩
    · rw [pte_foldl_kvFreePage _ _ _ _ hwf, if_pos hn]
    · rw [tlb_foldl_kvFreePage]
      simp [hn]
  · exact congrArg Host.Outcome.next (if_neg (by simp [h]))
  · exact congrArg Host.Outcome.next (if_pos (by simp [h]))

end Sys2Proof.Machine
end
section
/-! What every command keeps and answers, over the whole of `exec` (15, R722, R727, R728; 16, R731, R733; log 1, log 2). -/

namespace Sys2Proof.Machine

/-- Settles O4: `Keeps` with the owner's key and lock, over the whole of `exec` but the four commands that act on them. -/
theorem ownerKeyChangesOnlyByToken : Obligations.OwnerKeyChangesOnlyByToken := by
  intro c s t htoken henroll hlock hwrite h
  have hacts : actsOnOwnerKey c = false := by
    unfold actsOnOwnerKey
    split
    · exact (htoken _ _ rfl).elim
    · exact (henroll _ _ rfl).elim
    · exact (hlock _ rfl).elim
    · exact (hwrite _ _ _ _ rfl).elim
    · rfl
  exact ((keeps_exec c (fun _ => hacts) (Keeps.refl s)).out t h).owner rfl

/-! ## The queue (log 1) -/

/-- Settles O1: the definition of a step at a queue that holds a command. -/
theorem stepRunsTheFrontCommand : Obligations.StepRunsTheFrontCommand := fun _ _ _ => rfl

/-- Settles O2: the definition of a step at an empty queue. -/
theorem emptyQueueIdles : Obligations.EmptyQueueIdles := by
  intro s h
  unfold step
  rw [h]

/-! ## Every command answers a next state (log 2) -/

/-- The answer is a next state. -/
def Goes (a : Answer) : Prop := ∃ t, a = .next t

theorem goes_next (s : State) : Goes (.next s) := ⟨s, rfl⟩

theorem goes_ite {c : Prop} [Decidable c] {a b : Answer} (ha : Goes a) (hb : Goes b) : Goes (if c then a else b) := by
  split
  · exact ha
  · exact hb

theorem goes_writeUpdCmd (p : Port) (v : Word) (s : State) : Goes (writeUpdCmd p v s) := by
  unfold writeUpdCmd
  split <;> exact goes_next _

theorem goes_writeMbxCmd (p : Port) (v : Word) (s : State) : Goes (writeMbxCmd p v s) := by
  unfold writeMbxCmd
  dsimp only
  split <;> exact goes_next _

theorem goes_writeRehCmd (p : Port) (v : Word) (s : State) : Goes (writeRehCmd p v s) := by
  unfold writeRehCmd
  split <;> exact goes_next _

theorem goes_writeHostRing (p : Port) (r : HostRing) (o : Nat) (v : Word) (s : State) : Goes (writeHostRing p r o v s) := by
  unfold writeHostRing
  split <;> exact goes_next _

theorem goes_writeWinCmd (p : Port) (w : Nat) (v : Word) (s : State) : Goes (writeWinCmd p w v s) := by
  unfold writeWinCmd
  split <;> exact goes_next _

/-- A write of BAR0, block by block: the register's own row or its type's write. -/
theorem goes_writeBar0 (p : Port) (off : Nat) (v : Word) (s : State) : Goes (writeBar0 p off v s) := by
  unfold writeBar0
  dsimp only
  split
  case h_4 => exact goes_writeHostRing ..
  case h_6 => exact goes_ite (goes_writeUpdCmd ..) (goes_next _)
  case h_7 => exact goes_ite (goes_writeMbxCmd ..) (goes_next _)
  case h_9 => exact goes_ite (goes_writeRehCmd ..) (goes_next _)
  case h_13 => exact goes_ite (goes_writeWinCmd ..) (goes_next _)
  all_goals repeat' apply goes_ite
  all_goals exact goes_next _

theorem goes_writeBar2 (p : Port) (off : Nat) (v : Word) (s : State) : Goes (writeBar2 p off v s) := by
  unfold writeBar2
  repeat' apply goes_ite
  all_goals exact goes_next _

/-- Settles O6: the meaning of every command is a next state as it stands; only REGISTER_WRITE chooses among meanings. -/
theorem everyCommandGoesOn : Obligations.EveryCommandGoesOn := by
  intro c s
  cases c
  case registerWrite p bar2 off v => exact goes_ite (goes_writeBar2 ..) (goes_writeBar0 ..)
  all_goals exact goes_next _

end Sys2Proof.Machine
end
section
/-! Supplies, thermal and the supervised pins (17, R771, R777, R779, R787, R791; 15, R711). -/

namespace Sys2Proof.Machine

/-! ## The supply's limits and excursions (R777) -/

/-- With no spill and no staging under way a loss of power leaves the flash. -/
theorem flashAfterLoss_idle {s : State} (hstaging : s.upd.staging = none) (hspill : s.reh.spilling = false) :
    s.flashAfterLoss = s.upd.flash := by
  simp [State.flashAfterLoss, hstaging, hspill]

theorem exec_supplyLoss_outside {v : BitVec 16} (h : v.toNat < 4200 ∨ 6200 < v.toNat) (s : State) :
    exec (.supplyLoss v) s = .next ({ s with pwr := { s.pwr with mv10 := v } } : State).powerOff :=
  congrArg Host.Outcome.next (if_pos h)

theorem inExcursion_iff (n : Nat) : inExcursion n = true ↔ (4200 ≤ n ∧ n < 4400) ∨ (6000 < n ∧ n ≤ 6200) := by
  simp [inExcursion]

theorem exec_supplyRange_inside {v : BitVec 16} {s : State} (hon : s.glb.st ≠ .off) (h : inExcursion v.toNat = true) :
    exec (.supplyRange v) s = .next (
      if s.pwr.excursion then { s with pwr := { s.pwr with mv10 := v, excursion := true } }
      else ({ s with pwr := { s.pwr with mv10 := v, excursion := true } } : State).raise 0x9009) :=
  congrArg Host.Outcome.next (if_pos ⟨hon, h⟩)

/-- Settles O8: outside the limits the answer is `powerOff` of the state with the new reading, which is the reset state with what
the supervisor and the flash keep; inside the bands it is the reading, with the event where no excursion is under way. -/
theorem supplyLimitsAndExcursions : Obligations.SupplyLimitsAndExcursions := by
  refine ⟨fun v s hout hstaging hspill => ?loss, fun v s hon hband => ?band, fun w v a s => ?sample⟩
  case loss =>
    have hflash := flashAfterLoss_idle (s := { s with pwr := { s.pwr with mv10 := v } }) hstaging hspill
    exact ⟨_, exec_supplyLoss_outside hout s, rfl, rfl, rfl, rfl, rfl, rfl, hflash, rfl, rfl, rfl, rfl, rfl⟩
  case band =>
    rw [exec_supplyRange_inside hon ((inExcursion_iff _).mpr hband)]
    refine ⟨fun hnew => by rw [if_neg (by simp [hnew])], fun hold => ?_⟩
    rw [if_pos hold, ← hold]
  case sample => exact ⟨_, rfl, rfl, rfl, rfl, rfl, rfl, rfl⟩

/-! ## Junction samples (R786, R787) -/

/-- The power registers after a sample below 110 °C, before the count of THERM_N's time. -/
def PwrSt.sampled (x : PwrSt) (a b : Word) : PwrSt :=
  let want : BitVec 2 := if 100 ≤ maxByte a b then 2 else if 95 ≤ maxByte a b then 1 else 0
  { x with
    tj := a, tjIo := b, thermStep := if x.thermStep < want then want else x.thermStep,
    therm := if 100 ≤ maxByte a b then true else if maxByte a b < 95 then false else x.therm }

theorem exec_junctionSample_trips {a b : Word} {s : State} (hon : s.glb.st ≠ .off) (hot : 110 ≤ maxByte a b) :
    exec (.junctionSample a b) s = .next ({ s with pwr := { s.pwr with
      tj := a, tjIo := b, trip := true, last9 := 0x9005, alert := true } } : State).powerOff :=
  congrArg Host.Outcome.next ((if_neg hon).trans (if_pos hot))

/-- With THERM_N asserted already, a sample below 110 °C raises nothing. -/
theorem exec_junctionSample_warned {a b : Word} {s : State} (hon : s.glb.st ≠ .off) (hcool : maxByte a b < 110)
    (htherm : s.pwr.therm = true) :
    exec (.junctionSample a b) s = .next ({ s with pwr := s.pwr.sampled a b } : State).countTherm := by
  refine congrArg Host.Outcome.next ((if_neg hon).trans ((if_neg (Nat.not_le.mpr hcool)).trans ?_))
  refine congrArg State.countTherm (if_neg ?_)
  simp [htherm]

/-- The count of THERM_N's time is of the supervisor's own counters. -/
theorem countTherm_only (s : State) : ∃ n m, s.countTherm = { s with pwr := { s.pwr with thermSamples := n, thermMs := m } } := by
  unfold State.countTherm
  split
  · dsimp only [State.modPwr]
    split
    · exact ⟨_, _, rfl⟩
    · exact ⟨_, _, rfl⟩
  · exact ⟨_, _, rfl⟩

/-- The requested step is at least the one wanted, and a request that stands stays. -/
theorem le_thermStep (want x : BitVec 2) : want.toNat ≤ (if x < want then want else x).toNat := by
  split
  · exact Nat.le_refl _
  · next h => exact Nat.not_lt.mp h

theorem sampled_parts (x : PwrSt) (a b : Word) : (x.sampled a b).tj = a ∧ (x.sampled a b).tjIo = b ∧ (x.sampled a b).trip = x.trip := by
  simp only [PwrSt.sampled, and_self]

theorem sampled_hot {x : PwrSt} {a b : Word} (h : 100 ≤ maxByte a b) : 2 ≤ (x.sampled a b).thermStep.toNat := by
  simp only [PwrSt.sampled, if_pos h]
  exact le_thermStep 2 x.thermStep

theorem sampled_warm {x : PwrSt} {a b : Word} (h : 95 ≤ maxByte a b) : 1 ≤ (x.sampled a b).thermStep.toNat := by
  simp only [PwrSt.sampled, if_pos h]
  refine Nat.le_trans ?_ (le_thermStep _ x.thermStep)
  split <;> decide

theorem sampled_cool {x : PwrSt} {a b : Word} (h : maxByte a b < 95) :
    (x.sampled a b).thermStep = x.thermStep ∧ (x.sampled a b).therm = false := by
  have hnot : ¬ 100 ≤ maxByte a b := by omega
  simp [PwrSt.sampled, hnot, Nat.not_le.mpr h, h]

theorem sampled_therm {x : PwrSt} {a b : Word} (h : 95 ≤ maxByte a b) (htherm : x.therm = true) : (x.sampled a b).therm = true := by
  simp [PwrSt.sampled, Nat.not_lt.mpr h, htherm]

/-- Settles O9: the ways a sample goes, by `exec_junctionSample_trips` and `exec_junctionSample_warned`, and the guards of
POWER_GOOD and TRIP_RELEASE. -/
theorem thermalTripAndRelease : Obligations.ThermalTripAndRelease := by
  refine ⟨fun a b s hon hot => ?trip, fun a b s hon hcool htherm => ?warned, fun env s htrip => ?held, fun s htrip => ?release⟩
  case trip => exact ⟨_, exec_junctionSample_trips hon hot, rfl, rfl, rfl, rfl, rfl, rfl, rfl⟩
  case warned =>
    have hexec := exec_junctionSample_warned hon hcool htherm
    obtain ⟨htj, hio, htrip⟩ := sampled_parts s.pwr a b
    have hhot := sampled_hot (x := s.pwr) (a := a) (b := b)
    have hwarm := sampled_warm (x := s.pwr) (a := a) (b := b)
    have hlow := sampled_cool (x := s.pwr) (a := a) (b := b)
    have hkeeps := fun h => sampled_therm (x := s.pwr) (a := a) (b := b) h htherm
    generalize s.pwr.sampled a b = y at hexec htj hio htrip hhot hwarm hlow hkeeps
    obtain ⟨n, m, hcount⟩ := countTherm_only { s with pwr := y }
    rw [hcount] at hexec
    exact ⟨_, hexec, rfl, htj, hio, htrip, hhot, hwarm, hlow, hkeeps, rfl⟩
  case held => exact congrArg Host.Outcome.next (if_neg (by simp [htrip]))
  case release => exact congrArg Host.Outcome.next (if_pos htrip)

/-! ## PWR_HOLD_N and MOTION_N (R711, R791) -/

/-- The end of a staging: its slot is INVALID and event 0x800D tells it (R711). -/
theorem endStaging_fw {s : State} {b : Bool} {m : FwImage} (h : s.upd.staging = some (.fw b m)) :
    s.endStaging.upd.staging = none ∧ s.endStaging.upd.flash = s.upd.flash.setSlotCode (slotIndex false b) 5 ∧
      s.endStaging.pin = s.pin := by
  unfold State.endStaging
  rw [h]
  exact ⟨by rw [raise_upd]; rfl, by rw [raise_upd]; rfl, raise_pin ..⟩

theorem endStaging_cfg {s : State} {b : Bool} {c : CfgImage} (h : s.upd.staging = some (.cfg b c)) :
    s.endStaging.upd.staging = none ∧ s.endStaging.upd.flash = s.upd.flash.setSlotCode (slotIndex true b) 5 ∧
      s.endStaging.pin = s.pin := by
  unfold State.endStaging
  rw [h]
  exact ⟨by rw [raise_upd]; rfl, by rw [raise_upd]; rfl, raise_pin ..⟩

theorem endStaging_idle {s : State} (h : s.upd.staging = none) : s.endStaging = s := by
  unfold State.endStaging
  rw [h]

/-- A change of a supervised pin while nothing is staged, or its release, is its event alone. -/
theorem pinChange_event {s : State} (hon : s.glb.st ≠ .off) {code : Nat} {low : Bool} (h : s.upd.staging = none ∨ low = false) :
    s.pinChange code low = s.raise code := by
  unfold State.pinChange
  rw [if_neg hon]
  rcases h with h | h
  · have hidle : (s.raise code).endStaging = s.raise code := endStaging_idle (by rw [raise_upd, h])
    simp only [hidle, ite_self]
  · simp [h]

/-- An assertion ends a staging, whatever the device state. -/
theorem pinChange_asserted (s : State) (code : Nat) :
    ∃ u : State, s.pinChange code true = u.endStaging ∧ u.upd = s.upd ∧ u.pin = s.pin := by
  unfold State.pinChange
  split
  · exact ⟨s, rfl, rfl, rfl⟩
  · exact ⟨s.raise code, rfl, raise_upd .., raise_pin ..⟩

theorem exec_pwrHold_changes {level : Bool} {s : State} (h : level ≠ s.pin.pwrHoldN) :
    exec (.pwrHold level) s = .next (({ s with pin := { s.pin with pwrHoldN := level } } : State).pinChange 0x9006 (!level)) :=
  congrArg Host.Outcome.next (if_neg h)

theorem exec_motion_changes {level : Bool} {s : State} (h : level ≠ s.pin.motionN) :
    exec (.motion level) s = .next (({ s with pin := { s.pin with motionN := level } } : State).pinChange 0x9007 (!level)) :=
  congrArg Host.Outcome.next (if_neg h)

/-- Settles O10: a change of level is `pinChange`, by whether it asserts the pin during a staging. -/
theorem holdAndMotionPins : Obligations.HoldAndMotionPins := by
  refine ⟨fun level s hon hne h => ?hold, fun level s hon hne h => ?motion, fun b m s hpin hstage => ?holdEnds,
    fun b c s hpin hstage => ?motionEnds, fun s => ⟨congrArg Host.Outcome.next (if_pos rfl), congrArg Host.Outcome.next (if_pos rfl)⟩⟩
  case hold =>
    exact (exec_pwrHold_changes hne).trans (congrArg Host.Outcome.next
      (pinChange_event (s := { s with pin := { s.pin with pwrHoldN := level } }) hon (h.imp_right fun hl => by simp [hl])))
  case motion =>
    exact (exec_motion_changes hne).trans (congrArg Host.Outcome.next
      (pinChange_event (s := { s with pin := { s.pin with motionN := level } }) hon (h.imp_right fun hl => by simp [hl])))
  case holdEnds =>
    obtain ⟨u, hu, hupd, hpins⟩ := pinChange_asserted { s with pin := { s.pin with pwrHoldN := false } } 0x9006
    obtain ⟨hnone, hflash, hpin'⟩ := endStaging_fw (s := u) (by rw [hupd]; exact hstage)
    exact ⟨_, exec_pwrHold_changes (by simp [hpin]), by rw [← hnone, ← hu]; rfl, by rw [show (!false) = true from rfl, hu, hpin', hpins],
      by rw [show (!false) = true from rfl, hu, hflash, hupd]⟩
  case motionEnds =>
    obtain ⟨u, hu, hupd, hpins⟩ := pinChange_asserted { s with pin := { s.pin with motionN := false } } 0x9007
    obtain ⟨hnone, hflash, hpin'⟩ := endStaging_cfg (s := u) (by rw [hupd]; exact hstage)
    exact ⟨_, exec_motion_changes (by simp [hpin]), by rw [← hnone, ← hu]; rfl, by rw [show (!false) = true from rfl, hu, hpin', hpins],
      by rw [show (!false) = true from rfl, hu, hflash, hupd]⟩

/-! ## The configured pins (R771) -/

theorem addKey_ne_nil (l : List Nat) (k : Nat) : addKey l k ≠ [] := by
  unfold addKey
  split
  · next h => exact fun hl => by simp [hl] at h
  · exact List.cons_ne_nil _ _

/-- A pin that is low asks for the 100 MHz step. -/
theorem brakeStep_of_low {s : State} (h : s.pwr.brake ≠ []) : s.brakeStep = 2 := by
  simp [State.brakeStep, h]

theorem two_le_reqStep {s : State} (h : s.brakeStep = 2) : 2 ≤ s.reqStep := by
  unfold State.reqStep
  omega

theorem getLsbD_ofNat_two_pow (w i j : Nat) : (BitVec.ofNat w (2 ^ i)).getLsbD j = (decide (j < w) && decide (i = j)) := by
  rw [BitVec.getLsbD_ofNat, Nat.testBit_two_pow]

theorem getLsbD_clear_bit (x : BitVec 4) (i : Fin 4) : (x &&& ~~~(BitVec.ofNat 4 (2 ^ i.val))).getLsbD i.val = false := by
  rw [BitVec.getLsbD_and, BitVec.getLsbD_not, getLsbD_ofNat_two_pow]
  simp

theorem getLsbD_set_bit (x : BitVec 4) (i : Fin 4) : (x ||| BitVec.ofNat 4 (2 ^ i.val)).getLsbD i.val = true := by
  rw [BitVec.getLsbD_or, getLsbD_ofNat_two_pow]
  simp

theorem exec_pwrBrake_on {i : Fin 4} {s : State} (h : s.pinFunc i.val = 5) : exec (.pwrBrake i) s = .next { s with
    pin := { s.pin with gp := s.pin.gp &&& ~~~(BitVec.ofNat 4 (2 ^ i.val)) },
    pwr := { s.pwr with brake := addKey s.pwr.brake i.val } } :=
  congrArg Host.Outcome.next (if_pos h)

theorem exec_pwrBrakeRelease_on {i : Fin 4} {s : State} (h : s.pinFunc i.val = 5) : exec (.pwrBrakeRelease i) s = .next { s with
    pin := { s.pin with gp := s.pin.gp ||| BitVec.ofNat 4 (2 ^ i.val) },
    pwr := { s.pwr with brake := dropKey s.pwr.brake i.val } } :=
  congrArg Host.Outcome.next (if_pos h)

/-- Settles O11: each command is a guard on the pin's function; a pin that is low puts itself among the sources of the 100 MHz step. -/
theorem configuredPins : Obligations.ConfiguredPins := by
  refine ⟨fun i s h => ⟨?low, ?release⟩, fun i s h => ⟨_, congrArg Host.Outcome.next (if_pos h), rfl⟩,
    fun s h => congrArg Host.Outcome.next (if_pos h), fun i s h5 h4 => ⟨congrArg Host.Outcome.next (if_neg h5),
      congrArg Host.Outcome.next (if_neg h5), congrArg Host.Outcome.next (if_neg h4)⟩⟩
  case low =>
    have hstep := brakeStep_of_low (s := { s with
      pin := { s.pin with gp := s.pin.gp &&& ~~~(BitVec.ofNat 4 (2 ^ i.val)) },
      pwr := { s.pwr with brake := addKey s.pwr.brake i.val } }) (addKey_ne_nil _ _)
    exact ⟨_, exec_pwrBrake_on h, rfl, hstep, two_le_reqStep hstep, getLsbD_clear_bit .., rfl⟩
  case release => exact ⟨_, exec_pwrBrakeRelease_on h, rfl, getLsbD_set_bit .., rfl⟩

/-! ## PARK and WAKE (R779) -/

theorem exec_park_owns {p : Port} {s : State} (hp : s.owns p) : exec (.park p) s = .next (
    if s.glb.st = .ready then { s with
      glb := { s.glb with st := .park, aclkStep := 3 }, pwr := { s.pwr with cmd := 1 },
      err := { s.err with injArm := false }, tick := { s.tick with held := [], holdFrom := none } }
    else ({ s with pwr := { s.pwr with cmd := 1 } } : State).raise 0x900A) := by
  refine congrArg Host.Outcome.next ((ownerOnly_owns hp).trans ?_)
  simp only [State.modPwr, State.disarm, State.modErr, State.modTick]
  rfl

theorem exec_wake_owns {p : Port} {s : State} (hp : s.owns p) : exec (.wake p) s = .next (
    if s.glb.st = .park then { s with
      glb := { s.glb with st := .ready, aclkStep := BitVec.ofNat 2 s.reqStep }, pwr := { s.pwr with cmd := 2 } }
    else ({ s with pwr := { s.pwr with cmd := 2 } } : State).raise 0x900A) :=
  congrArg Host.Outcome.next (ownerOnly_owns hp)

/-- Settles O13: the two commands by the device state in which they come. -/
theorem parkAndWake : Obligations.ParkAndWake := by
  refine ⟨fun p s hp hst => ?_, fun p s hp hst => ?_, fun p s hp => ⟨fun hst => ?_, fun hst => ?_⟩⟩
  · rw [exec_park_owns hp, if_pos hst]
  · rw [exec_wake_owns hp, if_pos hst]
  · rw [exec_park_owns hp, if_neg hst]
  · rw [exec_wake_owns hp, if_neg hst]

/-! ## SMBus (R769, R770) -/

/-- The code of GLB_STATE that SMB_STATE answers. -/
theorem code_of_state (d : DevState) :
    d.code = (match d with | .off => 15 | .safe => 1 | .boot => 2 | .ready => 3 | .run => 4 | .park => 5) := by
  cases d <;> rfl

/-- Settles O15: the answers of the read-word commands as they stand, SMB_STATE by the two bits, and the alert response by ALERT_N. -/
theorem smbusReads : Obligations.SmbusReads := by
  intro s
  refine ⟨?state, rfl, rfl, rfl, rfl, rfl, fun h => congrArg Host.Outcome.next (if_pos h),
    fun h => congrArg Host.Outcome.next (if_neg (by simp [h]))⟩
  show Host.Outcome.next (s.answer (.word (word (s.glb.st.code + bitAt s.pwr.trip 4 + bitAt s.pwr.therm 5)))) = _
  rw [code_of_state]
  cases s.pwr.trip <;> cases s.pwr.therm <;> rfl

end Sys2Proof.Machine
end
section
/-! Gating (17, R780, R781): the machine of one function, and a write of a word as requests of its functions one after another. -/

namespace Sys2Proof.Machine

/-! ## One function -/

theorem gate_modGate (s : State) (f : Gateable) (g : GateSt → GateSt) : (s.modGate f g).gate f = g (s.gate f) := by
  cases f <;> exact Tab.get_upd_same ..

theorem gate_modGate_other (s : State) (g : GateSt → GateSt) {f e : Gateable} (h : e ≠ f) : (s.modGate f g).gate e = s.gate e := by
  cases f with
  | cluster n =>
    cases e with
    | cluster m => exact Tab.get_upd_other _ _ _ fun hm => h (congrArg _ (Fin.ext hm))
    | link q => rfl
  | link k =>
    cases e with
    | cluster m => rfl
    | link q => exact Tab.get_upd_other _ _ _ fun hq => h (congrArg _ (Fin.ext hq))

theorem modGate_frame (s : State) (f : Gateable) (g : GateSt → GateSt) : s.modGate f g = { s with pwr := (s.modGate f g).pwr } := by
  cases f <;> rfl

/-- The machine's table (R780), state by state. -/
theorem request_of_state (g : GateSt) :
    (g.state = 0 → g.request true = ⟨1, false⟩ ∧ g.request false = g) ∧
    (g.state = 1 → g.request true = ⟨1, false⟩ ∧ g.request false = ⟨1, true⟩) ∧
    (g.state = 2 → g.request true = g ∧ g.request false = ⟨3, false⟩) ∧
    (g.state = 3 → g.request true = ⟨3, true⟩ ∧ g.request false = ⟨3, false⟩) := by
  obtain ⟨st, pend⟩ := g
  refine ⟨?_, ?_, ?_, ?_⟩ <;> (rintro rfl; exact ⟨rfl, rfl⟩)

/-! ## One request (R781) -/

/-- What the requests of other functions leave: the gates of the rest, what is needed, and the state outside the power registers
and the events. -/
structure GateFrame (s t : State) : Prop where
  glb : t.glb = s.glb
  slots : t.slots = s.slots
  core : t.core = s.core
  lnk : t.lnk = s.lnk
  cfg : t.cfg = s.cfg

theorem GateFrame.refl (s : State) : GateFrame s s := ⟨rfl, rfl, rfl, rfl, rfl⟩

theorem GateFrame.trans {s t u : State} (h : GateFrame s t) (k : GateFrame t u) : GateFrame s u :=
  ⟨k.glb.trans h.glb, k.slots.trans h.slots, k.core.trans h.core, k.lnk.trans h.lnk, k.cfg.trans h.cfg⟩

theorem GateFrame.gateNeeded {s t : State} (h : GateFrame s t) (f : Gateable) : t.gateNeeded f = s.gateNeeded f := by
  cases f with
  | cluster n => exact congrArg (fun c : CfgBody => c.usedClusters.contains n.val) h.cfg
  | link p => exact congrArg (fun l : Tab LnkSt => (Tab.get .reset l p.val).en) h.lnk

theorem gate_raise (s : State) (c : Nat) (f : Gateable) : (s.raise c).gate f = s.gate f := by
  cases f with
  | cluster n => exact congrArg (Tab.get .reset · n.val) (raise_pwr_gCluster ..)
  | link p => exact congrArg (Tab.get .reset · p.val) (raise_pwr_gLink ..)

theorem gate_setGateBit (s : State) (f e : Gateable) (on : Bool) : (s.setGateBit f on).gate e = s.gate e := by
  cases f <;> cases e <;> rfl

theorem gateReq_frame (s : State) (f : Gateable) (on : Bool) : GateFrame s (s.gateReq f on) := by
  unfold State.gateReq
  split
  · exact ⟨raise_glb .., raise_slots .., raise_core .., raise_lnk .., raise_cfg ..⟩
  · cases f <;> exact ⟨rfl, rfl, rfl, rfl, rfl⟩

theorem gate_gateReq (s : State) (f : Gateable) (on : Bool) :
    (s.gateReq f on).gate f = if !on && s.gateNeeded f then s.gate f else (s.gate f).request on := by
  unfold State.gateReq
  split
  · exact gate_raise ..
  · rw [gate_modGate, gate_setGateBit]

theorem gate_gateReq_other (s : State) {f e : Gateable} (on : Bool) (h : e ≠ f) : (s.gateReq f on).gate e = s.gate e := by
  unfold State.gateReq
  split
  · exact gate_raise ..
  · rw [gate_modGate_other _ _ h, gate_setGateBit]

/-! ## The functions of a word -/

/-- The requests of a write, in the order of the word's bits. -/
def State.gateReqs (s : State) (v : Word) (l : List (Nat × Gateable)) : State :=
  l.foldl (fun s e => s.gateReq e.2 (v.getLsbD e.1)) s

theorem gateReqs_frame (v : Word) : ∀ (l : List (Nat × Gateable)) (s : State), GateFrame s (s.gateReqs v l)
  | [], s => .refl s
  | e :: l, s => (gateReq_frame s e.2 _).trans (gateReqs_frame v l _)

theorem gate_gateReqs_other (v : Word) {f : Gateable} : ∀ (l : List (Nat × Gateable)) (s : State), f ∉ l.map Prod.snd →
    (s.gateReqs v l).gate f = s.gate f
  | [], _, _ => rfl
  | e :: l, s, h => by
    rw [List.map_cons, List.mem_cons, not_or] at h
    exact (gate_gateReqs_other v l _ h.2).trans (gate_gateReq_other s _ h.1)

/-- A function that a word names once moves by the one request of its bit. -/
theorem gate_gateReqs (v : Word) {i : Nat} {f : Gateable} : ∀ (l : List (Nat × Gateable)) (s : State), (l.map Prod.snd).Nodup →
    (i, f) ∈ l → (s.gateReqs v l).gate f =
      if !v.getLsbD i && s.gateNeeded f then s.gate f else (s.gate f).request (v.getLsbD i)
  | [], _, _, h => absurd h List.not_mem_nil
  | e :: l, s, hnodup, h => by
    rw [List.map_cons, List.nodup_cons] at hnodup
    rcases List.mem_cons.mp h with rfl | hl
    · exact (gate_gateReqs_other v l _ hnodup.1).trans (gate_gateReq s f _)
    · have hne : f ≠ e.2 := fun he => hnodup.1 (he ▸ List.mem_map_of_mem (f := Prod.snd) hl)
      refine (gate_gateReqs v l _ hnodup.2 hl).trans ?_
      rw [(gateReq_frame s e.2 _).gateNeeded, gate_gateReq_other s _ hne]

theorem nodup_gateFunctions (w : Fin 3) : ((gateFunctions w).map Prod.snd).Nodup := by
  revert w
  decide

theorem not_mem_gateFunctions {w w' : Fin 3} (hw : w' ≠ w) {i : Nat} {f : Gateable} (h : (i, f) ∈ gateFunctions w') :
    f ∉ (gateFunctions w).map Prod.snd := by
  have hdisjoint : ∀ w w' : Fin 3, w' ≠ w → ∀ x ∈ gateFunctions w', x.2 ∉ (gateFunctions w).map Prod.snd := by decide +kernel
  exact hdisjoint w w' hw _ h

/-! ## The obligation -/

theorem exec_gateRequest_owns {p : Port} {s : State} (hp : s.owns p) (w : Fin 3) (v : Word) :
    exec (.gateRequest p w v) s = .next (s.gateReqs v (gateFunctions w)) :=
  congrArg Host.Outcome.next (ownerOnly_owns hp)

/-- Settles O14: a write is the requests of its functions, each named once (`gate_gateReqs`); the machine is `request_of_state`. -/
theorem gatingMachine : Obligations.GatingMachine := by
  refine ⟨fun p w v s hp => ?write, request_of_state, fun f s => ⟨?start, ?stop⟩⟩
  case write =>
    obtain ⟨hglb, hslots, hcore, hlnk, _⟩ := gateReqs_frame v (gateFunctions w) s
    exact ⟨_, exec_gateRequest_owns hp w v, fun i f h => gate_gateReqs v _ s (nodup_gateFunctions w) h,
      fun w' i f hw h => gate_gateReqs_other v _ s (not_mem_gateFunctions hw h), hglb, hslots, hcore, hlnk⟩
  case start => exact ⟨_, rfl, modGate_frame .., gate_modGate ..⟩
  case stop => exact ⟨_, rfl, modGate_frame .., gate_modGate ..⟩

end Sys2Proof.Machine
end

section
/-! The TAP (16, R761 to R763; log 12). -/

namespace Sys2Proof.Machine

theorem tapOn_iff (s : State) : s.tapOn = true ↔ s.glb.st ≠ .off := by
  simp [State.tapOn]

theorem modTap_on {s : State} (h : s.glb.st ≠ .off) (f : TapSt → TapSt) : s.modTap f = { s with tap := f s.tap } :=
  if_pos ((tapOn_iff s).mpr h)

/-- A pin-driving instruction acts while both PERST pins are asserted: SAFE and event 0xA020 (R762). -/
theorem pinDrive_asserted {s : State} (hon : s.glb.st ≠ .off) (ha : s.pin.perstA = false) (hb : s.pin.perstB = false) (code : Nat) :
    s.pinDrive code = ({ s with tap := { s.tap with ir := BitVec.ofNat 8 code } } : State).goSafe.raise 0xA020 := by
  unfold State.pinDrive
  rw [modTap_on hon, (tapOn_iff s).mpr hon, ha, hb]
  rfl

theorem pinDrive_released {s : State} (hon : s.glb.st ≠ .off) (h : s.pin.perstA = true ∨ s.pin.perstB = true) (code : Nat) :
    s.pinDrive code = { s with tap := { s.tap with ir := BitVec.ofNat 8 code } } := by
  unfold State.pinDrive
  rw [modTap_on hon]
  refine if_neg ?_
  rcases h with h | h <;> simp [h]

theorem exec_pinDriving {c : Instr × Nat} (h : c ∈ [(Instr.extest, 3), (Instr.clamp, 4), (Instr.highz, 5)]) (s : State) :
    exec c.1 s = .next (s.pinDrive c.2) := by
  simp only [List.mem_cons, List.not_mem_nil, or_false] at h
  rcases h with rfl | rfl | rfl <;> rfl

theorem exec_regrd_aligned {s : State} (hon : s.glb.st ≠ .off) {off : BitVec 32} (h : off.toNat % 4 = 0) :
    exec (.regrd off) s = .next { s with
      tap := { s.tap with ir := 0x10, dr := BitVec.ofNat 64 ((s.readReg s.host.owner.other off.toNat).toNat * 2 ^ 32 + off.toNat) },
      reply := .word (s.readReg s.host.owner.other off.toNat) } := by
  have hword : s.regrdWord off.toNat = (s.readReg s.host.owner.other off.toNat, s) := if_pos h
  show execRegrd off s = _
  unfold execRegrd
  rw [(tapOn_iff s).mpr hon]
  simp only [hword, modTap_on hon]
  rfl

/-- Settles O16: each instruction is a change of the TAP; a pin-driving one is `pinDrive`, by the two PERST pins. -/
theorem tapInstructions : Obligations.TapInstructions := by
  refine ⟨fun s hon => ⟨?bypass, ⟨_, congrArg Host.Outcome.next (if_pos ((tapOn_iff s).mpr hon)), ?idcode⟩, ?sample,
    fun off h => exec_regrd_aligned hon h⟩, fun s hon ha hb c hc => ?drives, fun s hon h c hc => ?selects, fun s => rfl⟩
  case bypass => exact congrArg Host.Outcome.next (modTap_on hon _)
  case idcode =>
    rw [modTap_on hon]
    exact ⟨rfl, rfl, rfl⟩
  case sample => exact congrArg Host.Outcome.next (modTap_on hon _)
  case drives =>
    refine ⟨_, _, (exec_pinDriving hc s).trans (congrArg Host.Outcome.next (pinDrive_asserted hon ha hb c.2)), rfl, ?_, ?_, ?_, ?_, ?_, rfl⟩
    · rw [raise_glb]; rfl
    · rw [raise_tap]; rfl
    · rw [raise_tick]; rfl
    · rw [raise_slots]; rfl
    · rw [raise_upd]; rfl
  case selects => rw [exec_pinDriving hc, pinDrive_released hon h]

end Sys2Proof.Machine
end

section
/-! Configuration requests and resets of a port (13, R606, R649, R650, R652; 15, R697; log 33). -/

namespace Sys2Proof.Machine

/-! ## A port after the other has changed -/

theorem other_ne (p : Port) : p.other ≠ p := by cases p <;> decide

theorem port_other_modPort (s : State) (p : Port) (f : PortSt → PortSt) : (s.modPort p f).port p.other = s.port p.other :=
  port_modPort_other s f (other_ne p)

theorem port_modHost (s : State) (f : HostSt → HostSt) (p : Port) : (s.modHost f).port p = s.port p := by cases p <;> rfl

/-! ## Configuration requests (R606, R697) -/

/-- The state in which a request finds the device: it shows the port out of reset and its link up (log 33). -/
def State.seesRequest (s : State) (p : Port) : State :=
  (s.setPerst p true).modPort p (fun x => { x with linkUp := true, inReset := false })

theorem port_seesRequest (s : State) (p : Port) : (s.seesRequest p).port p = { s.port p with linkUp := true, inReset := false } := by
  cases p <;> rfl

theorem port_seesRequest_other (s : State) (p : Port) : (s.seesRequest p).port p.other = s.port p.other := by
  cases p <;> rfl

theorem seesRequest_frame (s : State) (p : Port) : s.seesRequest p =
    { s with portA := (s.seesRequest p).portA, portB := (s.seesRequest p).portB, pin := (s.seesRequest p).pin } := by
  cases p <;> rfl

theorem exec_configRequest_off {s : State} (h : s.glb.st = .off) (p : Port) (off : BitVec 12) (wr : Option Word) :
    exec (.configRequest p off wr) s = .next { s with reply := .noCompletion } :=
  congrArg Host.Outcome.next (if_pos h)

theorem exec_configRequest_boot {s : State} (h : s.glb.st = .boot) (p : Port) (off : BitVec 12) (wr : Option Word) :
    exec (.configRequest p off wr) s = .next { s.seesRequest p with reply := .retry } := by
  refine congrArg Host.Outcome.next ((if_neg (by simp [h])).trans (if_pos ?_))
  cases p <;> exact h

/-- Once the device answers: a read gives the word and a write puts it. -/
theorem exec_configRequest_up {s : State} (hoff : s.glb.st ≠ .off) (hboot : s.glb.st ≠ .boot) (p : Port) (off : BitVec 12)
    (wr : Option Word) : exec (.configRequest p off wr) s = .next (
      match wr with
      | none => { s.seesRequest p with reply := .word ((s.seesRequest p).configRead p off.toNat) }
      | some v => { (s.seesRequest p).modPort p (fun x => x.configWrite off.toNat v) with reply := .none }) := by
  refine congrArg Host.Outcome.next ((if_neg hoff).trans ((if_neg ?_).trans ?_))
  · cases p <;> exact hboot
  · cases wr <;> rfl

theorem configRead_device (s : State) (p : Port) : (s.seesRequest p).configRead p 0 = word (0x2A8C + s.deviceId * 65536) := by
  cases p <;> rfl

theorem configRead_subsystem (s : State) (p : Port) :
    (s.seesRequest p).configRead p 0x2C = word (0x2A8C + s.glb.variant.toNat * 65536) := by
  cases p <;> rfl

/-- Settles O18: the request by the device state, its reads by word and its write of the command word. -/
theorem configurationRequests : Obligations.ConfigurationRequests := by
  refine ⟨fun p off wr s h => exec_configRequest_off h p off wr, fun p off wr s h => ⟨_, exec_configRequest_boot h p off wr, rfl, ?_⟩,
    fun p s hoff hboot => ⟨⟨_, exec_configRequest_up hoff hboot p 0 none, ?_⟩, ⟨_, exec_configRequest_up hoff hboot p 0x2C none, ?_⟩,
      fun v => ⟨_, exec_configRequest_up hoff hboot p 4 (some v), rfl, ?_⟩⟩⟩
  · cases p <;> exact ⟨rfl, rfl, rfl, rfl⟩
  · exact ⟨congrArg Reply.word (configRead_device s p), by cases p <;> rfl⟩
  · exact congrArg Reply.word (configRead_subsystem s p)
  · cases p <;> exact ⟨rfl, rfl, rfl, rfl, rfl, rfl⟩

/-! ## Port resets and power states (R649, R650, R652) -/

/-- A port's registers after a reset of this kind. -/
def PortSt.afterReset (x : PortSt) (k : ResetKind) : PortSt :=
  { x.clearLatches.clearConfig with
    linkUp := if k = .perst ∨ k = .linkDown then false else x.linkUp,
    inReset := if k = .perst then true else x.inReset }

/-- A port's registers without its doorbells. -/
def PortSt.clearDoorbells (x : PortSt) : PortSt := { x with dbAdm := 0, dbCmd := 0, dbRes := 0, dbEvt := 0 }

/-- The host registers of an owner port after its reset: its four rings (R649, R650). -/
def HostSt.resetRings (h : HostSt) : HostSt :=
  { h with adm := .reset, res := .reset, evt := .reset, cmd := .reset, admRead := 0, admReleased := [] }

theorem resetOwnerRings_standby {s : State} {p : Port} (h : p ≠ s.host.owner) : s.resetOwnerRings p = s := if_pos h

theorem resetOwnerRings_owner {s : State} {p : Port} (h : p = s.host.owner) (hrun : s.host.run = none) :
    s.resetOwnerRings p = (s.modHost HostSt.resetRings).orphanInputs.modPort p PortSt.clearDoorbells := by
  have hcut : s.cutCommand = s := by
    unfold State.cutCommand
    rw [hrun]
  unfold State.resetOwnerRings
  rw [if_neg (not_not_intro h), hcut]
  rfl

/-- What the rings' part of a reset leaves, with no command running. -/
structure RingsReset (p : Port) (s t : State) : Prop where
  glb : t.glb = s.glb
  tick : t.tick = s.tick
  core : t.core = s.core
  mem : t.mem = s.mem
  stk : t.stk = s.stk
  resq : t.host.resq = s.host.resq
  evtq : t.host.evtq = s.host.evtq
  owner : t.host.owner = s.host.owner
  age : t.host.age = s.host.age
  heartbeat : t.host.heartbeat = s.host.heartbeat
  resets : t.host.resets = s.host.resets
  other : t.port p.other = s.port p.other
  port : t.port p = s.port p ∨ t.port p = (s.port p).clearDoorbells

theorem resetOwnerRings_leaves {s : State} (p : Port) (hrun : s.host.run = none) : RingsReset p s (s.resetOwnerRings p) := by
  by_cases h : p = s.host.owner
  · rw [resetOwnerRings_owner h hrun]
    cases p <;> exact ⟨rfl, rfl, rfl, rfl, rfl, rfl, rfl, rfl, rfl, rfl, rfl, rfl, .inr rfl⟩
  · rw [resetOwnerRings_standby h]
    exact ⟨rfl, rfl, rfl, rfl, rfl, rfl, rfl, rfl, rfl, rfl, rfl, rfl, .inl rfl⟩

/-- The state of a powered device before the rings' part of a reset: the PERST pin and the port's own registers. -/
def State.portCleared (s : State) (p : Port) (k : ResetKind) : State :=
  (if k = .perst then s.setPerst p false else s).modPort p (fun x => x.afterReset k)

theorem portCleared_at (s : State) (p : Port) (k : ResetKind) :
    (s.portCleared p k).port p = (s.port p).afterReset k ∧ (s.portCleared p k).port p.other = s.port p.other ∧
    s.portCleared p k = { s with
      portA := (s.portCleared p k).portA, portB := (s.portCleared p k).portB, pin := (s.portCleared p k).pin } := by
  cases p <;> cases k <;> exact ⟨rfl, rfl, rfl⟩

theorem exec_portReset_on {s : State} (hon : s.glb.st ≠ .off) (p : Port) (k : ResetKind) :
    exec (.portReset p k) s = .next (((s.portCleared p k).resetOwnerRings p).modHost (fun h => { h with resets := bump h.resets })) := by
  refine congrArg Host.Outcome.next (if_neg ?_)
  cases p <;> cases k <;> exact hon

theorem exec_d3hotEntry_up {s : State} {p : Port} (hlink : (s.port p).linkUp = true) (hd : (s.port p).d3hot = false) :
    exec (.d3hotEntry p) s = .next ((s.modPort p (fun x => { x.clearLatches with d3hot := true })).resetOwnerRings p) :=
  congrArg Host.Outcome.next (if_neg (by simp [hlink, hd]))

/-- Settles O17: a reset is the port's registers and then the rings' part, which leaves what `RingsReset` says; D3hot the same
with configuration space kept. -/
theorem portResetsAndPowerStates : Obligations.PortResetsAndPowerStates := by
  refine ⟨fun p k s hon hrun => ?reset, fun p s hlink hd hrun => ?d3hot, fun p s => ?d0⟩
  case reset =>
    obtain ⟨hport, hother, hframe⟩ := portCleared_at s p k
    have hexec := exec_portReset_on hon p k
    generalize s.portCleared p k = u at hport hother hframe hexec
    have hhost : u.host = s.host := by rw [hframe]
    have hleaves := resetOwnerRings_leaves (s := u) p (by rw [hhost]; exact hrun)
    refine ⟨_, hexec, ?_, ?_, ?_, ?_, ?_, ?_, ?_, ?_, ?_, ?_, ?_, ?_, ?_, fun hp => ?_, fun hp => ?_⟩
    · dsimp only
      rw [port_modHost]
      rcases hleaves.port with h | h <;>
        (rw [h, hport]; exact ⟨rfl, rfl, rfl, rfl, rfl, rfl, rfl, rfl, rfl, rfl, rfl, rfl, rfl, rfl, rfl⟩)
    · rw [port_modHost, hleaves.other, hother]
    · exact hleaves.glb.trans (by rw [hframe])
    · exact hleaves.tick.trans (by rw [hframe])
    · exact hleaves.core.trans (by rw [hframe])
    · exact hleaves.mem.trans (by rw [hframe])
    · exact hleaves.stk.trans (by rw [hframe])
    · exact hleaves.resq.trans (by rw [hframe])
    · exact hleaves.evtq.trans (by rw [hframe])
    · exact hleaves.owner.trans (by rw [hframe])
    · exact hleaves.age.trans (by rw [hframe])
    · exact hleaves.heartbeat.trans (by rw [hframe])
    · exact congrArg bump (hleaves.resets.trans (by rw [hframe]))
    · rw [resetOwnerRings_standby (by rw [hhost]; exact hp)]
      exact ⟨by rw [hframe]; rfl, by rw [State.modHost_host, hhost]⟩
    · rw [resetOwnerRings_owner (by rw [hhost]; exact hp) (by rw [hhost]; exact hrun)]
      cases p <;> exact ⟨rfl, rfl, rfl, rfl, rfl, rfl, rfl, rfl⟩
  case d3hot =>
    have hleaves := resetOwnerRings_leaves (s := s.modPort p (fun x => { x.clearLatches with d3hot := true })) p
      (by rw [State.modPort_host]; exact hrun)
    have hexec := exec_d3hotEntry_up hlink hd
    have hport := State.port_modPort s p (fun x => { x.clearLatches with d3hot := true })
    generalize (s.modPort p fun x => { x.clearLatches with d3hot := true }).resetOwnerRings p = t at hleaves hexec
    obtain ⟨hhot, hapLo, hengRb, hslotP, hbars, hcommand, htable, hpend⟩ : (t.port p).d3hot = true ∧ (t.port p).apLo = 0 ∧
        (t.port p).engRb = [] ∧ (t.port p).slotP = .reset ∧ (t.port p).bars = (s.port p).bars ∧
        (t.port p).command = (s.port p).command ∧ (t.port p).msixTable = (s.port p).msixTable ∧
        (t.port p).msixPend = (s.port p).msixPend := by
      rcases hleaves.port with h | h <;> (rw [h, hport]; exact ⟨rfl, rfl, rfl, rfl, rfl, rfl, rfl, rfl⟩)
    refine ⟨_, hexec, hhot, hapLo, hengRb, hslotP, hbars, hcommand, htable, hpend, by simp [State.decodes, hhot],
      by simp [PortSt.canIssue, hhot], ?_, ?_, ?_, ?_, ?_, ?_⟩
    · exact hleaves.resets.trans (by rw [State.modPort_host])
    · exact hleaves.other.trans (port_other_modPort ..)
    · exact hleaves.glb.trans (by rw [State.modPort_glb])
    · exact hleaves.tick.trans (by rw [State.modPort_tick])
    · exact hleaves.core.trans (by rw [State.modPort_core])
    · exact hleaves.mem.trans (by rw [State.modPort_mem])
  case d0 => exact ⟨_, rfl, State.port_modPort .., port_other_modPort .., modPort_frame ..⟩

end Sys2Proof.Machine
end

section
/-! The register index at reset (18, R793, R794, R796). -/

namespace Sys2Proof.Machine

/-- Settles O57, by reading every listed offset of the reset state through each port. -/
theorem resetRegisterValues : Obligations.ResetRegisterValues := by
  intro p
  cases p <;> decide +kernel

end Sys2Proof.Machine
end
section
/-! The attestation mailbox (15, R723 to R729; logs 6, 19, 21): a command writes its word and, with no operation running, starts
one whose result and response wait for the end. -/

namespace Sys2Proof.Machine

theorem port_raise (s : State) (c : Nat) (a b : Option Nat) (k : Nat) (p : Port) : (s.raise c a b k).port p = s.port p := by
  cases p
  · exact raise_portA ..
  · exact raise_portB ..

/-! ## The start of an operation (R728) -/

/-- The port's command word reads back what was written. -/
def State.mbxCommand (s : State) (p : Port) (op len : Nat) : State :=
  s.modPort p (fun x => { x with mbxCmd := word (op + len * 65536) })

/-- An operation runs on the port, with its result and its response. -/
def State.mbxRuns (s : State) (p : Port) (r : Word) (l : List Byte) : State :=
  s.modPort p (fun x => { x with mbxStatus := 1, mbxRun := some (r.toNat % 16, l) })

theorem mbxRun_mbxCommand (s : State) (p : Port) (op len : Nat) : ((s.mbxCommand p op len).port p).mbxRun = (s.port p).mbxRun := by
  cases p <;> rfl

theorem mbxStart_idle {s : State} {p : Port} (h : (s.port p).mbxRun = none) (op len : Nat) (f : State → Word × List Byte × State) :
    s.mbxStart p op len f =
      (f (s.mbxCommand p op len)).2.2.mbxRuns p (f (s.mbxCommand p op len)).1 (f (s.mbxCommand p op len)).2.1 := by
  have hidle : ((s.mbxCommand p op len).port p).mbxRun = none := (mbxRun_mbxCommand ..).trans h
  unfold State.mbxStart
  simp only [State.mbxCommand] at hidle
  simp only [hidle]
  rfl

theorem mbxCommand_frame (s : State) (p : Port) (op len : Nat) : s.mbxCommand p op len =
    { s with portA := (s.mbxCommand p op len).portA, portB := (s.mbxCommand p op len).portB } := modPort_frame ..

theorem mbxBytes_mbxCommand (s : State) (p : Port) (op len n : Nat) :
    ((s.mbxCommand p op len).port p).mbxBytes n = (s.port p).mbxBytes n := by
  cases p <;> rfl

theorem attReport_mbxCommand (s : State) (p : Port) (op len : Nat) (l : List Byte) :
    (s.mbxCommand p op len).attReport l = s.attReport l := by
  simp only [State.attReport, State.copy0Runs, State.trialReads, State.readyOrRun, State.fwVersion, State.mbxCommand, State.modPort_upd,
    State.modPort_sec, State.modPort_glb, State.modPort_cfg, State.modPort_tick]
  rfl

theorem tokenFails_mbxCommand (s : State) (p : Port) (op len : Nat) (l : List Byte) :
    (s.mbxCommand p op len).tokenFails l = s.tokenFails l := by
  unfold State.tokenFails
  rw [show (s.mbxCommand p op len).sec = s.sec from State.modPort_sec .., show (s.mbxCommand p op len).upd = s.upd from State.modPort_upd ..]

theorem mbxRun_mbxRuns (s : State) (p : Port) (r : Word) (l : List Byte) :
    ((s.mbxRuns p r l).port p).mbxRun = some (r.toNat % 16, l) := by
  cases p <;> rfl

/-! ## Operations that either port starts (R728, R729) -/

section
variable {s : State} {p : Port} (hd : s.decodes p = true) (hidle : (s.port p).mbxRun = none)
include hd hidle

theorem exec_cert_idle : exec (.cert p) s = .next ((s.mbxCommand p 1 0).mbxRuns p 0 Config.deviceCertificate) :=
  congrArg Host.Outcome.next ((via_decodes hd).trans (mbxStart_idle hidle ..))

theorem exec_attest_idle {r : List Byte} (hr : r = s.attReport ((s.port p).mbxBytes 32)) :
    exec (.attest p) s = .next ((s.mbxCommand p 2 32).mbxRuns p 0 (r ++ Config.falconSign Config.identitySeed r)) := by
  refine congrArg Host.Outcome.next ((via_decodes hd).trans ((mbxStart_idle hidle ..).trans ?_))
  dsimp only
  rw [mbxBytes_mbxCommand, attReport_mbxCommand, ← hr]

end

/-! ## Operations of the owner (R723 to R727) -/

section
variable {s : State} {p : Port} (hp : s.owns p) (hidle : (s.port p).mbxRun = none)
include hp hidle

theorem exec_challenge_idle {c : List Byte} (hc : c = (shake256 (Config.macKey ++ leBytes 64 s.sec.devId.toNat ++
      leBytes 4 (s.upd.flash.challenge + 1).toNat) 64).take 32) :
    exec (.challenge p) s = .next (({ (s.mbxCommand p 3 0).modFlash (fun f => { f with challenge := s.upd.flash.challenge + 1 }) with
      sec := { s.sec with chal := some c } } : State).mbxRuns p 0 c) := by
  refine congrArg Host.Outcome.next ((ownerOnly_owns hp).trans ((mbxStart_idle hidle ..).trans ?_))
  dsimp only
  rw [show (s.mbxCommand p 3 0).sec = s.sec from State.modPort_sec .., show (s.mbxCommand p 3 0).upd = s.upd from State.modPort_upd .., ← hc]

theorem exec_token_passes {n : BitVec 16} (h : s.tokenFails ((s.port p).mbxBytes n.toNat) = none) :
    exec (.token p n) s = .next ((({ s.mbxCommand p 4 n.toNat with sec := { s.sec with chal := none } } : State).modFlash
      (fun f => f.tokenAct ((s.port p).mbxBytes n.toNat))).mbxRuns p 0 [0]) := by
  refine congrArg Host.Outcome.next ((ownerOnly_owns hp).trans ((mbxStart_idle hidle ..).trans ?_))
  simp only [mbxBytes_mbxCommand, tokenFails_mbxCommand, h]
  rw [show (s.mbxCommand p 4 n.toNat).sec = s.sec from State.modPort_sec ..]

theorem exec_token_fails {n : BitVec 16} {f : Nat} (h : s.tokenFails ((s.port p).mbxBytes n.toNat) = some f) {e : State}
    (he : e = ({ s.mbxCommand p 4 n.toNat with sec := { s.sec with chal := none } } : State).raise 0x800B
      (some (Config.tokenCheck f).toNat)) :
    ∃ r l, exec (.token p n) s = .next (e.drawWord.2.mbxRuns p r l) := by
  refine ⟨e.drawWord.1, leBytes 1 e.drawWord.1.toNat,
    congrArg Host.Outcome.next ((ownerOnly_owns hp).trans ((mbxStart_idle hidle ..).trans ?_))⟩
  simp only [mbxBytes_mbxCommand, tokenFails_mbxCommand, h]
  rw [show (s.mbxCommand p 4 n.toNat).sec = s.sec from State.modPort_sec .., ← he]

theorem exec_enroll_free (hkey : s.upd.flash.ownerKey = none) (hst : s.glb.st = .ready ∨ s.glb.st = .safe) (n : BitVec 16) :
    exec (.enroll p n) s = .next (((s.mbxCommand p 5 n.toNat).modFlash
      (fun f => { f with ownerKey := some ((s.port p).mbxBytes n.toNat) })).mbxRuns p 0 [0]) := by
  refine congrArg Host.Outcome.next ((ownerOnly_owns hp).trans ((mbxStart_idle hidle ..).trans ?_))
  have hfree : (s.mbxCommand p 5 n.toNat).upd.flash.ownerKey.isNone = true ∧
      ((s.mbxCommand p 5 n.toNat).glb.st = .ready ∨ (s.mbxCommand p 5 n.toNat).glb.st = .safe) := by
    rw [mbxCommand_frame]
    exact ⟨by simp [hkey], hst⟩
  simp only [if_pos hfree, mbxBytes_mbxCommand]

theorem exec_enroll_taken (hkey : s.upd.flash.ownerKey ≠ none) (n : BitVec 16) :
    ∃ r l, exec (.enroll p n) s = .next ((s.mbxCommand p 5 n.toNat).drawWord.2.mbxRuns p r l) := by
  have htaken : ¬((s.mbxCommand p 5 n.toNat).upd.flash.ownerKey.isNone = true ∧
      ((s.mbxCommand p 5 n.toNat).glb.st = .ready ∨ (s.mbxCommand p 5 n.toNat).glb.st = .safe)) := by
    rw [mbxCommand_frame]
    simp [hkey]
  refine ⟨(s.mbxCommand p 5 n.toNat).drawWord.1, leBytes 1 (s.mbxCommand p 5 n.toNat).drawWord.1.toNat,
    congrArg Host.Outcome.next ((ownerOnly_owns hp).trans ((mbxStart_idle hidle ..).trans ?_))⟩
  rw [if_neg htaken]

theorem exec_lock_idle : exec (.lock p) s = .next (((s.mbxCommand p 6 0).modFlash (fun f => { f with ownerLock := true })).mbxRuns p 0 [0]) :=
  congrArg Host.Outcome.next ((ownerOnly_owns hp).trans (mbxStart_idle hidle ..))

end

/-! ## The end (R728) -/

theorem exec_mailboxDone_running {s : State} {p : Port} {r : Nat} {l : List Byte} (h : (s.port p).mbxRun = some (r, l)) :
    exec (.mailboxDone p) s = .next (s.modPort p (fun x => { x with
      mbxRun := none, mbx := Tab.setRange 0 x.mbx 0 l, mbxStatus := word (r % 16 * 16 + l.length * 65536) })) := by
  refine congrArg Host.Outcome.next ?_
  rw [h]

/-- Settles O22: the equation of each operation above; what each leaves is read off the updates of ports, flash and challenge. -/
theorem mailboxOperations : Obligations.MailboxOperations := by
  refine ⟨fun p s hd hidle => ⟨⟨_, exec_cert_idle hd hidle, ?cert⟩, ⟨_, exec_attest_idle hd hidle rfl, ?attest⟩⟩,
    fun p s hp hidle => ⟨⟨_, exec_challenge_idle hp hidle rfl, ?challenge⟩, fun n => ?token,
      fun n hkey hst => ⟨_, exec_enroll_free hp hidle hkey hst n, ?enroll⟩, fun n hkey => ?enrollTaken, ⟨_, exec_lock_idle hp hidle, ?lock⟩⟩,
    fun p r l s h => ⟨_, exec_mailboxDone_running h, modPort_frame .., port_other_modPort .., State.port_modPort ..⟩⟩
  case cert => cases p <;> exact ⟨rfl, rfl, rfl⟩
  case attest => exact ⟨by cases p <;> rfl, by cases p <;> rfl, mbxRun_mbxRuns ..⟩
  case challenge =>
    exact ⟨by cases p <;> rfl, by cases p <;> rfl, by cases p <;> rfl, congrArg (·.chal) (State.modPort_sec ..), mbxRun_mbxRuns ..⟩
  case enroll => cases p <;> exact ⟨rfl, rfl, rfl, rfl⟩
  case lock => cases p <;> exact ⟨rfl, rfl, rfl⟩
  case enrollTaken =>
    obtain ⟨r, l, hexec⟩ := exec_enroll_taken hp hidle hkey n
    exact ⟨_, hexec, by cases p <;> rfl⟩
  case token =>
    cases h : s.tokenFails ((s.port p).mbxBytes n.toNat) with
    | none =>
      refine ⟨_, exec_token_passes hp hidle h, ?_, ?_, fun _ => ?_, fun f hf => absurd (h.symm.trans hf) (Option.some_ne_none f).symm⟩
      · cases p <;> rfl
      · cases p <;> rfl
      · cases p <;> exact ⟨rfl, rfl⟩
    | some f =>
      obtain ⟨r, l, hexec⟩ := exec_token_fails hp hidle h rfl
      refine ⟨_, hexec, ?_, ?_, fun hf => absurd (h.symm.trans hf) (Option.some_ne_none f), fun g hg => ?_⟩
      · rw [State.mbxRuns, State.modPort_sec, State.drawWord_sec, raise_sec]
      · refine (port_other_modPort _ p _).trans ((port_raise ..).trans ?_)
        cases p <;> rfl
      · obtain rfl : f = g := Option.some.inj (h.symm.trans hg)
        rw [State.mbxRuns, State.modPort_upd, State.modPort_host, State.modPort_err, State.drawWord_upd, State.drawWord_host,
          State.drawWord_err, raise_upd]
        cases p <;> exact ⟨rfl, rfl, rfl⟩

end Sys2Proof.Machine
end
section
/-! Updates (15, R709 to R711, R713, R715, R718, R720): what each command of UPD_CMD makes of the flash and the pointer where no
reason of R710 holds. -/

namespace Sys2Proof.Machine

/-! ## Staging (R709 to R711) -/

/-- The place in UPD_SLOT_STATE of the slot that is staged. -/
def Staging.place : Staging → Nat
  | .fw b _ => slotIndex false b
  | .cfg b _ => slotIndex true b

/-- The flash with the staged image's slot erased. -/
def Flash.erased (f : Flash) : Staging → Flash
  | .fw b _ => if b then { f with fwB := none } else { f with fwA := none }
  | .cfg b _ => if b then { f with cfgB := none } else { f with cfgA := none }

/-- The flash with the staged image in its slot. -/
def Flash.holding (f : Flash) : Staging → Flash
  | .fw b m => if b then { f with fwB := some m } else { f with fwA := some m }
  | .cfg b c => if b then { f with cfgB := some c } else { f with cfgA := some c }

/-- The start of a staging as one update of UPD and one read asked of the owner's host. -/
theorem startStaging_eq (s : State) (g : Staging) : s.startStaging g = { s with
    upd := { s.upd with flash := (s.upd.flash.erased g).setSlotCode g.place 1, staging := some g, result := 0, mib := 0 },
    sent := .hostRead s.host.owner s.upd.haddr s.upd.len.toNat :: s.sent } := by
  cases g <;> rfl

theorem fwSlot_erased_fw (f : Flash) (b : Bool) (m : FwImage) (i : Nat) :
    ((f.erased (.fw (!b) m)).setSlotCode i 1).fwSlot (!b) = none ∧
    ((f.erased (.fw (!b) m)).setSlotCode i 1).fwSlot b = f.fwSlot b ∧
    ∀ c, ((f.erased (.fw (!b) m)).setSlotCode i 1).cfgSlot c = f.cfgSlot c := by
  cases b <;> exact ⟨rfl, rfl, fun _ => rfl⟩

theorem cfgSlot_erased_cfg (f : Flash) (b : Bool) (c : CfgImage) (i : Nat) :
    ((f.erased (.cfg (!b) c)).setSlotCode i 1).cfgSlot (!b) = none ∧
    ((f.erased (.cfg (!b) c)).setSlotCode i 1).cfgSlot b = f.cfgSlot b ∧
    ∀ d, ((f.erased (.cfg (!b) c)).setSlotCode i 1).fwSlot d = f.fwSlot d := by
  cases b <;> exact ⟨rfl, rfl, fun _ => rfl⟩

theorem exec_stageFw_accepted {p : Port} {img : FwImage} {s : State} (hp : s.owns p) (hreason : (s.setUpdCmd 1).updReason = none)
    (hlen : s.upd.len.toNat ≤ 0x4000000) (hsvn : s.upd.floor ≤ img.svn) :
    exec (.stageFw p img) s = .next ((s.setUpdCmd 1).startStaging (.fw (!s.upd.ptr.fw) img)) := by
  have hfits : ¬(0x4000000 < (s.setUpdCmd 1).upd.len.toNat ∨ img.svn < (s.setUpdCmd 1).upd.floor) :=
    not_or.mpr ⟨Nat.not_lt.mpr hlen, BitVec.not_lt.mpr hsvn⟩
  refine congrArg Host.Outcome.next ((ownerOnly_owns hp).trans ?_)
  dsimp only
  rw [hreason]
  exact if_neg hfits

theorem exec_stageCfg_accepted {p : Port} {img : CfgImage} {s : State} (hp : s.owns p) (hreason : (s.setUpdCmd 2).updReason = none)
    (hlen : s.upd.len.toNat ≤ 0x6000000) :
    exec (.stageCfg p img) s = .next ((s.setUpdCmd 2).startStaging (.cfg (!s.upd.ptr.cfg) img)) := by
  refine congrArg Host.Outcome.next ((ownerOnly_owns hp).trans ?_)
  dsimp only
  rw [hreason]
  exact if_neg (Nat.not_lt.mpr hlen)

/-- The end of a staging while no spill writes the flash: the image that was read lies in its slot, the slot's code tells the checks,
and event 0x8006 has argument 0 for a pass. -/
theorem exec_updStaged_ends {s : State} {g : Staging} (hstaging : s.upd.staging = some g) (hspill : s.reh.spilling = false) (ok : Bool) :
    ∃ (u : State) (arg : Nat), exec (.updStaged ok) s = .next (u.raise 0x8006 (some arg)) ∧ u.upd.staging = none ∧
      u.upd.flash = (if ok then s.upd.flash.holding g else s.upd.flash).setSlotCode g.place (if ok && s.stagedOk g then 2 else 5) ∧
      (ok = true → s.stagedOk g = true → arg = 0) := by
  show ∃ u arg, execUpdStaged ok s = _ ∧ _
  unfold execUpdStaged
  simp only [hstaging, hspill, Bool.false_eq_true, if_false]
  cases hok : ok && s.stagedOk g with
  | true => exact ⟨_, 0, rfl, rfl, by cases g <;> rfl, fun _ _ => rfl⟩
  | false =>
    refine ⟨_, _, rfl, rfl, by cases g <;> rfl, fun hread hgood => ?_⟩
    rw [hread, hgood] at hok
    cases hok

theorem exec_abort_owns {p : Port} {s : State} (hp : s.owns p) : exec (.abort p) s = .next (s.setUpdCmd 7).endStaging :=
  congrArg Host.Outcome.next (ownerOnly_owns hp)

/-- Settles O20: the start of a staging is `startStaging_eq`, its end `exec_updStaged_ends`, and ABORT ends it as the pins do. -/
theorem stagingCourse : Obligations.StagingCourse := by
  refine ⟨fun p img s hp hreason hlen hsvn => ?stageFw, fun p img s hp hreason hlen => ?stageCfg, fun b ok m s hstaging hspill => ?fwEnds,
    fun b ok c s hstaging hspill => ?cfgEnds, fun p b m s hp hstaging => ?abort, fun p s hp hnone => ?abortIdle⟩
  case stageFw =>
    refine ⟨_, exec_stageFw_accepted hp hreason hlen hsvn, ?_⟩
    rw [startStaging_eq]
    obtain ⟨hnew, hold, hcfg⟩ := fwSlot_erased_fw s.upd.flash s.upd.ptr.fw img (slotIndex false (!s.upd.ptr.fw))
    exact ⟨rfl, hnew, hold, hcfg, rfl, rfl, rfl, rfl⟩
  case stageCfg =>
    refine ⟨_, exec_stageCfg_accepted hp hreason hlen, ?_⟩
    rw [startStaging_eq]
    obtain ⟨hnew, hold, hfw⟩ := cfgSlot_erased_cfg s.upd.flash s.upd.ptr.cfg img (slotIndex true (!s.upd.ptr.cfg))
    exact ⟨rfl, hnew, hold, hfw, rfl, rfl, rfl, rfl⟩
  case fwEnds =>
    obtain ⟨u, arg, hexec, hnone, hflash, harg⟩ := exec_updStaged_ends hstaging hspill ok
    refine ⟨_, u, hexec, ?_, ?_, fun hok hgood => by rw [harg hok hgood]⟩
    · rw [raise_upd, hnone]
    · rw [raise_upd, hflash]
      rfl
  case cfgEnds =>
    obtain ⟨u, arg, hexec, hnone, hflash, harg⟩ := exec_updStaged_ends hstaging hspill ok
    refine ⟨_, u, hexec, ?_, ?_, fun hok hgood => by rw [harg hok hgood]⟩
    · rw [raise_upd, hnone]
    · rw [raise_upd, hflash]
      rfl
  case abort =>
    obtain ⟨hnone, hflash, _⟩ := endStaging_fw (s := s.setUpdCmd 7) hstaging
    exact ⟨_, exec_abort_owns hp, hnone, hflash⟩
  case abortIdle => exact (exec_abort_owns hp).trans (congrArg Host.Outcome.next (endStaging_idle (s := s.setUpdCmd 7) hnone))

/-! ## ACTIVATE, CONFIRM and SAVE_SETTINGS (R713, R715, R718, R720) -/

/-- ACTIVATE that no reason of R710 refuses. -/
theorem exec_activate_accepted {p : Port} {fw cfg : Bool} {s : State} (hp : s.owns p) (hreason : (s.setUpdCmd 0).updReason = none)
    (htrial : s.upd.ptr.trial = false) {nf nc : Bool} (hnf : nf = if fw then !s.upd.ptr.fw else s.upd.ptr.fw)
    (hnc : nc = if cfg then !s.upd.ptr.cfg else s.upd.ptr.cfg)
    (hfw : fw = true → s.upd.flash.slotCode (slotIndex false nf) = 2) (hcfg : cfg = true → s.upd.flash.slotCode (slotIndex true nc) = 2)
    (hmin : s.minFwBad nf nc = false) :
    exec (.activate p fw cfg) s = .next ((((s.setUpdCmd (3 + bitAt fw 4 + bitAt cfg 5)).putPtr
      ⟨s.upd.ptr.seq + 1, nf, nc, true, 0, s.upd.ptr.fw, s.upd.ptr.cfg, s.upd.ptr.lastRev, true⟩).modUpd
        (fun u => { u with result := 0 })).raise 0x8008) := by
  have hstaged : ((fw && s.upd.flash.slotCode (slotIndex false nf) != 2) || (cfg && s.upd.flash.slotCode (slotIndex true nc) != 2)
      || s.minFwBad nf nc) = false := by
    cases fw <;> cases cfg <;> simp_all
  have hreason' : (s.setUpdCmd (3 + bitAt fw 4 + bitAt cfg 5)).updReason = none := hreason
  subst hnf hnc
  refine congrArg Host.Outcome.next ((ownerOnly_owns hp).trans ?_)
  dsimp only
  rw [hreason']
  exact (if_neg (by rw [show (s.setUpdCmd _).upd.ptr.trial = s.upd.ptr.trial from rfl, htrial]; exact Bool.false_ne_true)).trans
    (if_neg (fun h => Bool.false_ne_true (hstaged.symm.trans h)))

/-- The state in which CONFIRM has ended the trial, before its event. -/
def State.confirmed (s : State) : State :=
  ({ ((s.setUpdCmd 4).putPtr { s.upd.ptr with seq := s.upd.ptr.seq + 1, trial := false }).modFlash
      (fun f => f.settle s.upd.ptr.fw s.upd.ptr.cfg) with
    glb := { s.glb with trial := false } } : State).modUpd (fun u => { u with result := 0 })

theorem confirmed_frame (s : State) : s.confirmed = { s with upd := s.confirmed.upd, glb := s.confirmed.glb } := by
  simp only [State.confirmed, State.putPtr, State.modFlash, State.setUpdCmd, State.modUpd]

theorem exec_confirm_owns {p : Port} {s : State} (hp : s.owns p) : exec (.confirm p) s = .next (
    if s.trialReads then s.confirmed.raise 0x8009 else (s.setUpdCmd 4).updRefuse 9) :=
  congrArg Host.Outcome.next (ownerOnly_owns hp)

theorem trialReads_of_not_trial {s : State} (h : s.glb.trial = false) : s.trialReads = false := by
  simp [State.trialReads, h]

/-- A settings copy with the settings in force appended under its next SEQ. -/
def SettingsCopy.append (c : SettingsCopy) (s : State) : SettingsCopy := { c with newest := some (s.settingsNow c.nextSeq) }

theorem exec_saveSettings_owns {p : Port} {s : State} (hp : s.owns p) : exec (.saveSettings p) s = .next { s with
    upd := { s.upd with
      cmd := 6, result := 0,
      flash := { s.upd.flash with
        set0 := if s.copy0Runs || s.upd.ptr.trial then s.upd.flash.set0.append s else s.upd.flash.set0,
        set1 := if !s.copy0Runs || s.upd.ptr.trial then s.upd.flash.set1.append s else s.upd.flash.set1 } } } :=
  congrArg Host.Outcome.next (ownerOnly_owns hp)

/-- Appending keeps the copy's format, whether or not it happens. -/
theorem format_append (c : SettingsCopy) (s : State) (b : Bool) : (if b then c.append s else c).format = c.format := by
  cases b <;> rfl

/-- Settles O21: the equation of each command; ACTIVATE's and CONFIRM's are one pointer record and one event. -/
theorem activateConfirmSave : Obligations.ActivateConfirmSave := by
  refine ⟨fun p fw cfg s hp hreason => ?activate, fun p s hp htrial => ?confirm, fun p s hp htrial => ?refused,
    fun p s hp => ⟨_, exec_saveSettings_owns hp, rfl, fun h => ?copy0, fun h => ?copy1, fun h => ?both, format_append .., format_append .., rfl⟩⟩
  case activate =>
    intro cur nf nc htrial hfw hcfg hmin
    refine ⟨_, _, exec_activate_accepted hp hreason htrial rfl rfl hfw hcfg hmin, rfl, rfl, ?_, ?_, ?_, ?_, ?_⟩
    · rw [raise_upd]; rfl
    · rw [raise_upd]; rfl
    · rw [raise_upd]; rfl
    · rw [raise_upd]; rfl
    · rw [raise_upd]; rfl
  case confirm =>
    refine ⟨_, s.confirmed, (exec_confirm_owns hp).trans (congrArg Host.Outcome.next (if_pos htrial)), rfl, confirmed_frame s, ?_, ?_, ?_, ?_⟩
    · rw [raise_upd]; rfl
    · rw [raise_glb]; rfl
    · exact trialReads_of_not_trial (by rw [raise_glb]; rfl)
    · rw [raise_upd]; rfl
  case refused => exact (exec_confirm_owns hp).trans (congrArg Host.Outcome.next (if_neg (by simp [htrial])))
  case copy0 =>
    simp only [h, Bool.true_or, if_true, Bool.not_true, Bool.false_or]
    exact ⟨rfl, fun htrial => by rw [htrial]; rfl⟩
  case copy1 =>
    simp only [h, Bool.not_false, Bool.true_or, if_true, Bool.false_or]
    exact ⟨rfl, fun htrial => by rw [htrial]; rfl⟩
  case both =>
    simp only [h, Bool.or_true, if_true]
    exact ⟨rfl, rfl⟩

end Sys2Proof.Machine
end
section
/-! Errors, injections and the self-test (16, R735, R739, R740, R759, R760). -/

namespace Sys2Proof.Machine

theorem place_isStack_iff (x : Place) : x.isStack = true ↔ x = .fast ∨ x = .deep := by
  cases x <;> simp [Place.isStack]

theorem place_isSpm_iff (x : Place) : x.isSpm = true ↔ ∃ r o, x = .spm r o := by
  cases x <;> simp [Place.isSpm]

/-- An injection may be armed where ERR_INJ_ADDR lies in the named tier (R740). -/
theorem injTarget_of_tier {s : State} {stack : Bool}
    (h : if stack then s.place s.err.injAddr.toNat = .fast ∨ s.place s.err.injAddr.toNat = .deep
      else ∃ r o, s.place s.err.injAddr.toNat = .spm r o) : s.injTarget stack = true := by
  cases stack with
  | true => exact (place_isStack_iff _).mpr h
  | false => exact (place_isSpm_iff _).mpr h

/-! ## Injections (R739, R740) -/

theorem exec_injArm_armed {p : Port} {v : Word} {s : State} (hp : s.owns p) (hv : v.getLsbD 0 = true)
    (hst : s.glb.st = .ready ∨ s.glb.st = .run) (ht : s.injTarget (v.getLsbD 1) = true) :
    exec (.injArm p v) s = .next { s with err := { s.err with
      injArm := true, injTier := v.getLsbD 1, injFired := false, injLatchTier := v.getLsbD 1, injLatch := s.err.injAddr } } := by
  refine congrArg Host.Outcome.next ?_
  rw [hv]
  exact (ownerOnly_owns hp).trans (if_pos ⟨by simpa [State.readyOrRun] using hst, ht⟩)

theorem exec_injArm_refused {p : Port} {v : Word} {s : State} (hp : s.owns p) (hv : v.getLsbD 0 = true)
    (h : (s.glb.st ≠ .ready ∧ s.glb.st ≠ .run) ∨ s.injTarget (v.getLsbD 1) = false) :
    exec (.injArm p v) s = .next (s.raise 0xA031) := by
  refine congrArg Host.Outcome.next ?_
  rw [hv]
  refine (ownerOnly_owns hp).trans (if_neg ?_)
  rintro ⟨hst, ht⟩
  obtain hne | hno := h
  · simp [State.readyOrRun, hne.1, hne.2] at hst
  · exact Bool.noConfusion (hno.symm.trans ht)

theorem exec_injDisarm_disarms {p : Port} {v : Word} {s : State} (hp : s.owns p) (hv : v.getLsbD 0 = false) :
    exec (.injDisarm p v) s = .next { s with err := { s.err with injArm := false, injTier := v.getLsbD 1 } } := by
  refine congrArg Host.Outcome.next ?_
  rw [hv]
  exact ownerOnly_owns hp

/-! ## The self-test on demand (R759, R760) -/

theorem exec_stRun_starts {p : Port} {v : Word} {s : State} (hp : s.owns p) (hv : v.getLsbD 0 = true)
    (hst : s.glb.st = .ready) (hadm : s.admittedCount = 0) (hreh : s.reh.replay = none) :
    exec (.stRun p v) s = .next { s with err := { s.err with stCmd := true, stBusy := true } } := by
  refine congrArg Host.Outcome.next ((ownerOnly_owns hp).trans ?_)
  rw [hv]
  exact (if_neg Bool.false_ne_true).trans (if_pos ⟨hst, hadm, by rw [hreh]; rfl⟩)

theorem exec_stRun_refused {p : Port} {v : Word} {s : State} (hp : s.owns p) (hv : v.getLsbD 0 = true)
    (h : s.glb.st ≠ .ready ∨ s.admittedCount ≠ 0) : exec (.stRun p v) s = .next (s.raise 0xA013) := by
  refine congrArg Host.Outcome.next ((ownerOnly_owns hp).trans ?_)
  rw [hv]
  refine (if_neg Bool.false_ne_true).trans (if_neg ?_)
  rintro ⟨hst, hadm, -⟩
  exact h.elim (fun hne => hne hst) fun hne => hne hadm

theorem exec_stRun_zero {p : Port} {v : Word} {s : State} (hp : s.owns p) (hv : v.getLsbD 0 = false) :
    exec (.stRun p v) s = .next { s with err := { s.err with stCmd := false } } := by
  refine congrArg Host.Outcome.next ((ownerOnly_owns hp).trans ?_)
  rw [hv]
  rfl

theorem exec_stDone_idle {f : Option (BitVec 4 × BitVec 16)} {s : State} (h : s.err.stBusy = false) :
    exec (.stDone f) s = .next s := by
  refine congrArg Host.Outcome.next ?_
  rw [h]
  rfl

theorem exec_stDone_pass {s : State} (h : s.err.stBusy = true) :
    exec (.stDone none) s = .next (((s.selfTestClear s.clusterOn).selfTestPassed s.clusterOn).raise 0xA012) := by
  refine congrArg Host.Outcome.next ?_
  rw [h]
  rfl

theorem exec_stDone_fail {row : BitVec 4} {pos : BitVec 16} {s : State} (h : s.err.stBusy = true) :
    exec (.stDone (some (row, pos))) s = .next ((s.selfTestClear s.clusterOn).selfTestFailed row pos).goSafe := by
  refine congrArg Host.Outcome.next ?_
  rw [h]
  rfl

/-- ERR_ST_RESULT after a failure, in SAFE (R759). -/
theorem selfTestFailed_goSafe (u : State) (row : BitVec 4) (pos : BitVec 16) :
    let t := (u.selfTestFailed row pos).goSafe
    t.glb.st = .safe ∧ t.err.stBusy = false ∧ t.err.stPass = false ∧ t.err.stRan = true ∧ t.err.stRow = row ∧
      t.err.stPos = pos ∧ t.tick.running = none := by
  simp [State.selfTestFailed, State.goSafe, State.disarm, State.modErr, State.modTick, State.modReh]

/-- Settles O56: the latch, the injection and the self-test, each by the lemma of its command. -/
theorem errorsAndSelfTest : Obligations.ErrorsAndSelfTest := by
  refine ⟨fun s p v => ⟨fun hp hv => ?first, fun h => ?firstKept, fun hv => ?arm0, fun hv => ?disarm1, fun hp => ⟨?armed, ?refused, ?disarms, ?starts,
    ?noTest, ?zero⟩⟩, fun s => ⟨fun _ => exec_stDone_idle, fun h => ?pass, fun row pos h => ?fail⟩⟩
  case first => exact congrArg Host.Outcome.next ((via_decodes hp).trans (if_pos hv))
  case firstKept =>
    refine congrArg Host.Outcome.next ?_
    cases hp : s.decodes p with
    | false => exact via_lost hp
    | true => exact (via_decodes hp).trans (if_neg (by simpa [hp] using h))
  case arm0 => exact congrArg Host.Outcome.next (if_pos (by rw [hv]; rfl))
  case disarm1 => exact congrArg Host.Outcome.next (if_pos hv)
  case armed => exact fun hv hst ht => exec_injArm_armed hp hv hst (injTarget_of_tier ht)
  case refused => exact fun hv h => exec_injArm_refused hp hv h
  case disarms => exact fun hv => exec_injDisarm_disarms hp hv
  case starts => exact fun hv hst hadm hreh => exec_stRun_starts hp hv hst hadm hreh
  case noTest => exact fun hv h => exec_stRun_refused hp hv h
  case zero => exact fun hv => exec_stRun_zero hp hv
  case pass => exact ⟨_, _, exec_stDone_pass h, rfl, rfl, rfl, rfl, rfl⟩
  case fail => exact ⟨_, exec_stDone_fail h, selfTestFailed_goSafe _ row pos⟩

end Sys2Proof.Machine
end
section
/-! The host rings' registers and doorbells (13, R624, R625, R628). -/

namespace Sys2Proof.Machine

/-! ## Doorbells (R625) -/

/-- What a doorbell page's write does: the host registers and the port's own copy where the value is taken, else the error. -/
def State.ringBell (s : State) (p : Port) (ok : Bool) (g : HostSt → HostSt) (f : PortSt → PortSt) : State :=
  if ok then (s.modHost g).modPort p f else s.doorbellBad

theorem ringBell_taken {ok : Bool} (s : State) (p : Port) (g : HostSt → HostSt) (f : PortSt → PortSt) (hok : ok = true) :
    let t := s.ringBell p ok g f
    t = { s with host := g s.host, portA := t.portA, portB := t.portB } ∧ t.port p.other = s.port p.other ∧ t.port p = f (s.port p) := by
  subst hok
  exact ⟨modPort_frame _ p f, (port_other_modPort _ p f).trans (port_modHost s g _),
    (State.port_modPort _ p f).trans (congrArg f (port_modHost s g p))⟩

theorem tailOk_iff (r : HostRingSt) (v : Word) : r.tailOk v = true ↔ r.en = true ∧ (v - r.head).toNat ≤ r.entries := by
  simp [HostRingSt.tailOk]

theorem headOk_iff (r : HostRingSt) (v : Word) : r.headOk v = true ↔ r.en = true ∧ (r.tail - v).toNat ≤ r.entries := by
  simp [HostRingSt.headOk]

theorem exec_dbAdmTail {p : Port} {v : Word} {s : State} (hp : s.owns p) : exec (.dbAdmTail p v) s =
    .next (s.ringBell p (s.host.adm.tailOk v) (fun h => { h with adm := { h.adm with tail := v } }) (fun x => { x with dbAdm := v })) :=
  congrArg Host.Outcome.next (ownerOnly_owns hp)

theorem exec_dbCmdTail {p : Port} {v : Word} {s : State} (hp : s.owns p) : exec (.dbCmdTail p v) s =
    .next (s.ringBell p (s.host.cmd.tailOk v) (fun h => { h with cmd := { h.cmd with tail := v } }) (fun x => { x with dbCmd := v })) :=
  congrArg Host.Outcome.next (ownerOnly_owns hp)

theorem exec_dbResHead {p : Port} {v : Word} {s : State} (hp : s.owns p) : exec (.dbResHead p v) s =
    .next (s.ringBell p (s.host.res.headOk v) (fun h => { h with res := { h.res with head := v } }) (fun x => { x with dbRes := v })) :=
  congrArg Host.Outcome.next (ownerOnly_owns hp)

theorem exec_dbEvtHead {p : Port} {v : Word} {s : State} (hp : s.owns p) : exec (.dbEvtHead p v) s =
    .next (s.ringBell p (s.host.evt.headOk v) (fun h => { h with evt := { h.evt with head := v } }) (fun x => { x with dbEvt := v })) :=
  congrArg Host.Outcome.next (ownerOnly_owns hp)

/-! ## The ring registers (R624) -/

@[simp] theorem HostSt.ring_setRing_same (h : HostSt) (r : HostRing) (x : HostRingSt) : (h.setRing r x).ring r = x := by
  cases r <;> rfl

theorem HostSt.ring_setRing_other (h : HostSt) (r : HostRing) (x : HostRingSt) : ∀ q, q ≠ r → (h.setRing r x).ring q = h.ring q := by
  intro q hq
  cases r <;> cases q <;> simp_all [HostSt.ring, HostSt.setRing]

/-- The number that HOST_RING_CFG takes as LOG2N. -/
theorem log2n_toNat (v : Word) : (BitVec.ofNat 5 v.toNat).toNat = v.toNat % 32 := BitVec.toNat_ofNat _ _

/-- A change of one port's registers leaves the host registers, and with them the rings. -/
theorem host_modPort (s : State) (p : Port) (f : PortSt → PortSt) : (s.modPort p f).host = s.host := by cases p <;> rfl

theorem exec_hostRingBase_disabled {p : Port} {r : HostRing} {hi : Bool} {v : Word} {s : State} (hp : s.owns p)
    (hen : (s.host.ring r).en = false) : exec (.hostRingBase p r hi v) s =
      .next { s with host := s.host.setRing r { s.host.ring r with base := setBase (s.host.ring r).base hi v } } := by
  refine congrArg Host.Outcome.next ((ownerOnly_owns hp).trans (if_neg ?_))
  rw [hen]
  exact Bool.false_ne_true

theorem exec_hostRingBase_enabled {p : Port} {r : HostRing} {hi : Bool} {v : Word} {s : State} (hp : s.owns p)
    (hen : (s.host.ring r).en = true) : exec (.hostRingBase p r hi v) s = .next s.doorbellBad :=
  congrArg Host.Outcome.next ((ownerOnly_owns hp).trans (if_pos hen))

/-- The ring of HOST_RING_CFG enabled by the write v: both its indices at 0. -/
def HostRingSt.started (x : HostRingSt) (v : Word) : HostRingSt := ⟨x.base, BitVec.ofNat 5 v.toNat, true, 0, 0⟩

/-- The start of a ring: its registers, its doorbell's copy on the port, and for the admission ring the frames of the old one. -/
def State.startRing (s : State) (p : Port) (r : HostRing) (v : Word) : State :=
  let s := s.modHost (fun h => h.setRing r ((s.host.ring r).started v))
  match r with
  | .admission => ((s.modHost (fun h => { h with admRead := 0, admReleased := [] })).orphanInputs).modPort p (fun y => { y with dbAdm := 0 })
  | .command => s.modPort p (fun y => { y with dbCmd := 0 })
  | .result => s.modPort p (fun y => { y with dbRes := 0 })
  | .event => s.modPort p (fun y => { y with dbEvt := 0 })

theorem startRing_rings (s : State) (p : Port) (r : HostRing) (v : Word) :
    (s.startRing p r v).host.ring r = (s.host.ring r).started v ∧ (∀ q, q ≠ r → (s.startRing p r v).host.ring q = s.host.ring q) ∧
    (s.startRing p r v).port p.other = s.port p.other := by
  have hother : ∀ q, q ≠ r → (s.host.setRing r ((s.host.ring r).started v)).ring q = s.host.ring q :=
    s.host.ring_setRing_other r _
  cases r <;> refine ⟨?_, fun q hq => ?_, ?_⟩
  case admission.refine_1 | command.refine_1 | result.refine_1 | event.refine_1 =>
    exact congrArg (fun h : HostSt => h.ring _) (host_modPort _ p _)
  case command.refine_2 | result.refine_2 | event.refine_2 =>
    exact (congrArg (fun h : HostSt => h.ring q) (host_modPort _ p _)).trans (hother q hq)
  case admission.refine_2 =>
    refine (congrArg (fun h : HostSt => h.ring q) (host_modPort _ p _)).trans (Eq.trans ?_ (hother q hq))
    cases q <;> rfl
  case admission.refine_3 | command.refine_3 | result.refine_3 | event.refine_3 =>
    refine (port_other_modPort _ p _).trans ?_
    cases p <;> rfl

/-- A write of HOST_RING_CFG by its cases (R624): a change of LOG2N of an enabled ring, a start with a LOG2N that is no ring's, a start,
and the rest. -/
theorem hostRingCfg_cases (p : Port) (r : HostRing) (v : Word) (s : State) (hp : s.owns p) :
    exec (.hostRingCfg p r v) s = .next (
      if (s.host.ring r).en && BitVec.ofNat 5 v.toNat != (s.host.ring r).log2n then s.doorbellBad
      else if !(s.host.ring r).en && v.getLsbD 8 && !(decide (6 ≤ (BitVec.ofNat 5 v.toNat).toNat) &&
        decide ((BitVec.ofNat 5 v.toNat).toNat ≤ 16)) then s.doorbellBad
      else if !(s.host.ring r).en && v.getLsbD 8 then s.startRing p r v
      else { s with host := s.host.setRing r { s.host.ring r with log2n := BitVec.ofNat 5 v.toNat, en := v.getLsbD 8 } }) := by
  refine congrArg Host.Outcome.next ((ownerOnly_owns hp).trans ?_)
  cases r <;> rfl

theorem exec_hostRingCfg_start {p : Port} {r : HostRing} {v : Word} {s : State} (hp : s.owns p) (hen : (s.host.ring r).en = false)
    (hv : v.getLsbD 8 = true) (hmin : 6 ≤ v.toNat % 32) (hmax : v.toNat % 32 ≤ 16) :
    exec (.hostRingCfg p r v) s = .next (s.startRing p r v) := by
  rw [hostRingCfg_cases p r v s hp]
  simp [hen, hv, hmin, hmax]

theorem exec_hostRingCfg_badStart {p : Port} {r : HostRing} {v : Word} {s : State} (hp : s.owns p) (hen : (s.host.ring r).en = false)
    (hv : v.getLsbD 8 = true) (hn : v.toNat % 32 < 6 ∨ 16 < v.toNat % 32) : exec (.hostRingCfg p r v) s = .next s.doorbellBad := by
  have hrange : 6 ≤ v.toNat % 32 → ¬v.toNat % 32 ≤ 16 := by omega
  rw [hostRingCfg_cases p r v s hp]
  simp +contextual [hen, hv, hrange]

theorem exec_hostRingCfg_resize {p : Port} {r : HostRing} {v : Word} {s : State} (hp : s.owns p) (hen : (s.host.ring r).en = true)
    (hn : v.toNat % 32 ≠ (s.host.ring r).log2n.toNat) : exec (.hostRingCfg p r v) s = .next s.doorbellBad := by
  have hne : BitVec.ofNat 5 v.toNat ≠ (s.host.ring r).log2n := fun h => hn (h ▸ (log2n_toNat v).symm)
  refine (hostRingCfg_cases p r v s hp).trans (congrArg Host.Outcome.next (if_pos ?_))
  rw [hen]
  exact bne_iff_ne.mpr hne

theorem exec_hostRingCfg_disable {p : Port} {r : HostRing} {v : Word} {s : State} (hp : s.owns p) (hen : (s.host.ring r).en = true)
    (hn : v.toNat % 32 = (s.host.ring r).log2n.toNat) (hv : v.getLsbD 8 = false) : exec (.hostRingCfg p r v) s =
      .next { s with host := s.host.setRing r { s.host.ring r with en := false } } := by
  have heq : BitVec.ofNat 5 v.toNat = (s.host.ring r).log2n := BitVec.eq_of_toNat_eq ((log2n_toNat v).trans hn)
  rw [hostRingCfg_cases p r v s hp, hen, hv, heq]
  simp

/-! ## A read of an entry that fails (R628) -/

theorem exec_ringRead_admission {s : State} (hen : s.host.adm.en = true) : exec (.ringRead false) s = .next
    ({ s with host := { s.host with adm := { s.host.adm with en := false }, err := s.host.err ||| 1 } }.raise 0x6008) :=
  congrArg Host.Outcome.next (if_neg (by simp [hen]))

theorem exec_ringRead_command {s : State} (hen : s.host.cmd.en = true) : exec (.ringRead true) s = .next
    ({ s with host := { s.host with cmd := { s.host.cmd with en := false }, err := s.host.err ||| 2 } }.raise 0x6008) :=
  congrArg Host.Outcome.next (if_neg (by simp [hen]))

/-- Settles O24: the four doorbells, HOST_RING_BASE, HOST_RING_CFG by its cases, and the reads that fail. -/
theorem ringRegistersAndDoorbells : Obligations.RingRegistersAndDoorbells := by
  refine ⟨fun p v s hp => ⟨fun h => ?adm, fun h => ?admBad, fun h => ?cmd, fun h => ?cmdBad, fun h => ?res, fun h => ?resBad,
      fun h => ?evt, fun h => ?evtBad⟩,
    fun p r hi v s hp => ⟨fun hen => ?base, fun hen => exec_hostRingBase_enabled hp hen⟩,
    fun p r v s hp => ⟨fun hen hv hmin hmax => ?start, fun hen hv hn => exec_hostRingCfg_badStart hp hen hv hn,
      fun hen hn => exec_hostRingCfg_resize hp hen hn, fun hen hn hv => ?disable⟩,
    fun s => ⟨exec_ringRead_admission, exec_ringRead_command⟩⟩
  case adm => exact ⟨_, exec_dbAdmTail hp, ringBell_taken s p _ _ ((tailOk_iff _ v).mpr h)⟩
  case cmd => exact ⟨_, exec_dbCmdTail hp, ringBell_taken s p _ _ ((tailOk_iff _ v).mpr h)⟩
  case res => exact ⟨_, exec_dbResHead hp, ringBell_taken s p _ _ ((headOk_iff _ v).mpr h)⟩
  case evt => exact ⟨_, exec_dbEvtHead hp, ringBell_taken s p _ _ ((headOk_iff _ v).mpr h)⟩
  case admBad => exact (exec_dbAdmTail hp).trans (congrArg Host.Outcome.next (if_neg ((not_congr (tailOk_iff _ v)).mpr h)))
  case cmdBad => exact (exec_dbCmdTail hp).trans (congrArg Host.Outcome.next (if_neg ((not_congr (tailOk_iff _ v)).mpr h)))
  case resBad => exact (exec_dbResHead hp).trans (congrArg Host.Outcome.next (if_neg ((not_congr (headOk_iff _ v)).mpr h)))
  case evtBad => exact (exec_dbEvtHead hp).trans (congrArg Host.Outcome.next (if_neg ((not_congr (headOk_iff _ v)).mpr h)))
  case base =>
    exact ⟨_, exec_hostRingBase_disabled hp hen, rfl, HostSt.ring_setRing_same _ _ _, HostSt.ring_setRing_other _ _ _⟩
  case start => exact ⟨_, exec_hostRingCfg_start hp hen hv hmin hmax, startRing_rings s p r v⟩
  case disable => exact ⟨_, exec_hostRingCfg_disable hp hen hn hv, rfl, HostSt.ring_setRing_same _ _ _⟩

end Sys2Proof.Machine
end
section
/-! The heartbeat, the claim and the switch of ownership (13, R616 to R621). -/

namespace Sys2Proof.Machine

/-! ## Heartbeat and lapse (R616) -/

theorem checkLapse_below {s : State} (h : s.host.age.toNat < s.host.limit.toNat) :
    s.checkLapse = { s with host := { s.host with lapsed := false } } := by
  simp [State.checkLapse, State.modHost, Nat.not_le.mpr h]

theorem checkLapse_lapsed {s : State} (h : s.host.limit.toNat ≤ s.host.age.toNat) (hl : s.host.lapsed = true) :
    s.checkLapse = { s with host := { s.host with lapsed := true } } := by
  simp [State.checkLapse, State.modHost, h, hl]

theorem checkLapse_lapses {s : State} (h : s.host.limit.toNat ≤ s.host.age.toNat) (hl : s.host.lapsed = false) :
    s.checkLapse = ({ s with host := { s.host with lapsed := true } }.raise 0x6007).msix s.host.owner.other 1 := by
  simp [State.checkLapse, State.modHost, h, hl]

theorem exec_hostHeartbeat_owns {p : Port} {v : Word} {s : State} (hp : s.owns p) (hlimit : 1 ≤ s.host.limit.toNat) :
    exec (.hostHeartbeat p v) s = .next { s with host := { s.host with heartbeat := v, age := 0, lapsed := false } } :=
  congrArg Host.Outcome.next ((ownerOnly_owns hp).trans (checkLapse_below (s := s.modHost _) hlimit))

theorem exec_hbAgeAdvance_ages {s : State} (hoff : s.glb.st ≠ .off) (hboot : s.glb.st ≠ .boot) (hage : s.host.age ≠ 0xFFFFFFFF) :
    exec .hbAgeAdvance s = .next (State.checkLapse { s with host := { s.host with age := s.host.age + 1 } }) := by
  refine congrArg Host.Outcome.next ((if_neg hoff).trans ((if_neg hboot).trans ?_))
  rw [State.modHost, if_neg hage]

/-- An age short of the last one counts up by one. -/
theorem age_succ_toNat {n : Word} (h : n ≠ 0xFFFFFFFF) : (n + 1).toNat = n.toNat + 1 := by
  bv_omega

/-! ## Offer and claim (R617 to R619) -/

theorem exec_claim_decodes {p : Port} {s : State} (hp : s.decodes p = true) (hne : p ≠ s.host.owner) (hc : s.host.claimed = false) :
    exec (.claim p true) s = .next (if s.glb.st ≠ .boot ∧ (s.host.lapsed ∨ s.host.offer) then
      { s with host := { s.host with claimed := true } } else s.raise 0x6003) :=
  congrArg Host.Outcome.next ((via_decodes hp).trans (if_neg (by simp [hne, hc])))

theorem exec_claim_ignored {p : Port} {v : Bool} {s : State} (hp : s.decodes p = true) (h : p = s.host.owner ∨ s.host.claimed = true) :
    exec (.claim p v) s = .next s :=
  congrArg Host.Outcome.next ((via_decodes hp).trans (if_pos (h.imp_right Or.inr)))

/-! ## The switch (R620, R621) -/

/-- The state after the switch's own actions, before its event and its vectors. -/
def State.switched (s : State) : State := { s with
  host := { s.host with
    owner := s.host.owner.other, offer := false, claimed := false, switchDue := false, age := 0, lapsed := false,
    adm := s.host.adm.disable, res := s.host.res.disable, evt := s.host.evt.disable, cmd := s.host.cmd.disable, admRead := 0,
    admReleased := [], switches := bump s.host.switches }
  sec := { s.sec with chal := none }
  slots := s.slots.map (fun e => (e.1, e.2.loseOwner)) }

theorem abandonQueued_none {s : State} (hrun : s.host.run = none) (hcmd : s.host.cmd.tail = s.host.cmd.head) :
    s.abandonQueued = s := by
  simp [State.abandonQueued, hrun, hcmd]

theorem flushEvents_none {s : State} (h : s.host.evtq = []) : s.flushEvents = s := by
  rw [State.flushEvents, h]
  rfl

theorem cutCommand_none {s : State} (h : s.host.run = none) : s.cutCommand = s := by
  rw [State.cutCommand, h]

theorem exec_ownerChange_quiet {s : State} (hclaim : s.host.claimed = true) (hdue : s.glb.st = .run → s.host.switchDue = true)
    (hrun : s.host.run = none) (hstage : s.upd.staging = none) (hcmd : s.host.cmd.tail = s.host.cmd.head) (hevt : s.host.evtq = []) :
    exec .ownerChange s = .next (((s.switched.raise 0x6004).msix .a 1).msix .b 1) := by
  have hnow : ¬(!s.host.claimed || (s.glb.st == .run && !s.host.switchDue)) = true := by
    by_cases hst : s.glb.st = .run <;> simp [hclaim, hst, hdue]
  have hflush : (if s.ownerPort.canIssue = true then s.abandonQueued.flushEvents else s) = s := by
    rw [abandonQueued_none hrun hcmd, flushEvents_none hevt, ite_self]
  refine congrArg Host.Outcome.next ((if_neg hnow).trans ?_)
  rw [hflush]
  dsimp only
  rw [cutCommand_none hrun, endStaging_idle hstage]
  rfl

theorem exec_ownerChange_waits {s : State} (h : s.host.claimed = false ∨ (s.glb.st = .run ∧ s.host.switchDue = false)) :
    exec .ownerChange s = .next s := by
  refine congrArg Host.Outcome.next (if_pos ?_)
  obtain hc | ⟨hst, hdue⟩ := h
  · simp [hc]
  · simp [hst, hdue]

/-- Settles O25: the age by its place below the limit, the offer, the claim by its cases, and the switch. -/
theorem heartbeatAndOwnership : Obligations.HeartbeatAndOwnership := by
  refine ⟨fun p v s => exec_hostHeartbeat_owns, fun s hoff hboot hage => ⟨fun h => ?below, fun h hl => ?lapsed, fun h hl => ?lapses⟩,
    fun s hboot => ?boot, fun p s hp => ⟨?offer, ?withdrawn⟩, fun p s hp hne => ⟨fun hc => exec_claim_ignored hp (.inr hc), fun hc hb hl => ?claim,
      fun hc hl => ?early⟩,
    fun p v s hp => exec_claim_ignored hp.1 (.inl hp.2), fun s hclaim hdue hrun hstage hcmd hevt => ?switch, fun s => exec_ownerChange_waits⟩
  case below =>
    refine (exec_hbAgeAdvance_ages hoff hboot hage).trans (congrArg Host.Outcome.next (checkLapse_below ?_))
    rwa [age_succ_toNat hage]
  case lapsed =>
    refine (exec_hbAgeAdvance_ages hoff hboot hage).trans (congrArg Host.Outcome.next (checkLapse_lapsed ?_ hl))
    rwa [age_succ_toNat hage]
  case lapses =>
    refine (exec_hbAgeAdvance_ages hoff hboot hage).trans (congrArg Host.Outcome.next (checkLapse_lapses ?_ hl))
    rwa [age_succ_toNat hage]
  case boot =>
    refine congrArg Host.Outcome.next ((if_neg ?_).trans (if_pos hboot))
    rw [hboot]
    decide
  case offer => exact congrArg Host.Outcome.next (ownerOnly_owns hp)
  case withdrawn => exact congrArg Host.Outcome.next (ownerOnly_owns hp)
  case claim => exact (exec_claim_decodes hp hne hc).trans (congrArg Host.Outcome.next (if_pos ⟨hb, hl⟩))
  case early =>
    refine (exec_claim_decodes hp hne hc).trans (congrArg Host.Outcome.next (if_neg ?_))
    rintro ⟨hb, ho⟩
    obtain hboot | ⟨hlapse, hoffer⟩ := hl
    · exact hb hboot
    · simp [hlapse, hoffer] at ho
  case switch =>
    exact ⟨_, s.switched, exec_ownerChange_quiet hclaim hdue hrun hstage hcmd hevt, rfl, rfl, rfl, rfl, rfl, rfl, fun r => by cases r <;> rfl,
      rfl, rfl, rfl, rfl, rfl⟩

end Sys2Proof.Machine
end
section
/-! The BARs: accesses of BAR0 that are refused, and device memory through BAR4 (13, R607, R610 to R613, R615; 14, R682). -/

namespace Sys2Proof.Machine

/-! ## Memory after a run of bytes is written -/

/-- Bytes written read back, and every other byte reads as before. -/
theorem peek_of_setRange {s t : State} {a : Nat} {l : List Byte} (hmem : t.mem = Tab.setRange memDefault s.mem a l)
    (hwf : Memory.wf s.mem = true) :
    t.peek a l.length = l ∧ ∀ x, x < a ∨ a + l.length ≤ x → t.peek x 1 = s.peek x 1 := by
  simp only [State.peek, hmem]
  refine ⟨tab_range_setRange memDefault l s.mem a hwf, fun x hx => tab_range_congr fun j hlo hhi => ?_⟩
  exact tab_get_setRange_out memDefault l s.mem a j hwf (by omega)

/-! ## BAR0 (R607) -/

theorem exec_bar0AccessRefused_refused {p : Port} {off : BitVec 28} {n : Nat} {wr : Bool} {s : State} (hp : s.decodes p = true)
    (h : ¬(n = 4 ∧ off.toNat % 4 = 0)) :
    exec (.bar0AccessRefused p off n wr) s = .next (s.barRefuse.answer (if wr then .none else .unsupported)) :=
  congrArg Host.Outcome.next ((if_neg (by simp [hp])).trans (if_neg h))

theorem exec_bar0AccessRefused_word {p : Port} {off : BitVec 28} {n : Nat} {wr : Bool} {s : State} (hp : s.decodes p = true)
    (h : n = 4 ∧ off.toNat % 4 = 0) : exec (.bar0AccessRefused p off n wr) s = .next s :=
  congrArg Host.Outcome.next ((if_neg (by simp [hp])).trans (if_pos h))

/-! ## Reads through BAR4 (R610 to R612, R682) -/

theorem exec_bar4Read_refused {p : Port} {off : BitVec 41} {n : Nat} {s : State} (hp : s.decodes p = true)
    (hst : s.glb.st = .boot ∨ s.glb.st = .park) : exec (.bar4Read p off n) s = .next (s.barRefuse.answer .unsupported) :=
  congrArg Host.Outcome.next ((if_neg (by simp [hp])).trans (if_pos hst))

theorem exec_bar4Read_unmapped {p : Port} {off : BitVec 41} {n : Nat} {s : State} (hp : s.decodes p = true)
    (hst : ¬(s.glb.st = .boot ∨ s.glb.st = .park)) (hmap : s.apertureOk ((s.port p).apBase + off.toNat) n = false) :
    exec (.bar4Read p off n) s = .next ((s.raise 0x4108).answer .unsupported) :=
  congrArg Host.Outcome.next ((if_neg (by simp [hp])).trans ((if_neg hst).trans (if_pos (.inr (by rw [hmap]; rfl)))))

theorem exec_bar4Read_delivered {p : Port} {off : BitVec 41} {n a : Nat} {s : State} (hp : s.decodes p = true)
    (ha : a = (s.port p).apBase + off.toNat) (hst : ¬(s.glb.st = .boot ∨ s.glb.st = .park)) (hn : n ≠ 0)
    (hmap : s.apertureOk a n = true) (hread : (s.readSpan a n (n / 32 + 2)).1 = true) : exec (.bar4Read p off n) s =
      .next (((s.readSpan a n (n / 32 + 2)).2.modPort p (fun x => { x with apStamp := s.stamp })).answer (.bytes (s.peek a n))) := by
  subst ha
  exact congrArg Host.Outcome.next ((if_neg (by simp [hp])).trans ((if_neg hst).trans
    ((if_neg (by simp [hn, hmap])).trans (if_pos hread))))

/-- The answer of a read that delivers, and the stamp it latches on its own port. -/
theorem latchStamp_answer (u : State) (p : Port) (stamp : Word) (r : Reply) :
    let t := (u.modPort p (fun x => { x with apStamp := stamp })).answer r
    t.reply = r ∧ (t.port p).apStamp = stamp ∧ t.port p.other = u.port p.other ∧
      t = { u with reply := t.reply, portA := t.portA, portB := t.portB } := by
  cases p <;> exact ⟨rfl, rfl, rfl, rfl⟩

/-! ## Writes through BAR4 (R610 to R613, R615) -/

theorem exec_bar4Write_owns {p : Port} {off : BitVec 41} {l : List Byte} {a : Nat} {s : State} (hp : s.owns p)
    (ha : a = (s.port p).apBase + off.toNat) : exec (.bar4Write p off l) s = .next (
      if s.glb.st = .boot ∨ s.glb.st = .park then s.barRefuse
      else if l.isEmpty ∨ !s.apertureOk a l.length then s.raise 0x4108
      else if s.bar4Writable a && s.bar4Writable (a + l.length - 1) then s.writeSpan a l (l.length / 32 + 2)
      else s.barRefuse) := by
  subst ha
  exact congrArg Host.Outcome.next ((if_neg (by simp [hp.1])).trans (ownerOnly_owns hp))

/-- In READY any populated address takes a write, in RUN one of a stack (R611). -/
theorem bar4Writable_of {s : State} {a : Nat} (h : s.glb.st = .ready ∨ (s.glb.st = .run ∧ (s.place a).isStack = true)) :
    s.bar4Writable a = true := by
  obtain hst | ⟨hst, hplace⟩ := h
  · simp [State.bar4Writable, hst]
  · simp [State.bar4Writable, hst, hplace]

theorem exec_bar4Write_taken {p : Port} {off : BitVec 41} {l : List Byte} {a : Nat} {s : State} (hp : s.owns p)
    (ha : a = (s.port p).apBase + off.toNat) (hl : l ≠ []) (hmap : s.apertureOk a l.length = true)
    (hst : s.glb.st = .ready ∨ (s.glb.st = .run ∧ (s.place a).isStack = true ∧ (s.place (a + l.length - 1)).isStack = true)) :
    exec (.bar4Write p off l) s = .next (s.writeSpan a l (l.length / 32 + 2)) := by
  have hopen : ¬(s.glb.st = .boot ∨ s.glb.st = .park) := by
    obtain hst | ⟨hst, -⟩ := hst <;> simp [hst]
  have hfirst : s.bar4Writable a = true := bar4Writable_of (hst.imp_right fun ⟨hrun, hplace, _⟩ => ⟨hrun, hplace⟩)
  have hlast : s.bar4Writable (a + l.length - 1) = true := bar4Writable_of (hst.imp_right fun ⟨hrun, _, hplace⟩ => ⟨hrun, hplace⟩)
  refine (exec_bar4Write_owns hp ha).trans (congrArg Host.Outcome.next
    ((if_neg hopen).trans ((if_neg (by simp [hl, hmap])).trans (if_pos ?_))))
  rw [hfirst, hlast]
  rfl

/-- Settles O23: BAR0, and BAR4's reads and writes by the state and the populated range. -/
theorem hostMemoryWindows : Obligations.HostMemoryWindows := by
  refine ⟨fun p off n wr s hp => ⟨exec_bar0AccessRefused_refused hp, fun hn ho => exec_bar0AccessRefused_word hp ⟨hn, ho⟩⟩,
    fun p off n a s hp ha => ⟨exec_bar4Read_refused hp, fun hb hk hmap => exec_bar4Read_unmapped hp (not_or.mpr ⟨hb, hk⟩) (ha ▸ hmap),
      fun hb hk hn hmap hread => ?delivered⟩,
    fun p off a l s hp ha => ⟨fun hst => ?refused, fun hb hk hmap => ?unmapped, fun hwf hl hmap hst => ?taken⟩⟩
  case delivered =>
    exact ⟨_, (s.readSpan a n (n / 32 + 2)).2, exec_bar4Read_delivered hp ha (not_or.mpr ⟨hb, hk⟩) hn hmap hread, rfl,
      latchStamp_answer (s.readSpan a n (n / 32 + 2)).2 p s.stamp (.bytes (s.peek a n))⟩
  case refused => exact (exec_bar4Write_owns hp ha).trans (congrArg Host.Outcome.next (if_pos hst))
  case unmapped =>
    exact (exec_bar4Write_owns hp ha).trans (congrArg Host.Outcome.next ((if_neg (not_or.mpr ⟨hb, hk⟩)).trans
      (if_pos (.inr (by rw [hmap]; rfl)))))
  case taken =>
    obtain ⟨hmem, hframe⟩ := writeSpan_only (l.length / 32 + 2) s a l (by omega)
    obtain ⟨hback, hother⟩ := peek_of_setRange hmem hwf
    exact ⟨_, exec_bar4Write_taken hp ha hl hmap hst, hback, hother, hframe⟩

end Sys2Proof.Machine
end
section
/-! Results, events and the vectors that follow them (13, R626, R630, R631, R805; 14, R667). -/

namespace Sys2Proof.Machine

/-- The device may write index TAIL of a result or event ring (R626). -/
theorem ringRoom_iff (s : State) (r : HostRingSt) : s.ringRoom r = true ↔
    r.en = true ∧ s.ownerPort.canIssue = true ∧ (r.tail - r.head).toNat < r.entries := by
  simp [State.ringRoom, and_assoc]

/-! ## Results (R626, R630, R667) -/

/-- The state with the first result written at index TAIL, before its vector. -/
def State.resultWritten (s : State) (e : ResEntry) (l : List ResEntry) : State := { s with
  sent := .hostWrite s.host.owner (BitVec.ofNat 64 (s.host.res.base.toNat + s.host.res.tail.toNat % s.host.res.entries * 32))
    (resBytes e ((s.host.res.tail.toNat / s.host.res.entries + 1) % 2)) :: s.sent
  host := { s.host with resq := l, res := { s.host.res with tail := s.host.res.tail + 1 }, results := bump s.host.results } }

theorem exec_resultWrite_first {e : ResEntry} {l : List ResEntry} {s : State} (hq : s.host.resq = e :: l) : exec .resultWrite s = .next (
    if e.wait || !s.ringRoom s.host.res then s
    else if e.lastOfVec then (s.resultWritten e l).msix s.host.owner (e.vec.toNat % 64) else s.resultWritten e l) := by
  refine congrArg Host.Outcome.next ?_
  rw [hq]
  rfl

theorem exec_resultWrite_written {e : ResEntry} {l : List ResEntry} {s : State} (hq : s.host.resq = e :: l) (hwait : e.wait = false)
    (hroom : s.ringRoom s.host.res = true) : exec .resultWrite s = .next (
      if e.lastOfVec then (s.resultWritten e l).msix s.host.owner (e.vec.toNat % 64) else s.resultWritten e l) :=
  (exec_resultWrite_first hq).trans (congrArg Host.Outcome.next (if_neg (by simp [hwait, hroom])))

theorem exec_resultWrite_waits {e : ResEntry} {l : List ResEntry} {s : State} (hq : s.host.resq = e :: l)
    (h : e.wait = true ∨ ¬s.ringRoom s.host.res = true) : exec .resultWrite s = .next s :=
  (exec_resultWrite_first hq).trans (congrArg Host.Outcome.next (if_pos (by simpa using h)))

theorem exec_resultWrite_none {s : State} (hq : s.host.resq = []) : exec .resultWrite s = .next s := by
  refine congrArg Host.Outcome.next ?_
  rw [hq]

/-! ## Events (R626, R631) -/

/-- The state with the first event written at index TAIL, before vector 0. -/
def State.eventWritten (s : State) (e : EvtEntry) (l : List EvtEntry) : State := { s with
  sent := .hostWrite s.host.owner (BitVec.ofNat 64 (s.host.evt.base.toNat + s.host.evt.tail.toNat % s.host.evt.entries * 32))
    (evtBytes e ((s.host.evt.tail.toNat / s.host.evt.entries + 1) % 2)) :: s.sent
  host := { s.host with evtq := l, evt := { s.host.evt with tail := s.host.evt.tail + 1 } } }

theorem putEvent_first {e : EvtEntry} {l : List EvtEntry} {s : State} (hq : s.host.evtq = e :: l) (hroom : s.ringRoom s.host.evt = true) :
    s.putEvent = s.eventWritten e l := by
  unfold State.putEvent
  rw [hq]
  exact if_neg (by simp [hroom])

theorem exec_eventWrite_written {e : EvtEntry} {l : List EvtEntry} {s : State} (hq : s.host.evtq = e :: l)
    (hroom : s.ringRoom s.host.evt = true) : exec .eventWrite s = .next (
      if s.host.vec0Limit then { s.eventWritten e l with host := { (s.eventWritten e l).host with vec0Due := true } }
      else ({ s.eventWritten e l with host := { (s.eventWritten e l).host with vec0Limit := true } } : State).msix s.host.owner 0) := by
  refine congrArg Host.Outcome.next ((if_neg (by simp [hq, hroom])).trans ?_)
  rw [putEvent_first hq hroom]
  rfl

theorem exec_eventWrite_waits {s : State} (h : s.host.evtq = [] ∨ ¬s.ringRoom s.host.evt = true) : exec .eventWrite s = .next s :=
  congrArg Host.Outcome.next (if_pos (by simpa using h))

theorem exec_eventVectorSend_due {s : State} (h : s.host.vec0Due = true) :
    exec .eventVectorSend s = .next (({ s with host := { s.host with vec0Due := false } } : State).msix s.host.owner 0) :=
  congrArg Host.Outcome.next (if_pos h)

theorem exec_eventVectorSend_quiet {s : State} (h : s.host.vec0Due = false) :
    exec .eventVectorSend s = .next { s with host := { s.host with vec0Limit := false } } :=
  congrArg Host.Outcome.next (if_neg (by rw [h]; exact Bool.false_ne_true))

/-! ## Vectors (R805) -/

/-- The mask of the pending bits with that of vector v set. -/
theorem getLsbD_setVector (m : DWord) (v : Fin 64) {k : Nat} (hk : k < 64) :
    (m ||| BitVec.ofNat 64 (2 ^ v.val)).getLsbD k = (m.getLsbD k || decide (k = v.val)) := by
  rw [BitVec.getLsbD_or, getLsbD_ofNat_two_pow]
  simp [hk, eq_comm]

/-- The mask of the pending bits with that of vector v cleared. -/
theorem getLsbD_clearVector (m : DWord) (v : Fin 64) {k : Nat} (hk : k < 64) :
    (m &&& ~~~BitVec.ofNat 64 (2 ^ v.val)).getLsbD k = (m.getLsbD k && decide (k ≠ v.val)) := by
  rw [BitVec.getLsbD_and, BitVec.getLsbD_not, getLsbD_ofNat_two_pow]
  simp [hk, eq_comm]

theorem msix_sent {s : State} {p : Port} {v : Nat} (h : (s.port p).canMsix v = true) :
    s.msix p v = { s with sent := .msix p v :: s.sent } := if_pos h

theorem msix_held {s : State} {p : Port} {v : Nat} (h : (s.port p).canMsix v = false) :
    s.msix p v = s.modPort p (fun x => { x with msixPend := x.msixPend ||| BitVec.ofNat 64 (2 ^ v) }) :=
  if_neg (by rw [h]; exact Bool.false_ne_true)

theorem exec_msixPending_sent {p : Port} {v : Fin 64} {s : State} (hpend : (s.port p).msixPend.getLsbD v.val = true)
    (hcan : (s.port p).canMsix v.val = true) : exec (.msixPending p v) s = .next ((s.modPort p (fun x =>
      { x with msixPend := x.msixPend &&& ~~~(BitVec.ofNat 64 (2 ^ v.val)) })).send (.msix p v.val)) :=
  congrArg Host.Outcome.next (if_pos (by simp only [hpend, hcan, Bool.and_self]))

theorem exec_msixPending_not {p : Port} {v : Fin 64} {s : State}
    (h : (s.port p).msixPend.getLsbD v.val = false ∨ (s.port p).canMsix v.val = false) : exec (.msixPending p v) s = .next s := by
  refine congrArg Host.Outcome.next (if_neg ?_)
  rw [Bool.and_eq_true, Classical.not_and_iff_not_or_not, Bool.not_eq_true, Bool.not_eq_true]
  exact h

/-- A message sent after one port's registers changed. -/
theorem send_modPort (s : State) (p : Port) (f : PortSt → PortSt) (m : Sent) : let t := (s.modPort p f).send m
    t = { s with sent := m :: s.sent, portA := t.portA, portB := t.portB } ∧ t.port p.other = s.port p.other ∧ t.port p = f (s.port p) := by
  cases p <;> exact ⟨rfl, rfl, rfl⟩

/-- Settles O29: the first result, the first event, the vector that is due, and a vector sent, held and sent later. -/
theorem resultsEventsAndVectors : Obligations.ResultsEventsAndVectors := by
  refine ⟨fun e l s hq => ⟨fun hwait hcan => ?written, fun h => ?resultWaits⟩, fun e l s hq => ⟨fun hcan => ?event, fun h => ?eventWaits⟩,
    fun s => ⟨exec_resultWrite_none, fun hq => exec_eventWrite_waits (.inl hq), exec_eventVectorSend_due, exec_eventVectorSend_quiet⟩,
    fun p v s => ⟨fun hpend hcan => ?pending, exec_msixPending_not, msix_sent, fun hcan => ?held⟩⟩
  case written => exact ⟨_, _, exec_resultWrite_written hq hwait ((ringRoom_iff s _).mpr hcan), rfl, rfl⟩
  case resultWaits => exact exec_resultWrite_waits hq (h.imp_right (not_congr (ringRoom_iff s _)).mpr)
  case event => exact ⟨_, _, exec_eventWrite_written hq ((ringRoom_iff s _).mpr hcan), rfl, rfl⟩
  case eventWaits => exact exec_eventWrite_waits (.inr ((not_congr (ringRoom_iff s _)).mpr h))
  case pending =>
    obtain ⟨hframe, hother, hport⟩ := send_modPort s p
      (fun x => { x with msixPend := x.msixPend &&& ~~~(BitVec.ofNat 64 (2 ^ v.val)) }) (.msix p v.val)
    refine ⟨_, exec_msixPending_sent hpend hcan, hframe, hother, fun k hk => ?_⟩
    rw [hport]
    exact getLsbD_clearVector _ v hk
  case held =>
    rw [msix_held hcan, State.port_modPort]
    exact ⟨by cases p <;> rfl, fun k hk => getLsbD_setVector _ v hk⟩

end Sys2Proof.Machine
end
section
/-! The commands of the command ring (13, R644 to R647). -/

namespace Sys2Proof.Machine

/-- The state in which the command e has come to its end and waits for CMD_DONE (R646). -/
def CmdEnd.closed (x : CmdEnd) (e : List Byte) : State := { x.s with host := { x.s.host with
  run := some ⟨BitVec.ofNat 8 (byteAt e 0), BitVec.ofNat 8 x.status, x.failAt, BitVec.ofNat 64 (leAt e 48 8), leAt e 16 8, leAt e 24 8⟩ } }

/-- The state with the waiting command taken off the ring. -/
def State.cmdTaken (s : State) : State := { s with host := { s.host with cmd := { s.host.cmd with head := s.host.cmd.head + 1 } } }

/-- What the command of an OP does once its entry is in order, its state the right one and its range populated (R645). -/
def cmdBody (e : List Byte) (d : HostRead) (op : Nat) (s : State) : CmdEnd :=
  match op with
  | 1 => match d with
    | .bytes l => ⟨0, 0, (s.send (.hostRead s.host.owner (BitVec.ofNat 64 (leAt e 8 8)) (leAt e 24 8))).writeDev (leAt e 16 8)
        (l.take (leAt e 24 8))⟩
    | .failed => ⟨4, 0, s.scramble (leAt e 16 8) (leAt e 24 8 / 32)⟩
  | 2 => match s.readEach (leAt e 16 8) 0 (leAt e 24 8 / 32) with
    | (some off, u) => ⟨5, off, u⟩
    | (none, u) => ⟨0, 0, u.hostWrite s.host.owner (leAt e 8 8) (s.peek (leAt e 16 8) (leAt e 24 8))⟩
  | 3 => ⟨0, 0, s.writeDev (leAt e 16 8) (repeatBytes ((e.drop 32).take 8) (leAt e 24 8 / 8))⟩
  | 4 => match s.readEach (leAt e 16 8) 0 (leAt e 24 8 / 32) with
    | (some off, u) => ⟨5, off, u⟩
    | (none, u) => ⟨0, 0, u.hostWrite s.host.owner (leAt e 8 8) (s.rangeDigest (leAt e 16 8) (leAt e 24 8 / 32))⟩
  | _ => ⟨0, 0, s⟩

/-- The command whose row takes the entries of an OP. -/
def IsCommand (e : List Byte) (d : HostRead) (c : Instr) (op : Nat) : Prop :=
  (c, op) = (.cmdNop e, 0) ∨ (c, op) = (.load e d, 1) ∨ (c, op) = (.store e, 2) ∨ (c, op) = (.fill e, 3) ∨ (c, op) = (.digest e, 4)

/-- The end that a command's row gives its entry e: the checks of R645 in order, then the command itself. -/
def State.cmdEnd (s : State) (e : List Byte) (d : HostRead) (op : Nat) : CmdEnd :=
  if !entryCheckOk e then ⟨1, 0, s⟩
  else if 4 < byteAt e 0 ∨ (op ≠ 0 ∧ (leAt e 16 8 % 32 ≠ 0 ∨ leAt e 24 8 % 32 ≠ 0)) then ⟨2, 0, s⟩
  else if !s.cmdAllowed op (leAt e 16 8) then ⟨6, 0, s⟩
  else if op = 0 then ⟨0, 0, s⟩
  else match s.firstHole (leAt e 16 8) (leAt e 24 8 / 32) with
    | some a => ⟨3, a - leAt e 16 8, (if op = 1 ∨ op = 3 then s.scramble (leAt e 16 8) (leAt e 24 8 / 32) else s).holeEvent a⟩
    | none => cmdBody e d op s

/-- A row whose OP the entry carries, or any row for an entry whose OP is none, brings the waiting entry to its end. -/
theorem exec_command {e : List Byte} {d : HostRead} {c : Instr} {op : Nat} {s : State} (hc : IsCommand e d c op)
    (hwait : s.cmdWaiting = true) (hop : byteAt e 0 = op ∨ 4 < byteAt e 0) :
    exec c s = .next ((s.cmdTaken.cmdEnd e d op).closed e) := by
  have hrow : ¬(byteAt e 0 ≠ op ∧ byteAt e 0 ≤ 4) := fun h => hop.elim h.1 (Nat.not_lt.mpr h.2)
  have hrun : ∀ f, f = cmdBody e d op → s.runCmd e op f = (s.cmdTaken.cmdEnd e d op).closed e := by
    rintro f rfl
    exact (if_neg (by simp [hwait])).trans (if_neg hrow)
  obtain h | h | h | h | h := hc <;> obtain ⟨rfl, rfl⟩ := Prod.mk.inj h <;> refine congrArg Host.Outcome.next (hrun _ ?_)
  case inl | inr.inr.inr.inl => rfl
  case inr.inl => funext u; cases d <;> rfl
  case inr.inr.inl | inr.inr.inr.inr =>
    funext u
    dsimp only [cmdBody]
    obtain ⟨o, w⟩ := u.readEach (leAt e 16 8) 0 (leAt e 24 8 / 32)
    cases o <;> rfl

section
variable {e : List Byte} {d : HostRead} {op : Nat} {s : State}

theorem cmdEnd_badCheck (h : entryCheckOk e = false) : s.cmdEnd e d op = ⟨1, 0, s⟩ :=
  if_pos (by rw [h]; rfl)

theorem cmdEnd_malformed (hcheck : entryCheckOk e = true)
    (h : 4 < byteAt e 0 ∨ (op ≠ 0 ∧ (leAt e 16 8 % 32 ≠ 0 ∨ leAt e 24 8 % 32 ≠ 0))) : s.cmdEnd e d op = ⟨2, 0, s⟩ :=
  (if_neg (by simp [hcheck])).trans (if_pos h)

variable (hcheck : entryCheckOk e = true)
  (hform : ¬(4 < byteAt e 0 ∨ (op ≠ 0 ∧ (leAt e 16 8 % 32 ≠ 0 ∨ leAt e 24 8 % 32 ≠ 0))))
include hcheck hform

theorem cmdEnd_notAllowed (h : s.cmdAllowed op (leAt e 16 8) = false) : s.cmdEnd e d op = ⟨6, 0, s⟩ :=
  (if_neg (by simp [hcheck])).trans ((if_neg hform).trans (if_pos (by rw [h]; rfl)))

variable (hallowed : s.cmdAllowed op (leAt e 16 8) = true)
include hallowed

theorem cmdEnd_nop (h : op = 0) : s.cmdEnd e d op = ⟨0, 0, s⟩ :=
  (if_neg (by simp [hcheck])).trans ((if_neg hform).trans ((if_neg (by simp [hallowed])).trans (if_pos h)))

theorem cmdEnd_hole (hop : op ≠ 0) {a : Nat} (h : s.firstHole (leAt e 16 8) (leAt e 24 8 / 32) = some a) : s.cmdEnd e d op =
    ⟨3, a - leAt e 16 8, (if op = 1 ∨ op = 3 then s.scramble (leAt e 16 8) (leAt e 24 8 / 32) else s).holeEvent a⟩ := by
  refine (if_neg (by simp [hcheck])).trans ((if_neg hform).trans ((if_neg (by simp [hallowed])).trans ((if_neg hop).trans ?_)))
  rw [h]

theorem cmdEnd_body (hop : op ≠ 0) (h : s.firstHole (leAt e 16 8) (leAt e 24 8 / 32) = none) : s.cmdEnd e d op = cmdBody e d op s := by
  refine (if_neg (by simp [hcheck])).trans ((if_neg hform).trans ((if_neg (by simp [hallowed])).trans ((if_neg hop).trans ?_)))
  rw [h]

end

/-! ## The commands themselves (R645) -/

theorem cmdBody_loadFailed (e : List Byte) (s : State) :
    cmdBody e .failed 1 s = ⟨4, 0, s.scramble (leAt e 16 8) (leAt e 24 8 / 32)⟩ := rfl

/-- LOAD and FILL write their bytes at DADDR, LOAD after a read of the host. -/
theorem cmdBody_writes {e : List Byte} {d : HostRead} {op : Nat} {l : List Byte} (s : State)
    (h : (op = 1 ∧ d = .bytes l ∧ l.length = leAt e 24 8) ∨
      (op = 3 ∧ l = repeatBytes ((e.drop 32).take 8) (leAt e 24 8 / 8) ∧ l.length = leAt e 24 8)) :
    ∃ m : List Sent, cmdBody e d op s = ⟨0, 0, ({ s with sent := m } : State).writeDev (leAt e 16 8) l⟩ := by
  obtain ⟨rfl, rfl, hlen⟩ | ⟨rfl, rfl, -⟩ := h
  · refine ⟨.hostRead s.host.owner (BitVec.ofNat 64 (leAt e 8 8)) (leAt e 24 8) :: s.sent, ?_⟩
    exact congrArg (fun k => CmdEnd.mk 0 0 (State.writeDev _ (leAt e 16 8) k)) (List.take_of_length_le (Nat.le_of_eq hlen))
  · exact ⟨s.sent, rfl⟩

/-- The bytes written read back, every other byte reads as before, and nothing else differs but what a write touches. -/
theorem writeDev_closed {s : State} (m : List Sent) (e l : List Byte) (hlen : l.length = leAt e 24 8) (hwf : Memory.wf s.mem = true) :
    let t := (CmdEnd.mk 0 0 (({ s with sent := m } : State).writeDev (leAt e 16 8) l)).closed e
    t.peek (leAt e 16 8) (leAt e 24 8) = l ∧
    (∀ x, x < leAt e 16 8 ∨ leAt e 16 8 + leAt e 24 8 ≤ x → t.peek x 1 = s.peek x 1) ∧
    t = { (CmdEnd.mk 0 0 s).closed e with mem := t.mem, badOne := t.badOne, badTwo := t.badTwo, stk := t.stk, sent := t.sent } := by
  obtain ⟨hmem, hframe⟩ := writeDev_only ({ s with sent := m } : State) (leAt e 16 8) l
  generalize State.writeDev _ (leAt e 16 8) l = u at hmem hframe
  have hsent : u.sent = m := congrArg State.sent hframe
  subst hsent
  obtain ⟨hback, hother⟩ := peek_of_setRange (s := s) (t := (CmdEnd.mk 0 0 u).closed e) hmem hwf
  rw [← hlen]
  exact ⟨hback, hother, congrArg (fun w => (CmdEnd.mk 0 0 w).closed e) hframe⟩

/-- What STORE and DIGEST send to the host. -/
def cmdReply (e : List Byte) (op : Nat) (s : State) : List Byte :=
  if op = 2 then s.peek (leAt e 16 8) (leAt e 24 8) else s.rangeDigest (leAt e 16 8) (leAt e 24 8 / 32)

theorem cmdBody_readFails {e : List Byte} {d : HostRead} {op k : Nat} {s u : State} (hop : op = 2 ∨ op = 4)
    (h : s.readEach (leAt e 16 8) 0 (leAt e 24 8 / 32) = (some k, u)) : cmdBody e d op s = ⟨5, k, u⟩ := by
  obtain rfl | rfl := hop <;> dsimp only [cmdBody] <;> rw [h] <;> rfl

theorem cmdBody_readDelivers {e : List Byte} {d : HostRead} {op : Nat} {s u : State} (hop : op = 2 ∨ op = 4)
    (h : s.readEach (leAt e 16 8) 0 (leAt e 24 8 / 32) = (none, u)) :
    cmdBody e d op s = ⟨0, 0, u.hostWrite s.host.owner (leAt e 8 8) (cmdReply e op s)⟩ := by
  obtain rfl | rfl := hop <;> dsimp only [cmdBody] <;> rw [h] <;> rfl

/-! ## The end of a command (R646) -/

theorem exec_cmdDone_running {x : RunCmd} {s : State} (h : s.host.run = some x) :
    exec .cmdDone s = .next ({ s with host := { s.host with run := none } }.raise 0x6001
      (some (x.status.toNat + (if x.status = 0 then 0 else x.failAt / 32 % 2 ^ 24 * 256))) (some x.tag.toNat)) := by
  refine congrArg Host.Outcome.next ?_
  rw [h]
  rfl

/-- Settles O28: the checks in their order by the lemma of each end, then the commands themselves. -/
theorem hostCommands : Obligations.HostCommands := by
  refine ⟨fun e d c op s r hwait hc hr => ?_, fun x s h => exec_cmdDone_running h⟩
  have hrow : (byteAt e 0 = op ∨ 4 < byteAt e 0) → ∀ {x : CmdEnd}, s.cmdTaken.cmdEnd e d op = x → exec c s = .next (x.closed e) :=
    fun hop x hx => (exec_command hc hwait hop).trans (congrArg (fun y : CmdEnd => Host.Outcome.next (y.closed e)) hx)
  have hle : op ≤ 4 := by
    obtain h | h | h | h | h := hc <;> rw [(Prod.mk.inj h).2] <;> decide
  obtain rfl : r = s.cmdTaken := hr
  refine ⟨fun hop hcheck => hrow hop (cmdEnd_badCheck hcheck), fun hop hcheck => hrow (.inr hop) (cmdEnd_malformed hcheck (.inl hop)),
    fun hop hcheck => ⟨fun h0 halign => hrow (.inl hop) (cmdEnd_malformed hcheck (.inr ⟨h0, halign⟩)), fun halign => ?_⟩⟩
  have hform : ¬(4 < byteAt e 0 ∨ (op ≠ 0 ∧ (leAt e 16 8 % 32 ≠ 0 ∨ leAt e 24 8 % 32 ≠ 0))) := by omega
  refine ⟨fun hno => hrow (.inl hop) (cmdEnd_notAllowed (s := s.cmdTaken) hcheck hform hno), fun hallowed => ⟨fun h0 => ?nop, fun a h0 hhole => ?hole,
    fun hnone hwf => ⟨fun h1 hd => ?failed, fun l hl => ?writes, fun hop2 o u hread => ?reads⟩⟩⟩
  case nop => exact hrow (.inl hop) (cmdEnd_nop (s := s.cmdTaken) hcheck hform hallowed h0)
  case hole => exact hrow (.inl hop) (cmdEnd_hole (s := s.cmdTaken) hcheck hform hallowed h0 hhole)
  case failed =>
    subst h1 hd
    exact hrow (.inl hop) (cmdEnd_body (s := s.cmdTaken) hcheck hform hallowed (by decide) hnone)
  case writes =>
    have h0 : op ≠ 0 := by obtain ⟨rfl, -⟩ | ⟨rfl, -⟩ := hl <;> decide
    have hlen : l.length = leAt e 24 8 := by obtain ⟨-, -, h⟩ | ⟨-, -, h⟩ := hl <;> exact h
    obtain ⟨m, hm⟩ := cmdBody_writes s.cmdTaken hl
    exact ⟨_, hrow (.inl hop) ((cmdEnd_body (s := s.cmdTaken) hcheck hform hallowed h0 hnone).trans hm), writeDev_closed (s := s.cmdTaken) m e l hlen hwf⟩
  case reads =>
    have h0 : op ≠ 0 := by obtain rfl | rfl := hop2 <;> decide
    have hend := cmdEnd_body (d := d) (s := s.cmdTaken) hcheck hform hallowed h0 hnone
    refine ⟨fun k hk => ?_, fun ho => ?_⟩
    · subst hk
      exact hrow (.inl hop) (hend.trans (cmdBody_readFails hop2 hread))
    · subst ho
      exact hrow (.inl hop) (hend.trans (cmdBody_readDelivers hop2 hread))

end Sys2Proof.Machine
end
section
/-! Starts (15, R691, R695, R699, R702, R705, R717; 17, R776): from the supplies in range to READY, or to SAFE. -/

namespace Sys2Proof.Machine

/-! ## Starts that end in SAFE (R699) -/

/-- SAFE at the end of a start keeps the first event. -/
theorem bootSafe_end (s : State) : s.bootSafe.glb.st = .safe ∧ s.bootSafe.err.first = s.err.first := ⟨rfl, rfl⟩

/-- The first event of a start is the first one raised, at tick 0: a start begins with none and with no tick. -/
theorem raise_first_fresh {s : State} (c : Nat) (hfirst : s.err.first = none) (htick : s.tick.count = 0) :
    (s.raise c).err.first = some (BitVec.ofNat 16 c, 0) := by
  rw [raise_first, hfirst, htick]
  rfl

theorem coldStart_noIdentity {env : BootEnv} (s : State) (h : env.pufOk = false) :
    s.coldStart env = ((s.enterBoot env).raise 0x8001).bootSafe :=
  if_pos (by rw [h]; rfl)

/-- With a sound identity a start goes on with the firmware and configuration that the pointer names. -/
theorem bootFrom_identity {env : BootEnv} {s : State} (again : State → State) (h : env.pufOk = true) : s.bootFrom env again =
    match s.bootIdentity.bootSlots.1 with
    | none => s.bootIdentity.bootSlots.2.bootSafe
    | some (c, t) =>
      match t.loaderFails (t.upd.flash.cfgSlot c.cfgB), t.upd.flash.cfgSlot c.cfgB with
      | [], some i => (t.bootConfig i).bootTrain env c.trial
      | _, _ =>
        if c.trial then again ((t.rejectConfig (t.loaderFails (t.upd.flash.cfgSlot c.cfgB))).revert 4)
        else (t.rejectConfig (t.loaderFails (t.upd.flash.cfgSlot c.cfgB))).bootSafe := by
  refine (if_neg ?_).trans rfl
  rw [h]
  exact Bool.false_ne_true

/-- Outside a trial the slots of a start are those that the pointer names, or none. -/
theorem bootSlots_noTrial {s : State} (h : s.choose.1.trial = false) : s.bootSlots =
    ((s.choose.2.bootFw s.choose.1).1.map (fun t => (s.choose.1, t)), (s.choose.2.bootFw s.choose.1).2) :=
  if_neg (by rw [h]; exact Bool.false_ne_true)

theorem bootFw_good {s : State} {c : Chosen} {m : FwImage} (h : s.checkFw c.fwB = .good m) : s.bootFw c = (some (s.runFw m c), s) := by
  rw [State.bootFw, h]

theorem bootFw_empty {s : State} {c : Chosen} (h : s.upd.flash.fwSlot c.fwB = none) : s.bootFw c = (none, s.raise 0x8002) := by
  have hcheck : s.checkFw c.fwB = .manifest := by rw [State.checkFw, h]
  rw [State.bootFw, hcheck]

/-- A pointer that is not on trial names the slots of the start; the choice takes no event, tick or firmware image. -/
theorem choose_noTrial {s : State} (h : s.upd.flash.ptr.trial = false) :
    s.choose.1 = ⟨s.upd.flash.ptr.fw, s.upd.flash.ptr.cfg, false⟩ ∧ s.choose.2.err = s.err ∧ s.choose.2.tick = s.tick ∧
      ∀ b, s.choose.2.upd.flash.fwSlot b = s.upd.flash.fwSlot b := by
  simp only [State.choose, h]
  exact ⟨rfl, rfl, rfl, fun b => rfl⟩

theorem coldStart_noFirmware {env : BootEnv} {s : State} (hpuf : env.pufOk = true) (hstaging : s.upd.staging = none)
    (htrial : s.upd.flash.ptr.trial = false) (hslot : s.upd.flash.fwSlot s.upd.flash.ptr.fw = none) (hspill : s.reh.spilling = false) :
    ∃ u : State, s.coldStart env = (u.raise 0x8002).bootSafe ∧ u.err.first = none ∧ u.tick.count = 0 := by
  have hflash : (s.enterBoot env).bootIdentity.upd.flash = s.upd.flash := flashAfterLoss_idle hstaging hspill
  obtain ⟨hc, herr, htick, hfw⟩ := choose_noTrial (s := (s.enterBoot env).bootIdentity) (by rw [hflash]; exact htrial)
  have hnone := bootFw_empty (s := (s.enterBoot env).bootIdentity.choose.2) (c := (s.enterBoot env).bootIdentity.choose.1)
    (by rw [hc, hfw, hflash]; exact hslot)
  refine ⟨(s.enterBoot env).bootIdentity.choose.2, ?_, by rw [herr]; rfl, by rw [htick]; rfl⟩
  rw [State.coldStart, bootFrom_identity _ hpuf, bootSlots_noTrial (by rw [hc]), hnone]
  rfl

/-! ## Starts that end in READY (R695) -/

/-- The opening of a configured window changes the window and tells its sources. -/
theorem openConfigured_msg (s : State) (w : WindowCfg) : MsgOnly s (s.openConfigured w) :=
  (modWindow_msg s _ _).trans (openWindow_msg _ _)

theorem openSpare_msg (s : State) : MsgOnly s s.openSpare := by
  unfold State.openSpare
  split
  · exact .refl s
  · exact (modWindow_msg s _ _).trans (openWindow_msg _ _)

/-- READY as a start leaves it: the windows that open change none of these. -/
theorem enterReady_end (s : State) (trial : Bool) : let t := s.enterReady trial
    t.glb.st = .ready ∧ t.glb.trial = trial ∧ t.upd = s.upd ∧ t.cfg = s.cfg ∧ t.tick = s.tick ∧ t.stk = s.stk ∧ t.host.age = 0 ∧
      t.host.owner = s.host.defOwner := by
  intro t
  have hwin : ∀ u : State, MsgOnly u (u.cfg.windows.foldl State.openConfigured u).openSpare :=
    fun u => (foldl_msg _ openConfigured_msg _ u).trans (openSpare_msg _)
  have h := hwin (({ s with glb := { s.glb with st := .ready, trial := trial, aclkStep := BitVec.ofNat 2 s.reqStep } } : State).modPwr
    (fun p => { p with exempt := true }) |>.modTwin (fun t => { t with state := if s.cfg.paired then 1 else 0 }))
  exact ⟨congrArg Glb.st h.glb, congrArg Glb.trial h.glb, h.upd, h.cfg, h.tick, h.stk, rfl, h.host_defOwner⟩

theorem runFw_fwRun (s : State) (m : FwImage) (c : Chosen) : (s.runFw m c).upd.fwRun = some m := rfl

/-- The state in which step 6 has trained and tested everything. -/
def State.trainedUp (s : State) (env : BootEnv) : State :=
  (((s.trainStacks env.stkRes).trainLinks env.links).startTest env.selfTestFail).gateUnused

theorem bootTrain_eq (s : State) (env : BootEnv) (trial : Bool) : s.bootTrain env trial =
    if (List.range 16).all (fun k => ((s.trainedUp env).stkAt k).state != 3) && (!(s.trainedUp env).cfg.rehStest || env.selfTestFail.isNone)
    then (s.trainedUp env).enterReady trial else (s.trainedUp env).bootSafe := by
  unfold State.trainedUp
  rw [State.bootTrain]

theorem bootTrain_passes {s : State} {env : BootEnv} {trial : Bool} (hstk : ∀ k < 16, ((s.trainedUp env).stkAt k).state ≠ 3)
    (htest : env.selfTestFail = none) : s.bootTrain env trial = (s.trainedUp env).enterReady trial := by
  have hall : (List.range 16).all (fun k => ((s.trainedUp env).stkAt k).state != 3) = true :=
    List.all_eq_true.mpr fun k hk => bne_iff_ne.mpr (hstk k (List.mem_range.mp hk))
  have hnone : env.selfTestFail.isNone = true := by rw [htest]; rfl
  rw [bootTrain_eq, hall, hnone, Bool.or_true]
  exact if_pos rfl

theorem coldStart_ready {env : BootEnv} {s : State} {m : FwImage} {i : CfgImage} (hpuf : env.pufOk = true)
    (htrial : (s.enterBoot env).bootIdentity.choose.1.trial = false)
    (hfw : (s.enterBoot env).bootIdentity.choose.2.checkFw (s.enterBoot env).bootIdentity.choose.1.fwB = .good m)
    {u : State} (hu : u = (s.enterBoot env).bootIdentity.choose.2.runFw m (s.enterBoot env).bootIdentity.choose.1)
    (hcfg : u.upd.flash.cfgSlot (s.enterBoot env).bootIdentity.choose.1.cfgB = some i) (hload : u.loaderFails (some i) = [])
    (hstk : ∀ k < 16, (((u.bootConfig i).trainedUp env).stkAt k).state ≠ 3) (htest : env.selfTestFail = none) :
    s.coldStart env = ((u.bootConfig i).trainedUp env).enterReady false := by
  rw [State.coldStart, bootFrom_identity _ hpuf, bootSlots_noTrial htrial, bootFw_good hfw, ← hu]
  dsimp only [Option.map]
  rw [hcfg, hload, htrial]
  exact bootTrain_passes hstk htest

theorem exec_powerGood_starts {env : BootEnv} {s : State} (hoff : s.glb.st = .off) (htrip : s.pwr.trip = false) :
    exec (.powerGood env) s = .next (s.coldStart env) := congrArg Host.Outcome.next (if_pos ⟨hoff, by rw [htrip]; rfl⟩)

theorem powerGood_ready {env : BootEnv} {s : State} {m : FwImage} {i : CfgImage} (hoff : s.glb.st = .off) (htrip : s.pwr.trip = false)
    (hpuf : env.pufOk = true) (htrial : (s.enterBoot env).bootIdentity.choose.1.trial = false)
    (hfw : (s.enterBoot env).bootIdentity.choose.2.checkFw (s.enterBoot env).bootIdentity.choose.1.fwB = .good m)
    {u x : State} (hu : u = (s.enterBoot env).bootIdentity.choose.2.runFw m (s.enterBoot env).bootIdentity.choose.1)
    (hx : x = (u.bootConfig i).trainedUp env)
    (hcfg : u.upd.flash.cfgSlot (s.enterBoot env).bootIdentity.choose.1.cfgB = some i) (hload : u.loaderFails (some i) = [])
    (hstk : ∀ k < 16, (x.stkAt k).state ≠ 3) (htest : env.selfTestFail = none) :
    ∃ t, exec (.powerGood env) s = .next t ∧ t.glb.st = .ready ∧ t.glb.trial = false ∧ u.upd.fwRun = some m ∧
      t.upd = x.upd ∧ t.cfg = x.cfg ∧ t.tick = x.tick ∧ t.stk = x.stk ∧ t.host.age = 0 ∧ t.host.owner = x.host.defOwner := by
  rw [hx] at hstk ⊢
  have hend := coldStart_ready hpuf htrial hfw hu hcfg hload hstk htest
  have hrun : u.upd.fwRun = some m := hu ▸ runFw_fwRun _ m _
  obtain ⟨hst, htr, hupd, hcfg', htick, hstk', hage, howner⟩ := enterReady_end ((u.bootConfig i).trainedUp env) false
  exact ⟨_, (exec_powerGood_starts hoff htrip).trans (congrArg Host.Outcome.next hend), hst, htr, hrun, hupd, hcfg', htick, hstk', hage, howner⟩

/-! ## RESTART (R717) -/

theorem exec_restart_starts {p : Port} {env : BootEnv} {s : State} (hp : s.owns p) (hst : s.glb.st = .ready ∨ s.glb.st = .safe) :
    exec (.restart p env) s = .next (let c := (s.setUpdCmd 5).coldStart env
      { c with portA := { c.portA with linkUp := s.portA.linkUp }, portB := { c.portB with linkUp := s.portB.linkUp } }) :=
  congrArg Host.Outcome.next ((ownerOnly_owns hp).trans (if_pos hst))

theorem exec_restart_ignored {p : Port} {env : BootEnv} {s : State} (hp : s.owns p) (hst : ¬(s.glb.st = .ready ∨ s.glb.st = .safe)) :
    exec (.restart p env) s = .next { s with upd := { s.upd with cmd := 5 } } :=
  congrArg Host.Outcome.next ((ownerOnly_owns hp).trans (if_neg hst))

/-- Settles O19: the two ends in SAFE by their first event, the end in READY, and RESTART as the same start. -/
theorem startsEndInReadyOrSafe : Obligations.StartsEndInReadyOrSafe := by
  refine ⟨fun env s hoff htrip => ⟨exec_powerGood_starts hoff htrip, fun hpuf => ?identity, fun hpuf hstaging htrial hslot hspill => ?firmware⟩,
    fun env s hoff htrip hpuf m i => ?_, fun p env s hp => ⟨fun hst => ⟨_, exec_restart_starts hp hst, rfl⟩,
      fun hready hsafe => exec_restart_ignored hp (not_or.mpr ⟨hready, hsafe⟩)⟩⟩
  case identity =>
    rw [coldStart_noIdentity s hpuf]
    exact ⟨(bootSafe_end _).1, (bootSafe_end _).2.trans (raise_first_fresh _ rfl rfl)⟩
  case firmware =>
    obtain ⟨u, hu, hfirst, htick⟩ := coldStart_noFirmware hpuf hstaging htrial hslot hspill
    rw [hu]
    exact ⟨(bootSafe_end _).1, (bootSafe_end _).2.trans (raise_first_fresh _ hfirst htick)⟩
  intro r u x htrial hfw hcfg hload hstk htest
  exact powerGood_ready hoff htrip hpuf htrial hfw rfl (by unfold State.trainedUp; rfl) hcfg hload hstk htest

end Sys2Proof.Machine
end
section
/-! Link ports (12, R565 to R571, R575, R581): silence, training, lanes, replays, IDLE flits and the outbound table. -/

namespace Sys2Proof.Machine

/-! ## What the link layer leaves -/

/-- A fold keeps what its step keeps. -/
theorem foldl_keeps {α β : Type} (g : State → β) (f : State → α → State) (h : ∀ t x, g (f t x) = g t) :
    ∀ (l : List α) (s : State), g (l.foldl f s) = g s
  | [], _ => rfl
  | x :: l, s => (foldl_keeps g f h l (f s x)).trans (h s x)

theorem lnkAt_raise (s : State) (c : Nat) (a b : Option Nat) (k p : Nat) : (s.raise c a b k).lnkAt p = s.lnkAt p := by
  unfold State.lnkAt
  rw [(raise_eventOnly s c a b k).lnk]

/-- The release of an outbound entry concerns its ring and the window registers only. -/
theorem releaseOut_frame (s : State) (r : Nat) :
    (s.releaseOut r).lnk = s.lnk ∧ (s.releaseOut r).sent = s.sent ∧ (s.releaseOut r).glb = s.glb := by
  unfold State.releaseOut
  dsimp only
  split <;> exact ⟨rfl, rfl, rfl⟩

theorem releaseOuts_lnk (s : State) : s.releaseOuts.lnk = s.lnk :=
  foldl_keeps State.lnk (fun t (e : Nat × Nat) => t.releaseOut e.1) (fun t e => (releaseOut_frame t e.1).1) _ s

theorem releaseOuts_sent (s : State) : s.releaseOuts.sent = s.sent :=
  foldl_keeps State.sent (fun t (e : Nat × Nat) => t.releaseOut e.1) (fun t e => (releaseOut_frame t e.1).2.1) _ s

/-- A port's counts after an ACK of a. -/
def LnkSt.acked (l : LnkSt) (a : BitVec 12) : LnkSt := { l with
  buffer := l.buffer.filter (fun f => !seqCovered f.seq a), replay := l.replay && !seqCovered l.replaySeq a,
  replayRun := if seqCovered l.replaySeq a then 0 else l.replayRun }

theorem takeAck_lnkAt (s : State) (p : Nat) (a : BitVec 12) : (s.takeAck p (some a)).lnkAt p = (s.lnkAt p).acked a :=
  (congrArg (fun t => Tab.get LnkSt.reset t p) (releaseOuts_lnk _)).trans (State.lnkAt_modLnk s p (fun l => l.acked a))

theorem takeAck_sent (s : State) (p : Nat) (a : Option (BitVec 12)) : (s.takeAck p a).sent = s.sent := by
  cases a with
  | none => rfl
  | some a => exact releaseOuts_sent _

/-- An ACK leaves the expected SEQ and the count of received flits. -/
theorem takeAck_rx (s : State) (p : Nat) (a : Option (BitVec 12)) :
    ((s.takeAck p a).lnkAt p).rxSeq = (s.lnkAt p).rxSeq ∧ ((s.takeAck p a).lnkAt p).rxFlits = (s.lnkAt p).rxFlits := by
  cases a with
  | none => exact ⟨rfl, rfl⟩
  | some a => rw [takeAck_lnkAt]; exact ⟨rfl, rfl⟩

/-- The counts of error correction are the only ones that an arrival always moves (R601). -/
theorem countFec_lnkAt (s : State) (p : Nat) : ∃ a b : Word,
    (s.countFec p).lnkAt p = { s.lnkAt p with fecCorr := (s.lnkAt p).fecCorr + a, fecUncorr := (s.lnkAt p).fecUncorr + b } := by
  unfold State.countFec
  dsimp only
  split
  · exact ⟨_, _, State.lnkAt_modLnk _ p _⟩
  · exact ⟨0, 0, by simp⟩

theorem countFec_sent (s : State) (p : Nat) : (s.countFec p).sent = s.sent := by
  unfold State.countFec
  dsimp only
  split <;> rfl

/-- Nothing arrives on a port that is not UP, and nothing is counted. -/
theorem countFec_down {s : State} {p : Nat} (h : (s.lnkAt p).isUp = false) : s.countFec p = s :=
  if_neg (by rw [h]; exact Bool.false_ne_true)

/-! ## A port goes DOWN (R567) -/

theorem exec_linkSilent_up {s : State} {p : Fin 8} (h : (s.lnkAt p.val).isUp = true) :
    exec (.linkSilent p) s = .next (s.portDown p.val 2) := congrArg Host.Outcome.next (if_pos h)

theorem exec_linkSilent_down {s : State} {p : Fin 8} (h : (s.lnkAt p.val).isUp = false) : exec (.linkSilent p) s = .next s :=
  congrArg Host.Outcome.next (if_neg (by rw [h]; exact Bool.false_ne_true))

/-! ## Training (R565 to R567) -/

theorem exec_linkRetrain_trains {s : State} {p : Fin 8} (hen : (s.lnkAt p.val).en = true) (hst : (s.lnkAt p.val).state = 0)
    (hon : s.glb.st ≠ .off) : exec (.linkRetrain p) s = .next (s.modLnk p.val (fun l => { l with state := 1 })) :=
  congrArg Host.Outcome.next (if_pos (by simp [hen, hst, hon]))

theorem exec_linkRetrain_not {s : State} {p : Fin 8} (h : (s.lnkAt p.val).en = false ∨ (s.lnkAt p.val).state ≠ 0 ∨ s.glb.st = .off) :
    exec (.linkRetrain p) s = .next s := by
  refine congrArg Host.Outcome.next (if_neg fun hall => ?_)
  obtain ⟨⟨hen, hst⟩, hon⟩ : ((s.lnkAt p.val).en = true ∧ (s.lnkAt p.val).state = 0) ∧ s.glb.st ≠ .off := by simpa using hall
  obtain h | h | h := h
  · exact Bool.false_ne_true (h.symm.trans hen)
  · exact h hst
  · exact hon h

theorem exec_linkUp_training {s : State} {t : LinkTrain} (h : (s.lnkAt t.port.val).state = 1) :
    exec (.linkUp t) s = .next (s.trained t) := congrArg Host.Outcome.next (if_pos h)

section
variable {s : State} {t : LinkTrain}

theorem trained_noAnswer (h : t.answered = false ∨ lanesLeft (s.lnkAt t.port.val).lanes.toNat t.lanesBad.toNat = 0) :
    s.trained t = s.modLnk t.port.val (fun l => { l with state := 0, width := 0 }) := by
  refine if_pos ?_
  obtain h | h := h <;> simp [h]

variable (hanswer : t.answered = true) (hlanes : lanesLeft (s.lnkAt t.port.val).lanes.toNat t.lanesBad.toNat ≠ 0)
include hanswer hlanes

theorem trained_wrongPeer (hpeer : t.peerSeen ≠ (s.lnkAt t.port.val).peerId ∨ t.peerRole.toNat ≠ peerRoleOf (s.lnkAt t.port.val).role.toNat) :
    s.trained t = (s.modLnk t.port.val (fun l => { l with state := 0, width := 0, peerSeen := t.peerSeen, err := l.err ||| 1 })).raise 0x5003 :=
  (if_neg (by simp [hanswer, hlanes])).trans (if_pos hpeer)

theorem trained_lnkAt (hid : t.peerSeen = (s.lnkAt t.port.val).peerId) (hrole : t.peerRole.toNat = peerRoleOf (s.lnkAt t.port.val).role.toNat) :
    (s.trained t).lnkAt t.port.val = (s.lnkAt t.port.val).comeUp (lanesLeft (s.lnkAt t.port.val).lanes.toNat t.lanesBad.toNat)
      t.lanesBad.toNat t.peerSeen := by
  have htrained : s.trained t = if lanesLeft (s.lnkAt t.port.val).lanes.toNat t.lanesBad.toNat < (s.lnkAt t.port.val).lanes.toNat
      then ((s.resendOuts t.port.val).modLnk t.port.val (fun l => l.comeUp (lanesLeft (s.lnkAt t.port.val).lanes.toNat t.lanesBad.toNat)
        t.lanesBad.toNat t.peerSeen)).raise 0x5002
      else (s.resendOuts t.port.val).modLnk t.port.val (fun l => l.comeUp (lanesLeft (s.lnkAt t.port.val).lanes.toNat t.lanesBad.toNat)
        t.lanesBad.toNat t.peerSeen) :=
    (if_neg (by simp [hanswer, hlanes])).trans (if_neg (by simp [hid, hrole]))
  have hup := State.lnkAt_modLnk (s.resendOuts t.port.val) t.port.val (fun l =>
    l.comeUp (lanesLeft (s.lnkAt t.port.val).lanes.toNat t.lanesBad.toNat) t.lanesBad.toNat t.peerSeen)
  rw [htrained]
  split
  · exact (lnkAt_raise _ _ _ _ _ _).trans hup
  · exact hup

end

/-! ## Lanes (R566) -/

/-- A lane that fails on a port that is UP, by what its lanes leave (log 30). -/
theorem exec_laneDegrade_fails {s : State} {p lane : Fin 8} (hup : (s.lnkAt p.val).isUp = true) (hlane : lane.val < (s.lnkAt p.val).lanes.toNat)
    (hnew : (s.lnkAt p.val).lanesFailed.getLsbD lane.val = false) {bad : BitVec 8}
    (hbad : bad = (s.lnkAt p.val).lanesFailed ||| BitVec.ofNat 8 (2 ^ lane.val)) {w : Nat}
    (hw : w = lanesLeft (s.lnkAt p.val).lanes.toNat bad.toNat) {v : State} (hv : v = s.modLnk p.val (fun l => { l with lanesFailed := bad })) :
    exec (.laneDegrade p lane) s = .next (if w = 0 then v.portDown p.val 2 else if w = (s.lnkAt p.val).width.toNat then v
      else (v.modLnk p.val (fun l => { l with state := 3, width := BitVec.ofNat 4 w })).raise 0x5002) := by
  subst hbad hw hv
  have hgo : ¬(!(s.lnkAt p.val).isUp ∨ (s.lnkAt p.val).lanes.toNat ≤ lane.val ∨ (s.lnkAt p.val).lanesFailed.getLsbD lane.val = true) := by
    rw [hup, hnew]
    simpa using hlane
  exact congrArg Host.Outcome.next (if_neg hgo)

theorem exec_laneDegrade_not {s : State} {p lane : Fin 8} (h : (s.lnkAt p.val).isUp = false ∨ (s.lnkAt p.val).lanes.toNat ≤ lane.val ∨
    (s.lnkAt p.val).lanesFailed.getLsbD lane.val = true) : exec (.laneDegrade p lane) s = .next s :=
  congrArg Host.Outcome.next (if_pos (h.imp_left fun hdown => by rw [hdown]; rfl))

/-! ## Replays (R569, R570) -/

/-- The state in which a REPLAY for SEQ q is counted. -/
def State.replayCounted (s : State) (p : Nat) (q : BitVec 12) (run : Nat) : State :=
  (s.takeAck p (some (q - 1))).modLnk p (fun l => { l with replays := bump l.replays, replay := true, replaySeq := q, replayRun := run })

theorem replayCounted_lnkAt (s : State) (p : Nat) (q : BitVec 12) (run : Nat) : (s.replayCounted p q run).lnkAt p =
    { (s.lnkAt p).acked (q - 1) with replays := bump (s.lnkAt p).replays, replay := true, replaySeq := q, replayRun := run } := by
  rw [State.replayCounted, State.lnkAt_modLnk, takeAck_lnkAt]
  rfl

theorem exec_replay_up {s : State} {p : Fin 8} {q : BitVec 12} (h : (s.lnkAt p.val).isUp = true) {run : Nat}
    (hrun : run = if (s.lnkAt p.val).replayRun > 0 ∧ (s.lnkAt p.val).replaySeq = q then (s.lnkAt p.val).replayRun + 1 else 1) :
    exec (.replay p q) s = .next (if 8 < run then (s.replayCounted p.val q run).portDown p.val 1
      else (s.replayCounted p.val q run).send (.resend p.val q)) := by
  subst hrun
  exact congrArg Host.Outcome.next (if_neg (by simp [h]))

theorem exec_replay_down {s : State} {p : Fin 8} {q : BitVec 12} (h : (s.lnkAt p.val).isUp = false) : exec (.replay p q) s = .next s :=
  congrArg Host.Outcome.next (if_pos (by rw [h]; rfl))

/-! ## IDLE flits (R568, R575) -/

theorem takeFlits_down {s : State} {p : Nat} {h : FlitHdr} {idle : Bool} (hdown : (s.lnkAt p).isUp = false) :
    s.takeFlits p h idle = .lost s := by
  refine (if_pos (by rw [hdown]; rfl)).trans ?_
  rw [countFec_down hdown]

theorem takeFlits_bad {s : State} {p : Nat} {h : FlitHdr} {idle : Bool} (hup : (s.lnkAt p).isUp = true)
    (hbad : h.checkOk = false ∨ h.seq ≠ (s.lnkAt p).rxSeq) : s.takeFlits p h idle =
      .lost (((s.countFec p).modLnk p (fun l => { l with crcErr := bump l.crcErr h.flits })).send (.replay p (s.lnkAt p).rxSeq)) := by
  refine (if_neg (by simp [hup])).trans (if_pos ?_)
  obtain hbad | hbad := hbad <;> simp [hbad]

theorem takeFlits_good {s : State} {p : Nat} {h : FlitHdr} {idle : Bool} (hup : (s.lnkAt p).isUp = true) (hcheck : h.checkOk = true)
    (hseq : h.seq = (s.lnkAt p).rxSeq) : s.takeFlits p h idle = .here (((s.countFec p).modLnk p (fun l => { l with
      rxSeq := l.rxSeq + BitVec.ofNat 12 h.flits,
      rxFlits := if idle then l.rxFlits else bump l.rxFlits h.flits }.takeCredit h.credit)).takeAck p h.ack) :=
  (if_neg (by simp [hup])).trans (if_neg (by simp [hcheck, hseq]))

theorem exec_idleFlit_lost {s u : State} {p : Fin 8} {h : FlitHdr} (e : s.takeFlits p.val h true = .lost u) :
    exec (.idleFlit p h) s = .next u := by
  refine congrArg Host.Outcome.next ?_
  rw [e]

theorem exec_idleFlit_here {s u : State} {p : Fin 8} {h : FlitHdr} (e : s.takeFlits p.val h true = .here u) :
    exec (.idleFlit p h) s = .next u := by
  refine congrArg Host.Outcome.next ?_
  rw [e]

/-! ## The outbound table (R575) -/

/-- The state with the next entry of outbound entry r sent on a port along PATH 0. -/
def State.sentEntry (u : State) (p r n kind : Nat) (body : List Byte) : State :=
  ((u.modLnk p (fun l => { l.sendFlits (flitsFor n) 1 (some (r, n)) with rr := (r + 1) % 256 })).modWin (fun w =>
    { w with sentOut := Tab.set 0 w.sentOut r (Tab.get 0 w.sentOut r + n) })).send
      (.ring p ⟨BitVec.ofNat 16 (field (u.outW1 r) 15 0), Fin.ofNat 16 (field (u.outW1 r) 19 16), BitVec.ofNat 4 kind, body⟩)

theorem sendOut_path0 {u : State} {p r n kind : Nat} {body : List Byte} (hen : u.outEn r = true) (hport : u.outPort r = some p)
    (hready : u.outReady r ≠ 0) (hpath : u.outPath1 r = false) (hentry : u.outEntry r = some (n, kind, body))
    (hcan : (u.lnkAt p).canSend (flitsFor n) 1 = true) : u.sendOut p r = some (u.sentEntry p r n kind body) := by
  have hgo : ¬(!(u.lnkAt p).canSend (flitsFor n) 1 || (false && (u.handleAt (u.outHandle r)).state != 1)) = true := by simp [hcan]
  refine (if_neg (by simp [hen, hport, hready])).trans ?_
  rw [hentry]
  simp only [hpath, Bool.false_eq_true, if_false]
  exact (if_neg hgo).trans (congrArg (fun m => some (State.send _ m)) (if_neg fun h => Bool.false_ne_true (hpath.symm.trans h)))

theorem exec_outboundSend_sends {s u : State} {p : Fin 8} (hu : u = s.releaseOuts) (hst : u.glb.st = .ready ∨ u.glb.st = .run) {v : State}
    (hsend : u.sendOut p.val ((u.lnkAt p.val).rr % 256) = some v) : exec (.outboundSend p) s = .next v := by
  subst hu
  refine congrArg Host.Outcome.next ((if_pos hst).trans ?_)
  rw [State.sendNext, hsend]

theorem exec_outboundSend_not {s u : State} {p : Fin 8} (hu : u = s.releaseOuts) (hready : u.glb.st ≠ .ready) (hrun : u.glb.st ≠ .run) :
    exec (.outboundSend p) s = .next u := by
  subst hu
  exact congrArg Host.Outcome.next (if_neg (not_or.mpr ⟨hready, hrun⟩))

/-- Settles O50: each event of a port by the lemma of its case. -/
theorem linkPortEvents : Obligations.LinkPortEvents := by
  refine ⟨fun s u p hu => ⟨exec_linkSilent_down, fun hup => ?silent⟩, fun s p => ⟨exec_linkRetrain_trains, exec_linkRetrain_not⟩,
    fun s t l w hl hw => ?linkUp, fun s p lane l bad w hl hbad hw => ?lane, fun s p q => ⟨exec_replay_down, fun hup run hrun => ?replay⟩,
    fun s p h l hl => ?idle, fun s u p hu => ⟨exec_outboundSend_not hu, ?outbound⟩⟩
  case silent =>
    subst hu
    exact exec_linkSilent_up hup
  case linkUp =>
    subst hl hw
    refine ⟨fun hst => congrArg Host.Outcome.next (if_neg hst), fun hst h => ?_, fun hst ha hw hpeer => ?_, fun hst ha hw hid hrole => ?_⟩
    · exact (exec_linkUp_training hst).trans (congrArg Host.Outcome.next (trained_noAnswer h))
    · exact (exec_linkUp_training hst).trans (congrArg Host.Outcome.next (trained_wrongPeer ha hw hpeer))
    · exact ⟨_, _, exec_linkUp_training hst, trained_lnkAt ha hw hid hrole, rfl, rfl, rfl, rfl, rfl, rfl, rfl, rfl⟩
  case lane =>
    subst hl
    refine ⟨exec_laneDegrade_not, fun hup hlane hnew v hv => ?_⟩
    have hexec := exec_laneDegrade_fails hup hlane hnew hbad hw hv
    exact ⟨fun h0 => hexec.trans (congrArg Host.Outcome.next (if_pos h0)),
      fun h0 hsame => hexec.trans (congrArg Host.Outcome.next ((if_neg h0).trans (if_pos hsame))),
      fun h0 hless => hexec.trans (congrArg Host.Outcome.next ((if_neg h0).trans (if_neg hless)))⟩
  case replay =>
    have hsent : (s.replayCounted p.val q run).sent = s.sent := takeAck_sent s p.val _
    have hlnk := replayCounted_lnkAt s p.val q run
    refine ⟨fun hle => ⟨_, _, (exec_replay_up hup hrun).trans (congrArg Host.Outcome.next (if_neg (Nat.not_lt.mpr hle))), hlnk,
      congrArg (Sent.resend p.val q :: ·) hsent, rfl, rfl, rfl, rfl, rfl⟩, fun hgt => ?_⟩
    exact ⟨_, s.replayCounted p.val q run, (exec_replay_up hup hrun).trans (congrArg Host.Outcome.next (if_pos hgt)), rfl, hsent,
      congrArg LnkSt.replays hlnk⟩
  case idle =>
    subst hl
    obtain ⟨a, b, hfec⟩ := countFec_lnkAt s p.val
    cases hup : (s.lnkAt p.val).isUp with
    | false =>
      refine ⟨s, _, exec_idleFlit_lost (takeFlits_down hup), rfl, fun _ => rfl, fun h => ?_, fun h => ?_⟩ <;> exact Bool.noConfusion h
    | true =>
      by_cases hbad : h.checkOk = false ∨ h.seq ≠ (s.lnkAt p.val).rxSeq
      · refine ⟨_, _, exec_idleFlit_lost (takeFlits_bad hup hbad), State.lnkAt_modLnk (s.countFec p.val) p.val (fun l =>
          { l with crcErr := bump l.crcErr h.flits }), fun h => Bool.noConfusion h, fun _ _ => ⟨by rw [hfec], by rw [hfec], ?_⟩, fun _ hc hs => ?_⟩
        · exact congrArg (Sent.replay p.val _ :: ·) (countFec_sent s p.val)
        · exact absurd hbad (by simp [hc, hs])
      · obtain ⟨hc, hs⟩ : h.checkOk = true ∧ h.seq = (s.lnkAt p.val).rxSeq := by simpa using hbad
        refine ⟨_, _, exec_idleFlit_here (takeFlits_good hup hc hs), rfl, fun h => Bool.noConfusion h, fun _ h => absurd h hbad,
          fun _ _ _ => ?_⟩
        obtain ⟨hseq, hflits⟩ := takeAck_rx ((s.countFec p.val).modLnk p.val (fun l => { l with
          rxSeq := l.rxSeq + BitVec.ofNat 12 h.flits,
          rxFlits := if true then l.rxFlits else bump l.rxFlits h.flits }.takeCredit h.credit)) p.val h.ack
        rw [State.lnkAt_modLnk, hfec] at hseq hflits
        exact ⟨hseq, hflits, (takeAck_sent _ p.val _).trans (countFec_sent s p.val)⟩
  case outbound =>
    intro hst r n kind body hr hen hport hready hpath hentry hcan
    have hexec : exec (.outboundSend p) s = .next (u.sentEntry p.val r n kind body) := by
      refine exec_outboundSend_sends hu hst ?_
      rw [← hr]
      exact sendOut_path0 hen hport hready hpath hentry hcan
    exact ⟨_, hexec, rfl, congrArg LnkSt.rr (State.lnkAt_modLnk u p.val (fun l =>
      { l.sendFlits (flitsFor n) 1 (some (r, n)) with rr := (r + 1) % 256 })), rfl⟩

end Sys2Proof.Machine
end
section
/-! Windows and remote handles (12, R583 to R587, R590, R591, R595). -/

namespace Sys2Proof.Machine

/-! ## Opening and closing -/

theorem windowAt_raise (s : State) (c : Nat) (a b : Option Nat) (k w : Nat) : (s.raise c a b k).windowAt w = s.windowAt w := by
  unfold State.windowAt
  rw [(raise_eventOnly s c a b k).win]

/-- An opened window has the next epoch, and the rest of its registers as they were. -/
theorem windowAt_openWindow (s : State) (w : Nat) : (s.openWindow w).windowAt w = { s.windowAt w with
    state := 1, pending := false, epoch := nextEpoch (s.windowAt w).epoch, landing := 0, refused := false } :=
  (congrArg (fun y : WinSt => Tab.get WindowSt.reset y.windows w) (openWindow_win s w)).trans (State.windowAt_modWindow s w _)

theorem windowAt_closeWindow (s : State) (w : Nat) : (s.closeWindow w).windowAt w = { s.windowAt w with state := 2 } :=
  (congrArg (fun y : WinSt => Tab.get WindowSt.reset y.windows w) (closeWindow_win s w)).trans
    (State.windowAt_modWindow s w (fun x => { x with state := 2 }))

/-- MODE of a command word of WIN_CMD. -/
theorem winCmd_gate (g : Bool) (n : Nat) (h : n % 2 = 0) : (BitVec.ofNat 3 (bitAt g 0 + n)).getLsbD 0 = g := by
  rw [BitVec.getLsbD_ofNat]
  cases g <;> simp [bitAt, Nat.testBit_zero] <;> omega

/-- The state in which WIN_CMD holds a command of the driver: 1 opens, 2 closes. -/
def State.winCmd (s : State) (w cmd : Nat) (g : Bool) : State :=
  s.modWindow w (fun x => { x with cmd := BitVec.ofNat 3 (bitAt g 0 + cmd * 2) })

/-- The two reasons for which WIN_CMD takes no command: the window is the device's own, or MODE would change while it is not CLOSED. -/
def State.winCmdBad (s : State) (w : Nat) (g : Bool) : Prop :=
  48 ≤ w ∨ (g ≠ (s.windowAt w).gate ∧ ((s.windowAt w).state ≠ 0 ∨ (s.windowAt w).pending = true))

theorem winCommand_bad {s : State} {w cmd : Nat} {g : Bool} {f : State → State} (h : s.winCmdBad w g) :
    s.winCommand w cmd g f = s.raise 0x5012 := by
  by_cases hown : 48 ≤ w
  · exact if_pos hown
  · obtain ⟨hmode, hopen⟩ := h.resolve_left hown
    exact (if_neg hown).trans (if_pos ⟨hmode, by simpa using hopen⟩)

theorem winCommand_taken {s : State} {w cmd : Nat} {g : Bool} {f : State → State} (h : ¬s.winCmdBad w g) :
    s.winCommand w cmd g f = f (s.winCmd w cmd g) := by
  obtain ⟨hown, hmode⟩ := not_or.mp h
  exact (if_neg hown).trans (if_neg fun hbad => hmode ⟨hbad.1, by simpa using hbad.2⟩)

theorem windowAt_winCmd (s : State) (w cmd : Nat) (g : Bool) : (s.winCmd w cmd g).windowAt w =
    { s.windowAt w with cmd := BitVec.ofNat 3 (bitAt g 0 + cmd * 2) } := State.windowAt_modWindow s w _

section
variable {s : State} {p : Port} {w : Fin 64} {g : Bool} (hp : s.owns p)
include hp

theorem exec_winOpen_bad (h : s.winCmdBad w.val g) : exec (.winOpen p w g) s = .next (s.raise 0x5012) :=
  congrArg Host.Outcome.next ((ownerOnly_owns hp).trans (winCommand_bad h))

theorem exec_winClose_bad (h : s.winCmdBad w.val g) : exec (.winClose p w g) s = .next (s.raise 0x5012) :=
  congrArg Host.Outcome.next ((ownerOnly_owns hp).trans (winCommand_bad h))

variable (h : ¬s.winCmdBad w.val g)
include h

theorem exec_winOpen_taken : exec (.winOpen p w g) s = .next (match (s.windowAt w.val).state.toNat with
    | 0 => (s.winCmd w.val 1 g).openWindow w.val
    | 1 => (s.winCmd w.val 1 g).raise 0x5012
    | _ => (s.winCmd w.val 1 g).modWindow w.val (fun x => { x with pending := true })) := by
  refine congrArg Host.Outcome.next ((ownerOnly_owns hp).trans ((winCommand_taken h).trans ?_))
  rw [windowAt_winCmd] <;> rfl

theorem exec_winClose_taken : exec (.winClose p w g) s = .next (match (s.windowAt w.val).state.toNat with
    | 0 => (s.winCmd w.val 2 g).raise 0x5012
    | 1 => (s.winCmd w.val 2 g).closeWindow w.val
    | _ => (s.winCmd w.val 2 g).modWindow w.val (fun x => { x with pending := false })) := by
  refine congrArg Host.Outcome.next ((ownerOnly_owns hp).trans ((winCommand_taken h).trans ?_))
  rw [windowAt_winCmd] <;> rfl

end

/-! ## The end of a close (R595) -/

/-- A CLOSING window closed: PENDING and the refusal mark cleared, WIN_DRAIN a free value of at most the flits that landed. -/
def State.winClosed (s : State) (w : Nat) : State := s.drawWord.2.modWindow w (fun x => { x with
  state := 0, pending := false, drain := word (s.drawWord.1.toNat % (x.landing + 1)), refusedTick := none })

/-- The state after the end of a close, with a PENDING open begun. -/
def State.winReopened (s : State) (w : Nat) : State := if (s.windowAt w).pending then (s.winClosed w).openWindow w else s.winClosed w

theorem exec_winCloseDone_closing {s : State} {w : Fin 64} (hst : (s.windowAt w.val).state = 2) (hq : w ≠ 49 ∨ s.twin.refetchQ = []) :
    exec (.winCloseDone w) s = .next (s.winReopened w.val) := by
  have htwin : (s.winReopened w.val).twin = s.twin := by
    unfold State.winReopened
    split
    · exact (openWindow_msg _ _).twin
    · rfl
  have hnext : w ≠ 49 ∨ (s.winReopened w.val).refetchNext = s.winReopened w.val := by
    refine hq.imp_right fun hq => ?_
    rw [State.refetchNext, htwin, hq]
  refine congrArg Host.Outcome.next ((if_pos hst).trans ?_)
  by_cases h49 : w = 49
  · exact (if_pos h49).trans (hnext.resolve_left (not_not_intro h49))
  · exact if_neg h49

theorem drain_le (n k : Nat) : (word (n % (k + 1))).toNat ≤ k :=
  calc (word (n % (k + 1))).toNat ≤ n % (k + 1) := by simpa [word] using Nat.mod_le _ _
    _ ≤ k := Nat.le_of_lt_succ (Nat.mod_lt _ (Nat.succ_pos k))

theorem windowAt_winClosed (s : State) (w : Nat) : (s.winClosed w).windowAt w = { s.windowAt w with
    state := 0, pending := false, drain := word (s.drawWord.1.toNat % ((s.windowAt w).landing + 1)), refusedTick := none } :=
  State.windowAt_modWindow _ w _

theorem winReopened_window (s : State) (w : Nat) : let x := (s.winReopened w).windowAt w
    x.pending = false ∧ x.refusedTick = none ∧ x.drain.toNat ≤ (s.windowAt w).landing ∧
    x.state = (if (s.windowAt w).pending then 1 else 0) ∧
    x.epoch = (if (s.windowAt w).pending then nextEpoch (s.windowAt w).epoch else (s.windowAt w).epoch) ∧ (s.winReopened w).core = s.core := by
  unfold State.winReopened
  cases (s.windowAt w).pending with
  | true =>
    simp only [if_true, windowAt_openWindow, windowAt_winClosed]
    exact ⟨trivial, trivial, drain_le _ _, trivial, trivial, (openWindow_msg _ _).core⟩
  | false =>
    simp only [Bool.false_eq_true, if_false, windowAt_winClosed]
    exact ⟨trivial, trivial, drain_le _ _, trivial, trivial, rfl⟩

/-! ## Messages about windows that reached this device (R587, R590, R591) -/

section
variable {s u : State} {lp : Fin 8} {h : FlitHdr} {w : Fin 64} {e : BitVec 16}
  (htake : s.takeFlits lp.val h false = .here u) (hdst : h.dst = u.win.linkId)
include htake hdst

theorem exec_wfence_here : exec (.wfence lp h w e) s = .next ((u.modWindow w.val (fun x => { x with sinceAck := 0 })).sendRouted
    h.src.toNat 8 (.wack h.src w.val e (u.windowAt w.val).sinceAck)) := congrArg Host.Outcome.next (recvCtrl_here htake hdst)

/-- A message that no handle names. -/
theorem handleMessages_none (hk : u.handleOf h.src w.val = none) :
    (∀ g z, exec (.wopen lp h w g e z) s = .next (u.raise 0x5013)) ∧ exec (.wclosed lp h w e) s = .next u ∧
    (∀ r, exec (.wnak lp h w r e) s = .next (u.modLnk lp.val (fun l => { l with nakRx := bump l.nakRx }))) ∧
    (∀ n, exec (.wack lp h w e n) s = .next u) := by
  have hk' : (u.modLnk lp.val (fun l => { l with nakRx := bump l.nakRx })).handleOf h.src w.val = none := hk
  have hhere : ∀ f : State → State, s.recvCtrl lp.val h f = f u := fun f => recvCtrl_here htake hdst
  refine ⟨fun g z => congrArg Host.Outcome.next ((hhere _).trans ?_), congrArg Host.Outcome.next ((hhere _).trans ?_),
    fun r => congrArg Host.Outcome.next ((hhere _).trans ?_), fun n => congrArg Host.Outcome.next ((hhere _).trans ?_)⟩
  · rw [hk]
  · rw [hk]
  · dsimp only
    rw [hk']
  · rw [hk]

variable {k : Nat} (hk : u.handleOf h.src w.val = some k)
include hk

theorem exec_wopen_handle (g : Bool) (z : DWord) : exec (.wopen lp h w g e z) s = .next (u.modHandle k (fun x => { x with
    state := 1, epoch := e, size := if g then x.size else BitVec.ofNat 29 (z.toNat / 32 - 1) })) := by
  refine congrArg Host.Outcome.next ((recvCtrl_here htake hdst).trans ?_)
  rw [hk]

theorem exec_wclosed_handle : exec (.wclosed lp h w e) s = .next (u.modHandle k (fun x => { x with state := 2 })) := by
  refine congrArg Host.Outcome.next ((recvCtrl_here htake hdst).trans ?_)
  rw [hk]

/-- A WNAK for a handle that none of the device's own functions uses, while no move into it waits. -/
theorem exec_wnak_handle {r : BitVec 3} (hlt : k < 61) (hdma : u.hasWinDma k = false) {v : State}
    (hv : v = ((u.modLnk lp.val (fun l => { l with nakRx := bump l.nakRx })).modHandle k (fun x => { x with
      state := 2, nakReason := r, nakEpoch := e })).modWinDma k (fun d => { d with acked := true, failed := true })) :
    exec (.wnak lp h w r e) s = .next (if (u.handleAt k).state = 1 then v.raise 0x5010 else v) := by
  have hk' : (u.modLnk lp.val (fun l => { l with nakRx := bump l.nakRx })).handleOf h.src w.val = some k := hk
  have hdma' : (u.modLnk lp.val (fun l => { l with nakRx := bump l.nakRx })).hasWinDma k = false := hdma
  have h61 : k ≠ 61 := by omega
  have h62 : k ≠ 62 := by omega
  have h63 : k ≠ 63 := by omega
  refine congrArg Host.Outcome.next ((recvCtrl_here htake hdst).trans ?_)
  dsimp only
  rw [hk']
  dsimp only
  rw [hdma', if_neg h61, if_neg h62, if_neg h63, ← hv]
  refine (if_neg Bool.false_ne_true).trans ?_
  exact ite_congr (propext beq_iff_eq) (fun _ => rfl) (fun _ => rfl)

theorem exec_wack_otherEpoch {n : Word} (he : e ≠ (u.handleAt k).epoch) : exec (.wack lp h w e n) s = .next u := by
  refine congrArg Host.Outcome.next ((recvCtrl_here htake hdst).trans ?_)
  rw [hk]
  exact if_pos he

theorem exec_wack_handle {n : Word} (he : e = (u.handleAt k).epoch) (hlt : k < 62) :
    exec (.wack lp h w e n) s = .next (u.modWinDma k (fun d => { d with acked := true })) := by
  have h62 : k ≠ 62 := by omega
  have h63 : k ≠ 63 := by omega
  refine congrArg Host.Outcome.next ((recvCtrl_here htake hdst).trans ?_)
  rw [hk]
  refine (if_neg (not_not_intro he)).trans ?_
  dsimp only
  rw [if_neg h62, if_neg h63]

end

/-- Settles O52: the driver's commands, the end of a close, and each message by the handle that it names. -/
theorem windowsAndHandles : Obligations.WindowsAndHandles := by
  refine ⟨fun s p w g v hp hv => ⟨fun hown => ?own, fun _ hmode hst => ?mode, fun hlt hok => ?_⟩,
    fun s w => ⟨fun hst => congrArg Host.Outcome.next (if_neg hst), fun hst hq => ?closed⟩,
    fun s u lp h w e htake hdst => ⟨handleMessages_none htake hdst, fun k hk => ⟨fun g z => exec_wopen_handle htake hdst hk g z,
      exec_wclosed_handle htake hdst hk, fun r hlt hdma => ⟨_, rfl, exec_wnak_handle htake hdst hk hlt hdma rfl⟩,
      fun n he => exec_wack_otherEpoch htake hdst hk he, fun n he hlt => exec_wack_handle htake hdst hk he hlt⟩, exec_wfence_here htake hdst⟩⟩
  case own => exact ⟨exec_winOpen_bad hp (.inl hown), exec_winClose_bad hp (.inl hown)⟩
  case mode => exact ⟨exec_winOpen_bad hp (.inr ⟨hmode, hst⟩), exec_winClose_bad hp (.inr ⟨hmode, hst⟩)⟩
  case closed => exact ⟨_, _, exec_winCloseDone_closing hst hq, rfl, winReopened_window s w.val⟩
  have hgood : ¬s.winCmdBad w.val g := by
    rintro (hown | ⟨hne, hopen⟩)
    · omega
    · obtain heq | ⟨h0, hpend⟩ := hok
      · exact hne heq
      · exact hopen.elim (fun hst => hst h0) fun hset => Bool.false_ne_true (hpend.symm.trans hset)
  have hopen := exec_winOpen_taken hp hgood
  have hclose := exec_winClose_taken hp hgood
  refine ⟨fun h0 => ?opens, fun h1 => ?openOpen, fun h2 => ?openClosing, fun v' hv' => ⟨fun h0 => ?closeClosed, fun h1 => ?closes, fun h2 => ?closeClosing⟩⟩
  case opens =>
    rw [h0] at hopen
    refine ⟨_, _, hopen, windowAt_openWindow _ _, rfl, rfl, ?_, ?_, ?_, ?_, (openWindow_msg _ _).core⟩ <;> rw [windowAt_winCmd]
    exact winCmd_gate g 2 rfl
  case openOpen =>
    rw [h1] at hopen
    exact hv ▸ hopen
  case openClosing =>
    rw [h2] at hopen
    exact hv ▸ hopen
  case closeClosed =>
    rw [h0] at hclose
    exact hv' ▸ hclose
  case closes =>
    rw [h1] at hclose
    exact ⟨_, hclose, congrArg WindowSt.state (windowAt_closeWindow _ _), (closeWindow_msg _ _).core⟩
  case closeClosing =>
    rw [h2] at hclose
    exact hv' ▸ hclose

end Sys2Proof.Machine
end
section
/-! Ring entries and window writes that arrive (12, R572, R577 to R580, R592 to R594). -/

namespace Sys2Proof.Machine

/-! ## Ring entries (R577 to R580) -/

theorem exec_ringEntry_park {s : State} {p : Fin 8} {h : FlitHdr} {e : LinkEntry} (hst : s.glb.st = .park) :
    exec (.ringEntry p h e) s = .next s := congrArg Host.Outcome.next (if_pos hst)

theorem exec_ringEntry_lost {s u : State} {p : Fin 8} {h : FlitHdr} {e : LinkEntry} (hst : s.glb.st ≠ .park)
    (htake : s.takeFlits p.val h false = .lost u) : exec (.ringEntry p h e) s = .next u := by
  refine congrArg Host.Outcome.next ((if_neg hst).trans ?_)
  rw [htake]

/-- An entry whose flits are taken: dropped in SAFE, delivered where its ring admits the port, dropped with a fault elsewhere. -/
theorem exec_ringEntry_here {s u : State} {p : Fin 8} {h : FlitHdr} {e : LinkEntry} (hst : s.glb.st ≠ .park)
    (htake : s.takeFlits p.val h false = .here u) : exec (.ringEntry p h e) s = .next (
      if u.glb.st = .safe then u.modLnk p.val (fun l => { l with ringDrop := bump l.ringDrop })
      else if (u.lnkAt p.val).role = 0 ∧ u.linkRingOk (.linkPort p.val) e = true then u.deliverLink p.val (.linkPort p.val) e
      else ((u.modLnk p.val (fun l => { l with ringDrop := bump l.ringDrop, err := l.err ||| 16 })).raise 0x5004).sharedFault) := by
  refine congrArg Host.Outcome.next ((if_neg hst).trans ?_)
  rw [htake]

theorem deliverLink_behind {u : State} {p : Nat} {src : Producer} {e : LinkEntry} (h : (u.lnkAt p).stalled ≠ []) :
    u.deliverLink p src e = u.modLnk p (fun l => { l with stalled := l.stalled ++ [(src, e)] }) :=
  if_pos (by simpa using h)

/-- With nothing held back an entry goes to its ring; a full ring holds it back. -/
theorem deliverLink_first {u : State} {p : Nat} {src : Producer} {e : LinkEntry} (h : (u.lnkAt p).stalled = []) :
    u.deliverLink p src e = match u.pushLink src e with
      | .done v => v
      | .wait v => v.modLnk p (fun l => { l with stalled := l.stalled ++ [(src, e)] }) :=
  (if_neg (by rw [h]; exact Bool.false_ne_true)).trans rfl

theorem deliverLink_done {u v : State} {p : Nat} {src : Producer} {e : LinkEntry} (h : (u.lnkAt p).stalled = [])
    (hpush : u.pushLink src e = .done v) : u.deliverLink p src e = v := by
  rw [deliverLink_first h, hpush]

theorem deliverLink_wait {u v : State} {p : Nat} {src : Producer} {e : LinkEntry} (h : (u.lnkAt p).stalled = [])
    (hpush : u.pushLink src e = .wait v) :
    u.deliverLink p src e = v.modLnk p (fun l => { l with stalled := l.stalled ++ [(src, e)] }) := by
  rw [deliverLink_first h, hpush]

/-! ## Window writes (R592 to R594) -/

theorem exec_wwrite_park {s : State} {p : Fin 8} {h : FlitHdr} {m : WinWrite} (hst : s.glb.st = .park) :
    exec (.wwrite p h m) s = .next s := congrArg Host.Outcome.next (if_pos hst)

theorem exec_wwrite_lost {s u : State} {p : Fin 8} {h : FlitHdr} {m : WinWrite} (hst : s.glb.st ≠ .park)
    (htake : s.takeFlits p.val h false = .lost u) : exec (.wwrite p h m) s = .next u := by
  refine congrArg Host.Outcome.next ((if_neg hst).trans ?_)
  rw [htake]

/-- The window with the flits of a write counted. -/
def State.winAccepted (u : State) (w n : Nat) : State := u.modWindow w (fun x => { x with
  acc := bump x.acc n, landing := x.landing + n, sinceAck := bump x.sinceAck n })

/-- The state after a write to a window of this device whose flits are taken. -/
def State.takeWrite (u : State) (p : Nat) (h : FlitHdr) (m : WinWrite) : State :=
  if u.glb.st = .safe then { u with win := { u.win with drop := bump u.win.drop h.flits } }
  else match u.wwriteReason h m with
    | some r => u.refuseFlit h m r
    | none =>
      if m.ringForm then (u.winAccepted m.window.val h.flits).deliverLink p (.gate m.window.val) m.entry
      else (u.winAccepted m.window.val h.flits).writeDev
        (((u.winAccepted m.window.val h.flits).windowAt m.window.val).base.toNat + m.offset.toNat) m.data

section
variable {s u : State} {p : Fin 8} {h : FlitHdr} {m : WinWrite} (hst : s.glb.st ≠ .park) (htake : s.takeFlits p.val h false = .here u)
include hst htake

theorem exec_wwrite_forward (hdst : h.dst ≠ u.win.linkId) : exec (.wwrite p h m) s = .next (u.forward p.val h) := by
  refine congrArg Host.Outcome.next ((if_neg hst).trans ?_)
  rw [htake]
  exact if_pos hdst

theorem exec_wwrite_here (hdst : h.dst = u.win.linkId) : exec (.wwrite p h m) s = .next (u.takeWrite p.val h m) := by
  refine congrArg Host.Outcome.next ((if_neg hst).trans ?_)
  rw [htake]
  refine (if_neg (not_not_intro hdst)).trans ?_
  unfold State.takeWrite
  cases u.wwriteReason h m <;> rfl

end

theorem takeWrite_refused {u : State} {p r : Nat} {h : FlitHdr} {m : WinWrite} (hst : u.glb.st ≠ .safe)
    (hreason : u.wwriteReason h m = some r) : u.takeWrite p h m = u.refuseFlit h m r := by
  refine (if_neg hst).trans ?_
  rw [hreason]

theorem takeWrite_gate {u : State} {p : Nat} {h : FlitHdr} {m : WinWrite} (hst : u.glb.st ≠ .safe)
    (hreason : u.wwriteReason h m = none) (hform : m.ringForm = true) :
    u.takeWrite p h m = (u.winAccepted m.window.val h.flits).deliverLink p (.gate m.window.val) m.entry := by
  refine (if_neg hst).trans ?_
  rw [hreason]
  exact if_pos hform

theorem takeWrite_memory {u : State} {p : Nat} {h : FlitHdr} {m : WinWrite} (hst : u.glb.st ≠ .safe)
    (hreason : u.wwriteReason h m = none) (hform : m.ringForm = false) : u.takeWrite p h m =
      (u.winAccepted m.window.val h.flits).writeDev ((u.windowAt m.window.val).base.toNat + m.offset.toNat) m.data := by
  refine (if_neg hst).trans ?_
  rw [hreason, hform]
  dsimp only
  rw [State.winAccepted, State.windowAt_modWindow]
  rfl

/-- A refusal is counted and marked on its window; it concerns no core and no slot (R593). -/
theorem refuseFlit_end (u : State) (h : FlitHdr) (m : WinWrite) (r : Nat) : let t := u.refuseFlit h m r
    t.win.drop = bump u.win.drop h.flits ∧ (t.windowAt m.window.val).refused = true ∧
    (t.windowAt m.window.val).acc = (u.windowAt m.window.val).acc ∧ t.core = u.core ∧ t.slots = u.slots := by
  intro t
  obtain ⟨v, hmsg, hwin, ht⟩ : ∃ v : State,
      MsgOnly u v ∧ v.win = ((u.modWin (fun y => { y with drop := bump y.drop h.flits })).modWindow m.window.val (fun x =>
        { x with refused := true, refusedTick := some u.tick.count })).win ∧ (t = v.raise 0x5011 ∨ t = v) := by
    refine ⟨_, ?_, sendRouted_win _ h.src.toNat 12 (.wnak h.src m.window.val r (u.windowAt m.window.val).epoch m.offset.toNat), ?_⟩
    · exact .trans (by constructor <;> rfl) (sendRouted_msg _ _ _ _)
    · exact (Classical.em _).imp (fun hfirst => if_pos hfirst) fun hagain => if_neg hagain
  have hat : v.windowAt m.window.val = { u.windowAt m.window.val with refused := true, refusedTick := some u.tick.count } :=
    (congrArg (fun y : WinSt => Tab.get WindowSt.reset y.windows m.window.val) hwin).trans
      (State.windowAt_modWindow (u.modWin _) m.window.val (fun x => { x with refused := true, refusedTick := some u.tick.count }))
  have hdrop : v.win.drop = bump u.win.drop h.flits := congrArg WinSt.drop hwin
  obtain ht | ht := ht <;> rw [ht]
  · rw [windowAt_raise, hat, (raise_eventOnly v _ _ _ _).win]
    exact ⟨hdrop, rfl, rfl, (raise_eventOnly v _ _ _ _).core.trans hmsg.core, (raise_slots v _ _ _ _).trans hmsg.slots⟩
  · rw [hat]
    exact ⟨hdrop, rfl, rfl, hmsg.core, hmsg.slots⟩

/-- A write that lands lies whole in memory, and its flits are counted on the window (R594). -/
theorem winAccepted_writeDev (u : State) (w n a : Nat) (l : List Byte) : let t := (u.winAccepted w n).writeDev a l
    t.mem = Tab.setRange memDefault u.mem a l ∧ (t.windowAt w).acc = bump (u.windowAt w).acc n ∧
    (t.windowAt w).sinceAck = bump (u.windowAt w).sinceAck n ∧ t.core = u.core ∧ t.slots = u.slots := by
  intro t
  obtain ⟨hmem, hframe⟩ := writeDev_only (u.winAccepted w n) a l
  have hwin : t.win = (u.winAccepted w n).win := (congrArg State.win hframe :)
  have hat : t.windowAt w = { u.windowAt w with
      acc := bump (u.windowAt w).acc n, landing := (u.windowAt w).landing + n, sinceAck := bump (u.windowAt w).sinceAck n } :=
    (congrArg (fun y : WinSt => Tab.get WindowSt.reset y.windows w) hwin).trans (State.windowAt_modWindow u w _)
  rw [hat]
  exact ⟨hmem, rfl, rfl, (congrArg State.core hframe :), (congrArg State.slots hframe :)⟩

/-! ## The checks in their order (R592) -/

theorem wwriteReason_notOpen {s : State} {h : FlitHdr} {m : WinWrite} (hst : (s.windowAt m.window.val).state ≠ 1) :
    s.wwriteReason h m = some 0 := if_pos hst

theorem wwriteReason_epoch {s : State} {h : FlitHdr} {m : WinWrite} (hst : (s.windowAt m.window.val).state = 1)
    (he : m.epoch ≠ (s.windowAt m.window.val).epoch) : s.wwriteReason h m = some 1 :=
  (if_neg (not_not_intro hst)).trans (if_pos he)

theorem wwriteReason_source {s : State} {h : FlitHdr} {m : WinWrite} (hst : (s.windowAt m.window.val).state = 1)
    (he : m.epoch = (s.windowAt m.window.val).epoch) (hsrc : (s.windowAt m.window.val).sources.contains h.src.toNat = false) :
    s.wwriteReason h m = some 2 :=
  (if_neg (not_not_intro hst)).trans ((if_neg (not_not_intro he)).trans (if_pos (by rw [hsrc]; rfl)))

/-- Settles O51: PARK, lost flits, an entry by what takes it, and a write by its destination and its first failed check. -/
theorem entriesAndWindowWrites : Obligations.EntriesAndWindowWrites := by
  refine ⟨fun s u p h e m => ⟨fun hst => ⟨exec_ringEntry_park hst, exec_wwrite_park hst⟩,
      fun hst htake => ⟨exec_ringEntry_lost hst htake, exec_wwrite_lost hst htake⟩, fun hst htake => ⟨fun l hl => ?entry,
        exec_wwrite_forward hst htake, fun hdst hsafe => ?safe, fun hdst hsafe => ?write⟩⟩,
    fun s h m => ⟨wwriteReason_notOpen, wwriteReason_epoch, wwriteReason_source⟩⟩
  case entry =>
    subst hl
    have hexec := exec_ringEntry_here (e := e) hst htake
    refine ⟨fun hsafe => hexec.trans (congrArg Host.Outcome.next (if_pos hsafe)), fun hsafe hrole hok => ?_, fun hsafe hno => ?_⟩
    · have hdeliver := hexec.trans (congrArg Host.Outcome.next ((if_neg hsafe).trans (if_pos ⟨hrole, hok⟩)))
      exact ⟨fun hbehind => hdeliver.trans (congrArg Host.Outcome.next (deliverLink_behind hbehind)),
        fun v hfirst hpush => hdeliver.trans (congrArg Host.Outcome.next (deliverLink_done hfirst hpush)),
        fun v hfirst hpush => hdeliver.trans (congrArg Host.Outcome.next (deliverLink_wait hfirst hpush))⟩
    · refine hexec.trans (congrArg Host.Outcome.next ((if_neg hsafe).trans (if_neg ?_)))
      rintro ⟨hrole, hok⟩
      exact hno.elim (fun hne => hne hrole) fun hfalse => Bool.false_ne_true (hfalse.symm.trans hok)
  case safe => exact (exec_wwrite_here hst htake hdst).trans (congrArg Host.Outcome.next (if_pos hsafe))
  case write =>
    have hexec := exec_wwrite_here (m := m) hst htake hdst
    refine ⟨fun r hreason => ?_, fun hreason hform => ?_, fun hreason hform => ?_⟩
    · exact ⟨_, hexec.trans (congrArg Host.Outcome.next (takeWrite_refused hsafe hreason)), refuseFlit_end u h m r⟩
    · exact ⟨_, hexec.trans (congrArg Host.Outcome.next (takeWrite_memory hsafe hreason hform)), winAccepted_writeDev u _ _ _ _⟩
    · exact hexec.trans (congrArg Host.Outcome.next (takeWrite_gate hsafe hreason hform))

end Sys2Proof.Machine
end
section
/-! Pairing messages (14, R660 to R662, R664 to R669, R673) and the re-fetch of weights (R677, R678). -/

namespace Sys2Proof.Machine

/-! ## What the KV writes of an unpacking leave -/

/-- What pairing reads of the state: the twin's own registers, what has been sent, the link ports. -/
def State.twinView (s : State) : TwinSt × List Sent × Tab LnkSt := (s.twin, s.sent, s.lnk)

theorem twinView_raise (s : State) (c : Nat) (a b : Option Nat) (p : Nat) : (s.raise c a b p).twinView = s.twinView := by
  have h := raise_eventOnly s c a b p
  unfold State.twinView
  rw [h.twin, h.sent, h.lnk]

theorem twinView_writeDev (s : State) (a : Nat) (l : List Byte) : (s.writeDev a l).twinView = s.twinView :=
  (congrArg State.twinView (writeDev_only s a l).2).trans rfl

theorem twinView_slotFault (s : State) (m : BitVec 256) : (s.slotFault m).twinView = s.twinView := by
  unfold State.slotFault
  split <;> rfl

theorem twinView_kvLookup (s : State) (d n : Nat) : (s.kvLookup d n).twinView = s.twinView := by
  unfold State.kvLookup
  split <;> rfl

theorem twinView_kvFreePage (s : State) (d n : Nat) : (s.kvFreePage d n).twinView = s.twinView :=
  twinView_writeDev s (s.pteAddr d n) (leBytes 8 0)

theorem twinView_kvMap {s t : State} {d n : Nat} (h : s.kvMap d n = some t) : t.twinView = s.twinView := by
  have hfree : ∀ u : State, (if (u.kvAt d).freeq.contains n then u.kvFreePage d n else u).twinView = u.twinView := fun u => by
    split
    · exact twinView_kvFreePage u d n
    · rfl
  have hpage := (hfree (s.kvLookup d n)).trans (twinView_kvLookup s d n)
  unfold State.kvMap at h
  dsimp only at h
  generalize (if ((s.kvLookup d n).kvAt d).freeq.contains n then (s.kvLookup d n).kvFreePage d n else s.kvLookup d n) = u at h hpage
  split at h
  · exact Option.some.inj h ▸ hpage
  · cases hpick : u.kvPick d with
    | none =>
      rw [hpick] at h
      cases h
    | some x =>
      rw [hpick] at h
      exact Option.some.inj h ▸ (twinView_writeDev u (u.pteAddr d n) _).trans hpage

theorem twinView_kvWrite : ∀ (f : Nat) (s : State) (d a : Nat) (l : List Byte), (s.kvWrite d a l f).twinView = s.twinView
  | 0, _, _, _, _ => rfl
  | f + 1, s, d, a, l => by
    unfold State.kvWrite
    split
    · rfl
    · refine (twinView_kvWrite f _ d _ _).trans ?_
      cases hmap : s.kvMap d (kvPage a) with
      | some t => exact (twinView_writeDev t _ _).trans (twinView_kvMap hmap)
      | none => exact (twinView_slotFault _ _).trans (twinView_raise _ _ _ _ _)

theorem twinView_unpackKv (s : State) (m : MirrorSlot) : (s.unpackKv m).twinView = s.twinView :=
  foldl_keeps State.twinView _ (fun _ _ => twinView_kvWrite _ _ _ _ _) _ s

theorem twinView_unpackBuffers (s : State) (m : MirrorSlot) : (s.unpackBuffers m).twinView = s.twinView :=
  foldl_keeps State.twinView _ (fun _ _ => twinView_writeDev _ _ _) _ s

theorem twinView_kvQueueFree (s : State) (i : Nat) : (s.kvQueueFree i).twinView = s.twinView := by
  refine foldl_keeps State.twinView _ (fun t d => ?_) _ s
  dsimp only
  split <;> rfl

/-! ## Messages on the TWIN ports -/

theorem sendOn_up {s : State} {p n : Nat} {x : Sent} (h : (s.lnkAt p).isUp = true) :
    s.sendOn p n x = (s.modLnk p (fun l => l.sendFlits (flitsFor n) 0 none)).send x := if_pos h

theorem sendOn_down {s : State} {p n : Nat} {x : Sent} (h : (s.lnkAt p).isUp = false) : s.sendOn p n x = s :=
  if_neg (by rw [h]; exact Bool.false_ne_true)

/-- While the primary TWIN port is UP a message leaves on it. -/
theorem sendTwin_up {s : State} {n : Nat} {x : Sent} (h : (s.lnkAt 2).isUp = true) :
    (s.sendTwin n x).sent = x :: s.sent ∧ ((s.sendTwin n x).lnkAt 2).isUp = true := by
  have hsend : s.sendTwin n x = (s.modLnk 2 (fun l => l.sendFlits (flitsFor n) 0 none)).send x := (if_pos h).trans (sendOn_up h)
  rw [hsend]
  exact ⟨rfl, (congrArg LnkSt.isUp (State.lnkAt_modLnk s 2 (fun l => l.sendFlits (flitsFor n) 0 none))).trans h⟩

/-! ## HELLO (R660 to R662) -/

theorem exec_helloSend_waits {s : State} {p : Fin 8} (hst : s.twin.state = 1) (hrole : (s.lnkAt p.val).role = 2) :
    exec (.helloSend p) s = .next (s.sendOn p.val 88 (.hello p.val s.helloMsg)) := congrArg Host.Outcome.next (if_pos ⟨hst, hrole⟩)

theorem exec_helloSend_not {s : State} {p : Fin 8} (h : s.twin.state ≠ 1 ∨ (s.lnkAt p.val).role ≠ 2 ∨ (s.lnkAt p.val).isUp = false) :
    exec (.helloSend p) s = .next s := by
  by_cases hgo : s.twin.state = 1 ∧ (s.lnkAt p.val).role = 2
  · obtain ⟨hst, hrole⟩ := hgo
    have hdown : (s.lnkAt p.val).isUp = false := (h.resolve_left (not_not_intro hst)).resolve_left (not_not_intro hrole)
    exact (exec_helloSend_waits hst hrole).trans (congrArg Host.Outcome.next (sendOn_down hdown))
  · exact congrArg Host.Outcome.next (if_neg hgo)

/-! ## Slots that a partner's adoption sets to FAULT (R673) -/

/-- A slot as the partner's adoption leaves it: FAULT where it is admitted and, unless all are meant, the device's own. -/
def SlotSt.faulted (x : SlotSt) (all : Bool) : SlotSt := if x.state ≠ 0 ∧ (all ∨ !x.adopted) then { x with state := 6 } else x

theorem faultSlots_slot (s : State) (all : Bool) (i : Nat) : (s.faultSlots all).slot i = (s.slot i).faulted all := by
  have hmap : (s.faultSlots all).slots = s.slots.map (fun e => (e.1, e.2.faulted all)) := by
    refine List.map_congr_left fun e _ => ?_
    unfold SlotSt.faulted
    split <;> rfl
  rw [State.slot, hmap]
  exact tab_get_map (f := fun x : SlotSt => x.faulted all) rfl s.slots i

theorem faulted_own (x : SlotSt) : x.faulted false = if x.state ≠ 0 ∧ x.adopted = false then { x with state := 6 } else x := by
  simp [SlotSt.faulted]

/-! ## Messages that reached this device -/

section
variable {s u : State} {lp : Fin 8} {h : FlitHdr} (htake : s.takeFlits lp.val h false = .here u) (hdst : h.dst = u.win.linkId)
include htake hdst

theorem exec_hello_here (m : HelloMsg) {v : State} (hv : v = { u with twin := { u.twin with helloTick := some m.tick } }) :
    exec (.hello lp h m) s = .next (if u.twin.state ≠ 1 then v
      else if v.helloOk m then (({ v with twin := { v.twin with state := 2 } } : State).raise 0x7001).openPaired
      else ({ v with twin := { v.twin with state := 5 } } : State).raise 0x7002) := by
  subst hv
  exact congrArg Host.Outcome.next (recvCtrl_here htake hdst)

theorem exec_heartbeat_here (adopted : Bool) (a b : DWord) {v : State}
    (hv : v = { u with twin := { u.twin with beat := true, missed := 0, partAdopted := adopted } }) :
    exec (.heartbeat lp h adopted a b) s = .next (if !adopted then v else if u.twin.state ≠ 4 then (v.faultSlots false).raise 0x7007
      else if u.cfg.side then (v.faultSlots true).raise 0x7007 else v) := by
  subst hv
  exact congrArg Host.Outcome.next (recvCtrl_here htake hdst)

theorem exec_mirrorCommit_here (tick n : DWord) (l : List MirrorSlot) (f : BitVec 256) : exec (.mirrorCommit lp h tick n l f) s =
    .next (if u.twin.state = 2 ∨ u.twin.state = 3 then { u with twin := { u.twin with unpacking := some ⟨tick, l, f, n.toNat⟩ } } else u) :=
  congrArg Host.Outcome.next (recvCtrl_here htake hdst)

theorem exec_mirrorApplied_none {tick : DWord} (ha : u.twin.awaiting = none) : exec (.mirrorApplied lp h tick) s = .next u := by
  refine congrArg Host.Outcome.next ((recvCtrl_here htake hdst).trans ?_)
  rw [ha]

theorem exec_mirrorApplied_awaited {tick : DWord} {m : Mirror} (ha : u.twin.awaiting = some m) : exec (.mirrorApplied lp h tick) s =
    .next (if m.tick ≠ tick then u
      else ((u.modTwin (fun t => t.applied m)).releaseResults (fun x => decide (x ≤ m.tick))).stageMirror) := by
  refine congrArg Host.Outcome.next ((recvCtrl_here htake hdst).trans ?_)
  rw [ha]

end

/-! ## The end of an unpacking (R666) -/

theorem mirrorUnpacked_none {s : State} (h : s.twin.unpacking = none) : s.mirrorUnpacked = s := by
  rw [State.mirrorUnpacked, h]

/-- The twin's registers once the mirror m is unpacked: its slots in the mirror table, the freed ones not. -/
def TwinSt.unpacked (t : TwinSt) (m : Mirror) : TwinSt := { t with
  unpacking := none, mirrorTick := m.tick,
  mirror := (m.slots.foldl (fun t x => Tab.put t x.slot.val (keepEntry x t)) t.mirror).filter
    (fun e => !((maskList m.freed).filter (fun i => decide (i < 128))).contains e.1),
  mirrorTicks := m.slots.foldl (fun t x => Tab.set 0 t x.slot.val (word m.tick.toNat)) t.mirrorTicks }

/-- An unpacking ends with MIRROR_APPLIED, sent from a state that holds the mirror's slots and has sent nothing since. -/
theorem mirrorUnpacked_some {s : State} {m : Mirror} (h : s.twin.unpacking = some m) : ∃ v : State,
    s.mirrorUnpacked = v.sendTwin 16 (.mirrorApplied m.tick) ∧ v.twinView = (s.twin.unpacked m, s.sent, s.lnk) := by
  have hslots := foldl_keeps State.twinView (fun (s : State) (x : MirrorSlot) => (s.unpackKv x).unpackBuffers x)
    (fun t x => (twinView_unpackBuffers _ x).trans (twinView_unpackKv t x)) m.slots s
  unfold State.mirrorUnpacked
  rw [h]
  refine ⟨_, rfl, (foldl_keeps State.twinView _ (fun t i => twinView_kvQueueFree t _) _ _).trans ?_⟩
  generalize m.slots.foldl (fun (s : State) (x : MirrorSlot) => (s.unpackKv x).unpackBuffers x) s = w at hslots
  obtain ⟨htwin, hrest⟩ := Prod.mk.inj hslots
  exact Prod.ext (congrArg (fun t => TwinSt.unpacked t m) htwin) hrest

theorem mirrorUnpacked_end {s : State} {m : Mirror} (h : s.twin.unpacking = some m) : let t := s.mirrorUnpacked
    t.twin = s.twin.unpacked m ∧ ((s.lnkAt 2).isUp = true → t.sent = .mirrorApplied m.tick :: s.sent) := by
  obtain ⟨v, hend, hview⟩ := mirrorUnpacked_some h
  obtain ⟨htwin, hrest⟩ := Prod.mk.inj hview
  obtain ⟨hsent, hlnk⟩ := Prod.mk.inj hrest
  rw [hend]
  refine ⟨(sendTwin_msg v _ _).twin.trans htwin, fun hup => ?_⟩
  have hup' : (v.lnkAt 2).isUp = true := (congrArg (fun t => (Tab.get LnkSt.reset t 2).isUp) hlnk).trans hup
  rw [(sendTwin_up hup').1, hsent]

/-! ## ADOPT (R669) -/

theorem exec_adopt_owns {s : State} {p : Port} {v : Word} (hp : s.owns p) : exec (.adopt p v) s =
    .next (if v.getLsbD 0 = true ∧ (s.twin.state = 2 ∨ s.twin.state = 3)
      then { s with twin := { s.twin with adoptCmd := v.getLsbD 0, adoptReq := true } }
      else { s with twin := { s.twin with adoptCmd := v.getLsbD 0 } }) := congrArg Host.Outcome.next (ownerOnly_owns hp)

/-- Settles O53: the HELLO of each side, the heartbeats, the mirrors and ADOPT, each by the lemma of its message. -/
theorem pairingMessages : Obligations.PairingMessages := by
  refine ⟨fun s p => ⟨fun hst hrole hup => ?send, exec_helloSend_not⟩,
    fun s u v lp h htake hdst => ⟨fun m hv => ?hello, fun a b hv => ?beat, fun a b hst => ?adopted, fun a b hv hst => ?both,
      fun tick n l f => ?commit, fun tick => ⟨exec_mirrorApplied_none htake hdst, fun m ha hne => ?other, fun m ha heq => ?applied⟩⟩,
    fun s => ⟨fun hnone => congrArg Host.Outcome.next (mirrorUnpacked_none hnone), fun m hm => ?unpacked⟩,
    fun s p v hp => ⟨fun hv hst => ?adopt, fun hno => ?noAdopt⟩⟩
  case send =>
    refine ⟨_, exec_helloSend_waits hst hrole, ?_, (sendOn_msg _ _ _ _).twin⟩
    rw [sendOn_up hup]
    rfl
  case hello =>
    have hexec := exec_hello_here htake hdst m hv
    exact ⟨fun hst => hexec.trans (congrArg Host.Outcome.next (if_pos hst)),
      fun hst hok => hexec.trans (congrArg Host.Outcome.next ((if_neg (not_not_intro hst)).trans (if_neg (by rw [hok]; exact Bool.false_ne_true)))),
      fun hst hok => hexec.trans (congrArg Host.Outcome.next ((if_neg (not_not_intro hst)).trans (if_pos hok)))⟩
  case beat => exact exec_heartbeat_here htake hdst false a b hv
  case adopted =>
    refine ⟨_, _, (exec_heartbeat_here htake hdst true a b rfl).trans (congrArg Host.Outcome.next ((if_neg Bool.false_ne_true).trans (if_pos hst))),
      rfl, rfl, rfl, fun i => ?_⟩
    exact (faultSlots_slot _ false i).trans (faulted_own _)
  case both =>
    have hexec := (exec_heartbeat_here htake hdst true a b hv).trans
      (congrArg Host.Outcome.next ((if_neg Bool.false_ne_true).trans (if_neg (not_not_intro hst))))
    exact ⟨fun hside => hexec.trans (congrArg Host.Outcome.next (if_neg (by rw [hside]; exact Bool.false_ne_true))),
      fun hside => hexec.trans (congrArg Host.Outcome.next (if_pos hside))⟩
  case commit =>
    have hexec := exec_mirrorCommit_here htake hdst tick n l f
    exact ⟨fun hst => hexec.trans (congrArg Host.Outcome.next (if_pos hst)),
      fun hpaired hlost => hexec.trans (congrArg Host.Outcome.next (if_neg (not_or.mpr ⟨hpaired, hlost⟩)))⟩
  case other => exact (exec_mirrorApplied_awaited htake hdst ha).trans (congrArg Host.Outcome.next (if_pos hne))
  case applied =>
    subst heq
    exact ⟨_, (exec_mirrorApplied_awaited htake hdst ha).trans (congrArg Host.Outcome.next (if_neg (not_not_intro rfl))),
      rfl, rfl, rfl, rfl, rfl⟩
  case unpacked =>
    obtain ⟨htwin, hsent⟩ := mirrorUnpacked_end hm
    exact ⟨_, rfl, congrArg TwinSt.unpacking htwin, congrArg TwinSt.mirrorTick htwin, congrArg TwinSt.mirror htwin,
      congrArg TwinSt.mirrorTicks htwin, hsent⟩
  case adopt =>
    refine (exec_adopt_owns hp).trans (congrArg Host.Outcome.next ((if_pos ⟨hv, hst⟩).trans ?_))
    rw [hv]
  case noAdopt =>
    refine (exec_adopt_owns hp).trans (congrArg Host.Outcome.next (if_neg ?_))
    rintro ⟨hv, hst⟩
    obtain hno | ⟨hpaired, hlost⟩ := hno
    · exact Bool.false_ne_true (hno.symm.trans hv)
    · exact hst.elim hpaired hlost

end Sys2Proof.Machine
end
section
/-! The re-fetch of weights (14, R677, R678): what the partner serves, and how the requester's re-fetch ends. -/

namespace Sys2Proof.Machine

/-! ## Serving a request (R677) -/

theorem serveRefetch_state {u : State} {a n : Nat} (h : u.readyOrRun = false ∨ (u.handleAt 63).state ≠ 1) :
    u.serveRefetch a n = (some 3, u) := by
  refine if_pos ?_
  simpa using h

section
variable {u : State} {a n : Nat} (hrun : u.readyOrRun = true) (hvalid : (u.handleAt 63).state = 1)
include hrun hvalid

theorem serveRefetch_notWeight (h : u.isWeight a = false) : u.serveRefetch a n = (some 2, u) :=
  (if_neg (by simp [hrun, hvalid])).trans (if_pos (by rw [h]; rfl))

theorem serveRefetch_weight (h : u.isWeight a = true) : u.serveRefetch a n =
    if (u.readDev a n).1 then (none, (u.readDev a n).2) else (some 1, (u.readDev a n).2) :=
  (if_neg (by simp [hrun, hvalid])).trans (if_neg (by simp [h]))

end

/-- Two messages to the partner leave in their order. -/
theorem sendTwin_two {v : State} {n k : Nat} {x y : Sent} (hup : (v.lnkAt 2).isUp = true) :
    ((v.sendTwin n x).sendTwin k y).sent = y :: x :: v.sent ∧ ((v.sendTwin n x).sendTwin k y).twin = v.twin := by
  obtain ⟨hsent, hup'⟩ := sendTwin_up (n := n) (x := x) hup
  refine ⟨?_, (sendTwin_msg _ k y).twin.trans (sendTwin_msg v n x).twin⟩
  rw [(sendTwin_up hup').1, hsent]

section
variable {s u : State} {lp : Fin 8} {h : FlitHdr} (htake : s.takeFlits lp.val h false = .here u) (hdst : h.dst = u.win.linkId)
include htake hdst

/-- A request that is refused is answered with FAIL and its reason, and no re-fetch is served. -/
theorem exec_refetchRequest_fails {e : BitVec 16} {addr : BitVec 44} {n : Word} {why : Nat} {v : State}
    (hserve : u.serveRefetch addr.toNat n.toNat = (some why, v)) (hup : (v.lnkAt 2).isUp = true) :
    ∃ t : State, exec (.refetchRequest lp h e addr n) s = .next t ∧ t.sent = .refetchFail why addr :: v.sent ∧ t.twin = v.twin := by
  refine ⟨v.sendTwin 16 (.refetchFail why addr), congrArg Host.Outcome.next ((recvCtrl_here htake hdst).trans ?_), (sendTwin_up hup).1,
    (sendTwin_msg _ _ _).twin⟩
  rw [hserve]

/-- A request that is served: the block through handle 63, the fence behind it, and the address kept until the WACK. -/
theorem exec_refetchRequest_serves {e : BitVec 16} {addr : BitVec 44} {n : Word} {v : State}
    (hserve : u.serveRefetch addr.toNat n.toNat = (none, v)) (hup : (v.lnkAt 2).isUp = true) :
    ∃ t : State, exec (.refetchRequest lp h e addr n) s = .next t ∧ t.sent = .wfence 63 (v.handleAt 63).epoch ::
      .winWrite 63 (v.handleAt 63).epoch 0 (v.peek addr.toNat n.toNat) :: v.sent ∧ t.twin = { v.twin with serve := some addr } := by
  have hexec : exec (.refetchRequest lp h e addr n) s = .next (((v.sendTwin (n.toNat + 32) (.winWrite 63 (v.handleAt 63).epoch 0
      (v.peek addr.toNat n.toNat))).sendTwin 4 (.wfence 63 (v.handleAt 63).epoch)).modTwin (fun t => { t with serve := some addr })) := by
    refine congrArg Host.Outcome.next ((recvCtrl_here htake hdst).trans ?_)
    rw [hserve]
  obtain ⟨hsent, htwin⟩ := sendTwin_two (n := n.toNat + 32) (k := 4)
    (x := .winWrite 63 (v.handleAt 63).epoch 0 (v.peek addr.toNat n.toNat)) (y := .wfence 63 (v.handleAt 63).epoch) hup
  refine ⟨_, hexec, ?_, ?_⟩
  · rw [State.modTwin_sent, hsent]
  · rw [State.modTwin_twin, htwin]

/-! ## The end of a re-fetch (R678) -/

theorem exec_refetchDone_other {addr : BitVec 44} (hne : u.twin.refetch ≠ some addr) : exec (.refetchDone lp h addr) s = .next u :=
  congrArg Host.Outcome.next ((recvCtrl_here htake hdst).trans (if_neg hne))

theorem exec_refetchFail_other {r : BitVec 8} {addr : BitVec 44} (hne : u.twin.refetch ≠ some addr) :
    exec (.refetchFail lp h r addr) s = .next u := congrArg Host.Outcome.next ((recvCtrl_here htake hdst).trans (if_neg hne))

theorem exec_refetchDone_open {addr : BitVec 44} (hopen : u.twin.refetch = some addr) : exec (.refetchDone lp h addr) s =
    .next (u.modTwin (fun t => { t with refetchN := bump t.refetchN })).refetchEnd :=
  congrArg Host.Outcome.next ((recvCtrl_here htake hdst).trans (if_pos hopen))

theorem exec_refetchFail_open {r : BitVec 8} {addr : BitVec 44} (hopen : u.twin.refetch = some addr) : exec (.refetchFail lp h r addr) s =
    .next ((u.modTwin (fun t => { t with refetchFailN := bump t.refetchFailN })).raise 0x7006).refetchEnd :=
  congrArg Host.Outcome.next ((recvCtrl_here htake hdst).trans (if_pos hopen))

end

/-- No queued re-fetch starts while window 49 is not CLOSED, or where none is queued. -/
theorem refetchNext_not {s : State} (h : (s.windowAt 49).state ≠ 0 ∨ s.twin.refetchQ = []) : s.refetchNext = s := by
  unfold State.refetchNext
  cases hq : s.twin.refetchQ with
  | nil => rfl
  | cons b l => exact if_pos (.inr (h.resolve_right (by rw [hq]; exact List.cons_ne_nil b l)))

/-- The state with no re-fetch open. -/
def State.refetchOver (s : State) : State := s.modTwin (fun t => { t with refetch := none, refetchAt := none })

/-- The end of a re-fetch whose window is OPEN closes it, and the next one waits for the end of the close. -/
theorem refetchEnd_closes {s : State} (hst : (s.windowAt 49).state = 1) : let t := s.refetchEnd
    t.twin = s.refetchOver.twin ∧ (t.windowAt 49).state = 2 ∧ t.core = s.core ∧ t.slots = s.slots := by
  intro t
  have hstate : ((s.refetchOver.closeWindow 49).windowAt 49).state = 2 := congrArg WindowSt.state (windowAt_closeWindow _ 49)
  have hmsg := closeWindow_msg s.refetchOver 49
  have ht : t = s.refetchOver.closeWindow 49 := (congrArg State.refetchNext (if_pos hst)).trans
    (refetchNext_not (.inl fun h0 => absurd (hstate.symm.trans h0) (by decide)))
  rw [ht]
  exact ⟨hmsg.twin, hstate, hmsg.core, hmsg.slots⟩

/-- The end of a re-fetch whose window is not OPEN, with none queued, is that of its registers alone. -/
theorem refetchEnd_quiet {s : State} (hst : (s.windowAt 49).state ≠ 1) (hq : s.twin.refetchQ = []) :
    s.refetchEnd = s.refetchOver :=
  (congrArg State.refetchNext (if_neg hst)).trans (refetchNext_not (.inr hq))

/-- Settles O54: a request by the first reason against it, and the two ends of a re-fetch. -/
theorem refetchMessages : Obligations.RefetchMessages := by
  refine ⟨fun s u lp h e addr n htake hdst hup => ⟨fun hno => exec_refetchRequest_fails htake hdst (serveRefetch_state hno) hup,
      fun hrun hvalid => ⟨fun hw => exec_refetchRequest_fails htake hdst (serveRefetch_notWeight hrun hvalid hw) hup,
        fun hw hread => ?unread, fun hw hread => ?served⟩⟩,
    fun s u lp h r addr htake hdst => ⟨fun hne => ⟨exec_refetchDone_other htake hdst hne, exec_refetchFail_other htake hdst hne⟩,
      fun hopen hst => ⟨⟨_, exec_refetchDone_open htake hdst hopen, refetchEnd_closes hst⟩, ?fails⟩,
      fun hopen hst hq => ⟨?quietDone, ?quietFail⟩⟩⟩
  case unread =>
    have hro := readDev_read u addr.toNat n.toNat
    obtain ⟨t, hexec, hsent, htwin⟩ := exec_refetchRequest_fails (e := e) htake hdst ((serveRefetch_weight hrun hvalid hw).trans (if_neg (by
      rw [hread]; exact Bool.false_ne_true))) (by rw [State.lnkAt, hro.lnk]; exact hup)
    exact ⟨t, hexec, by rw [hsent, hro.sent], by rw [htwin, hro.twin]⟩
  case served =>
    have hro := readDev_read u addr.toNat n.toNat
    have hepoch : ((u.readDev addr.toNat n.toNat).2.handleAt 63).epoch = (u.handleAt 63).epoch := by
      rw [State.handleAt, hro.win]
      rfl
    obtain ⟨t, hexec, hsent, htwin⟩ := exec_refetchRequest_serves (e := e) htake hdst ((serveRefetch_weight hrun hvalid hw).trans (if_pos hread))
      (by rw [State.lnkAt, hro.lnk]; exact hup)
    exact ⟨t, hexec, by rw [hsent, hro.sent, hepoch], by rw [htwin, hro.twin]⟩
  case fails =>
    have hat := windowAt_raise (u.modTwin (fun t => { t with refetchFailN := bump t.refetchFailN })) 0x7006 none none 0xFFFF 49
    obtain ⟨htwin, hclosing, hcore, hslots⟩ := refetchEnd_closes (s := (u.modTwin (fun t =>
      { t with refetchFailN := bump t.refetchFailN })).raise 0x7006) (by rw [hat]; exact hst)
    rw [State.refetchOver, State.modTwin_twin, raise_twin] at htwin
    exact ⟨_, exec_refetchFail_open htake hdst hopen, htwin, hclosing, hcore.trans (raise_eventOnly _ _ _ _ _).core,
      hslots.trans (raise_slots _ _ _ _ _)⟩
  case quietDone =>
    exact (exec_refetchDone_open htake hdst hopen).trans (congrArg Host.Outcome.next (refetchEnd_quiet (s := u.modTwin _) hst hq))
  case quietFail =>
    have hat := windowAt_raise (u.modTwin (fun t => { t with refetchFailN := bump t.refetchFailN })) 0x7006 none none 0xFFFF 49
    have htwin := raise_twin (u.modTwin (fun t => { t with refetchFailN := bump t.refetchFailN })) 0x7006 none none 0xFFFF
    refine ⟨_, exec_refetchFail_open htake hdst hopen, ?_⟩
    rw [refetchEnd_quiet (by rw [hat]; exact hst) (by rw [htwin]; exact hq), State.refetchOver, State.modTwin_twin, htwin]
    rfl

end Sys2Proof.Machine
end
section
/-! The rehearsal commands, the spill and the replay (16, R745 to R750, R752, R753, R756, R757). -/

namespace Sys2Proof.Machine

/-- The state in which a REH_CMD of code op reads back. -/
def State.rehTaken (s : State) (op : Nat) (b : Bool) : State := { s with reh := { s.reh with cmd := word (op + bitAt b 4) } }

/-! ## TRIGGER (R746 to R748) -/

theorem exec_trigger_owns {s : State} {p : Port} {b : Bool} (hp : s.owns p) : exec (.trigger p b) s = .next (
    if s.reh.busy then (s.rehTaken 1 b).rehRefuse 5
    else (s.rehTaken 1 b).rehTrigger (word (0xFFFF0000 + (Config.triggerSource 1).toNat))) :=
  congrArg Host.Outcome.next (ownerOnly_owns hp)

theorem rehTrigger_off {s : State} {code : Word} (h : s.cfg.rehEn = false) : s.rehTrigger code = s :=
  if_pos (by rw [h]; rfl)

theorem rehTrigger_lost {s : State} {code : Word} (hen : s.cfg.rehEn = true) (h : s.reh.frozen = true ∨ s.reh.spilling = true) :
    s.rehTrigger code = ({ s with reh := { s.reh with trigLost := bump s.reh.trigLost } } : State).raiseRaw 0xA003 :=
  (if_neg (by rw [hen]; exact Bool.false_ne_true)).trans (if_pos (by simpa using h))

/-- A trigger with nothing frozen freezes the records up to the tick REH_POST cues later; it concerns no tick, slot or core. -/
theorem rehTrigger_freezes {s : State} {code : Word} (hen : s.cfg.rehEn = true) (hfrozen : s.reh.frozen = false)
    (hspill : s.reh.spilling = false) : let t := s.rehTrigger code
    t.reh.frozen = true ∧ t.reh.trigTick = s.tick.count ∧
    t.reh.trigLeft = some (s.reh.post.toNat + if s.tick.running.isSome then 1 else 0) ∧ t.tick = s.tick ∧ t.slots = s.slots ∧ t.core = s.core := by
  intro t
  have hmark := (rehWrite_eventOnly s (triggerMarker s.tick.count.toNat) false).trans (raiseRaw_eventOnly _ 0xA001 none none 0xFFFF)
  have ht : t = ((s.rehWrite (triggerMarker s.tick.count.toNat) false).raiseRaw 0xA001).modReh (fun h => { h with
      frozen := true, trigCode := code, trigTick := ((s.rehWrite (triggerMarker s.tick.count.toNat) false).raiseRaw 0xA001).tick.count,
      gapRaised := false, frozenSkip := 0,
      trigLeft := some (h.post.toNat + if ((s.rehWrite (triggerMarker s.tick.count.toNat) false).raiseRaw 0xA001).tick.running.isSome then 1 else 0),
      frozenLen := fitCount spillBytes h.ring }) :=
    (if_neg (by rw [hen]; exact Bool.false_ne_true)).trans (if_neg (by simp [hfrozen, hspill]))
  generalize (s.rehWrite (triggerMarker s.tick.count.toNat) false).raiseRaw 0xA001 = u at hmark ht
  rw [ht, ← hmark.tick, ← hmark.reh_post]
  exact ⟨rfl, rfl, rfl, rfl, hmark.slots, hmark.core⟩

/-! ## READOUT (R750, R757) -/

theorem exec_readout_owns {s : State} {p : Port} {b : Bool} (hp : s.owns p) : exec (.readout p b) s = .next (
    if s.reh.busy then (s.rehTaken 2 b).rehRefuse 5
    else if (s.readyOrRun || s.glb.st == .safe) && s.die0Ready then
      { s.rehTaken 2 b with reh := { (s.rehTaken 2 b).reh with reading := true } }
    else (s.rehTaken 2 b).rehRefuse 1) :=
  congrArg Host.Outcome.next (ownerOnly_owns hp)

theorem readoutRuns_iff (s : State) : ((s.readyOrRun || s.glb.st == .safe) && s.die0Ready) = true ↔
    (s.glb.st = .ready ∨ s.glb.st = .run ∨ s.glb.st = .safe) ∧ s.die0Ready = true := by
  simp [State.readyOrRun, or_assoc]

/-! ## REPLAY (R752, R753, R757) -/

/-- What REPLAY comes to once the walk over its source has found the records x: the checks in their order. -/
def State.replayFrom (u : State) (b : Bool) (x : Walked) : State :=
  if x.bad ∨ x.recs.length < u.reh.rcount.toNat then u.rehRefuse 3
  else if !u.recordsOfCfg x.recs then u.rehRefuse 2
  else if !u.historyOk x.recs then u.rehRefuse 4
  else { u with reh := { u.reh with replay := some ⟨x.recs, x.confs, none, u.prec.ctrl, b, false, 0⟩ } }

theorem exec_rehReplay_owns {s : State} {p : Port} {b : Bool} (hp : s.owns p) : exec (.rehReplay p b) s = .next (
    if s.reh.busy then (s.rehTaken 3 b).rehRefuse 5
    else if s.glb.st ≠ .ready ∨ s.admittedCount ≠ 0 then (s.rehTaken 3 b).rehRefuse 1
    else
      let r := (s.rehTaken 3 b).walkRecords ((s.rehTaken 3 b).reh.rbase.toNat * 4096) ⟨[], [], false⟩
        (4 * (s.rehTaken 3 b).reh.rcount.toNat + 64)
      r.2.replayFrom b r.1) :=
  congrArg Host.Outcome.next (ownerOnly_owns hp)

section
variable {u : State} {b : Bool} {x : Walked}

theorem replayFrom_bad (h : x.bad = true ∨ x.recs.length < u.reh.rcount.toNat) : u.replayFrom b x = u.rehRefuse 3 := if_pos h

variable (hbad : x.bad = false) (hcount : u.reh.rcount.toNat ≤ x.recs.length)
include hbad hcount

theorem replayFrom_good : u.replayFrom b x = if !u.recordsOfCfg x.recs then u.rehRefuse 2
    else if !u.historyOk x.recs then u.rehRefuse 4
    else { u with reh := { u.reh with replay := some ⟨x.recs, x.confs, none, u.prec.ctrl, b, false, 0⟩ } } :=
  if_neg (not_or.mpr ⟨by rw [hbad]; exact Bool.false_ne_true, Nat.not_lt.mpr hcount⟩)

theorem replayFrom_otherCfg (hcfg : u.recordsOfCfg x.recs = false) : u.replayFrom b x = u.rehRefuse 2 :=
  (replayFrom_good hbad hcount).trans (if_pos (by rw [hcfg]; rfl))

theorem replayFrom_late (hcfg : u.recordsOfCfg x.recs = true) (hist : u.historyOk x.recs = false) : u.replayFrom b x = u.rehRefuse 4 :=
  (replayFrom_good hbad hcount).trans ((if_neg (by rw [hcfg]; exact Bool.false_ne_true)).trans (if_pos (by rw [hist]; rfl)))

theorem replayFrom_starts (hcfg : u.recordsOfCfg x.recs = true) (hist : u.historyOk x.recs = true) : u.replayFrom b x =
    { u with reh := { u.reh with replay := some ⟨x.recs, x.confs, none, u.prec.ctrl, b, false, 0⟩ } } :=
  (replayFrom_good hbad hcount).trans ((if_neg (by rw [hcfg]; exact Bool.false_ne_true)).trans
    (if_neg (by rw [hist]; exact Bool.false_ne_true)))

end

/-! ## The spill (R747 to R749) and the ends -/

theorem exec_rehSpill_begins {s : State} (hfrozen : s.reh.frozen = true) (hleft : s.reh.trigLeft = some 0) (hspill : s.reh.spilling = false) :
    exec .rehSpill s = .next ((s.modReh (fun h => { h with spilling := true })).modFlash (fun f => { f with spill := none })) :=
  congrArg Host.Outcome.next (if_pos ⟨hfrozen, hleft, by rw [hspill]; rfl⟩)

theorem exec_rehSpill_not {s : State} (h : s.reh.frozen = false ∨ s.reh.trigLeft ≠ some 0 ∨ s.reh.spilling = true) :
    exec .rehSpill s = .next s := by
  refine congrArg Host.Outcome.next (if_neg ?_)
  rintro ⟨hfrozen, hleft, hspill⟩
  obtain h | h | h := h
  · exact Bool.false_ne_true (h.symm.trans hfrozen)
  · exact h hleft
  · simp [h] at hspill

/-- The state at the end of a spill: the header and the records l in the flash, nothing frozen. -/
def State.spilled (u : State) (l : List (List Byte)) : State :=
  (u.modFlash (fun f => { f with spill := some (u.spillHeader l ++ l.flatMap id) })).modReh (fun h => { h with
    spilling := false, frozen := false, trigLeft := none, frozenLen := 0, frozenSkip := 0, spills := bump h.spills })

theorem spilled_end (u : State) (l : List (List Byte)) :
    (u.spilled l).upd.flash.spill = some (u.spillHeader l ++ l.flatMap id) ∧ (u.spilled l).reh.spilling = false ∧
    (u.spilled l).reh.frozen = false ∧ (u.spilled l).reh.trigLeft = none ∧ (u.spilled l).reh.spills = bump u.reh.spills :=
  ⟨rfl, rfl, rfl, rfl, rfl⟩

theorem exec_rehSpilled_spilling {s u : State} {l : List (List Byte)} (h : s.reh.spilling = true)
    (hread : (l, u) = s.readEntries ((s.reh.ring.drop s.reh.frozenSkip).take s.reh.frozenLen).reverse) :
    exec .rehSpilled s = .next ((u.spilled l).raise 0xA002 (some l.length)) := by
  refine congrArg Host.Outcome.next ((if_pos h).trans ?_)
  rw [← hread]
  rfl

theorem exec_rehSpilled_not {s : State} (h : s.reh.spilling = false) : exec .rehSpilled s = .next s :=
  congrArg Host.Outcome.next (if_neg (by rw [h]; exact Bool.false_ne_true))

/-- The copy of the spill area at REH_RDBASE, where a stack lies there. -/
def State.readoutCopy (s : State) : State :=
  if (s.place (s.reh.rdbase.toNat * 4096)).isStack then s.writeDev (s.reh.rdbase.toNat * 4096) s.upd.flash.spillArea else s

theorem exec_readoutDone_reading {s : State} (h : s.reh.reading = true) :
    exec .readoutDone s = .next ((s.readoutCopy.modReh (fun h => { h with reading := false })).raise 0xA002 (some 0)) :=
  congrArg Host.Outcome.next (if_pos h)

theorem readoutCopy_stack {s : State} (h : (s.place (s.reh.rdbase.toNat * 4096)).isStack = true) :
    s.readoutCopy.mem = Tab.setRange memDefault s.mem (s.reh.rdbase.toNat * 4096) s.upd.flash.spillArea ∧ s.readoutCopy.tick = s.tick := by
  obtain ⟨hmem, hframe⟩ := writeDev_only s (s.reh.rdbase.toNat * 4096) s.upd.flash.spillArea
  rw [State.readoutCopy, if_pos h]
  exact ⟨hmem, (congrArg State.tick hframe :)⟩

theorem readoutCopy_none {s : State} (h : (s.place (s.reh.rdbase.toNat * 4096)).isStack = false) : s.readoutCopy = s :=
  if_neg (by rw [h]; exact Bool.false_ne_true)

/-- The device back in READY at the end of a replay: its slots dropped, the step that is requested, the next cue exempt. -/
def State.replayOver (s : State) : State :=
  let s := s.dropSlots.modReh (fun h => { h with replay := none })
  ({ s with glb := { s.glb with st := .ready, aclkStep := BitVec.ofNat 2 s.reqStep } } : State).modPwr (fun p => { p with exempt := true })

theorem exec_replayDone_replays {s : State} {x : ReplaySt} (h : s.reh.replay = some x) : exec .replayDone s = .next (
    if !x.recs.isEmpty ∨ s.tick.running.isSome ∨ !s.tick.held.isEmpty then s
    else s.replayOver.raise 0xA006 (some x.mismatches.toNat)) := by
  refine congrArg Host.Outcome.next ?_
  rw [h]
  rfl

theorem exec_replayDone_none {s : State} (h : s.reh.replay = none) : exec .replayDone s = .next s := by
  refine congrArg Host.Outcome.next ?_
  rw [h]

/-- Settles O55: the three commands by their refusals, the spill, and the ends of a readout and of a replay. -/
theorem rehearsalCommands : Obligations.RehearsalCommands := by
  refine ⟨fun s w p b hp => ⟨fun hw => ?trigger, fun hw => ?readout, fun hw => ?replay⟩,
    fun s => ⟨fun hfrozen hleft hspill => ⟨_, exec_rehSpill_begins hfrozen hleft hspill, rfl, rfl, rfl, rfl⟩, exec_rehSpill_not,
      exec_rehSpilled_not, fun hspill l u hread => ⟨_, _, exec_rehSpilled_spilling hspill hread, rfl, spilled_end u l⟩,
      fun hread => congrArg Host.Outcome.next (if_neg (by rw [hread]; exact Bool.false_ne_true)), fun hread hstack => ?copied, fun hread hno => ?notCopied,
      exec_replayDone_none, fun x hx hgoes => ?replaying, fun x hx hrecs hrun hheld => ?replayEnds⟩⟩
  case trigger =>
    obtain rfl : w = s.rehTaken 1 b := hw
    have hexec := exec_trigger_owns (b := b) hp
    have hfree : s.reh.busy = false → exec (.trigger p b) s =
        .next ((s.rehTaken 1 b).rehTrigger (word (0xFFFF0000 + (Config.triggerSource 1).toNat))) :=
      fun hbusy => hexec.trans (congrArg Host.Outcome.next (if_neg (by rw [hbusy]; exact Bool.false_ne_true)))
    exact ⟨fun hbusy => hexec.trans (congrArg Host.Outcome.next (if_pos hbusy)),
      fun hbusy hen => (hfree hbusy).trans (congrArg Host.Outcome.next (rehTrigger_off hen)),
      fun hbusy hen hheld => (hfree hbusy).trans (congrArg Host.Outcome.next (rehTrigger_lost hen hheld)),
      fun hbusy hen hfrozen hspill => ⟨_, hfree hbusy, rehTrigger_freezes (s := s.rehTaken 1 b) hen hfrozen hspill⟩⟩
  case readout =>
    obtain rfl : w = s.rehTaken 2 b := hw
    have hexec := exec_readout_owns (b := b) hp
    have hidle : s.reh.busy = false → ¬s.reh.busy = true := fun hbusy => by rw [hbusy]; exact Bool.false_ne_true
    refine ⟨fun hbusy => hexec.trans (congrArg Host.Outcome.next (if_pos hbusy)), fun hbusy hst hdie => ?_, fun hbusy hno => ?_⟩
    · exact hexec.trans (congrArg Host.Outcome.next ((if_neg (hidle hbusy)).trans (if_pos ((readoutRuns_iff s).mpr ⟨hst, hdie⟩))))
    · refine hexec.trans (congrArg Host.Outcome.next ((if_neg (hidle hbusy)).trans (if_neg fun hruns => ?_)))
      obtain ⟨hst, hdie⟩ := (readoutRuns_iff s).mp hruns
      obtain ⟨hready, hrun, hsafe⟩ | hdead := hno
      · exact hst.elim hready fun h => h.elim hrun hsafe
      · exact Bool.false_ne_true (hdead.symm.trans hdie)
  case replay =>
    obtain rfl : w = s.rehTaken 3 b := hw
    have hexec := exec_rehReplay_owns (b := b) hp
    have hidle : s.reh.busy = false → ¬s.reh.busy = true := fun hbusy => by rw [hbusy]; exact Bool.false_ne_true
    refine ⟨fun hbusy => hexec.trans (congrArg Host.Outcome.next (if_pos hbusy)),
      fun hbusy hno => hexec.trans (congrArg Host.Outcome.next ((if_neg (hidle hbusy)).trans (if_pos hno))), fun hbusy hst hadm x u hwalk => ?_⟩
    have hrun : exec (.rehReplay p b) s = .next (u.replayFrom b x) := by
      refine hexec.trans (congrArg Host.Outcome.next ((if_neg (hidle hbusy)).trans ((if_neg ?_).trans ?_)))
      · exact not_or.mpr ⟨not_not_intro hst, not_not_intro hadm⟩
      · dsimp only
        rw [← hwalk]
    exact ⟨fun hbad => hrun.trans (congrArg Host.Outcome.next (replayFrom_bad hbad)), fun hbad hcount =>
      ⟨fun hcfg => hrun.trans (congrArg Host.Outcome.next (replayFrom_otherCfg hbad hcount hcfg)),
        fun hcfg hist => hrun.trans (congrArg Host.Outcome.next (replayFrom_late hbad hcount hcfg hist)),
        fun hcfg hist => hrun.trans (congrArg Host.Outcome.next (replayFrom_starts hbad hcount hcfg hist))⟩⟩
  case copied =>
    obtain ⟨hmem, htick⟩ := readoutCopy_stack hstack
    exact ⟨_, _, exec_readoutDone_reading hread, rfl, hmem, rfl, htick⟩
  case notCopied =>
    rw [exec_readoutDone_reading hread, readoutCopy_none hno]
    rfl
  case replaying =>
    refine (exec_replayDone_replays hx).trans (congrArg Host.Outcome.next (if_pos ?_))
    simpa [Option.isSome_iff_ne_none] using hgoes
  case replayEnds =>
    refine ⟨_, s.replayOver, (exec_replayDone_replays hx).trans (congrArg Host.Outcome.next (if_neg ?_)), rfl, rfl, rfl⟩
    simp [hrecs, hrun, hheld]

end Sys2Proof.Machine
end
section
/-! Package reductions and verdicts (04, R160, R162; 07, R298 to R306, R316 to R319; 09, R455 to R459): one rule for each way that
PACKAGE_REDUCTION and VERDICT go, over what a verdict leaves of the precision controller. -/

namespace Sys2Proof.Machine

/-! ## PACKAGE_REDUCTION (R162, R298 to R300, R801) -/

section
variable {o : BitVec 16} {s : State}

theorem exec_packageReduction_unready (h : (s.invAt o.toNat).cores = [] ∨ (s.invAt o.toNat).parts ≤ (s.invAt o.toNat).reds.length ∨
    (s.invAt o.toNat).reportedAll (s.invAt o.toNat).reds.length = false ∨ s.tickLive = false) :
    exec (.packageReduction o) s = .next s := by
  refine congrArg Host.Outcome.next (if_pos ?_)
  simpa [List.isEmpty_iff] using h

/-- A due reduction adds the next part's to the invocation and, in a coded layer, notes the width in the layer. -/
theorem exec_packageReduction_due (hcores : (s.invAt o.toNat).cores ≠ [])
    (hparts : (s.invAt o.toNat).reds.length < (s.invAt o.toNat).parts)
    (hall : (s.invAt o.toNat).reportedAll (s.invAt o.toNat).reds.length = true) (hlive : s.tickLive = true) :
    ∃ (recip : Word) (g : LayerSt → LayerSt),
      let x := s.invAt o.toNat
      let d : LayerDesc := x.desc
      let amax := x.amax x.reds.length
      let w := s.outWidth d amax
      exec (.packageReduction o) s = .next ((s.modInv o.toNat (fun x => { x with reds := x.reds ++
        [⟨amax, (⟨w, d.osign, if d.osign then 0 else d.ozp, amax, 0, d.rnd⟩ : OutForm).sT, recip, BitVec.ofNat 5 w⟩] })).modLayer x.lix.toNat g) := by
  refine ⟨_, _, congrArg Host.Outcome.next (if_neg ?_)⟩
  simp [List.isEmpty_iff, hcores, hparts, hall, hlive]

end

/-! ## An output that stands (R303, R305) -/

/-- It decides the verdict and may move the layer's mean; nothing else. -/
theorem stand_prec (s : State) (o : Nat) : ∃ ls : Tab LayerSt,
    s.stand o = { s with prec := { s.prec with invs := Tab.upd .reset s.prec.invs o (fun x => { x with decided := true }), layers := ls } } ∧
    ∀ j, ∃ m, Tab.get .reset ls j = { s.layerAt j with mean := m } := by
  unfold State.stand
  dsimp only
  split
  · exact ⟨s.prec.layers, rfl, fun j => ⟨(s.layerAt j).mean, rfl⟩⟩
  · refine ⟨_, rfl, fun j => ?_⟩
    rw [tab_get_upd]
    split
    · next h => subst h; split <;> exact ⟨_, rfl⟩
    · exact ⟨_, rfl⟩

theorem invAt_stand_decided (s : State) (o : Nat) : ((s.stand o).invAt o).decided = true := by
  obtain ⟨ls, h, _⟩ := stand_prec s o
  rw [h]
  simp [State.invAt]

section
variable (s : State) (o : Nat)

@[simp] theorem stand_used : (s.stand o).prec.used = s.prec.used := by obtain ⟨ls, h, _⟩ := stand_prec s o; rw [h]
@[simp] theorem stand_squash : (s.stand o).prec.squash = s.prec.squash := by obtain ⟨ls, h, _⟩ := stand_prec s o; rw [h]
@[simp] theorem stand_withheld : (s.stand o).prec.withheld = s.prec.withheld := by obtain ⟨ls, h, _⟩ := stand_prec s o; rw [h]
@[simp] theorem stand_trips : (s.stand o).prec.trips = s.prec.trips := by obtain ⟨ls, h, _⟩ := stand_prec s o; rw [h]
@[simp] theorem stand_rerunTrip : (s.stand o).prec.rerunTrip = s.prec.rerunTrip := by obtain ⟨ls, h, _⟩ := stand_prec s o; rw [h]
@[simp] theorem stand_widest : (s.stand o).prec.widest = s.prec.widest := by obtain ⟨ls, h, _⟩ := stand_prec s o; rw [h]

theorem layerAt_stand (j : Nat) : ∃ m, (s.stand o).layerAt j = { s.layerAt j with mean := m } := by
  obtain ⟨ls, h, hm⟩ := stand_prec s o
  rw [h]
  exact hm j

end

/-! ## The trips that a step keeps -/

/-- The count of trips, and what each layer notes of them. -/
def SameTrips (u t : State) : Prop :=
  t.prec.trips = u.prec.trips ∧ ∀ j, (t.layerAt j).trips = (u.layerAt j).trips ∧ (t.layerAt j).trippedTick = (u.layerAt j).trippedTick

theorem SameTrips.trans {u v t : State} (h : SameTrips u v) (k : SameTrips v t) : SameTrips u t := by
  obtain ⟨hn, hl⟩ := h
  obtain ⟨kn, kl⟩ := k
  exact ⟨kn.trans hn, fun j => ⟨(kl j).1.trans (hl j).1, (kl j).2.trans (hl j).2⟩⟩

theorem sameTrips_of_prec {u t : State} (hn : t.prec.trips = u.prec.trips) (hl : t.prec.layers = u.prec.layers) : SameTrips u t :=
  ⟨hn, fun j => by unfold State.layerAt; rw [hl]; exact ⟨rfl, rfl⟩⟩

theorem sameTrips_stand (u : State) (o : Nat) : SameTrips u (u.stand o) := by
  refine ⟨stand_trips u o, fun j => ?_⟩
  obtain ⟨m, h⟩ := layerAt_stand u o j
  rw [h]
  exact ⟨rfl, rfl⟩

/-! ## The budget (R316 to R319) -/

/-- Every slot of the invocation is withheld already. -/
def State.allWithheld (s : State) (o : Nat) : Prop :=
  s.invSlots o ≠ [] ∧ (s.invSlots o).all (fun i => s.prec.withheld.getLsbD i) = true

/-- The charge of a re-run. -/
def State.rerunCharge (s : State) (d : LayerDesc) (promptOnly : Bool) : Nat :=
  ((if promptOnly then d.prc else d.wrc) + d.rac) * s.aclkThirds

section
variable {u : State} {o : Nat} {only : Bool}

theorem askRerun_withheld (h : u.allWithheld o) : u.askRerun o only = u.stand o := if_pos h

theorem askRerun_affordable (h : ¬u.allWithheld o) (hc : u.affords (u.rerunCharge (u.invAt o).desc only) = true) :
    u.askRerun o only = u.grant o (u.rerunCharge (u.invAt o).desc only) only :=
  (if_neg h).trans (if_pos hc)

theorem askRerun_unaffordable (h : ¬u.allWithheld o) (hc : u.affords (u.rerunCharge (u.invAt o).desc only) = false) :
    u.askRerun o only = u.refuse o :=
  (if_neg h).trans (if_neg (by rw [State.rerunCharge] at hc; simp [hc]))

end

/-- A granted re-run charges the budget, marks the invocation and starts the squash. -/
theorem grant_prec (u : State) (o c : Nat) (only : Bool) : ∃ (b : Bool) (n : Word), (u.grant o c only).prec = { u.prec with
    used := u.prec.used + c, reruns := bump u.prec.reruns, stretched := b, stretchedN := n, squash := some o,
    invs := Tab.upd .reset u.prec.invs o (fun x => { x with rerun := true, promptOff := only }) } := by
  unfold State.grant State.startSquash
  dsimp only
  split
  · exact ⟨true, bump u.prec.stretchedN, by simp⟩
  · exact ⟨u.prec.stretched, u.prec.stretchedN, rfl⟩

theorem sameTrips_grant (u : State) (o c : Nat) (only : Bool) : SameTrips u (u.grant o c only) := by
  obtain ⟨b, n, h⟩ := grant_prec u o c only
  exact sameTrips_of_prec (by rw [h]) (by rw [h])

@[simp] theorem slotFault_prec (u : State) (m : BitVec 256) : (u.slotFault m).prec = u.prec := by
  unfold State.slotFault; split <;> rfl

/-- The slots of an invocation that are not withheld yet. -/
def State.freshSlots (u : State) (o : Nat) : List Nat := (u.invSlots o).filter (fun i => !u.prec.withheld.getLsbD i)

/-- A refusal withholds the fresh slots and marks the layer; then the output stands. -/
theorem refuse_stands (u : State) (o : Nat) : ∃ (v : State) (n : Word) (b : Bool), u.refuse o = v.stand o ∧ v.prec = { u.prec with
    withheld := u.prec.withheld ||| BitVec.ofNat 256 (((u.freshSlots o).map (fun i => 2 ^ i)).sum), withheldN := n,
    layers := Tab.upd .reset u.prec.layers (LayerDesc.lix (u.invAt o).desc) (fun l => { l with
      refusedTick := true, withheldTick := l.withheldTick || b }) } := by
  refine ⟨_, bump u.prec.withheldN (u.freshSlots o).length, !(u.freshSlots o).isEmpty, rfl, ?_⟩
  split
  · simp [State.freshSlots]
  · simp [State.freshSlots]

theorem sameTrips_refuse (u : State) (o : Nat) : SameTrips u (u.refuse o) := by
  obtain ⟨v, n, b, h, hv⟩ := refuse_stands u o
  rw [h]
  refine SameTrips.trans ⟨by rw [hv], fun j => ?_⟩ (sameTrips_stand v o)
  unfold State.layerAt
  rw [hv, tab_get_upd]
  split
  · next h => subst h; exact ⟨rfl, rfl⟩
  · exact ⟨rfl, rfl⟩

theorem refusedTick_refuse (u : State) (o : Nat) :
    ((u.refuse o).layerAt (LayerDesc.lix (u.invAt o).desc)).refusedTick = true := by
  obtain ⟨v, n, b, h, hv⟩ := refuse_stands u o
  obtain ⟨m, hm⟩ := layerAt_stand v o (LayerDesc.lix (u.invAt o).desc)
  rw [h, hm]
  unfold State.layerAt
  rw [hv, Tab.get_upd_same]

theorem sameTrips_askRerun (u : State) (o : Nat) (only : Bool) : SameTrips u (u.askRerun o only) := by
  by_cases hw : u.allWithheld o
  · rw [askRerun_withheld hw]; exact sameTrips_stand u o
  · cases hc : u.affords (u.rerunCharge (u.invAt o).desc only) with
    | true => rw [askRerun_affordable hw hc]; exact sameTrips_grant ..
    | false => rw [askRerun_unaffordable hw hc]; exact sameTrips_refuse ..

/-! ## A due verdict up to its decision (R301 to R307) -/

/-- The state in which a due verdict is decided: the refreshes of its invocation are counted, and a first finite norm is the layer's
mean. -/
def State.judging (s : State) (o : Nat) : State :=
  let x := s.invAt o
  let d : LayerDesc := x.desc
  let fresh := if d.dlt then ((s.invSlots o).filter (fun i => !(s.slot i).kind || decide (s.stepOf i % d.drn = 0))).length else 0
  let v := s.modPrec (fun p => { p with deltaRefresh := bump p.deltaRefresh fresh })
  match (s.layerAt d.lix).meanSet, x.totals.norm1 with
  | false, some n => v.modLayer d.lix (fun l => { l with meanSet := true, mean := n })
  | _, _ => v

/-- The trip of the watches `t` is counted and marked in layer i, with event 0x2200 at the layer's first one in the tick. -/
def State.countTrip (v : State) (i : Nat) (t : BitVec 5) (again : Bool) : State :=
  let v := v.modPrec (fun p => { p with trips := bump p.trips })
  let v := v.modLayer i (fun l => { l with trips := l.trips ||| t, trippedTick := true })
  if again then v else v.raise 0x2200

/-- What a verdict leaves of the precision controller until it is decided, and what the decision asks of the rest of the state. -/
structure Undecided (s u : State) : Prop where
  invs : u.prec.invs = s.prec.invs
  used : u.prec.used = s.prec.used
  squash : u.prec.squash = s.prec.squash
  withheld : u.prec.withheld = s.prec.withheld
  reruns : u.prec.reruns = s.prec.reruns
  rerunTrip : u.prec.rerunTrip = s.prec.rerunTrip
  widest : u.prec.widest = s.prec.widest
  rrbForce : u.prec.rrbForce = s.prec.rrbForce
  ctrl : u.prec.ctrl = s.prec.ctrl
  tick : u.tick = s.tick
  cfg : u.cfg = s.cfg
  glb : u.glb = s.glb
  replay : u.reh.replay = s.reh.replay
  widenings : ∀ j, (u.layerAt j).widenings = (s.layerAt j).widenings

theorem undecided_judging (s : State) (o : Nat) : Undecided s (s.judging o) := by
  unfold State.judging
  dsimp only
  split
  · refine { invs := rfl, used := rfl, squash := rfl, withheld := rfl, reruns := rfl, rerunTrip := rfl, widest := rfl, rrbForce := rfl,
             ctrl := rfl, tick := rfl, cfg := rfl, glb := rfl, replay := rfl, widenings := fun j => ?_ }
    rw [layerAt_modLayer]
    split
    · next h => subst h; rfl
    · rfl
  · constructor <;> intros <;> rfl

theorem countTrip_eventOnly (v : State) (i : Nat) (t : BitVec 5) (again : Bool) : EventOnly
    ((v.modPrec (fun p => { p with trips := bump p.trips })).modLayer i (fun l => { l with trips := l.trips ||| t, trippedTick := true }))
    (v.countTrip i t again) := by
  unfold State.countTrip
  dsimp only
  split
  · exact .refl _
  · exact raise_eventOnly ..

theorem undecided_countTrip {s v : State} (h : Undecided s v) (i : Nat) (t : BitVec 5) (again : Bool) :
    Undecided s (v.countTrip i t again) := by
  have he := countTrip_eventOnly v i t again
  refine { invs := ?_, used := ?_, squash := ?_, withheld := ?_, reruns := ?_, rerunTrip := ?_, widest := ?_, rrbForce := ?_, ctrl := ?_,
           tick := he.tick.trans h.tick, cfg := he.cfg.trans h.cfg, glb := he.glb.trans h.glb,
           replay := he.reh_replay.trans h.replay, widenings := ?widenings }
  case widenings =>
    refine fun j => Eq.trans ?_ (h.widenings j)
    unfold State.layerAt
    rw [he.prec]
    show (State.layerAt _ j).widenings = (v.layerAt j).widenings
    rw [layerAt_modLayer]
    split
    · next hj => subst hj; rfl
    · rfl
  all_goals rw [he.prec]
  · exact h.invs
  · exact h.used
  · exact h.squash
  · exact h.withheld
  · exact h.reruns
  · exact h.rerunTrip
  · exact h.widest
  · exact h.rrbForce
  · exact h.ctrl

namespace Undecided
variable {s u : State} (h : Undecided s u)
include h

theorem invAt (o : Nat) : u.invAt o = s.invAt o := by unfold State.invAt; rw [h.invs]

theorem watchEnabled : u.watchEnabled = s.watchEnabled := by
  unfold State.watchEnabled State.precCtrl; rw [h.replay, h.ctrl]

theorem baseForm (d : LayerDesc) : u.baseForm d = s.baseForm d := by unfold State.baseForm; rw [h.widenings]

theorem invSlots (o : Nat) : u.invSlots o = s.invSlots o := by unfold State.invSlots State.slotsOf; rw [h.cfg, h.tick]

theorem allWithheld (o : Nat) : u.allWithheld o ↔ s.allWithheld o := by unfold State.allWithheld; rw [h.invSlots, h.withheld]

theorem freshSlots (o : Nat) : u.freshSlots o = s.freshSlots o := by unfold State.freshSlots; rw [h.invSlots, h.withheld]

theorem affords (c : Nat) : u.affords c = s.affords c := by unfold State.affords; rw [h.used, h.tick, h.rrbForce]

theorem rerunCharge (d : LayerDesc) (only : Bool) : u.rerunCharge d only = s.rerunCharge d only := by
  unfold State.rerunCharge State.aclkThirds; rw [h.glb]

end Undecided

/-! ## The decision (R301 to R320) -/

/-- The watches that a verdict finds tripped. -/
def State.verdictTrips (s : State) (o : Nat) : BitVec 5 :=
  trips (s.invAt o).desc (s.layerAt (LayerDesc.lix (s.invAt o).desc)) (s.invAt o)

/-- The state in which a verdict with a trip is decided. -/
def State.tripped (s : State) (o : Nat) : State :=
  let d : LayerDesc := (s.invAt o).desc
  (s.judging o).countTrip d.lix (s.verdictTrips o) (s.layerAt d.lix).trippedTick

/-- The form in which an invocation runs. -/
def State.invForm (s : State) (o : Nat) : Form := { s.baseForm (s.invAt o).desc with aw := (s.invAt o).aw.toNat }

/-- The decision of a due verdict. -/
def State.decideVerdict (s : State) (o : Nat) : State :=
  let x := s.invAt o
  let v := s.judging o
  let u := s.tripped o
  let form := { u.baseForm x.desc with aw := x.aw.toNat }
  if s.verdictTrips o = 0 then if x.muOver ∧ v.watchEnabled then v.askRerun o true else v.stand o
  else if x.rerun then ((u.modPrec (fun p => { p with rerunTrip := bump p.rerunTrip })).raise 0x2204).stand o
  else if widen x.desc form = form then ((u.modPrec (fun p => { p with widest := bump p.widest })).raise 0x2205).stand o
  else if !v.watchEnabled then u.stand o
  else u.askRerun o false

section
variable {o : BitVec 16} {s : State}

theorem exec_verdict_undue (h : s.verdictDue o.toNat = false) : exec (.verdict o) s = .next s :=
  congrArg Host.Outcome.next (if_pos (by simp [h]))

theorem exec_verdict_due (h : s.verdictDue o.toNat = true) : exec (.verdict o) s = .next (s.decideVerdict o.toNat) := by
  show execVerdict o s = _
  simp only [execVerdict, h, Bool.not_true, Bool.false_eq_true, if_false, Bool.decide_eq_true]
  rfl

end

section
variable (s : State) (o : Nat)

theorem undecided_tripped : Undecided s (s.tripped o) := undecided_countTrip (undecided_judging s o) _ _ _

variable {s o}

theorem decideVerdict_untripped_stands (h : s.verdictTrips o = 0) (hmu : ¬((s.invAt o).muOver = true ∧ s.watchEnabled = true)) :
    s.decideVerdict o = (s.judging o).stand o := by
  simp only [State.decideVerdict, if_pos h, (undecided_judging s o).watchEnabled, if_neg hmu]

theorem decideVerdict_untripped_asks (h : s.verdictTrips o = 0) (hmu : (s.invAt o).muOver = true) (hw : s.watchEnabled = true) :
    s.decideVerdict o = (s.judging o).askRerun o true := by
  simp only [State.decideVerdict, if_pos h, (undecided_judging s o).watchEnabled, hmu, hw, and_self, if_true]

variable (h : s.verdictTrips o ≠ 0)
include h

theorem decideVerdict_tripped_again (hr : (s.invAt o).rerun = true) : s.decideVerdict o =
    (((s.tripped o).modPrec (fun p => { p with rerunTrip := bump p.rerunTrip })).raise 0x2204).stand o := by
  simp only [State.decideVerdict, if_neg h, hr, if_true]

variable (hr : (s.invAt o).rerun = false)
include hr

theorem decideVerdict_widest (hwide : widen (s.invAt o).desc (s.invForm o) = s.invForm o) : s.decideVerdict o =
    (((s.tripped o).modPrec (fun p => { p with widest := bump p.widest })).raise 0x2205).stand o := by
  rw [State.invForm] at hwide
  simp only [State.decideVerdict, if_neg h, hr, Bool.false_eq_true, if_false, (undecided_tripped s o).baseForm, hwide, if_true]

variable (hwide : widen (s.invAt o).desc (s.invForm o) ≠ s.invForm o)
include hwide

theorem decideVerdict_unwatched (hw : s.watchEnabled = false) : s.decideVerdict o = (s.tripped o).stand o := by
  rw [State.invForm] at hwide
  simp only [State.decideVerdict, if_neg h, hr, Bool.false_eq_true, if_false, (undecided_tripped s o).baseForm, if_neg hwide,
    (undecided_judging s o).watchEnabled, hw, Bool.not_false, if_true]

theorem decideVerdict_tripped_asks (hw : s.watchEnabled = true) : s.decideVerdict o = (s.tripped o).askRerun o false := by
  rw [State.invForm] at hwide
  simp only [State.decideVerdict, if_neg h, hr, Bool.false_eq_true, if_false, (undecided_tripped s o).baseForm, if_neg hwide,
    (undecided_judging s o).watchEnabled, hw, Bool.not_true]

end

theorem squash_of_verdictDue {s : State} {o : Nat} (h : s.verdictDue o = true) : s.prec.squash = none := by
  simp only [State.verdictDue, Bool.and_eq_true, Option.isNone_iff_eq_none] at h
  obtain ⟨⟨⟨⟨⟨⟨⟨-, h⟩, -⟩, -⟩, -⟩, -⟩, -⟩, -⟩ := h
  exact h

/-- The budget decides on the re-run of an invocation that calls for one, tripped or with a make-up excess. -/
theorem decideVerdict_asks {s : State} {o : Nat}
    (ht : s.verdictTrips o ≠ 0 → (s.invAt o).rerun = false ∧ widen (s.invAt o).desc (s.invForm o) ≠ s.invForm o)
    (hmu : s.verdictTrips o = 0 → (s.invAt o).muOver = true) (hw : s.watchEnabled = true) :
    ∃ u, Undecided s u ∧ s.decideVerdict o = u.askRerun o (decide (s.verdictTrips o = 0)) := by
  by_cases h : s.verdictTrips o = 0
  · exact ⟨_, undecided_judging s o, by rw [decideVerdict_untripped_asks h (hmu h) hw, decide_eq_true h]⟩
  · obtain ⟨hr, hwide⟩ := ht h
    exact ⟨_, undecided_tripped s o, by rw [decideVerdict_tripped_asks h hr hwide hw, decide_eq_false h]⟩

/-- A verdict with a trip counts it once and marks it in the layer, whatever is decided. -/
theorem sameTrips_decideVerdict {s : State} {o : Nat} (h : s.verdictTrips o ≠ 0) : SameTrips (s.tripped o) (s.decideVerdict o) := by
  have hmod : ∀ (f : PrecSt → PrecSt) (code : Nat), (∀ p, (f p).trips = p.trips) → (∀ p, (f p).layers = p.layers) →
      SameTrips (s.tripped o) ((((s.tripped o).modPrec f).raise code).stand o) := fun f code hn hl =>
    (sameTrips_of_prec (by rw [raise_prec]; exact hn _) (by rw [raise_prec]; exact hl _)).trans (sameTrips_stand ..)
  cases hr : (s.invAt o).rerun with
  | true => rw [decideVerdict_tripped_again h hr]; exact hmod _ _ (fun _ => rfl) (fun _ => rfl)
  | false =>
    by_cases hwide : widen (s.invAt o).desc (s.invForm o) = s.invForm o
    · rw [decideVerdict_widest h hr hwide]; exact hmod _ _ (fun _ => rfl) (fun _ => rfl)
    · cases hw : s.watchEnabled with
      | false => rw [decideVerdict_unwatched h hr hwide hw]; exact sameTrips_stand ..
      | true => rw [decideVerdict_tripped_asks h hr hwide hw]; exact sameTrips_askRerun ..

theorem trips_judging (s : State) (o : Nat) : (s.judging o).prec.trips = s.prec.trips ∧
    ((s.judging o).layerAt (LayerDesc.lix (s.invAt o).desc)).trips = (s.layerAt (LayerDesc.lix (s.invAt o).desc)).trips := by
  unfold State.judging
  dsimp only
  split
  · exact ⟨rfl, by rw [State.layerAt_modLayer]; rfl⟩
  · exact ⟨rfl, rfl⟩

theorem trips_tripped (s : State) (o : Nat) : (s.tripped o).prec.trips = bump s.prec.trips ∧
    ((s.tripped o).layerAt (LayerDesc.lix (s.invAt o).desc)).trips =
      (s.layerAt (LayerDesc.lix (s.invAt o).desc)).trips ||| s.verdictTrips o ∧
    ((s.tripped o).layerAt (LayerDesc.lix (s.invAt o).desc)).trippedTick = true := by
  obtain ⟨hn, hl⟩ := trips_judging s o
  have he := (countTrip_eventOnly (s.judging o) (LayerDesc.lix (s.invAt o).desc) (s.verdictTrips o)
    (s.layerAt (LayerDesc.lix (s.invAt o).desc)).trippedTick).prec
  unfold State.layerAt at hl ⊢
  rw [State.tripped, he]
  simp [hn, hl]

/-- An output that stands in an undecided verdict is charged nothing. -/
theorem stand_of_undecided {s u : State} {o : Nat} (hu : Undecided s u) (hnone : s.prec.squash = none) :
    ((u.stand o).invAt o).decided = true ∧ (u.stand o).prec.used = s.prec.used ∧ (u.stand o).prec.squash = none :=
  ⟨invAt_stand_decided u o, (stand_used u o).trans hu.used, (stand_squash u o).trans (hu.squash.trans hnone)⟩

/-- Settles O34, from the rules for a reduction and for each decision of a verdict. -/
theorem reductionsAndVerdicts : Obligations.ReductionsAndVerdicts := by
  rintro o s x d rfl rfl
  refine ⟨?_, exec_packageReduction_unready, exec_verdict_undue, ?_⟩
  · rintro p rfl hcores hparts hall hlive
    obtain ⟨recip, g, h⟩ := exec_packageReduction_due hcores hparts hall hlive
    refine ⟨_, h, rfl, _, recip, rfl, ?_⟩
    simp [State.invAt]
  rintro hdue g f c only rfl rfl rfl rfl
  have hnone := squash_of_verdictDue hdue
  refine ⟨_, exec_verdict_due hdue, ?_, ?_, ?_, ?_, ?_, ?_⟩
  · rintro ⟨hg, hmu⟩
    rw [decideVerdict_untripped_stands hg hmu]
    have hu := undecided_judging s o.toNat
    obtain ⟨hdec, hused, hsq⟩ := stand_of_undecided (o := o.toNat) hu hnone
    exact ⟨hdec, hused, hsq, (stand_withheld ..).trans hu.withheld⟩
  · intro hg
    obtain ⟨hn, hl⟩ := sameTrips_decideVerdict hg
    obtain ⟨kn, kl, kt⟩ := trips_tripped s o.toNat
    exact ⟨hn.trans kn, (hl _).1.trans kl, (hl _).2.trans kt⟩
  · intro hg hr
    have hu := undecided_tripped s o.toNat
    refine ⟨_, decideVerdict_tripped_again hg hr, ?_⟩
    rw [decideVerdict_tripped_again hg hr]
    exact ⟨invAt_stand_decided .., by simp [hu.rerunTrip], by simp [hu.used], by simp [hu.squash, hnone]⟩
  · intro hg hr hwide
    have hu := undecided_tripped s o.toNat
    refine ⟨_, decideVerdict_widest hg hr hwide, ?_⟩
    rw [decideVerdict_widest hg hr hwide]
    exact ⟨invAt_stand_decided .., by simp [hu.widest], by simp [hu.used], by simp [hu.squash, hnone]⟩
  · intro hg hr hwide hw
    rw [decideVerdict_unwatched hg hr hwide hw]
    exact stand_of_undecided (undecided_tripped s o.toNat) hnone
  · intro ht hmu hw
    obtain ⟨u, hu, h⟩ := decideVerdict_asks ht hmu hw
    rw [h]
    refine ⟨fun hall => ?_, fun hnot hc => ?_, fun hnot hc => ?_⟩
    · rw [askRerun_withheld ((hu.allWithheld _).mpr hall)]
      exact stand_of_undecided hu hnone
    · have hcu : u.affords (u.rerunCharge (u.invAt o.toNat).desc (decide (s.verdictTrips o.toNat = 0))) = true := by
        rw [hu.invAt, hu.rerunCharge, hu.affords]; exact hc
      rw [askRerun_affordable (fun hall => hnot ((hu.allWithheld _).mp hall)) hcu]
      obtain ⟨b, n, hg⟩ := grant_prec u o.toNat (u.rerunCharge (u.invAt o.toNat).desc (decide (s.verdictTrips o.toNat = 0)))
        (decide (s.verdictTrips o.toNat = 0))
      unfold State.invAt at hg ⊢
      rw [hg, Tab.get_upd_same, ← State.invAt, hu.invAt, hu.rerunCharge, hu.used, hu.reruns]
      exact ⟨rfl, rfl, rfl, rfl, rfl⟩
    · have hcu : u.affords (u.rerunCharge (u.invAt o.toNat).desc (decide (s.verdictTrips o.toNat = 0))) = false := by
        rw [hu.invAt, hu.rerunCharge, hu.affords]; exact hc
      rw [askRerun_unaffordable (fun hall => hnot ((hu.allWithheld _).mp hall)) hcu]
      have hticked := refusedTick_refuse u o.toNat
      rw [hu.invAt] at hticked
      obtain ⟨v, n, b, hv, hp⟩ := refuse_stands u o.toNat
      rw [hv] at hticked ⊢
      refine ⟨by simp [hp, hu.used], by simp [hp, hu.squash, hnone], invAt_stand_decided .., hticked, ?_⟩
      rw [stand_withheld, hp, hu.withheld, hu.freshSlots]
      rfl

end Sys2Proof.Machine
end
section
/-! The matrix instructions (05, R205, R209, R236; 09, R417, R435 to R438, R458, R459): one rule for each way that they go, and what
their entry in the chain queue leaves. -/

namespace Sys2Proof.Machine

/-! ## The bound descriptor under which a core issues (R459, R464) -/

theorem last_modLast {s : State} {c : CoreId} {b : Bound} (hb : (s.seqAt c).bound.getLast? = some b) (f : Bound → Bound) :
    ((s.modLast c f).seqAt c).bound.getLast? = some (f b) := by
  obtain ⟨l, hl⟩ := List.getLast?_eq_some_iff.mp hb
  rw [State.modLast, State.seqAt_modSeq]
  simp [hl]

theorem pc_modLast (s : State) (c : CoreId) (f : Bound → Bound) : ((s.modLast c f).seqAt c).pc = (s.seqAt c).pc := by
  obtain ⟨l, h⟩ := seqAt_modLast s c f
  rw [h]

/-- A change of the newest bound invocation is one of the sequencer. -/
theorem coreAt_modLast (s : State) (c : CoreId) (f : Bound → Bound) :
    ∃ l, (s.modLast c f).coreAt c = { s.coreAt c with seq := { s.seqAt c with bound := l } } :=
  ⟨_, State.coreAt_modCore ..⟩

theorem coreAt_modSeq (s : State) (c : CoreId) (f : SeqSt → SeqSt) :
    (s.modSeq c f).coreAt c = { s.coreAt c with seq := f (s.seqAt c) } := State.coreAt_modCore ..

theorem coreAt_modInv (s : State) (o : Nat) (f : InvSt → InvSt) (c : CoreId) : (s.modInv o f).coreAt c = s.coreAt c := rfl

theorem bound_issued (s : State) (c : CoreId) : ((s.issued c).seqAt c).bound = (s.seqAt c).bound := by
  obtain ⟨t, rfl, _, _, x, hx, _, _, _, _, _, _, _, _, _, hbound, _⟩ := issued_at s c
  rw [hx, hbound]

theorem chainQ_issued (s : State) (c : CoreId) : ((s.issued c).coreAt c).chainQ = (s.coreAt c).chainQ := by
  obtain ⟨t, rfl, _, _, x, _, _, _, _, _, _, _, _, _, _, _, _, hcore⟩ := issued_at s c
  rw [hcore]

theorem seqAt_modSparse (s : State) (c : CoreId) (f : SparseSt → SparseSt) : (s.modSparse c f).seqAt c = s.seqAt c := by
  rw [State.seqAt, coreAt_modSparse, State.seqAt]

/-- The runs of a bound descriptor are all that an instruction opens there. -/
theorem openTile_frame (b : Bound) (ct : Nat) (half : Bool) (acbase tm : Nat) (acc : Bool) :
    ∃ l, b.openTile ct half acbase tm acc = { b with ranges := l } := by
  unfold Bound.openTile
  dsimp only
  split
  · exact ⟨b.ranges, rfl⟩
  · split
    · split
      · exact ⟨_, rfl⟩
      · exact ⟨_, rfl⟩
    · exact ⟨_, rfl⟩

theorem skips_eq_true {b : Bound} {half : Bool} (hsplit : b.split = true) (hhalf : half ≠ (b.part == 1)) : b.skips half = true := by
  simp [Bound.skips, hsplit, hhalf]

theorem skips_eq_false {b : Bound} {half : Bool} (h : b.split = false ∨ half = (b.part == 1)) : b.skips half = false := by
  rcases h with h | h <;> simp [Bound.skips, h]

/-! ## Entry in the chain queue (R254, R439, R442) -/

theorem take_sIn (b : Bound) (r : TRec) : (b.take r).sIn = if b.sIn = none then some r.sT else b.sIn := by
  unfold Bound.take
  split
  · next h => simp [h]
  · next h => simp [h]

theorem take_frame (b : Bound) (r : TRec) : ∃ x y, b.take r = { b with sIn := x, aw := y } := by
  unfold Bound.take
  split
  · exact ⟨_, _, rfl⟩
  · exact ⟨b.sIn, b.aw, rfl⟩

section
variable (b : Bound) (ct : Nat) (half : Bool) (acbase tm : Nat) (acc : Bool)

@[simp] theorem openTile_ord : (b.openTile ct half acbase tm acc).ord = b.ord := by
  obtain ⟨l, h⟩ := openTile_frame b ct half acbase tm acc; rw [h]
@[simp] theorem openTile_desc : (b.openTile ct half acbase tm acc).desc = b.desc := by
  obtain ⟨l, h⟩ := openTile_frame b ct half acbase tm acc; rw [h]
@[simp] theorem openTile_fast : (b.openTile ct half acbase tm acc).fast = b.fast := by
  obtain ⟨l, h⟩ := openTile_frame b ct half acbase tm acc; rw [h]
@[simp] theorem openTile_sIn : (b.openTile ct half acbase tm acc).sIn = b.sIn := by
  obtain ⟨l, h⟩ := openTile_frame b ct half acbase tm acc; rw [h]
@[simp] theorem openTile_nIn : (b.openTile ct half acbase tm acc).nIn = b.nIn := by
  obtain ⟨l, h⟩ := openTile_frame b ct half acbase tm acc; rw [h]

end

@[simp] theorem take_ord (b : Bound) (r : TRec) : (b.take r).ord = b.ord := by obtain ⟨x, y, h⟩ := take_frame b r; rw [h]
@[simp] theorem take_desc (b : Bound) (r : TRec) : (b.take r).desc = b.desc := by obtain ⟨x, y, h⟩ := take_frame b r; rw [h]

/-- A matrix instruction brings its operands into the chain queue, and into its bound descriptor the record and one more input tile. -/
theorem enqueueMatrix_eq (v : State) (c : CoreId) (w : DWord) (b : Bound) (td : TileDesc) (src : TileSrc) (r : TRec) :
    ∃ (o : ChainOp) (b' : Bound) (ord : Nat) (fi : InvSt → InvSt) (fs : SparseSt → SparseSt) (fq : SeqSt → SeqSt) (fe : CoreSt → List EuOp),
    v.enqueueMatrix c w b td src r = (((((v.modLast c (fun _ => b')).modInv ord fi).modSparse c fs).modSeq c fq).modCore c (fun k =>
      { k with chainQ := if bitsOf w 48 43 = 0 then k.chainQ else k.chainQ ++ [o], euQ := fe k })).issued c ∧
    (∀ q, (fq q).bound = q.bound ∧ (fq q).pc = q.pc) ∧
    (o.code = BitVec.ofNat 8 (opOf w) ∧ o.ord = b.ord ∧ o.acc = bitOf w.toNat 55 ∧ o.half = (bitOf w.toNat 54 && b.fast) ∧
      o.acbase = bitsOf w 53 49 ∧ o.tm = bitsOf w 48 43 ∧ o.bank = bitOf w.toNat 38 ∧ o.ct = (v.seqAt c).sreg (bitsOf w 37 33) ∧
      o.tile = td ∧ o.src = src ∧ o.aw = r.width ∧ o.sign = r.sign ∧ o.zp = r.zp ∧ o.started = false) ∧
    b'.nIn = b.nIn + 1 ∧ b'.ord = b.ord ∧ b'.desc = b.desc ∧ b'.sIn = (if b.sIn = none then some r.sT else b.sIn) := by
  refine ⟨_, _, _, _, _, _, _, rfl, fun q => ⟨rfl, rfl⟩, ⟨rfl, ?_, rfl, ?_, rfl, rfl, rfl, rfl, rfl, rfl, rfl, rfl, rfl, rfl⟩, ?_, ?_, ?_, ?_⟩
  · exact openTile_ord ..
  · exact congrArg (bitOf w.toNat 54 && ·) (openTile_fast ..)
  · exact congrArg (· + 1) (openTile_nIn ..)
  · exact (take_ord ..).trans (openTile_ord ..)
  · exact (take_desc ..).trans (openTile_desc ..)
  · exact (take_sIn ..).trans (by rw [openTile_sIn])

/-- What the entry in the chain queue leaves in the core. -/
theorem enqueueMatrix_at {v : State} {c : CoreId} {w : DWord} {b : Bound} (td : TileDesc) (src : TileSrc) (r : TRec)
    (hb : (v.seqAt c).bound.getLast? = some b) : ∃ (t : State) (o : ChainOp) (b' : Bound), v.enqueueMatrix c w b td src r = t ∧
    (t.coreAt c).chainQ = (if bitsOf w 48 43 = 0 then (v.coreAt c).chainQ else (v.coreAt c).chainQ ++ [o]) ∧
    (o.code = BitVec.ofNat 8 (opOf w) ∧ o.ord = b.ord ∧ o.acc = bitOf w.toNat 55 ∧ o.half = (bitOf w.toNat 54 && b.fast) ∧
      o.acbase = bitsOf w 53 49 ∧ o.tm = bitsOf w 48 43 ∧ o.bank = bitOf w.toNat 38 ∧ o.ct = (v.seqAt c).sreg (bitsOf w 37 33) ∧
      o.tile = td ∧ o.src = src ∧ o.aw = r.width ∧ o.sign = r.sign ∧ o.zp = r.zp ∧ o.started = false) ∧
    (t.seqAt c).bound.getLast? = some b' ∧
    (b'.nIn = b.nIn + 1 ∧ b'.ord = b.ord ∧ b'.desc = b.desc ∧ b'.sIn = (if b.sIn = none then some r.sT else b.sIn)) ∧
    (t.seqAt c).pc = (v.seqAt c).pc + 1 ∧ (t.seqAt c).state = 1 := by
  obtain ⟨o, b', ord, fi, fs, fq, fe, h, hq, ho, hb'⟩ := enqueueMatrix_eq v c w b td src r
  obtain ⟨bs, hbs⟩ := coreAt_modLast v c (fun _ => b')
  have hseq : (((v.modLast c (fun _ => b')).modInv ord fi).modSparse c fs).seqAt c = { v.seqAt c with bound := bs } :=
    (seqAt_modSparse ..).trans (congrArg CoreSt.seq hbs)
  have hcore := coreAt_modSeq (((v.modLast c (fun _ => b')).modInv ord fi).modSparse c fs) c fq
  rw [hseq, coreAt_modSparse, coreAt_modInv, hbs] at hcore
  have hlast := last_modLast hb (fun _ => b')
  rw [State.seqAt, hbs] at hlast
  refine ⟨_, o, b', h, ?_, ho, ?_, hb', ?_, state_issued ..⟩
  · rw [chainQ_issued, State.coreAt_modCore, hcore]
  · rw [bound_issued, State.seqAt, State.coreAt_modCore, hcore]
    exact (congrArg List.getLast? (hq _).1).trans hlast
  · rw [pc_issued, State.seqAt, State.coreAt_modCore, hcore]
    exact congrArg (· + 1) (hq _).2

/-! ## The course of a matrix instruction (R435 to R438) -/

section
variable {s : State} {c : CoreId}

/-- The six instructions take one course, each under its opcode and its PMODE. -/
theorem exec_matrix {e : Instr × Nat × Nat}
    (he : e ∈ [(Instr.mbp c, 0x30, 0), (.mxn c, 0x31, 1), (.msh1 c, 0x32, 2), (.msh2 c, 0x33, 3), (.mb24 c, 0x34, 4), (.msp c, 0x35, 0)])
    (hissue : s.issues c e.2.1 = true) : exec e.1 s = .next (s.matrix c (s.seqAt c).word e.2.2) := by
  simp only [List.mem_cons, List.not_mem_nil, or_false] at he
  rcases he with rfl | rfl | rfl | rfl | rfl | rfl
  all_goals exact congrArg Host.Outcome.next (runSeq_issues hissue)

theorem opOf_of_issues {op : Nat} (h : s.issues c op = true) : opOf (s.seqAt c).word = op := by
  simp only [State.issues, Bool.and_eq_true, decide_eq_true_eq] at h
  obtain ⟨⟨-, hop⟩, -⟩ := h
  exact hop

/-- A matrix instruction whose source stands: it asks for reach, for its accumulator entries, for room, for the record and the
correction table and for the scoreboard, in this order. -/
def State.matrixReads (s : State) (c : CoreId) (w : DWord) (b : Bound) (td : TileDesc) (src : TileSrc) : State :=
  if !td.ring && !(s.coreReach c td.addr && s.coreReach c (td.addr - 32)) then s.reachFault c
  else if (s.coreAt c).heldBy b.fast (b.half (bitOf w.toNat 54)) (bitsOf w 53 49) (bitsOf w 48 43) then s.holdWait c
  else if 4 ≤ ((s.coreAt c).chainQ.filter (fun o => !o.started)).length then s.waitAt c seqWaitQueue
  else match s.recordOf c td with
    | some r =>
      if !r.ok then s.inputFault c 0x2141
      else if LayerDesc.ctp b.desc ≠ 0 ∧ !s.corrHeaderOk b.desc then s.inputFault c 0x2140
      else s.withSb c [] [] (if td.ring then [] else s.sbRange (td.addr - 32) (32 + s.tileLen src))
        (fun v => v.enqueueMatrix c w b td src r)
    | none => s.inputFault c 0x2141

section
variable {w : DWord} {b : Bound} {mode : Nat} (hb : (s.seqAt c).bound.getLast? = some b)
include hb

theorem matrix_skips (h : b.skips (bitOf w.toNat 54) = true) :
    s.matrix c w mode = s.modSeq c (fun x => { x with state := 1, pc := x.pc + 1 }) := by
  have hlast : (s.seqAt c).last = some b := hb
  simp only [State.matrix, hlast, if_pos h]
  rfl

variable (hmine : b.skips (bitOf w.toNat 54) = false)
include hmine

theorem matrix_wrong_mode (h : LayerDesc.pmode b.desc ≠ mode) : s.matrix c w mode = s.seqStop c 0x2113 3 := by
  have hlast : (s.seqAt c).last = some b := hb
  simp only [State.matrix, hlast, hmine, Bool.false_eq_true, if_false, if_pos h]

variable (hmode : LayerDesc.pmode b.desc = mode)
include hmode

theorem matrix_beyond (h : 32 < bitsOf w 53 49 + bitsOf w 48 43) : s.matrix c w mode = s.ocvFault c 0x2151 1 := by
  have hlast : (s.seqAt c).last = some b := hb
  simp only [State.matrix, hlast, hmine, Bool.false_eq_true, if_false, hmode, ne_eq, not_true_eq_false, if_pos h]

variable (hrange : bitsOf w 53 49 + bitsOf w 48 43 ≤ 32)
include hrange

theorem matrix_other_format (hacc : bitOf w.toNat 55 = true)
    (h : (s.coreAt c).formatsFit b.fast (bitsOf w 53 49) (bitsOf w 48 43) = false) : s.matrix c w mode = s.ocvFault c 0x2150 0 := by
  have hlast : (s.seqAt c).last = some b := hb
  simp only [State.matrix, hlast, hmine, Bool.false_eq_true, if_false, hmode, ne_eq, not_true_eq_false, if_neg (Nat.not_lt.mpr hrange),
    hacc, h, Bool.not_false, and_self, if_true]

variable (hfits : bitOf w.toNat 55 = true → (s.coreAt c).formatsFit b.fast (bitsOf w 53 49) (bitsOf w 48 43) = true)
include hfits

theorem matrix_no_tile (h : s.inputTile c b ((s.seqAt c).treg (bitsOf w 42 39)) = none) :
    s.matrix c w mode = s.modSeq c (fun x => { x with state := 6 }) := by
  have hlast : (s.seqAt c).last = some b := hb
  have hfit : ¬(bitOf w.toNat 55 = true ∧ (!(s.coreAt c).formatsFit b.fast (bitsOf w 53 49) (bitsOf w 48 43)) = true) := by
    rintro ⟨hacc, hno⟩
    simp [hfits hacc] at hno
  simp only [State.matrix, hlast, hmine, Bool.false_eq_true, if_false, hmode, ne_eq, not_true_eq_false, if_neg (Nat.not_lt.mpr hrange),
    if_neg hfit, h]
  rfl

theorem matrix_reads {td : TileDesc} {src : TileSrc} (htd : s.inputTile c b ((s.seqAt c).treg (bitsOf w 42 39)) = some td)
    (hsrc : (s.source c td).tile = some src) : s.matrix c w mode = s.matrixReads c w b td src := by
  have hlast : (s.seqAt c).last = some b := hb
  have hfit : ¬(bitOf w.toNat 55 = true ∧ (!(s.coreAt c).formatsFit b.fast (bitsOf w 53 49) (bitsOf w 48 43)) = true) := by
    rintro ⟨hacc, hno⟩
    simp [hfits hacc] at hno
  simp only [State.matrix, hlast, hmine, Bool.false_eq_true, if_false, hmode, ne_eq, not_true_eq_false, if_neg (Nat.not_lt.mpr hrange),
    if_neg hfit, htd]
  obtain ⟨a, ha⟩ | ⟨d, q, p, len, ha⟩ := source_of_tile hsrc
  all_goals
    rw [ha] at hsrc
    simp only [ha, hsrc, State.matrixReads]
    cases s.recordOf c td <;> rfl

end

/-! ## Once its source stands -/

section
variable {w : DWord} {b : Bound} {td : TileDesc} (src : TileSrc)

theorem matrixReads_beyond_reach (hring : td.ring = false) (h : s.coreReach c td.addr = false ∨ s.coreReach c (td.addr - 32) = false) :
    s.matrixReads c w b td src = s.reachFault c := by
  refine if_pos ?_
  rcases h with h | h <;> simp [hring, h]

variable (hreach : td.ring = false → s.coreReach c td.addr = true ∧ s.coreReach c (td.addr - 32) = true)
include hreach

omit src in
theorem within_reach : ¬((!td.ring && !(s.coreReach c td.addr && s.coreReach c (td.addr - 32))) = true) := by
  cases hring : td.ring with
  | true => simp
  | false => obtain ⟨h1, h2⟩ := hreach hring; simp [h1, h2]

theorem matrixReads_held (h : (s.coreAt c).heldBy b.fast (bitOf w.toNat 54 && b.fast) (bitsOf w 53 49) (bitsOf w 48 43) = true) :
    s.matrixReads c w b td src = s.holdWait c :=
  (if_neg (within_reach hreach)).trans (if_pos h)

variable (hfree : (s.coreAt c).heldBy b.fast (bitOf w.toNat 54 && b.fast) (bitsOf w 53 49) (bitsOf w 48 43) = false)
include hfree

omit src hreach in
theorem entries_free : ¬((s.coreAt c).heldBy b.fast (b.half (bitOf w.toNat 54)) (bitsOf w 53 49) (bitsOf w 48 43) = true) := by
  rw [Bound.half, hfree]; exact Bool.false_ne_true

theorem matrixReads_full (h : 4 ≤ ((s.coreAt c).chainQ.filter (fun o => !o.started)).length) :
    s.matrixReads c w b td src = s.modSeq c (fun x => { x with state := 5 }) :=
  (if_neg (within_reach hreach)).trans ((if_neg (entries_free hfree)).trans (if_pos h))

variable (hroom : ((s.coreAt c).chainQ.filter (fun o => !o.started)).length < 4) {r : TRec} (hr : s.recordOf c td = some r)
include hroom hr

theorem matrixReads_record : s.matrixReads c w b td src =
    if !r.ok then s.inputFault c 0x2141
    else if LayerDesc.ctp b.desc ≠ 0 ∧ !s.corrHeaderOk b.desc then s.inputFault c 0x2140
    else s.withSb c [] [] (if td.ring then [] else s.sbRange (td.addr - 32) (32 + s.tileLen src))
      (fun v => v.enqueueMatrix c w b td src r) := by
  simp only [State.matrixReads, if_neg (within_reach hreach), if_neg (entries_free hfree), if_neg (Nat.not_le.mpr hroom), hr]

theorem matrixReads_bad_record (hok : r.ok = false) : s.matrixReads c w b td src = s.inputFault c 0x2141 :=
  (matrixReads_record src hreach hfree hroom hr).trans (ite_not_of_false hok _ _)

variable (hok : r.ok = true)
include hok

theorem matrixReads_bad_correction (hctp : LayerDesc.ctp b.desc ≠ 0) (h : s.corrHeaderOk b.desc = false) :
    s.matrixReads c w b td src = s.inputFault c 0x2140 :=
  (matrixReads_record src hreach hfree hroom hr).trans ((ite_not_of_true hok _ _).trans (if_pos ⟨hctp, by simp [h]⟩))

theorem matrixReads_scoreboard (hcorr : LayerDesc.ctp b.desc = 0 ∨ s.corrHeaderOk b.desc = true) : s.matrixReads c w b td src =
    s.withSb c [] [] (if td.ring then [] else s.sbRange (td.addr - 32) (32 + s.tileLen src)) (fun v => v.enqueueMatrix c w b td src r) := by
  have hno : ¬(LayerDesc.ctp b.desc ≠ 0 ∧ (!s.corrHeaderOk b.desc) = true) := by
    rintro ⟨hctp, hbad⟩
    simp [hcorr.resolve_left hctp] at hbad
  exact (matrixReads_record src hreach hfree hroom hr).trans ((ite_not_of_true hok _ _).trans (if_neg hno))

end

end

/-- Waiting for the converter leaves the sequencer and the chain queue. -/
theorem holdWait_keeps (s : State) (c : CoreId) :
    (s.holdWait c).seqAt c = s.seqAt c ∧ ((s.holdWait c).coreAt c).chainQ = (s.coreAt c).chainQ := by
  unfold State.holdWait
  dsimp only
  rw [seqAt_modOcv, coreAt_modOcv]
  exact ⟨rfl, rfl⟩

/-- Settles O39, from the rules for the course of a matrix instruction. -/
theorem matrixInstructions : Obligations.MatrixInstructions := by
  rintro c s w b tm base half e he hissue rfl hb rfl rfl rfl
  rw [exec_matrix he hissue]
  refine ⟨fun hsplit hhalf => congrArg _ (matrix_skips hb (skips_eq_true hsplit hhalf)), fun hhalf => ?_⟩
  have hmine := skips_eq_false hhalf
  refine ⟨fun h => congrArg _ (matrix_wrong_mode hb hmine h), fun hmode h => congrArg _ (matrix_beyond hb hmine hmode h),
    fun hmode hrange hacc h => congrArg _ (matrix_other_format hb hmine hmode hrange hacc h), fun hmode hrange hfits => ?_⟩
  refine ⟨fun h => congrArg _ (matrix_no_tile hb hmine hmode hrange hfits h), ?_⟩
  rintro td src x htd rfl hsrc
  rw [matrix_reads hb hmine hmode hrange hfits htd hsrc]
  refine ⟨fun hring h => congrArg _ (matrixReads_beyond_reach src hring h), fun hreach => ⟨fun h => ?_, fun hfree => ⟨fun h => ?_, ?_⟩⟩⟩
  · obtain ⟨hseq, hq⟩ := holdWait_keeps s c
    exact ⟨_, congrArg _ (matrixReads_held src hreach h), by rw [hseq], hq⟩
  · exact congrArg _ (matrixReads_full src hreach hfree h)
  intro hroom r hr
  refine ⟨fun hok => congrArg _ (matrixReads_bad_record src hreach hfree hroom hr hok),
    fun hok hctp h => congrArg _ (matrixReads_bad_correction src hreach hfree hroom hr hok hctp h), ?_⟩
  rintro hok hcorr ck rfl
  rw [matrixReads_scoreboard src hreach hfree hroom hr hok hcorr]
  refine ⟨fun h => congrArg _ (withSb_held _ h), fun h => ?_⟩
  rw [withSb_free _ h]
  have hseq := seqAt_sbEnter s c [] []
  have hcq : ((s.sbEnter c [] []).coreAt c).chainQ = (s.coreAt c).chainQ := by rw [State.sbEnter, State.coreAt_modCore]
  obtain ⟨t, o, b', ht, hq, ⟨hcode, hord, hacc, hh, hbase, htm, hbank, hct, htile, hs, haw, hsign, hzp, hstart⟩, hlast,
    ⟨hin, hord', hdesc, hsin⟩, hpc, hstate⟩ :=
    enqueueMatrix_at (w := (s.seqAt c).word) td src r (by rw [hseq]; exact hb)
  rw [hcq] at hq
  rw [hseq] at hct hpc
  rw [opOf_of_issues hissue] at hcode
  exact ⟨t, o, b', congrArg _ ht, hq, hcode, hord, hacc, hh, hbase, htm, hbank, hct, htile, hs, haw, hsign, hzp, hstart, hlast, hin,
    hord', hdesc, hsin, hpc, hstate⟩

end Sys2Proof.Machine
end
section
/-! The output edge (04, R164 to R171; 05, R202 to R205, R208, R209, R212, R213, R216 to R224; 09, R436, R439, R440, R459): one rule
for each way that DRAIN, the converter's two passes, XPORT and IMPORT go. -/

namespace Sys2Proof.Machine

/-! ## What an issue and the scoreboard leave in a core -/

theorem coreAt_issued (s : State) (c : CoreId) : ∃ q n, (s.issued c).coreAt c = { s.coreAt c with seq := q, sbWait := n } := by
  obtain ⟨t, rfl, _, _, x, _, _, _, _, _, _, _, _, _, _, _, _, hcore⟩ := issued_at s c
  exact ⟨x, _, hcore⟩

theorem mem_issued (s : State) (c : CoreId) : (s.issued c).mem = s.mem := by
  obtain ⟨t, rfl, h, _⟩ := issued_at s c
  rw [h]

theorem mem_modLast (s : State) (c : CoreId) (f : Bound → Bound) : (s.modLast c f).mem = s.mem := rfl

theorem coreAt_sbEnter (s : State) (c : CoreId) (wr rd : List SbRange) :
    ∃ l, (s.sbEnter c wr rd).coreAt c = { s.coreAt c with sb := l } := ⟨_, State.coreAt_modCore ..⟩

theorem mem_sbEnter (s : State) (c : CoreId) (wr rd : List SbRange) : (s.sbEnter c wr rd).mem = s.mem := rfl

/-! ## EU's comparisons of a tile (R336, R338) -/

/-- t is s but for EU's queue and the sparsity counters of core c. -/
def EuOnly (c : CoreId) (s t : State) : Prop :=
  t = { s with core := t.core } ∧ ∃ es sp, t.coreAt c = { s.coreAt c with euQ := es, sparse := sp }

namespace EuOnly
variable {c : CoreId} {s t u : State}

theorem refl : EuOnly c s s := ⟨rfl, (s.coreAt c).euQ, (s.coreAt c).sparse, rfl⟩

theorem trans (h : EuOnly c s t) (k : EuOnly c t u) : EuOnly c s u := by
  obtain ⟨hs, es, sp, hc⟩ := h
  obtain ⟨kt, fs, tp, kc⟩ := k
  exact ⟨by rw [kt, hs], fs, tp, by rw [kc, hc]⟩

theorem ite {p : Prop} [Decidable p] (h : EuOnly c s t) (k : EuOnly c s u) : EuOnly c s (if p then t else u) := by
  split
  · exact h
  · exact k

theorem queue (f : CoreSt → List EuOp) : EuOnly c s (s.modCore c (fun k => { k with euQ := f k })) :=
  ⟨rfl, _, _, State.coreAt_modCore ..⟩

theorem count (f : SparseSt → SparseSt) : EuOnly c s (s.modSparse c f) := ⟨rfl, _, _, coreAt_modSparse ..⟩

end EuOnly

/-- The comparisons join EU's queue, or a sample is counted as capped. -/
theorem sampleTile_euOnly (s : State) (c : CoreId) (b : Bound) (o : ConvOp) (vals : List (List Acc)) :
    EuOnly c s (s.sampleTile c b o vals) :=
  .ite (.trans (.ite (.queue _) (.ite (.count _) .refl)) (.queue _)) (.ite (.queue _) (.ite (.count _) .refl))

/-! ## DRAIN (R440, R441, R459) -/

section
variable (b : Bound) (ct : Nat) (half : Bool) (acbase tm : Nat) (acc : Bool)

@[simp] theorem openTile_nOut : (b.openTile ct half acbase tm acc).nOut = b.nOut := by
  obtain ⟨l, h⟩ := openTile_frame b ct half acbase tm acc; rw [h]
@[simp] theorem openTile_reported : (b.openTile ct half acbase tm acc).reported = b.reported := by
  obtain ⟨l, h⟩ := openTile_frame b ct half acbase tm acc; rw [h]
@[simp] theorem openTile_split : (b.openTile ct half acbase tm acc).split = b.split := by
  obtain ⟨l, h⟩ := openTile_frame b ct half acbase tm acc; rw [h]

end

theorem partReturn_unsplit {b : Bound} (h : b.split = false) (s : State) (c : CoreId) : s.partReturn c b = s :=
  if_neg (by simp [h])

/-- The descriptors of a DRAIN's destinations. -/
def State.drainDests (s : State) (c : CoreId) (w : DWord) : List TileDesc :=
  (List.range (bitsOf w 38 37 + 1)).map (fun i => (s.seqAt c).treg (bitsOf w 42 39 + i))

/-- The drain that the word w asks for under a bound descriptor; it names the column tile of its run. -/
def State.drainOf (s : State) (c : CoreId) (w : DWord) (b : Bound) : ConvOp :=
  let ct := (s.seqAt c).sreg (bitsOf w 36 32)
  let b := b.openTile ct (bitOf w.toNat 54) (bitsOf w 53 49) (bitsOf w 48 43) true
  { id := (s.seqAt c).opSeq + 1, ord := b.ord, half := b.half (bitOf w.toNat 54), acbase := bitsOf w 53 49, tm := bitsOf w 48 43,
    dests := s.drainDests c w, ct := ct, last := bitOf w.toNat 31, stage := 0, bound := b, raw := [], ys := [], bmax := [] }

/-- The drain joins the converter queue, and EU's comparisons of its tile EU's. -/
def State.queueDrain (s : State) (c : CoreId) (o : ConvOp) : State :=
  (s.sampleTile c o.bound o []).modCore c (fun k => { k with convQ := k.convQ ++ [o] })

/-- The bound descriptor of a drain counts it, and reports with LAST. -/
def ConvOp.counted (o : ConvOp) : Bound := { o.bound with nOut := o.bound.nOut + 1, reported := o.bound.reported || o.last }

/-- A drain that starts joins the converter queue and is counted in its bound descriptor. -/
def State.drainEnters (s : State) (c : CoreId) (o : ConvOp) : State :=
  (((s.queueDrain c o).modLast c (fun _ => o.counted)).modSeq c (fun q => { q with opSeq := q.opSeq + 1 })).issued c

section
variable (s : State) (c : CoreId) (o : ConvOp)

theorem convQ_queueDrain : ((s.queueDrain c o).coreAt c).convQ = (s.coreAt c).convQ ++ [o] := by
  obtain ⟨-, es, sp, hcore⟩ := sampleTile_euOnly s c o.bound o []
  rw [State.queueDrain, State.coreAt_modCore, hcore]

theorem seqAt_queueDrain : (s.queueDrain c o).seqAt c = s.seqAt c := by
  obtain ⟨-, es, sp, hcore⟩ := sampleTile_euOnly s c o.bound o []
  rw [State.queueDrain, State.seqAt, State.coreAt_modCore, hcore, State.seqAt]

theorem convQ_drainEnters : ((s.drainEnters c o).coreAt c).convQ = (s.coreAt c).convQ ++ [o] := by
  obtain ⟨q, n, hq⟩ := coreAt_issued
    (((s.queueDrain c o).modLast c (fun _ => o.counted)).modSeq c (fun q => { q with opSeq := q.opSeq + 1 })) c
  obtain ⟨l, hl⟩ := coreAt_modLast (s.queueDrain c o) c (fun _ => o.counted)
  rw [State.drainEnters, hq, coreAt_modSeq, hl]
  exact convQ_queueDrain s c o

theorem pc_drainEnters : ((s.drainEnters c o).seqAt c).pc = (s.seqAt c).pc + 1 := by
  rw [State.drainEnters, pc_issued, State.seqAt_modSeq]
  show ((s.queueDrain c o).modLast c _ |>.seqAt c).pc + 1 = _
  rw [pc_modLast, seqAt_queueDrain]

theorem mem_drainEnters : (s.drainEnters c o).mem = s.mem := by
  obtain ⟨h, -⟩ := sampleTile_euOnly s c o.bound o []
  rw [State.drainEnters, mem_issued, State.modSeq_mem, mem_modLast, State.queueDrain, State.modCore_mem, h]

variable {s} {b : Bound} (hb : (s.seqAt c).bound.getLast? = some b)
include hb

theorem last_drainEnters : ((s.drainEnters c o).seqAt c).bound.getLast? = some o.counted := by
  rw [State.drainEnters, bound_issued, State.seqAt_modSeq]
  exact last_modLast (by rw [seqAt_queueDrain]; exact hb) (fun _ => o.counted)

end

section
variable {s : State} {c : CoreId} {w : DWord} {b : Bound} (hissue : s.issues c 0x37 = true) (hw : (s.seqAt c).word = w)
  (hb : (s.seqAt c).bound.getLast? = some b)
include hissue hw hb

theorem exec_drain_skips (hskip : b.skips (bitOf w.toNat 54) = true) (hlast : bitOf w.toNat 31 = false) :
    exec (.drain c) s = .next (s.modSeq c (fun x => { x with state := 1, pc := x.pc + 1 })) := by
  have hbound : (s.seqAt c).last = some b := hb
  subst hw
  show execDrain c s = _
  simp only [execDrain, runSeq_issues hissue, hbound, hskip, hlast, if_true, Bool.false_eq_true, if_false]
  rfl

variable (hmine : b.skips (bitOf w.toNat 54) = false)
include hmine

/-- A DRAIN of this half asks for a consumed record, for its range, for its destinations and for room, in this order. -/
theorem exec_drain_mine : exec (.drain c) s = .next (
    if b.sIn.isNone then s.inputFault c 0x2141
    else if 32 < bitsOf w 53 49 + bitsOf w 48 43 then s.ocvFault c 0x2151 1
    else match (s.drainDests c w).findSome? (fun t => s.destFault c t) with
      | some u => u
      | none =>
        if 64 ≤ (s.coreAt c).convQ.length ∨
            (s.coreAt c).convQ.any (fun o => o.stage == 0 && !(o.ord == b.ord && o.bound.part == b.part)) then s.waitAt c seqWaitQueue
        else if bitOf w.toNat 31 then (s.drainEnters c (s.drainOf c w b)).partReturn c (s.drainOf c w b).bound
          else s.drainEnters c (s.drainOf c w b)) := by
  have hbound : (s.seqAt c).last = some b := hb
  subst hw
  show execDrain c s = _
  simp only [execDrain, runSeq_issues hissue, hbound, hmine, Bool.false_eq_true, if_false]
  rfl

end

section
variable {s : State} {c : CoreId}

theorem exec_drain_full {w : DWord} {b : Bound} (hissue : s.issues c 0x37 = true) (hw : (s.seqAt c).word = w)
    (hb : (s.seqAt c).bound.getLast? = some b) (hmine : b.skips (bitOf w.toNat 54) = false) (hfed : b.sIn ≠ none)
    (hrange : bitsOf w 53 49 + bitsOf w 48 43 ≤ 32) (hdest : (s.drainDests c w).findSome? (fun t => s.destFault c t) = none)
    (hfull : 64 ≤ (s.coreAt c).convQ.length) : exec (.drain c) s = .next (s.modSeq c (fun x => { x with state := 5 })) := by
  rw [exec_drain_mine hissue hw hb hmine, if_neg (by simp [hfed]), if_neg (Nat.not_lt.mpr hrange), hdest]
  exact congrArg Host.Outcome.next (if_pos (.inl hfull))

/-- A DRAIN with room, behind no queued drain of another part, joins the queue; a first part of a split does not end with it. -/
theorem exec_drain_enters {w : DWord} {b : Bound} (hissue : s.issues c 0x37 = true) (hw : (s.seqAt c).word = w)
    (hb : (s.seqAt c).bound.getLast? = some b) (hmine : b.skips (bitOf w.toNat 54) = false) (hfed : b.sIn ≠ none)
    (hrange : bitsOf w 53 49 + bitsOf w 48 43 ≤ 32) (hdest : (s.drainDests c w).findSome? (fun t => s.destFault c t) = none)
    (hroom : (s.coreAt c).convQ.length < 64)
    (hpart : (s.coreAt c).convQ.any (fun o => o.stage == 0 && !(o.ord == b.ord && o.bound.part == b.part)) = false)
    (hend : bitOf w.toNat 31 = false ∨ b.split = false) : exec (.drain c) s = .next (s.drainEnters c (s.drainOf c w b)) := by
  have hwait : ¬(64 ≤ (s.coreAt c).convQ.length ∨
      (s.coreAt c).convQ.any (fun o => o.stage == 0 && !(o.ord == b.ord && o.bound.part == b.part)) = true) := by
    rw [hpart]; simpa using hroom
  rw [exec_drain_mine hissue hw hb hmine, if_neg (by simp [hfed]), if_neg (Nat.not_lt.mpr hrange), hdest]
  dsimp only
  rw [if_neg hwait]
  split
  · next hlast =>
    have hsplit : (s.drainOf c w b).bound.split = false := (openTile_split ..).trans (hend.resolve_left (by simp [hlast]))
    rw [partReturn_unsplit hsplit]
  · rfl

/-! ## The first pass (R164, R216, R226, R228) -/

theorem exec_drainPass1_idle (h : (s.coreAt c).convQ.find? (fun o => o.stage == 0) = none) : exec (.drainPass1 c) s = .next s := by
  show execDrainPass1 c s = _
  simp only [execDrainPass1, h]

variable {o : ConvOp} (hfind : (s.coreAt c).convQ.find? (fun o => o.stage == 0) = some o)
include hfind

theorem exec_drainPass1_waits (h : (s.coreAt c).drainReady o = false ∨ s.probesIn c o = false) :
    exec (.drainPass1 c) s = .next (s.modSparse c (fun x => { x with prmWait := o.bound.prm == 2 })) := by
  show execDrainPass1 c s = _
  simp only [execDrainPass1, hfind]
  exact congrArg Host.Outcome.next (if_pos (by simpa using h))

variable (hready : (s.coreAt c).drainReady o = true) (hprobes : s.probesIn c o = true)
include hready hprobes

theorem exec_drainPass1_ready : exec (.drainPass1 c) s = .next (
    if !s.rotReady o then s
    else
      let r := s.readAll (outRanges o.bound.desc o.ct)
      if !r.1 then r.2
      else if LayerDesc.act o.bound.desc ∧ !actOk (r.2.peek (LayerDesc.atp o.bound.desc) 528) then r.2.ocvFault c 0x2152 2
      else r.2.firstPass c o) := by
  show execDrainPass1 c s = _
  simp only [execDrainPass1, hfind]
  exact congrArg Host.Outcome.next (if_neg (by simp [hready, hprobes]))

theorem exec_drainPass1_unrotated (h : s.rotReady o = false) : exec (.drainPass1 c) s = .next s := by
  rw [exec_drainPass1_ready hfind hready hprobes]
  exact congrArg Host.Outcome.next (ite_not_of_false h _ _)

variable (hrot : s.rotReady o = true) {u : State} (hread : s.readAll (outRanges o.bound.desc o.ct) = (true, u))
include hrot hread

theorem exec_drainPass1_reads : exec (.drainPass1 c) s = .next (
    if LayerDesc.act o.bound.desc ∧ !actOk (u.peek (LayerDesc.atp o.bound.desc) 528) then u.ocvFault c 0x2152 2 else u.firstPass c o) := by
  rw [exec_drainPass1_ready hfind hready hprobes, hread]
  exact congrArg Host.Outcome.next (ite_not_of_true hrot _ _)

end

/-- What the converter's passes turn: the core's converter queue, and memory. -/
def State.convView (s : State) (c : CoreId) : List ConvOp × Tab Byte := ((s.coreAt c).convQ, s.mem)

theorem convView_report (s : State) (c : CoreId) (ord part : Nat) : (s.report c ord part).convView c = s.convView c := by
  unfold State.report State.convView
  dsimp only
  split
  · rfl
  · rw [coreAt_modClu, coreAt_modOcv]
    rfl

theorem convView_modConv (s : State) (c : CoreId) (id : Nat) (f : ConvOp → ConvOp) :
    (s.modConv c id f).convView c = ((s.coreAt c).convQ.map (fun o => if o.id = id then f o else o), s.mem) := by
  rw [State.convView, State.modConv, State.coreAt_modCore]
  rfl

/-- The first pass keeps its rows and their block maxima in its drain; memory stays. -/
theorem convView_firstPass (u : State) (c : CoreId) (o : ConvOp) {raw ys : List (List (Option Word))}
    (hraw : raw = (List.range o.tm).map (fun m => u.yRow c o m)) (hys : ys = raw.zipIdx.map (fun r => u.maskedRow c o r.2 r.1)) :
    (u.firstPass c o).convView c = ((u.coreAt c).convQ.map (fun x => if x.id = o.id then
      { x with stage := 1, raw := raw, ys := ys, bmax := ys.map (blockMax (realCols o.bound.desc o.ct)) } else x), u.mem) := by
  subst hraw hys
  unfold State.firstPass
  extract_lets d raw ys n real pr h0 h snap shared passed noted counted captured ranked
  have hcaptured : captured.convView c = passed.convView c := by
    simp only [State.convView, captured, counted, noted, State.coreAt_modCore, coreAt_modSparse, coreAt_modOcv]
    rfl
  have hranked : ranked.convView c = captured.convView c := by
    unfold ranked
    split
    · rfl
    · refine foldl_keeps (fun t => t.convView c) _ ?_ _ _
      exact fun _ _ => rfl
  have hlast : (if o.last = true then ranked.report c o.ord.toNat o.bound.part else ranked).convView c = ranked.convView c := by
    split
    · exact convView_report ..
    · rfl
  rw [hlast, hranked, hcaptured]
  exact convView_modConv ..

/-! ## The second pass (R166, R171, R222 to R224) -/

section
variable {s : State} {c : CoreId}

theorem exec_drainPass2_idle (h : (s.coreAt c).convQ.find? (fun o => o.stage == 1) = none) : exec (.drainPass2 c) s = .next s := by
  show execDrainPass2 c s = _
  simp only [execDrainPass2, h]

variable {o : ConvOp} (hfind : (s.coreAt c).convQ.find? (fun o => o.stage == 1) = some o)
include hfind

theorem exec_drainPass2_unscaled (h : (s.invAt o.ord.toNat).reds[o.bound.part]? = none) : exec (.drainPass2 c) s = .next s := by
  show execDrainPass2 c s = _
  simp only [execDrainPass2, hfind, h]

theorem exec_drainPass2_scaled {r : Red} (h : (s.invAt o.ord.toNat).reds[o.bound.part]? = some r) (hlive : s.tickLive = true) :
    exec (.drainPass2 c) s = .next (s.secondPass c o r) := by
  show execDrainPass2 c s = _
  simp only [execDrainPass2, hfind, h, hlive, if_true]

end

theorem coreAt_modShare (s : State) (o core part : Nat) (f : Share → Share) (c : CoreId) :
    (s.modShare o core part f).coreAt c = s.coreAt c := rfl

theorem mem_finishConv (s : State) (c : CoreId) (o : ConvOp) : (s.finishConv c o).mem = s.mem := by
  unfold State.finishConv
  split
  · rfl
  · dsimp only
    split <;> rfl

/-- A drain whose pushes have all been taken leaves the queue. -/
theorem finishConv_leaves {s : State} {c : CoreId} {o : ConvOp} (h : (s.coreAt c).convOut.any (fun x => x.conv == o.id) = false) :
    ∀ x ∈ ((s.finishConv c o).coreAt c).convQ, x.id ≠ o.id := by
  have hq : ((s.finishConv c o).coreAt c).convQ = (s.coreAt c).convQ.filter (fun x => !(x.id == o.id)) := by
    unfold State.finishConv
    rw [if_neg (by simp [h])]
    dsimp only
    split
    · rw [coreAt_modShare, State.coreAt_modCore]
    · rw [State.coreAt_modCore]
  intro x hx
  rw [hq, List.mem_filter] at hx
  simpa using hx.2

/-- Rows written one by one. -/
theorem mem_foldl_writeDev {α : Type} (a : α → Nat) (l : α → List Byte) : ∀ (xs : List α) (s : State),
    (xs.foldl (fun s x => s.writeDev (a x) (l x)) s).mem = xs.foldl (fun m x => Tab.setRange memDefault m (a x) (l x)) s.mem
  | [], _ => rfl
  | x :: xs, s => by
    rw [List.foldl_cons, List.foldl_cons, mem_foldl_writeDev a l xs, (writeDev_only s (a x) (l x)).1]

section
variable {s : State} {c : CoreId} {o : ConvOp} {r : Red} {td : TileDesc}

theorem mem_writeWide (hring : td.ring = false) : (s.writeWide c o r td).mem = o.ys.zipIdx.foldl (fun m y =>
    Tab.setRange memDefault m (unsigned 44 ((td.addr : Int) + (y.2 : Int) * td.stride))
      (wideRow (LayerDesc.ofmt o.bound.desc == 1) 128 (y.1.take (realCols o.bound.desc o.ct)))) s.mem := by
  unfold State.writeWide
  rw [if_neg (by simp [hring])]
  exact mem_foldl_writeDev _ _ _ _

theorem core_writeWide (hring : td.ring = false) : (s.writeWide c o r td).core = s.core := by
  unfold State.writeWide
  rw [if_neg (by simp [hring])]
  exact foldl_keeps State.core _ (fun _ _ => core_writeDev ..) _ _

theorem place_writeDev (s : State) (a : Nat) (l : List Byte) (b : Nat) : (s.writeDev a l).place b = s.place b := by
  unfold State.place State.is4008
  rw [(writeDev_only s a l).2]

theorem destCore_writeDev (hring : td.ring = false) (s : State) (a : Nat) (l : List Byte) :
    (s.writeDev a l).destCore c td = s.destCore c td := by
  simp only [State.destCore, hring, Bool.false_eq_true, if_false, place_writeDev]

/-- A coded tile in memory that no core's region holds: its record, and the tile behind it. -/
theorem writeCoded_memory {codes exps : List (List Nat)} (hring : td.ring = false) (hcore : s.destCore c td = none) :
    s.writeCoded c o r codes exps td =
      let d : LayerDesc := o.bound.desc
      let f := outForm d r r.width.toNat
      (s.writeDev (td.addr - 32) (recordBytes f.sT f.recip r.amax d.lid f.a f.sign d.bxg f.z s.tick.count d.rotOut)).writeDev td.addr
        (tileEncode d.oenc s.bitmapForced 128 f.a f.sign codes exps).2 := by
  unfold State.writeCoded
  simp only [hring, Bool.false_eq_true, if_false, destCore_writeDev hring, hcore]

/-- The exponents of a drain's rows under its reduction. -/
def ConvOp.exps (o : ConvOp) (r : Red) : List (List Nat) := o.bmax.map (vecExps r.width.toNat (LayerDesc.bxg o.bound.desc) r.amax)

/-- The codes of a drain's rows under its reduction. -/
def State.drainCodes (s : State) (o : ConvOp) (r : Red) : List (List Nat) :=
  let d : LayerDesc := o.bound.desc
  let f := outForm d r r.width.toNat
  (o.ys.zip (o.exps r)).zipIdx.map (fun y =>
    (s.convertRow f o.bound (s.slotAt o.ord.toNat (o.place y.2)) o.ct (realCols d o.ct) y.1.2 y.1.1).map (fun q => codeOf f q.1))

/-- What a drain writes to a destination: the coded tile of its codes, or wide rows. -/
def State.writeOutput (s : State) (c : CoreId) (o : ConvOp) (r : Red) (codes : List (List Nat)) (td : TileDesc) : State :=
  if LayerDesc.ofmt o.bound.desc = 0 then s.writeCoded c o r codes (o.exps r) td else s.writeWide c o r td

/-- The second pass of a drain with one destination and neither masks nor references to write: the taps and counters, its output, and
its end. -/
theorem secondPass_one (hpmk : LayerDesc.pmk o.bound.desc = false) (hdout : LayerDesc.dout o.bound.desc = false) (hdests : o.dests = [td]) :
    ∃ (v : State) (n : Nat), s.secondPass c o r =
      ({ v.writeOutput c o r (s.drainCodes o r) td with free := n }.modConv c o.id (fun x => { x with stage := 2 })).finishConv c o ∧
    v = { s with prec := v.prec, core := v.core } ∧ (v.coreAt c).convOut = (s.coreAt c).convOut := by
  unfold State.secondPass
  extract_lets d a f n exps levels codes h0 h shared counted dense stored masks refs outputs rows charged
  have hmasks : masks = [] := if_neg (by simp [d, hpmk])
  have hrefs : refs = [] := if_neg (by simp [d, hdout])
  have houtputs : outputs = stored.writeOutput c o r (s.drainCodes o r) td := by
    unfold outputs State.writeOutput
    rw [hdests, List.foldl_cons, List.foldl_nil]
    split
    · next hcoded =>
      have hcodes : codes = s.drainCodes o r := by
        unfold codes levels
        simp only [List.map_map, if_pos hcoded]
        rfl
      rw [hcodes]
      rfl
    · rfl
  have hrows : rows = outputs := by unfold rows; rw [hmasks, hrefs]; rfl
  refine ⟨stored, charged.free, ?_, ?_, ?_⟩
  · unfold charged
    rw [hrows, houtputs]
  · unfold stored
    split <;> rfl
  · have hcounted : (counted.coreAt c).convOut = (s.coreAt c).convOut := by
      unfold counted shared
      rw [coreAt_modOcv, coreAt_modShare]
    unfold stored
    split
    · rw [coreAt_modSparse]; exact hcounted
    · exact hcounted

/-- Wide rows, and a coded tile that no core's region holds, leave the cores. -/
theorem core_writeOutput (hring : td.ring = false) (h : LayerDesc.ofmt o.bound.desc ≠ 0 ∨ s.destCore c td = none) (codes : List (List Nat)) :
    (s.writeOutput c o r codes td).core = s.core := by
  unfold State.writeOutput
  split
  · next hcoded =>
    rw [writeCoded_memory hring (h.resolve_left (not_not_intro hcoded))]
    exact (core_writeDev ..).trans (core_writeDev ..)
  · exact core_writeWide hring

section
variable (hring : td.ring = false) (hpmk : LayerDesc.pmk o.bound.desc = false) (hdout : LayerDesc.dout o.bound.desc = false)
  (hdests : o.dests = [td])
include hring hpmk hdout hdests

theorem mem_secondPass_wide (hwide : LayerDesc.ofmt o.bound.desc ≠ 0) : (s.secondPass c o r).mem = o.ys.zipIdx.foldl (fun m y =>
    Tab.setRange memDefault m (unsigned 44 ((td.addr : Int) + (y.2 : Int) * td.stride))
      (wideRow (LayerDesc.ofmt o.bound.desc == 1) 128 (y.1.take (realCols o.bound.desc o.ct)))) s.mem := by
  obtain ⟨v, n, hpass, hv, -⟩ := secondPass_one (s := s) (c := c) (r := r) hpmk hdout hdests
  rw [hpass, mem_finishConv, State.modConv, State.modCore_mem, State.writeOutput, if_neg hwide]
  exact (mem_writeWide hring).trans (by rw [hv])

theorem mem_secondPass_coded (hcoded : LayerDesc.ofmt o.bound.desc = 0) (hcore : s.destCore c td = none) :
    (s.secondPass c o r).mem =
      let d : LayerDesc := o.bound.desc
      let f := outForm d r r.width.toNat
      Tab.setRange memDefault (Tab.setRange memDefault s.mem (td.addr - 32)
        (recordBytes f.sT f.recip r.amax d.lid f.a f.sign d.bxg f.z s.tick.count d.rotOut)) td.addr
        (tileEncode d.oenc s.bitmapForced 128 f.a f.sign (s.drainCodes o r) (o.exps r)).2 := by
  obtain ⟨v, n, hpass, hv, -⟩ := secondPass_one (s := s) (c := c) (r := r) hpmk hdout hdests
  have hvcore : v.destCore c td = none := by rw [hv]; exact hcore
  rw [hpass, mem_finishConv, State.modConv, State.modCore_mem, State.writeOutput, if_pos hcoded, writeCoded_memory hring hvcore]
  dsimp only
  rw [(writeDev_only ..).1, (writeDev_only ..).1, hv]
  rfl

theorem secondPass_leaves (h : LayerDesc.ofmt o.bound.desc ≠ 0 ∨ s.destCore c td = none)
    (hpushed : (s.coreAt c).convOut.any (fun x => x.conv == o.id) = false) : ∀ x ∈ ((s.secondPass c o r).coreAt c).convQ, x.id ≠ o.id := by
  obtain ⟨v, n, hpass, hv, hout⟩ := secondPass_one (s := s) (c := c) (r := r) hpmk hdout hdests
  have hvcore : LayerDesc.ofmt o.bound.desc ≠ 0 ∨ v.destCore c td = none := by rw [hv]; exact h
  rw [hpass]
  refine finishConv_leaves ?_
  rw [State.modConv, State.coreAt_modCore]
  show ((v.writeOutput c o r (s.drainCodes o r) td).coreAt c).convOut.any _ = false
  rw [State.coreAt, core_writeOutput hring hvcore, ← State.coreAt, hout]
  exact hpushed

end

end

/-! ## XPORT (R205, R212) -/

/-- The move of a raw image that the word w asks for under a bound descriptor, as EU's comparisons see it. -/
def State.xportOf (s : State) (c : CoreId) (w : DWord) (b : Bound) (td : TileDesc) : ConvOp :=
  { id := (s.seqAt c).opSeq + 1, ord := b.ord, half := b.half (bitOf w.toNat 54), acbase := bitsOf w 53 49, tm := bitsOf w 48 43,
    dests := [td], ct := 0, last := false, stage := 2, bound := b, raw := [], ys := [], bmax := [] }

/-- An XPORT's tile is counted and sampled, and the converter's registers name it; k is the core at issue. -/
def State.xportCounts (v : State) (c : CoreId) (k : CoreSt) (o : ConvOp) : State :=
  let v := v.sampleTile c o.bound o (k.capture o.bound.fast o.half o.acbase o.tm)
  let v := v.modLast c (fun b => { b with nOut := b.nOut + 1 })
  let v := v.modSeq c (fun q => { q with opSeq := o.id })
  v.modOcv c (fun q => { q with fmt := o.bound.fast, base := BitVec.ofNat 5 o.acbase, m := BitVec.ofNat 6 o.tm, half := o.half,
                                lid := BitVec.ofNat 16 (LayerDesc.lid o.bound.desc) })

theorem coreAt_xportCounts (v : State) (c : CoreId) (k : CoreSt) (o : ConvOp) :
    ((v.xportCounts c k o).coreAt c).acb = (v.coreAt c).acb ∧ ((v.xportCounts c k o).seqAt c).pc = (v.seqAt c).pc ∧
    (v.xportCounts c k o).mem = v.mem := by
  obtain ⟨hframe, es, sp, hcore⟩ := sampleTile_euOnly v c o.bound o (k.capture o.bound.fast o.half o.acbase o.tm)
  obtain ⟨l, hl⟩ := coreAt_modLast (v.sampleTile c o.bound o (k.capture o.bound.fast o.half o.acbase o.tm)) c
    (fun b => { b with nOut := b.nOut + 1 })
  rw [State.seqAt, hcore] at hl
  refine ⟨?_, ?_, ?_⟩
  · rw [State.xportCounts, coreAt_modOcv, coreAt_modSeq, hl]
  · rw [State.xportCounts, seqAt_modOcv, State.seqAt_modSeq, State.seqAt, hl, State.seqAt]
  · rw [State.xportCounts, State.modOcv_mem, State.modSeq_mem, mem_modLast, hframe]

section
variable {s : State} {c : CoreId} {w : DWord} {b : Bound} {td : TileDesc} (hissue : s.issues c 0x38 = true) (hw : (s.seqAt c).word = w)
  (hb : (s.seqAt c).bound.getLast? = some b)
include hissue hw hb

theorem exec_xport_skips (hskip : b.skips (bitOf w.toNat 54) = true) :
    exec (.xport c) s = .next (s.modSeq c (fun x => { x with state := 1, pc := x.pc + 1 })) := by
  have hbound : (s.seqAt c).last = some b := hb
  subst hw
  show execXport c s = _
  simp only [execXport, runSeq_issues hissue, hbound, hskip, if_true]
  rfl

/-- An XPORT of this half asks for its range and format, for its destination, for its entries and room, for reach and for the
scoreboard, in this order. -/
theorem exec_xport_mine (hmine : b.skips (bitOf w.toNat 54) = false) (htd : td = (s.seqAt c).treg (bitsOf w 42 39)) :
    exec (.xport c) s = .next (
      let o := s.xportOf c w b td
      let parts := s.exportParts c b td.addr o.acbase o.tm (bitOf w.toNat 54)
      if 32 < o.acbase + o.tm then s.ocvFault c 0x2151 1
      else if !(s.coreAt c).formatsFit b.fast o.acbase o.tm then s.ocvFault c 0x2150 0
      else match s.destFault c td with
        | some u => u
        | none =>
          if (s.coreAt c).chainOn b.fast o.half o.acbase o.tm ∨ (s.coreAt c).makeUpOn b.fast o.half o.acbase o.tm ∨
              64 ≤ (s.coreAt c).convQ.length then s.waitAt c seqWaitQueue
          else if !td.ring && !parts.all (fun p => s.coreReach c p.1) then s.reachFault c
          else s.withSb c (if td.ring then [] else parts.flatMap (fun p => s.sbRange p.1 p.2.length)) [] [] fun v =>
            let u := v.xportCounts c (s.coreAt c) o
            (if td.ring then u.pushConv c o.id (s.seqAt c).epoch (u.ringOwner c td) td.q 5 (parts.flatMap (fun p => p.2))
              else parts.foldl (fun u p => u.writeDev p.1 p.2) u).issued c) := by
  have hbound : (s.seqAt c).last = some b := hb
  subst hw htd
  show execXport c s = _
  simp only [execXport, runSeq_issues hissue, hbound, hmine, Bool.false_eq_true, if_false]
  rfl

end

section
variable {s : State} {c : CoreId} {w : DWord} {b : Bound} {td : TileDesc} (hissue : s.issues c 0x38 = true) (hw : (s.seqAt c).word = w)
  (hb : (s.seqAt c).bound.getLast? = some b) (hmine : b.skips (bitOf w.toNat 54) = false) (htd : td = (s.seqAt c).treg (bitsOf w 42 39))
  (hrange : bitsOf w 53 49 + bitsOf w 48 43 ≤ 32)
include hissue hw hb hmine htd hrange

theorem exec_xport_other_format (h : (s.coreAt c).formatsFit b.fast (bitsOf w 53 49) (bitsOf w 48 43) = false) :
    exec (.xport c) s = .next (s.ocvFault c 0x2150 0) := by
  rw [exec_xport_mine hissue hw hb hmine htd]
  exact congrArg Host.Outcome.next ((if_neg (Nat.not_lt.mpr hrange)).trans (ite_not_of_false h _ _))

variable (hfits : (s.coreAt c).formatsFit b.fast (bitsOf w 53 49) (bitsOf w 48 43) = true) (hdest : s.destFault c td = none)
include hfits hdest

theorem exec_xport_waits (h : (s.coreAt c).chainOn b.fast (bitOf w.toNat 54 && b.fast) (bitsOf w 53 49) (bitsOf w 48 43) = true ∨
    (s.coreAt c).makeUpOn b.fast (bitOf w.toNat 54 && b.fast) (bitsOf w 53 49) (bitsOf w 48 43) = true ∨ 64 ≤ (s.coreAt c).convQ.length) :
    exec (.xport c) s = .next (s.modSeq c (fun x => { x with state := 5 })) := by
  rw [exec_xport_mine hissue hw hb hmine htd, hdest]
  exact congrArg Host.Outcome.next ((if_neg (Nat.not_lt.mpr hrange)).trans ((ite_not_of_true hfits _ _).trans (if_pos h)))

/-- The move of one image to memory goes to the scoreboard, and is carried out when it issues. -/
theorem exec_xport_memory (hchain : (s.coreAt c).chainOn b.fast (bitOf w.toNat 54 && b.fast) (bitsOf w 53 49) (bitsOf w 48 43) = false)
    (hmakeup : (s.coreAt c).makeUpOn b.fast (bitOf w.toNat 54 && b.fast) (bitsOf w 53 49) (bitsOf w 48 43) = false)
    (hroom : (s.coreAt c).convQ.length < 64) (hdlt : LayerDesc.dlt b.desc = false) (hring : td.ring = false)
    (hreach : s.coreReach c td.addr = true) {l : List Byte}
    (hl : l = ((s.coreAt c).capture b.fast (bitOf w.toNat 54 && b.fast) (bitsOf w 53 49) (bitsOf w 48 43)).flatMap (rawImage b.fast)) :
    exec (.xport c) s = .next (s.withSb c (s.sbRange td.addr l.length) [] [] fun v =>
      ((v.xportCounts c (s.coreAt c) (s.xportOf c w b td)).writeDev td.addr l).issued c) := by
  have hwait : ¬((s.coreAt c).chainOn b.fast (bitOf w.toNat 54 && b.fast) (bitsOf w 53 49) (bitsOf w 48 43) = true ∨
      (s.coreAt c).makeUpOn b.fast (bitOf w.toNat 54 && b.fast) (bitsOf w 53 49) (bitsOf w 48 43) = true ∨ 64 ≤ (s.coreAt c).convQ.length) := by
    simpa [hchain, hmakeup] using hroom
  have hparts : s.exportParts c b td.addr (bitsOf w 53 49) (bitsOf w 48 43) (bitOf w.toNat 54) = [(td.addr, l)] := by
    rw [hl]; exact if_neg (by simp [hdlt])
  rw [exec_xport_mine hissue hw hb hmine htd, hdest]
  refine congrArg Host.Outcome.next ((if_neg (Nat.not_lt.mpr hrange)).trans ((ite_not_of_true hfits _ _).trans ((if_neg hwait).trans ?_)))
  simp only [State.xportOf, hparts, hring, Bool.not_false, Bool.true_and, List.all_cons, List.all_nil, hreach, Bool.and_true, Bool.not_true,
    Bool.false_eq_true, if_false, List.flatMap_cons, List.flatMap_nil, List.append_nil, List.foldl_cons, List.foldl_nil]

end

/-- What the move of an image leaves once the scoreboard has let it go. -/
theorem xport_leaves (s : State) (c : CoreId) (wr : List SbRange) (k : CoreSt) (o : ConvOp) (a : Nat) (l : List Byte) :
    let t := (((s.sbEnter c wr []).xportCounts c k o).writeDev a l).issued c
    t.mem = Tab.setRange memDefault s.mem a l ∧ (t.seqAt c).pc = (s.seqAt c).pc + 1 ∧ (t.coreAt c).acb = (s.coreAt c).acb := by
  obtain ⟨hacb, hpc, hmem⟩ := coreAt_xportCounts (s.sbEnter c wr []) c k o
  obtain ⟨q, n, hcore⟩ := coreAt_issued (((s.sbEnter c wr []).xportCounts c k o).writeDev a l) c
  obtain ⟨sb, hsb⟩ := coreAt_sbEnter s c wr []
  have hw : (((s.sbEnter c wr []).xportCounts c k o).writeDev a l).coreAt c = ((s.sbEnter c wr []).xportCounts c k o).coreAt c := by
    rw [State.coreAt, core_writeDev, State.coreAt]
  refine ⟨?_, ?_, ?_⟩
  · rw [mem_issued, (writeDev_only ..).1, hmem, mem_sbEnter]
  · rw [pc_issued, State.seqAt, hw, ← State.seqAt, hpc, seqAt_sbEnter]
  · rw [hcore, hw]
    exact hacb.trans (by rw [hsb])

/-! ## IMPORT (R203, R204, R213) -/

/-- What the values of entries are read from after imported rows, and where their new infinities are counted. -/
theorem importRows_congr {k j : CoreSt} (hacb : k.acb = j.acb) (hocv : k.ocv = j.ocv) (fast half acc : Bool) (base : Nat)
    (rows : List (List Acc)) : (k.importRows fast half acc base rows).acb = (j.importRows fast half acc base rows).acb := by
  have hstep : ∀ (l : List (List Acc × Nat)) (k j : CoreSt), k.acb = j.acb → k.ocv = j.ocv →
      (l.foldl (fun k r => if acc then k.acbAdd fast half (base + r.2) r.1 else k.acbOver fast half (base + r.2) r.1) k).acb =
      (l.foldl (fun k r => if acc then k.acbAdd fast half (base + r.2) r.1 else k.acbOver fast half (base + r.2) r.1) j).acb := by
    intro l
    induction l with
    | nil => exact fun k j hacb _ => hacb
    | cons r l ih =>
      intro k j hacb hocv
      rw [List.foldl_cons, List.foldl_cons]
      cases acc
      · exact ih _ _ (by simp [CoreSt.acbOver, CoreSt.fmtBit, hacb, hocv]) (by simp [CoreSt.acbOver, hocv])
      · exact ih _ _ (by simp [CoreSt.acbAdd, CoreSt.acbRow, hacb]) (by simp [CoreSt.acbAdd, CoreSt.acbRow, hacb, hocv])
  exact hstep rows.zipIdx k j hacb hocv

/-- The bound descriptor under which the IMPORT w runs: with ACC = 0 it opens a run. -/
def Bound.imports (b : Bound) (w : DWord) (td : TileDesc) : Bound :=
  if bitOf w.toNat 55 then b else b.openImage td.addr (bitOf w.toNat 54) (bitsOf w 53 49) (bitsOf w 48 43)

@[simp] theorem imports_fast (b : Bound) (w : DWord) (td : TileDesc) : (b.imports w td).fast = b.fast := by
  unfold Bound.imports
  split <;> rfl

/-- The instruction that an IMPORT of memory leaves in the record of its core; v holds the images, id is its number. -/
def State.importOf (v : State) (id : Nat) (w : DWord) (k : Bound) (td : TileDesc) : ChainOp :=
  { id := id, ord := k.ord, code := 0x39, acc := bitOf w.toNat 55, half := bitOf w.toNat 54 && k.fast, acbase := bitsOf w 53 49,
    tm := bitsOf w 48 43, bank := false, ct := 0, tile := 0, src := .mem td.addr, bound := k, aw := 0, sign := false, zp := 0,
    started := true, sparse := false, comp := [], skip := [], rowsum := [], landed := List.range (bitsOf w 48 43), chk := none,
    engines := 0, srcs := [], image := (List.range (bitsOf w 48 43)).map (fun m =>
      v.importRow k (.mem td.addr) td.addr (placeOf k (bitOf w.toNat 54) (bitsOf w 53 49) m) m) }

/-- The rows of an IMPORT land in the entries of its range, and it issues. -/
def State.landImage (u : State) (c : CoreId) (o : ChainOp) : State :=
  (((u.modLast c (fun _ => o.bound)).modSeq c (fun q => { q with opSeq := q.opSeq + 1 })).modCore c (fun k =>
    let k := k.importRows o.bound.fast o.half o.acc o.acbase o.image
    { k with hist := k.hist ++ [o] })).issued c

theorem importRows_seq (k : CoreSt) (fast half acc : Bool) (base : Nat) (rows : List (List Acc)) :
    (k.importRows fast half acc base rows).seq = k.seq := by
  refine List.foldlRecOn (motive := fun j : CoreSt => j.seq = k.seq) _ _ rfl fun j hj r _ => ?_
  split <;> exact hj

theorem landImage_at (u : State) (c : CoreId) (o : ChainOp) : ((u.landImage c o).seqAt c).pc = (u.seqAt c).pc + 1 ∧
    ((u.landImage c o).coreAt c).acb = ((u.coreAt c).importRows o.bound.fast o.half o.acc o.acbase o.image).acb := by
  obtain ⟨l, hl⟩ := coreAt_modLast u c (fun _ => o.bound)
  constructor
  · rw [State.landImage, pc_issued, State.seqAt, State.coreAt_modCore]
    dsimp only
    rw [importRows_seq, ← State.seqAt, State.seqAt_modSeq]
    exact congrArg (· + 1) (pc_modLast ..)
  · obtain ⟨q, n, hq⟩ := coreAt_issued (((u.modLast c (fun _ => o.bound)).modSeq c (fun q => { q with opSeq := q.opSeq + 1 })).modCore c
      (fun k => let k := k.importRows o.bound.fast o.half o.acc o.acbase o.image; { k with hist := k.hist ++ [o] })) c
    rw [State.landImage, hq, State.coreAt_modCore]
    refine importRows_congr ?_ ?_ _ _ _ _ _
    · rw [coreAt_modSeq, hl]
    · rw [coreAt_modSeq, hl]

section
variable {s : State} {c : CoreId} {w : DWord} {b k : Bound} {td : TileDesc} (hissue : s.issues c 0x39 = true)
  (hw : (s.seqAt c).word = w) (hb : (s.seqAt c).bound.getLast? = some b) (htd : td = (s.seqAt c).treg (bitsOf w 42 39))
  (hk : k = b.imports w td)
include hissue hw hb

theorem exec_imprt_beyond (h : 32 < bitsOf w 53 49 + bitsOf w 48 43) : exec (.imprt c) s = .next (s.ocvFault c 0x2151 1) := by
  have hbound : (s.seqAt c).last = some b := hb
  subst hw
  show execImprt c s = _
  simp only [execImprt, runSeq_issues hissue, hbound, if_pos h]

variable (hrange : bitsOf w 53 49 + bitsOf w 48 43 ≤ 32)
include htd hk hrange

theorem exec_imprt_other_format (hacc : bitOf w.toNat 55 = true)
    (h : (s.coreAt c).formatsFit k.fast (bitsOf w 53 49) (bitsOf w 48 43) = false) :
    exec (.imprt c) s = .next (s.ocvFault c 0x2150 0) := by
  have hbound : (s.seqAt c).last = some b := hb
  rw [hk, imports_fast] at h
  subst hw htd
  show execImprt c s = _
  simp only [execImprt, runSeq_issues hissue, hbound, if_neg (Nat.not_lt.mpr hrange), hacc, if_true, h, Bool.not_false, and_self]

variable (hfits : bitOf w.toNat 55 = true → (s.coreAt c).formatsFit k.fast (bitsOf w 53 49) (bitsOf w 48 43) = true)
  (hring : td.ring = false)
  (hreach : (s.importRanges k td.addr (bitsOf w 53 49) (bitsOf w 48 43) (bitOf w.toNat 54)).all (fun r => s.coreReach c r.1) = true)
  (hrec : bitOf w.toNat 38 = false)
include hfits hring hreach hrec

/-- An IMPORT of memory that asks for no record waits for the converter, for the chain queue and for the scoreboard, in this order. -/
theorem exec_imprt_memory : exec (.imprt c) s = .next (
    let ranges := s.importRanges k td.addr (bitsOf w 53 49) (bitsOf w 48 43) (bitOf w.toNat 54)
    if (s.coreAt c).heldBy k.fast (bitOf w.toNat 54 && k.fast) (bitsOf w 53 49) (bitsOf w 48 43) then s.holdWait c
    else if (s.coreAt c).chainOn k.fast (bitOf w.toNat 54 && k.fast) (bitsOf w 53 49) (bitsOf w 48 43) then s.waitAt c seqWaitQueue
    else s.withSb c [] [] (ranges.flatMap (fun r => s.sbRange r.1 r.2)) fun v =>
      let g := v.readAll ranges
      if !g.1 then g.2.issued c else g.2.landImage c (v.importOf ((s.seqAt c).opSeq + 1) w k td)) := by
  have hbound : (s.seqAt c).last = some b := hb
  have hfit : ¬(bitOf w.toNat 55 = true ∧ (!(s.coreAt c).formatsFit k.fast (bitsOf w 53 49) (bitsOf w 48 43)) = true) := by
    rintro ⟨hacc, hno⟩
    simp [hfits hacc] at hno
  have hsource : s.source c td = .mem td.addr := if_pos (by simp [hring])
  have hhalf : b.half (bitOf w.toNat 54) = (bitOf w.toNat 54 && k.fast) := by rw [hk, imports_fast, Bound.half]
  have hk' : (if bitOf w.toNat 55 then b else b.openImage td.addr (bitOf w.toNat 54) (bitsOf w 53 49) (bitsOf w 48 43)) = k := hk.symm
  subst hw
  show execImprt c s = _
  simp only [execImprt, runSeq_issues hissue, hbound, ← htd, if_neg (Nat.not_lt.mpr hrange), hk', if_neg hfit, hsource, hring,
    Bool.not_false, Bool.true_and, hreach, Bool.not_true, Bool.false_eq_true, if_false, hhalf, hrec, false_and, Source.tile]
  rfl

theorem exec_imprt_held (h : (s.coreAt c).heldBy k.fast (bitOf w.toNat 54 && k.fast) (bitsOf w 53 49) (bitsOf w 48 43) = true) :
    exec (.imprt c) s = .next (s.holdWait c) := by
  rw [exec_imprt_memory hissue hw hb htd hk hrange hfits hring hreach hrec]
  exact congrArg Host.Outcome.next (if_pos h)

variable (hfree : (s.coreAt c).heldBy k.fast (bitOf w.toNat 54 && k.fast) (bitsOf w 53 49) (bitsOf w 48 43) = false)
include hfree

theorem exec_imprt_queued (h : (s.coreAt c).chainOn k.fast (bitOf w.toNat 54 && k.fast) (bitsOf w 53 49) (bitsOf w 48 43) = true) :
    exec (.imprt c) s = .next (s.modSeq c (fun x => { x with state := 5 })) := by
  rw [exec_imprt_memory hissue hw hb htd hk hrange hfits hring hreach hrec]
  exact congrArg Host.Outcome.next ((if_neg (by simp [hfree])).trans (if_pos h))

variable (hchain : (s.coreAt c).chainOn k.fast (bitOf w.toNat 54 && k.fast) (bitsOf w 53 49) (bitsOf w 48 43) = false)
include hchain

theorem exec_imprt_scoreboard : exec (.imprt c) s = .next (
    let ranges := s.importRanges k td.addr (bitsOf w 53 49) (bitsOf w 48 43) (bitOf w.toNat 54)
    s.withSb c [] [] (ranges.flatMap (fun r => s.sbRange r.1 r.2)) fun v =>
      let g := v.readAll ranges
      if !g.1 then g.2.issued c else g.2.landImage c (v.importOf ((s.seqAt c).opSeq + 1) w k td)) := by
  rw [exec_imprt_memory hissue hw hb htd hk hrange hfits hring hreach hrec]
  exact congrArg Host.Outcome.next ((if_neg (by simp [hfree])).trans (if_neg (by simp [hchain])))

/-- An IMPORT whose images are read lands its rows. -/
theorem exec_imprt_lands (hsb : (s.coreAt c).sbFree [] [] ((s.importRanges k td.addr (bitsOf w 53 49) (bitsOf w 48 43)
      (bitOf w.toNat 54)).flatMap (fun r => s.sbRange r.1 r.2)) = true) {u : State}
    (hread : (s.sbEnter c [] []).readAll (s.importRanges k td.addr (bitsOf w 53 49) (bitsOf w 48 43) (bitOf w.toNat 54)) = (true, u)) :
    exec (.imprt c) s = .next (u.landImage c ((s.sbEnter c [] []).importOf ((s.seqAt c).opSeq + 1) w k td)) := by
  rw [exec_imprt_scoreboard hissue hw hb htd hk hrange hfits hring hreach hrec hfree hchain]
  dsimp only
  rw [withSb_free _ hsb, hread]
  rfl

end

/-- Settles O44, from the rules for DRAIN, the converter's two passes, XPORT and IMPORT. -/
theorem drainExportImport : Obligations.DrainExportImport := by
  rintro c s w hw
  refine ⟨?_, exec_drainPass1_idle, fun o hfind => ⟨exec_drainPass1_waits hfind, exec_drainPass1_unrotated hfind, ?_⟩,
    exec_drainPass2_idle, fun o hfind => ⟨exec_drainPass2_unscaled hfind, ?_⟩, ?_⟩
  · -- DRAIN
    rintro b tm base ct half last ds hb rfl rfl rfl hissue rfl rfl rfl
    refine ⟨fun hsplit hhalf hlast => exec_drain_skips hissue hw hb (skips_eq_true hsplit hhalf) hlast, fun hhalf => ?_⟩
    have hmine := skips_eq_false hhalf
    have hcourse := exec_drain_mine hissue hw hb hmine
    refine ⟨fun h => ?_, fun hfed h => ?_, fun hfed hrange => ⟨fun u h => ?_, fun hdest => ⟨fun h => ?_, fun hroom hpart hend => ?_⟩⟩⟩
    · rw [hcourse, if_pos (by simp [h])]
    · rw [hcourse, if_neg (by simp [hfed]), if_pos h]
    · rw [hcourse, if_neg (by simp [hfed]), if_neg (Nat.not_lt.mpr hrange), State.drainDests, h]
    · exact exec_drain_full hissue hw hb hmine hfed hrange hdest h
    · exact ⟨_, _, _, exec_drain_enters hissue hw hb hmine hfed hrange hdest hroom hpart hend, convQ_drainEnters s c _,
        openTile_ord .., congrArg (_ && ·) (openTile_fast ..), rfl, rfl, rfl, rfl, rfl, rfl, last_drainEnters c _ hb,
        congrArg (· + 1) (openTile_nOut ..), congrArg (· || _) (openTile_reported ..), pc_drainEnters s c _, state_issued .., mem_drainEnters s c _⟩
  · -- the first pass
    intro hready hprobes hrot u hread
    rw [exec_drainPass1_reads hfind hready hprobes hrot hread]
    refine ⟨fun hact htab => congrArg _ (if_pos ⟨hact, by simp [htab]⟩), fun hact raw ys hraw hys => ?_⟩
    obtain ⟨hq, hmem⟩ := Prod.mk.inj (convView_firstPass u c o hraw hys)
    refine ⟨_, congrArg _ (if_neg ?_), hq, hmem⟩
    rintro ⟨hon, hbad⟩
    simp [hact hon] at hbad
  · -- the second pass
    rintro r td exps f d hr hlive rfl hdests hring hpmk hdout rfl rfl
    refine ⟨_, exec_drainPass2_scaled hfind hr hlive, mem_secondPass_wide hring hpmk hdout hdests, ?_,
      secondPass_leaves hring hpmk hdout hdests⟩
    rintro hcoded hcore codes rfl
    exact mem_secondPass_coded hring hpmk hdout hdests hcoded hcore
  · -- XPORT and IMPORT
    rintro b td tm base half hb rfl rfl rfl htd
    refine ⟨fun hissue => ⟨fun hsplit hhalf => exec_xport_skips hissue hw hb (skips_eq_true hsplit hhalf), fun hhalf => ?_⟩,
      fun hissue => ?_⟩
    · have hmine := skips_eq_false hhalf
      refine ⟨fun h => ?_, exec_xport_other_format hissue hw hb hmine htd, fun hrange hfits hdest =>
        ⟨exec_xport_waits hissue hw hb hmine htd hrange hfits hdest, fun hchain hmakeup hroom hdlt hring hreach l hl => ?_⟩⟩
      · rw [exec_xport_mine hissue hw hb hmine htd]
        exact congrArg Host.Outcome.next (if_pos h)
      rw [exec_xport_memory hissue hw hb hmine htd hrange hfits hdest hchain hmakeup hroom hdlt hring hreach hl]
      exact ⟨fun h => congrArg _ (withSb_held _ h), fun h => ⟨_, congrArg _ (withSb_free _ h), xport_leaves ..⟩⟩
    · rintro acc k rfl hk
      refine ⟨exec_imprt_beyond hissue hw hb, exec_imprt_other_format hissue hw hb htd hk, ?_⟩
      rintro hrange hfits x src rfl hsrc hring hreach hrec
      obtain rfl : TileSrc.mem td.addr = src := by
        have hsource : s.source c td = .mem td.addr := if_pos (by simp [hring])
        rw [hsource] at hsrc
        exact Option.some.inj hsrc
      refine ⟨exec_imprt_held hissue hw hb htd hk hrange hfits hring hreach hrec, fun hfree =>
        ⟨exec_imprt_queued hissue hw hb htd hk hrange hfits hring hreach hrec hfree, ?_⟩⟩
      rintro hchain rs rfl
      refine ⟨fun h => ?_, ?_⟩
      · rw [exec_imprt_scoreboard hissue hw hb htd hk hrange hfits hring hreach hrec hfree hchain]
        exact congrArg Host.Outcome.next (withSb_held _ h)
      rintro hsb v u rfl hread hcore
      have huv : u.coreAt c = (s.sbEnter c [] []).coreAt c := by rw [State.coreAt, hcore, State.coreAt]
      obtain ⟨sb, hv⟩ := coreAt_sbEnter s c [] []
      obtain ⟨hpc, hacb⟩ := landImage_at u c ((s.sbEnter c [] []).importOf ((s.seqAt c).opSeq + 1) w k td)
      refine ⟨_, exec_imprt_lands hissue hw hb htd hk hrange hfits hring hreach hrec hfree hchain hsb hread, ?_, hacb.trans ?_⟩
      · rw [hpc, State.seqAt, huv, ← State.seqAt, seqAt_sbEnter]
      · exact importRows_congr (by rw [huv, hv]) (by rw [huv, hv]) ..

end Sys2Proof.Machine
end
section
/-! The cluster SVU (09, R447 to R450; 04, R171, R173; 05, R219; 08, R362): the course that its ten operations share, and what
each of them writes. -/

namespace Sys2Proof.Machine

/-! ## The course of the head of the queue (R362, R447) -/

/-- The ranges that an operation's operands themselves name: for PROT the rows of its positions. -/
def State.furtherReads (s : State) (d : SvuDesc) : List (Nat × Nat) :=
  if d.op = 7 then (List.range d.vec).map (fun v => (s.protRow d v, d.n / 2 * 8)) else []

/-- The ranges that an operation reads: its operands and its table, and what these name. -/
def State.svuReads (s : State) (d : SvuDesc) : List (Nat × Nat) := d.rangeA ++ d.rangeB ++ d.rangeP ++ s.furtherReads d

/-- `more` gives the further ranges of the descriptors with this OP. -/
def NamesReads (op : Nat) (more : State → SvuDesc → List (Nat × Nat)) : Prop :=
  ∀ (s : State) (d : SvuDesc), d.op = op → more s d = s.furtherReads d

theorem namesReads_noMore {op : Nat} (h : op ≠ 7) : NamesReads op noMore := fun _ _ hop => (if_neg (hop.trans_ne h)).symm

theorem namesReads_prot : NamesReads 7 (fun s d => (List.range d.vec).map (fun v => (s.protRow d v, d.n / 2 * 8))) :=
  fun _ _ hop => (if_pos hop).symm

section
variable {s : State} {c : ClusterId} {op : Nat} {more : State → SvuDesc → List (Nat × Nat)} {f : State → SvuOp → SvuDesc → State}

theorem runSvu_empty (h : (s.cluAt c.num).svuQ = []) : s.runSvu c op more f = s := by
  simp only [State.runSvu, h]

variable {o : SvuOp} {rest : List SvuOp} (hq : (s.cluAt c.num).svuQ = o :: rest)
include hq

theorem runSvu_other_op (h : (SvuDesc.ofBytes o.desc).op ≠ op) : s.runSvu c op more f = s := by
  simp only [State.runSvu, hq]
  exact if_pos (.inl h)

variable {d : SvuDesc} (hd : d = SvuDesc.ofBytes o.desc) (hlive : s.tickLive = true)
  (hidle : (s.cluAt c.num).waiting.any (fun x => x.code == 0x48) = false) (hop : d.op = op) (hmore : NamesReads op more)
include hd hlive hidle hop hmore

/-- The head asks for its reach, for its ring and for its operands, in this order. -/
theorem runSvu_head : s.runSvu c op more f =
    if !(s.svuReads d ++ d.rangeD).all (fun r => s.clusterReach c r.1) then s.reachFault (svuCore c o)
    else if d.ring && !(s.ringAt (s.svuOwner c o d) d.q).en then s.ringFault (s.svuOwner c o d) d.q
    else
      let g := s.readAll (s.svuReads d)
      let z := g.2.modClu c.num (fun k => { k with svuQ := rest })
      if g.1 && z.tickLive then f z o d else z := by
  have hreads : d.rangeA ++ d.rangeB ++ d.rangeP ++ more s d = s.svuReads d := by rw [hmore s d hop, State.svuReads]
  simp only [State.runSvu, hq, ← hd, hreads]
  exact if_neg (by rw [hidle]; simp [hop, hlive])

theorem runSvu_beyond_reach (h : (s.svuReads d ++ d.rangeD).all (fun r => s.clusterReach c r.1) = false) :
    s.runSvu c op more f = s.reachFault (svuCore c o) :=
  (runSvu_head hq hd hlive hidle hop hmore).trans (ite_not_of_false h _ _)

variable (hreach : (s.svuReads d ++ d.rangeD).all (fun r => s.clusterReach c r.1) = true)
include hreach

theorem runSvu_ring_disabled (hring : d.ring = true) (h : (s.ringAt (s.svuOwner c o d) d.q).en = false) :
    s.runSvu c op more f = s.ringFault (s.svuOwner c o d) d.q :=
  (runSvu_head hq hd hlive hidle hop hmore).trans ((ite_not_of_true hreach _ _).trans (if_pos (by simp [hring, h])))

/-- A head whose operands are delivered leaves the queue, and its operation runs. -/
theorem runSvu_runs (hen : d.ring = true → (s.ringAt (s.svuOwner c o d) d.q).en = true) {u z : State}
    (hread : s.readAll (s.svuReads d) = (true, u)) (hz : z = u.modClu c.num (fun k => { k with svuQ := rest }))
    (hlast : z.tickLive = true) : s.runSvu c op more f = f z o d := by
  have henabled : ¬((d.ring && !(s.ringAt (s.svuOwner c o d) d.q).en) = true) := by
    cases hring : d.ring with
    | false => simp
    | true => simp [hen hring]
  rw [runSvu_head hq hd hlive hidle hop hmore, ite_not_of_true hreach, if_neg henabled, hread]
  dsimp only
  rw [← hz, hlast]
  rfl

end

/-- Every SVU instruction but CONV is the course of its OP. -/
theorem exec_svu {c : ClusterId} {e : Instr × Nat} (he : e ∈ [(Instr.svuGate c, 1), (.svuAdd c, 2), (.svuMul c, 3), (.rmsn c, 4),
      (.lnrm c, 5), (.smax c, 6), (.prot c, 7), (.cvt c, 8), (.samp c, 10)]) :
    ∃ more f, NamesReads e.2 more ∧ ∀ s, exec e.1 s = .next (s.runSvu c e.2 more f) := by
  simp only [List.mem_cons, List.not_mem_nil, or_false] at he
  rcases he with rfl | rfl | rfl | rfl | rfl | rfl | rfl | rfl | rfl
  iterate 6 exact ⟨_, _, namesReads_noMore (by simp), fun _ => rfl⟩
  · exact ⟨_, _, namesReads_prot, fun _ => rfl⟩
  iterate 2 exact ⟨_, _, namesReads_noMore (by simp), fun _ => rfl⟩

/-! ## CONV (R173) -/

section
variable {s : State} {c : ClusterId} {o : SvuOp} {rest : List SvuOp}

theorem exec_conv_empty (h : (s.cluAt c.num).svuQ = []) : exec (.conv c) s = .next s := by
  show execConv c s = _
  simp only [execConv, h]

variable (hq : (s.cluAt c.num).svuQ = o :: rest)
include hq

theorem exec_conv_other_op (h : (SvuDesc.ofBytes o.desc).op ≠ 9) : exec (.conv c) s = .next s := by
  show execConv c s = _
  simp only [execConv, hq]
  refine congrArg Host.Outcome.next ?_
  split
  · split
    · exact runSvu_other_op hq h
    · rfl
  · rfl

variable {b : Bound} (hb : o.bound = some b)
include hb

theorem exec_conv_unscaled (h : (s.invAt b.ord.toNat).reds[b.part]? = none) : exec (.conv c) s = .next s := by
  show execConv c s = _
  simp only [execConv, hq, hb, h]

theorem exec_conv_scaled {r : Red} (h : (s.invAt b.ord.toNat).reds[b.part]? = some r) :
    exec (.conv c) s = .next (s.runSvu c 9 noMore (fun s o d => s.convert c o d b r)) := by
  show execConv c s = _
  simp only [execConv, hq, hb, h]

end

section
variable (z : State) (c : ClusterId) (o : SvuOp) {d : SvuDesc} (b : Bound) (r : Red) (hring : d.ring = false)
include hring

theorem svuWrite_memory (k : Nat) (l : List Byte) : z.svuWrite c o d k l = z.writeDev d.dst l := if_neg (by simp [hring])

variable (halone : (z.consumerDescs (LayerDesc.lix b.desc) (z.svuOwner c o d)).filter (fun x => LayerDesc.rr x && !LayerDesc.dlt x) = [])
include halone

/-- A conversion to memory without extension consumers writes its record and its tiles behind it; the queues stay. -/
theorem convert_memory :
    let l : LayerDesc := b.desc
    let f := outForm l r r.width.toNat
    let ys := (List.range d.vec).map (fun v => finiteOf (z.svuA d v))
    (z.convert c o d b r).mem = Tab.setRange memDefault (Tab.setRange memDefault z.mem (d.dst - 32)
      (recordBytes f.sT f.recip r.amax l.lid f.a f.sign l.bxg f.z z.tick.count l.rotOut)) d.dst
      ((z.convTiles d b f (ys.map (convExps r.width.toNat l.bxg r.amax (ceilDiv d.n 128))) ys).flatMap (fun t => t)) ∧
    (z.convert c o d b r).clu = z.clu := by
  unfold State.convert
  extract_lets l form ys a nb f exps record tiles e written counted
  have hwritten : written = (z.writeDev (d.dst - 32) (record f)).writeDev d.dst (tiles.flatMap (fun t => t)) := if_neg (by simp [hring])
  have hcfg : written.cfg = z.cfg := by rw [hwritten, (writeDev_only ..).2, (writeDev_only ..).2]
  have hclu : written.clu = z.clu := by rw [hwritten, (writeDev_only ..).2, (writeDev_only ..).2]
  have hnone : (counted.consumerDescs l.lix e).filter (fun x => LayerDesc.rr x && !LayerDesc.dlt x) = [] := by
    have hdescs : counted.consumerDescs l.lix e = z.consumerDescs l.lix e := by
      simp only [State.consumerDescs, State.consumersOf, counted, hcfg]
    rw [hdescs]
    exact halone
  rw [hnone, List.foldl_nil]
  refine ⟨?_, hclu⟩
  show written.mem = _
  rw [hwritten, (writeDev_only ..).1, (writeDev_only ..).1]

end

/-- Settles O46, from the course that the operations share. -/
theorem svuOperations : Obligations.SvuOperations := by
  intro c s
  constructor
  · intro e he
    have hcases : e = (.conv c, 9) ∨ e ∈ [(Instr.svuGate c, 1), (.svuAdd c, 2), (.svuMul c, 3), (.rmsn c, 4), (.lnrm c, 5),
        (.smax c, 6), (.prot c, 7), (.cvt c, 8), (.samp c, 10)] := by
      simp only [List.mem_cons, List.not_mem_nil, or_false] at he ⊢
      tauto
    obtain rfl | he := hcases
    · exact ⟨exec_conv_empty, fun o l hq hop => exec_conv_other_op hq hop⟩
    · obtain ⟨more, f, -, hexec⟩ := exec_svu he
      rw [hexec s]
      exact ⟨fun h => congrArg _ (runSvu_empty h), fun o l hq hop => congrArg _ (runSvu_other_op hq hop)⟩
  rintro o rest d src hq hd hlive hidle rfl
  constructor
  · intro e he hop
    obtain ⟨more, f, hmore, hexec⟩ := exec_svu he
    rw [hexec s]
    exact ⟨fun h => congrArg _ (runSvu_beyond_reach hq hd hlive hidle hop hmore h),
      fun hreach hring h => congrArg _ (runSvu_ring_disabled hq hd hlive hidle hop hmore hreach hring h)⟩
  intro hreach hen u z hread hz hlast
  have hruns : ∀ {op : Nat} {more : State → SvuDesc → List (Nat × Nat)} {f : State → SvuOp → SvuDesc → State}, NamesReads op more →
      d.op = op → s.runSvu c op more f = f z o d := fun hmore hop => runSvu_runs hq hd hlive hidle hop hmore hreach hen hread hz hlast
  have hplain : ∀ {op : Nat} {f : State → SvuOp → SvuDesc → State}, op ≠ 7 → d.op = op → s.runSvu c op noMore f = f z o d :=
    fun h => hruns (namesReads_noMore h)
  refine ⟨fun hring => svuWrite_memory z c o hring,
    fun hop htab => congrArg Host.Outcome.next ((hplain (by decide) hop).trans (ite_not_of_false htab _ _)),
    fun hop htab => congrArg Host.Outcome.next ((hplain (by decide) hop).trans (ite_not_of_true htab _ _)),
    fun hop => congrArg Host.Outcome.next (hplain (by decide) hop), fun hop => congrArg Host.Outcome.next (hplain (by decide) hop),
    fun hop => congrArg Host.Outcome.next (hplain (by decide) hop), fun hop => congrArg Host.Outcome.next (hplain (by decide) hop),
    ?_, fun hop => congrArg Host.Outcome.next (hruns namesReads_prot hop),
    fun hop => congrArg Host.Outcome.next (hplain (by decide) hop), fun hop => congrArg Host.Outcome.next (hplain (by decide) hop), ?_⟩
  · rintro hop k rfl
    exact congrArg Host.Outcome.next (hplain (by decide) hop)
  · intro hop b hb
    refine ⟨exec_conv_unscaled hq hb, ?_⟩
    rintro r f l hr rfl rfl hring halone
    obtain ⟨hmem, hclu⟩ := convert_memory z c o b r hring halone
    have hqueue : (z.cluAt c.num).svuQ = rest := by rw [hz, State.cluAt_modClu]
    refine ⟨_, (exec_conv_scaled hq hb hr).trans (congrArg Host.Outcome.next (hplain (by decide) hop)), hmem, ?_⟩
    rw [State.cluAt, hclu]
    exact hqueue

end Sys2Proof.Machine
end
